-- ==== Sys2Proof/Word.lean ====
section
/-! DEFINITION. Words, bytes and the one sparse table of the model.
Every array of the block (slices, trackers, blocks, buffers) is held as an `NMap`: a list of key and
value pairs in one canonical form, keys strictly rising, no entry equal to what an unlisted key reads as. -/

namespace Sys2Proof

/-- A byte (R4). -/
abbrev Byte := BitVec 8

/-- A 64-bit word. -/
abbrev Word := BitVec 64

/-- A line address `a[51:6]` (R22, Table 4.3). -/
abbrev LineAddr := BitVec 46

/-- The 64 bytes of a line; byte j is bits [8j+7:8j] (R4). -/
abbrev LineData := BitVec 512

/-- A sparse table from natural numbers. -/
abbrev NMap (α : Type) := List (Nat × α)

/-- What key `k` reads as, `d k` where it is not listed. -/
def NMap.get {α : Type} (d : Nat → α) : NMap α → Nat → α
  | [], k => d k
  | (j, v) :: rest, k => if j = k then v else NMap.get d rest k

/-- Take key `k` out of a table. -/
def NMap.erase {α : Type} : NMap α → Nat → NMap α
  | [], _ => []
  | (j, v) :: rest, k => if j = k then NMap.erase rest k else (j, v) :: NMap.erase rest k

/-- List key `k` with value `v` in rising order. -/
def NMap.insert {α : Type} : NMap α → Nat → α → NMap α
  | [], k, v => [(k, v)]
  | (j, w) :: rest, k, v =>
    if k < j then (k, v) :: (j, w) :: rest
    else if j = k then (k, v) :: rest
    else (j, w) :: NMap.insert rest k v

/-- Write key `k`; writing what an unlisted key reads as takes the entry out. -/
def NMap.set {α : Type} [DecidableEq α] (d : Nat → α) (m : NMap α) (k : Nat) (v : α) : NMap α :=
  if v = d k then NMap.erase m k else NMap.insert (NMap.erase m k) k v

/-- Change every listed value, taking out what becomes what an unlisted key reads as. -/
def NMap.mapv {α : Type} [DecidableEq α] (d : Nat → α) (f : Nat → α → α) (m : NMap α) : NMap α :=
  (m.map fun e => (e.1, f e.1 e.2)).filter fun e => decide (e.2 ≠ d e.1)

/-- The keys of a table rise strictly. -/
def NMap.rising {α : Type} : NMap α → Bool
  | [] => true
  | [_] => true
  | (i, _) :: (j, w) :: rest => decide (i < j) && NMap.rising ((j, w) :: rest)

/-- The canonical form: keys strictly rising, no entry equal to what an unlisted key reads as. -/
def NMap.wf {α : Type} [DecidableEq α] (d : Nat → α) (m : NMap α) : Bool :=
  NMap.rising m && m.all (fun e => decide (e.2 ≠ d e.1))

/-- Add with saturation at `cap` (the saturating counters of the register tables). -/
def satAdd (cap a n : Nat) : Nat := if a + n ≤ cap then a + n else cap

end Sys2Proof
end

