-- ==== Sys2Proof/Syntax.lean ====
section
/-! DEFINITION. The commands of the block: one constructor per row of spec/opcode_table.json.
The table gives no operands; the operands here are what each row's rule names (assumption log 4). -/

namespace Sys2Proof

/-- A direction of a ring (R33). -/
inductive Dir where
  | inc
  | dec
  deriving DecidableEq, Repr

/-- The six message classes, in the CLASS order of Table 4.5 (R69). -/
inductive MClass where
  | req
  | wb
  | mnt
  | fwd
  | rsp
  | dat
  deriving DecidableEq, Repr

/-- A message: the fields of one flit (Table 4.3) with AGE, POISON and payload (Table 4.1). -/
structure Msg where
  cls : BitVec 3 := 0
  opc : BitVec 6 := 0
  src : BitVec 10 := 0
  dst : BitVec 10 := 0
  reqid : BitVec 10 := 0
  txn : BitVec 12 := 0
  htag : BitVec 8 := 0
  home : BitVec 7 := 0
  addr : LineAddr := 0
  offs : BitVec 6 := 0
  len : BitVec 7 := 0
  aop : BitVec 4 := 0
  hint : BitVec 2 := 0
  aux : BitVec 8 := 0
  stream : BitVec 4 := 0
  stat : BitVec 4 := 0
  cret : Bool := false
  age : BitVec 8 := 0
  poison : BitVec 8 := 0
  data : LineData := 0
  deriving DecidableEq, Repr

/-- A stop of the rings: a slice stop (R34) or a port stop (R35, numbered as R280). -/
inductive Stop where
  | slice (p : Fin 132)
  | port (n : Fin 50)
  deriving DecidableEq, Repr

/-- A sequence-numbered link direction: of a ring segment (R45), or into the block at a die or I/O
agent port (R47, R79, R408). -/
inductive LinkId where
  | ring (r : Fin 6) (k : Fin 94) (d : Dir)
  | port (n : Fin 50)
  deriving DecidableEq, Repr

/-- What arrives on a link: one flit or slot, or one 256-byte transfer of a die port's FDI (R36, R77, R408). -/
inductive LinkIn where
  | slot (raw : BitVec 768)
  | fdi (bytes : BitVec 2048)
  deriving DecidableEq, Repr

/-- Why a ring is shifted off (R50). -/
inductive ShiftCause where
  | secondSegment
  | chainFault
  | controllerTimeout
  | command
  deriving DecidableEq, Repr

/-- Who writes a register: host software or the steward. -/
inductive Writer where
  | host
  | steward
  deriving DecidableEq, Repr

/-- The register spaces of the host function (R332, R335, R338). -/
inductive Bar where
  | bar0
  | bar2
  | config
  deriving DecidableEq, Repr

/-- The two routes of Forgopo messages: the service port with the source endpoint, or the mailbox. -/
inductive Route where
  | svc (eid : Byte)
  | mbx
  deriving DecidableEq, Repr

/-- Where a far-program load comes from (R211): a write of FAR_LOAD_CTRL, or a write of 0x2310 or 0x2311. -/
inductive LoadSource where
  | reg (v : BitVec 32)
  | dict (slot : Fin 256) (image : List Byte)
  deriving DecidableEq, Repr

/-- How an evacuation is commanded (R371): a write of RAS_SPARE_CMD or of 0x3602:01. -/
inductive SpareSource where
  | reg (v : BitVec 32)
  | dict (v : Byte)
  deriving DecidableEq, Repr

/-- What a completion of the host function's read brings: all that it still lacks, an error, or some bytes of it with more to
follow (R343, R344). -/
inductive CplStatus where
  | ok
  | bad
  | part (bytes : Nat)
  deriving DecidableEq, Repr

/-- One MCTP packet as it arrives over I3C (R317). -/
structure MctpPkt where
  pecOk : Bool
  src : Byte
  tag : BitVec 3
  som : Bool
  eom : Bool
  seq : BitVec 2
  payload : List Byte
  /-- The tag-owner bit: set in a request. -/
  owner : Bool := true
  deriving DecidableEq, Repr

/-- Instructions of the test port (R415). -/
inductive TapInstr where
  | idcode
  | bypass
  | samplePreload
  | extest
  | other
  deriving DecidableEq, Repr

inductive Instr where
  -- fabric and links
  | flitIngress (n : Fin 50) (m : Msg)
  | flitInject (st : Stop) (c : MClass)
  | linkFlitReceive (l : LinkId) (x : LinkIn)
  | replayRequest (l : LinkId) (seq : BitVec 12)
  | linkAcknowledge (l : LinkId) (seq : BitVec 12)
  | replayAckTimeout (l : LinkId)
  | segmentOutOfService (r : Fin 6) (k : Fin 94)
  | segmentOutDone (r : Fin 6) (k : Fin 94)
  | segmentOutTimeout (r : Fin 6) (k : Fin 94)
  | flitEject (r : Fin 6) (pos : Fin 94) (d : Dir) (c : MClass)
  | ringShiftOff (r : Fin 6) (cause : ShiftCause)
  | ringShiftComplete (r : Fin 6)
  | ringShiftOverrun (r : Fin 6)
  | crgShiftOffCmd (r : BitVec 3)
  | crgReturnCmd (r : BitVec 3)
  | ringReturnComplete (r : Fin 6) (failed : List (Fin 94))
  | consWindowEnd (q : Fin 3) (f0 f1 cycles : Nat)
  | consEntry (q : Fin 3)
  | consDrainTimeout (q : Fin 3)
  | consGated (q : Fin 3)
  | consWake (q : Fin 3)
  | consWakeDone (q : Fin 3)
  | dieLinkControlSlot (n : Fin 50) (init : Bool) (counts : List Nat)
  | linkActiveEntry (n : Fin 50)
  | linkActiveExit (n : Fin 50)
  | linkActiveTimeout (n : Fin 50)
  | linkDown (n : Fin 50)
  | deadAgentForward (n : Fin 50) (m : Msg)
  -- messages taken by a slice
  | readShared (p : Fin 132) (m : Msg)
  | readOwn (p : Fin 132) (m : Msg)
  | upgrade (p : Fin 132) (m : Msg)
  | readNc (p : Fin 132) (m : Msg)
  | writeNcFull (p : Fin 132) (m : Msg)
  | writeNcPartial (p : Fin 132) (m : Msg)
  | atomicReq (p : Fin 132) (m : Msg)
  | farOp (p : Fin 132) (m : Msg)
  | writeback (p : Fin 132) (m : Msg)
  | evictClean (p : Fin 132) (m : Msg)
  | invAck (p : Fin 132) (m : Msg)
  | fwdDone (p : Fin 132) (m : Msg)
  | copyBack (p : Fin 132) (m : Msg)
  | recallData (p : Fin 132) (m : Msg)
  | memData (p : Fin 132) (m : Msg)
  | memAck (p : Fin 132) (m : Msg)
  | creditRequest (p : Fin 132) (m : Msg)
  | allocWaitRelease (p : Fin 132) (t : Fin 256)
  | breakaway (p : Fin 132) (t : Fin 256)
  | trackerWatchdogExpiry (p : Fin 132) (t : Fin 256)
  -- home line cache and maintenance
  | missRegisterOpen (p : Fin 132)
  | missRegisterSend (p : Fin 132)
  | evictionWriteSend (p : Fin 132) (a : LineAddr)
  | hlcMaintClean (p : Fin 132) (m : Msg)
  | hlcMaintInvalidate (p : Fin 132) (m : Msg)
  | hlcMaintCleanInvalidate (p : Fin 132) (m : Msg)
  | hlcMaintResume (p : Fin 132) (i : Fin 8)
  | hlcWalkerVisit (p : Fin 132)
  | svcReqRegisterRead (p : Fin 132) (m : Msg)
  | svcReqRegisterWrite (p : Fin 132) (m : Msg)
  | svcReqDirectoryCopy (p : Fin 132) (m : Msg)
  | svcReqLineCopy (p : Fin 132) (m : Msg)
  -- relay and translation broadcasts
  | stewardRelay (m : Msg)
  | tlbInv (m : Msg)
  | tlbShoot (p : Fin 132) (m : Msg)
  | tlbShootAck (m : Msg)
  | tlbCollectionTimeout (i : BitVec 8)
  -- far operations
  | farServiceStart (p : Fin 132) (t : Fin 256)
  | atomicAluExecute (p : Fin 132)
  | farProgramDispatch (p : Fin 132)
  | farProgramFault (p : Fin 132) (code : BitVec 3)
  | farWritebackDone (p : Fin 132)
  | slotRecopy (p : Fin 132) (k : Fin 256)
  | predictorRecentTick (p : Fin 132)
  | farPredClr (p : Fin 132)
  | farLoadGo (src : LoadSource)
  | farLoadWrite
  | farLoadDone
  | engineFarstoreCopy (e : Fin 132)
  -- engine instructions, each with its 32-bit word (Tables 12.5, 12.6)
  | add (e : Fin 134) (w : BitVec 32)
  | sub (e : Fin 134) (w : BitVec 32)
  | and (e : Fin 134) (w : BitVec 32)
  | or (e : Fin 134) (w : BitVec 32)
  | xor (e : Fin 134) (w : BitVec 32)
  | sll (e : Fin 134) (w : BitVec 32)
  | srl (e : Fin 134) (w : BitVec 32)
  | sra (e : Fin 134) (w : BitVec 32)
  | mul (e : Fin 134) (w : BitVec 32)
  | slt (e : Fin 134) (w : BitVec 32)
  | sltu (e : Fin 134) (w : BitVec 32)
  | addi (e : Fin 134) (w : BitVec 32)
  | andi (e : Fin 134) (w : BitVec 32)
  | ori (e : Fin 134) (w : BitVec 32)
  | xori (e : Fin 134) (w : BitVec 32)
  | slli (e : Fin 134) (w : BitVec 32)
  | srli (e : Fin 134) (w : BitVec 32)
  | srai (e : Fin 134) (w : BitVec 32)
  | slti (e : Fin 134) (w : BitVec 32)
  | lui (e : Fin 134) (w : BitVec 32)
  | beq (e : Fin 134) (w : BitVec 32)
  | bne (e : Fin 134) (w : BitVec 32)
  | blt (e : Fin 134) (w : BitVec 32)
  | bge (e : Fin 134) (w : BitVec 32)
  | bltu (e : Fin 134) (w : BitVec 32)
  | bgeu (e : Fin 134) (w : BitVec 32)
  | jal (e : Fin 134) (w : BitVec 32)
  | jalr (e : Fin 134) (w : BitVec 32)
  | lb (e : Fin 134) (w : BitVec 32)
  | lh (e : Fin 134) (w : BitVec 32)
  | lw (e : Fin 134) (w : BitVec 32)
  | ld (e : Fin 134) (w : BitVec 32)
  | sb (e : Fin 134) (w : BitVec 32)
  | sh (e : Fin 134) (w : BitVec 32)
  | sw (e : Fin 134) (w : BitVec 32)
  | sd (e : Fin 134) (w : BitVec 32)
  | lr (e : Fin 134) (w : BitVec 32)
  | sc (e : Fin 134) (w : BitVec 32)
  | lbar (e : Fin 134) (w : BitVec 32)
  | sbar (e : Fin 134) (w : BitVec 32)
  | fbar (e : Fin 134) (w : BitVec 32)
  | wait (e : Fin 134) (w : BitVec 32)
  | iret (e : Fin 134) (w : BitVec 32)
  | syscall (e : Fin 134) (w : BitVec 32)
  | tlbi (e : Fin 134) (w : BitVec 32)
  | csrr (e : Fin 134) (w : BitVec 32)
  | csrw (e : Fin 134) (w : BitVec 32)
  | fret (e : Fin 134) (w : BitVec 32)
  -- engines: answers, timeouts, control
  | engineHaltReload (e : Fin 132)
  | storeBufferSend (e : Fin 134) (a : LineAddr)
  | engineLoadReturn (e : Fin 134) (m : Msg)
  | engineStoreComplete (e : Fin 134) (m : Msg)
  | storeTimeout (e : Fin 134) (txn : BitVec 12)
  | walkReadReturn (e : Fin 134) (m : Msg)
  | tlbiDone (e : Fin 134) (m : Msg)
  | engWarmRst (e : Fin 132)
  | engColdRst (e : Fin 132)
  | engQuiesce (e : Fin 132)
  | engResume (e : Fin 132)
  | engineQuiesced (e : Fin 132)
  | fwCommitAll
  | fwCommitRolling
  | engineLoad (e : Fin 132) (readBackOk : Bool)
  | stewardLockstepMismatch
  -- events
  | eventCapture (n : Fin 1536)
  | windowExpiry (g : Fin 64)
  | sourceCommit (n : Fin 1536)
  | waitWake (e : Fin 134)
  | iagHostEoi (v : BitVec 11)
  | iagDoorbell (v : BitVec 8)
  | iagSrcWrite (n : Fin 1536) (v : Word)
  -- report queues and counters
  | rpqPop (q : Fin 32) (off : Fin 16) (size : Nat)
  | rpqFlush (q : Fin 32)
  | pmcSelWrite (c : Fin 1584) (v : BitVec 32)
  | pmcCntWrite (c : Fin 1584) (v : Word)
  | pmcFreeze
  | pmcUnfreeze
  | pmcSnapshot
  | pmcSnapshotDone
  -- service port
  | entdaa (a : BitVec 7)
  | setdasa (sa a : BitVec 7)
  | rstdaa
  | getpid
  | getbcr
  | getdcr
  | getstatus
  | enec (b : Byte)
  | disec (b : Byte)
  | getmwl
  | setmwl (v : BitVec 16)
  | getmrl
  | setmrl (v : BitVec 16)
  | mctpPacket (k : MctpPkt)
  | setEndpointId (src : Byte) (tag : BitVec 3) (op eid : Byte)
  | getEndpointId (src : Byte) (tag : BitVec 3)
  | getMctpVersionSupport (src : Byte) (tag : BitVec 3) (ty : Byte)
  | getMessageTypeSupport (src : Byte) (tag : BitVec 3)
  | getVendorDefinedMsgSupport (src : Byte) (tag : BitVec 3) (sel : Byte)
  | fgOpen (rt : Route) (b : List Byte)
  | fgClose (rt : Route) (b : List Byte)
  | fgRead (rt : Route) (b : List Byte)
  | fgWrite (rt : Route) (b : List Byte)
  | fgChallenge (rt : Route) (b : List Byte)
  | fgResponse (rt : Route) (b : List Byte)
  | fgResync (rt : Route) (b : List Byte)
  | fgDrop (rt : Route) (b : List Byte)
  | sessionIdleTimeout (n : BitVec 16)
  | lockoutExpiry
  | mbxGo
  | accumulatorPoll
  | restoreWindowCloseCmd
  | restoreWindowTimeout
  | ownerKeyWrite (rt : Route) (key : List Byte)
  -- home line cache and snoop filter control
  | hlcDictCleanAll
  | hlcDictInvalidateAll
  | hlcDictCleanInvalidateAll
  | hlcDisable (p : Fin 132)
  | hlcEnable (p : Fin 132)
  | hlcDrainDone (p : Fin 132)
  | hlcInit (p : Fin 132)
  | hlcWayDisable (p : Fin 132) (w : Fin 16)
  | hlcWayEnable (p : Fin 132) (w : Fin 16)
  | hlcWayFlushDone (p : Fin 132) (w : Fin 16)
  | hlcLeakDecay (p : Fin 132) (w : Fin 16)
  | sflInit (p : Fin 132)
  | sflPassStart (p : Fin 132)
  | sflPatrolCheck (p : Fin 132)
  | smapCopyCompare
  -- sparing
  | spareEvacuateCmd (src : SpareSource)
  | autoSpareTrigger (p : Fin 132)
  | spareReady (p : Fin 132)
  | smapHoldSet
  | smapStateCopy
  | smapEntryWrite
  | smapHoldClear
  | smapGenIncrement
  | evacuationAbandon
  | evacuationRetry
  | rewriteTimerExpiry
  -- power
  | coastEntry
  | coastExit
  | freewheelEntry
  | freewheelExit
  | powerDrainDone
  | powerDrainTimeout
  | bbOk
  | pwrStateAck
  | powerHandshakeTimeout
  | railFault (b : Fin 4)
  | vcoreCodeChange (c : BitVec 4)
  | edgeRelease (d : BitVec 16)
  -- records, spill, descriptors, host function
  | errorRecord
  | logSpillWrite
  | spillRdWrite (v : BitVec 32)
  | spillCtrlWrite (v : BitVec 32)
  | cmdTailWrite (v : BitVec 32)
  | descriptorApply (d : BitVec 128)
  | cmdAbortClear
  | hfnCompletionTimeout (tag : BitVec 8)
  | hfnTagQuarantineEnd (tag : BitVec 8)
  | hfnCompletion (tag : BitVec 8) (st : CplStatus)
  | busMasterDisable
  | hostReset
  | hfnD3hot
  | hfnD0
  | lsliceWindowAccess (sl : Fin 128) (off : BitVec 16) (size : Nat) (wr : Option Word)
  | registerWrite (by_ : Writer) (bar : Bar) (off size : Nat) (wr : Option Word) (poisoned : Bool)
  -- memory ports
  | memRd (m : Fin 12) (q : Msg)
  | memWr (m : Fin 12) (q : Msg)
  | memReadResponse (m : Fin 12) (tag : BitVec 10) (data : LineData) (pois : Byte) (err : Bool)
  | memWriteResponse (m : Fin 12) (tag : BitVec 10) (err : Bool)
  | memoryCommandTimeout (m : Fin 12) (tag : BitVec 10)
  | memTagQuarantineEnd (m : Fin 12) (tag : BitVec 10)
  | memReadyFall (m : Fin 12)
  | memReadyRise (m : Fin 12)
  -- safety
  | probeStart (p : Fin 132)
  | probeStep (p : Fin 132) (m : Msg)
  | probeTimeout (p : Fin 132)
  | checkerSelfTest (c : BitVec 16) (flagsGood flagsBad : Bool)
  | safKick (by_ : Writer)
  | stewardWatchdogExpiry
  | clockLoss (i : Fin 36)
  | kickstandEntry
  | kickstandWindowEnd
  | kickstandSafeAck (cleaned : Bool)
  -- resets and start-up
  | coldReset
  | coldResetRelease
  | pllLock
  | pllLockTimeout
  | timeBaseTick
  | arraySelfTestDone (failed : List (Fin 132)) (outside : Bool)
  | checkerTestAndClearDone (failed : Option (BitVec 16))
  | ringTrainingDone (failed : List (Fin 6 × Fin 94))
  | stewardImageWrite (sub : Nat) (b : List Byte)
  | portUp (n : Fin 50)
  | portDeadline (n : Fin 50)
  | sliceEnable
  | coherentReady
  | clockReturn (i : Fin 36)
  | busMasterEnable
  | memCommandTransfer (m : Fin 12) (lane : Fin 2) (tag : BitVec 10)
  | counterWrap (c : Fin 1584)
  | clockMeasWindowEnd (khz : List Nat)
  | relayEntryWatchdog (host : Bool)
  | tapInstruction (i : TapInstr)
  deriving DecidableEq, Repr

end Sys2Proof
end

