-- ==== Sys2Proof/Config.lean ====
section
/-! DEFINITION. The free values: constants without a body for what the spec leaves open. No proof can see a value of
one. Each is named in the assumption log. -/

namespace Sys2Proof

/-- The nonce the service island draws "from its own random source" for its n-th CHALLENGE (R327; log 11). -/
opaque Config.nonce : Nat → BitVec 128

/-- The bytes GETBCR and GETSTATUS return: R316 names the commands and gives no value (log 12). -/
opaque Config.bcr : BitVec 8
opaque Config.status : Nat → BitVec 16

/-- What the boundary register of the test port shifts out at its `n`-th selection (R415; log 42). -/
opaque Config.boundary : Nat → BitVec 32

/-- The silicon revision of dictionary entry 0x1000:02, "per silicon" (log 13). -/
opaque Config.siliconRev : BitVec 32

/-- The payload of a line that kickstand writes with POISON `0xFF` where the home holds no data of it (R385; log 14). -/
opaque Config.lostLine : BitVec 46 → BitVec 512

/-- The version Get MCTP Version Support returns for a message type, and the vendor-defined set number: R317 names the
answers and gives no value (log 12). -/
opaque Config.mctpVersion : BitVec 8 → BitVec 32
opaque Config.vdmSet : BitVec 16

/-- The sequence number of the first packet of the n-th message the port sends: R317 fixes none (log 12). -/
opaque Config.firstSeq : Nat → BitVec 2

end Sys2Proof
end

