-- ==== Sys2Proof/Machine/FabricState.lean ====
section
/-! DEFINITION. The parts of the state that belong to addressing and the fabric (chapters 2 and 3).
Each docstring names its rule; sparse arrays are `NMap`s with one default definition each. -/

namespace Sys2Proof.Machine

/-! Addressing (R28 to R31) -/

/-- The reset slice map: the physical slice of logical slice `s` (R28). -/
def resetMap (s : Nat) : Nat := if s < 43 then s + 1 else if s < 86 then s + 2 else s + 3

/-- The logical slice a physical slice carries under the reset map, zero on a spare (Table 2.7, R28). -/
def resetLogical (p : Nat) : Nat :=
  if p = 0 ∨ p = 44 ∨ p = 88 ∨ p = 131 then 0
  else if p < 44 then p - 1 else if p < 88 then p - 2 else p - 3

/-- The reset spares (R28). -/
def resetSpare (p : Nat) : Bool := p == 0 || p == 44 || p == 88 || p == 131

/-- One entry of a slice-map copy (R28). -/
structure SMapEnt where
  phys : Nat
  hold : Bool := false
  deriving DecidableEq, Repr

def SMapEnt.dflt (s : Nat) : SMapEnt := { phys := resetMap s }

/-! The fabric (R33 to R59) -/

/-- A flit on a ring: the routing field of Table 4.2 without SEQ and RCHK, which belong to one hop, and the message. -/
structure Flit where
  dkind : BitVec 2
  dest : BitVec 10
  orig : BitVec 7
  dir1 : Bool
  rev : Bool := false
  revpos : BitVec 7 := 0
  /-- Its copies for the stop it stands at have been ejected (R43). -/
  dropped : Bool := false
  msg : Msg
  deriving DecidableEq, Repr

/-- The receiving side of a sequence-numbered link direction (R45): the expected number, whether it discards until that
number arrives, whether it has accepted any, the number its last replay request named with the requests that have
named it again (R47), and the requests on a ring's sideband that have not reached the sender. -/
structure LinkRx where
  exp : BitVec 12 := 0
  waiting : Bool := false
  any : Bool := false
  named : Option (BitVec 12) := none
  fails : Nat := 0
  requests : List (BitVec 12) := []
  deriving DecidableEq, Repr

/-- The sending side of a sequence-numbered link direction (R46): the next number, the replay buffer, the number from
which it resends, and the resent number with its count of failed resends (R47). -/
structure LinkTx (α : Type) where
  next : BitVec 12 := 0
  replay : List (BitVec 12 × α) := []
  again : Option (BitVec 12) := none
  named : Option (BitVec 12) := none
  fails : Nat := 0
  deriving DecidableEq, Repr

/-- One link direction of a ring segment, and the class whose turn is next on it (R38, R45, R46). R38 gives the turns no
reset: after cold reset and whenever the links are reset they start with REQ. DESIGN CHOICE (log 92). -/
structure LinkSt where
  rx : LinkRx := {}
  tx : LinkTx Flit := {}
  turn : Nat := 0
  deriving DecidableEq, Repr

def LinkSt.dflt (_ : Nat) : LinkSt := {}

/-- One chainring and its controller (R33, R37, R48 to R57). -/
structure Ring where
  /-- MODE of Table 3.4. -/
  mode : BitVec 2 := 0
  draining : Bool := false
  cmdRefused : Bool := false
  returning : Bool := false
  /-- Bit k: segment k is out of service (Table 3.5). -/
  segOut : BitVec 94 := 0
  /-- Segments between their eighth failed resend and step 3 of R48, with the tick of that resend. -/
  segLosing : List (Nat × Nat) := []
  replays : BitVec 16 := 0
  crcFails : BitVec 16 := 0
  /-- `0x2503` and `0x2504` of the ring. -/
  replaySum : BitVec 32 := 0
  crcSum : BitVec 32 := 0
  /-- The cause of a shift in progress, and the tick by which it must be complete (R50, R51). -/
  shifting : Option ShiftCause := none
  shiftBy : Nat := 0
  /-- The tick at which a drain for consolidation began, and whether its flits are being moved (R55). -/
  drainAt : Nat := 0
  moving : Bool := false
  /-- Link directions, key 2k + d (R45). -/
  links : NMap LinkSt := []
  /-- Transit buffers, key 12·position + 2·class + d (R37). -/
  transit : NMap (List Flit) := []
  /-- Flits that a replay buffer gives back, to be reversed or moved before those of the transit buffer of the same key
  (R48 step 2, R50). -/
  back : NMap (List Flit) := []
  /-- Flits its links have carried in the present window of R54. -/
  carried : Nat := 0
  deriving DecidableEq, Repr

def noFlits (_ : Nat) : List Flit := []
def zero32 (_ : Nat) : BitVec 32 := 0
def zero64 (_ : Nat) : BitVec 64 := 0
def zero16 (_ : Nat) : BitVec 16 := 0
def zero8 (_ : Nat) : BitVec 8 := 0
def zeroNat (_ : Nat) : Nat := 0
def noBool (_ : Nat) : Bool := false

/-- An ejected message; `dest` is the agent that a copy of a vector-addressed message is for, else its DST (R82). -/
structure Ejected where
  dest : BitVec 10
  msg : Msg
  deriving DecidableEq, Repr

def noEjected (_ : Nat) : List Ejected := []

/-- What every stop holds: messages waiting for injection, its ejection queues (key 8·ring + class), and the
derailleur's round-robin pointer (R37, R38, R42). -/
structure StopSt where
  outbox : List Flit := []
  eject : NMap (List Ejected) := []
  rr : Nat := 0
  deriving DecidableEq, Repr

/-- Consolidation control and per-pair window state (R54, `CRG_CONS_CTRL`). -/
structure Crg where
  consEn : Bool := true
  entryPct : BitVec 7 := 20
  exitPct : BitVec 7 := 60
  entryWin : BitVec 4 := 4
  windowUs : BitVec 12 := 100
  /-- Qualifying windows in a row, and the tick at which the present window began, per pair (R54). R54 does not say when
  the first window begins: at tick 0, and anew when a power state is left. DESIGN CHOICE (log 92). -/
  qual : NMap Nat := []
  winAt : NMap Nat := []
  deriving DecidableEq, Repr

/-- What a sequence-numbered slot of a die or I/O link carries (R78, R80). -/
inductive SlotBody where
  | message (dest : BitVec 10) (m : Msg)
  | control (init : Bool) (counts : List Nat)
  deriving DecidableEq, Repr

/-- A port (R20, R29, R79 to R81, R85, R171, R280, R370, R401). Memory ports and the internal ports have no link. -/
structure Port where
  /-- Trained at start-up (R401). -/
  up : Bool := false
  /-- The link is in Active (R76, R408). -/
  active : Bool := false
  /-- The tick at which the link left Active (R81). -/
  exitAt : Option Nat := none
  /-- The link has been taken down (R370). -/
  down : Bool := false
  /-- Source-error discards (R20). -/
  srcErr : BitVec 16 := 0
  /-- CRC failures on the link (R67). -/
  crcFails : BitVec 16 := 0
  /-- Replay requests on the link. -/
  replays : BitVec 16 := 0
  /-- The slice-map copy and its counts of flits sent per logical slice (R29, R171). -/
  smap : NMap SMapEnt := []
  sentFor : NMap (BitVec 32) := []
  /-- Messages received on the link that the port has not yet taken (R80). -/
  ingress : List Msg := []
  /-- Flits waiting at ingress under a hold, in arrival order (R30, R352, R385). -/
  held : List Msg := []
  /-- Messages received on the link that wait at ingress, under a hold or for a credit, each in a slot of the ingress
  buffer whose link credit is not yet returned (R80). -/
  inSlot : List Msg := []
  /-- Credits of the non-caching group, per logical slice: reserved ones in use, G, and shared ones in use (R85, R89). -/
  ncRes : NMap Nat := []
  ncG : NMap Nat := []
  ncOpen : NMap Nat := []
  /-- A `CreditRequest` of the group is unanswered, and the credits it asked for, per logical slice (R89, R90). -/
  ncAsked : NMap Bool := []
  ncWant : NMap Nat := []
  /-- Non-caching requests waiting for a credit, with the tick of their arrival (R85). -/
  ncWait : List (Nat × Msg) := []
  /-- `HlcMaint` and `SvcReq` of the steward or host-function port that hold a maintenance credit, by the logical slice,
  or by 128 + the physical slice of a `SvcReq`, with their TXN; and those that wait for one (Table 5.1). -/
  maints : List (Nat × BitVec 12) := []
  mntWait : List Msg := []
  /-- Link credits held toward the die, and those the die holds, per class (R80). -/
  creds : NMap Nat := []
  given : NMap Nat := []
  /-- Credits the next link-control slot returns, per class, and whether it grants afresh (R80). -/
  owed : NMap Nat := []
  oweInit : Bool := false
  rx : LinkRx := {}
  tx : LinkTx SlotBody := {}
  /-- Bytes of the present group received and not yet taken as a slot, and every slot sent since the last entry to
  Active, in order (R77). -/
  fdi : List Byte := []
  sent : List (BitVec 768) := []
  stop : StopSt := {}
  deriving DecidableEq, Repr

def Port.dflt (_ : Nat) : Port := {}

/-- The slice-map copies of the steward port and the host-function port (R29, R171). -/
structure Copy where
  smap : NMap SMapEnt := []
  sentFor : NMap (BitVec 32) := []
  deriving DecidableEq, Repr

end Sys2Proof.Machine
end

