-- ==== Sys2Proof/Machine/EngineState.lean ====
section
/-! DEFINITION. The parts of the state that belong to one engine, and to the loaders of programs and firmware
(chapters 10, 12 and 13). -/

namespace Sys2Proof.Machine

/-- The modes of Table 12.2. -/
inductive EMode where
  | supervisor
  | user
  | farOp
  deriving DecidableEq, Repr

/-- What an outstanding message of an engine is for (R257, R268, R271). -/
inductive OutKind where
  | load
  | lr
  | prefetch
  | store
  | sc
  | walk
  deriving DecidableEq, Repr

/-- A transaction of an engine whose CRET has not arrived (R71, R88); `own` says it went to the engine's own slice, else
it holds a relay credit; `ent` names its store-buffer entry, 0 for none; `timedOut` is R258's store, `got` that a
prefetch's data has returned. -/
structure OutTxn where
  txn : BitVec 12
  kind : OutKind
  addr : Word
  own : Bool
  sentAt : Nat
  ent : Nat := 0
  timedOut : Bool := false
  got : Bool := false
  deriving DecidableEq, Repr

/-- A load that has issued and whose data has not returned (R244, R257): its destination, size, address, physical address,
TXN and instruction; `fault` is the cause it will raise once the loads before it have returned. -/
structure PendLoad where
  rd : Nat
  size : Nat
  addr : Word
  pa : Word
  txn : BitVec 12
  pc : Word
  fault : Option Nat := none
  deriving DecidableEq, Repr

/-- A store-buffer entry (R262, R263): its number, the ECLK of its first store, the tick at which it started sending, runs
not yet sent, and messages in flight. -/
structure SbEnt where
  id : Nat := 0
  since : Nat := 0
  sendAt : Nat := 0
  addr : LineAddr
  mask : BitVec 64
  data : LineData
  sending : Bool := false
  unsent : List (Nat × Nat) := []
  inflight : List (BitVec 12) := []
  deriving DecidableEq, Repr

/-- What the engine stalls on. An instruction that has not issued yet (for a credit, a buffer entry, a walk) leaves
the engine at its address with no stall here, and is issued again (log 23). -/
inductive Stall where
  | none
  | sc (rd : Nat) (txn : BitVec 12)
  /-- `TLBI`, awaiting `TlbInvDone`. -/
  | tlbi (txn : BitVec 12)
  deriving DecidableEq, Repr

/-- A TLB entry (R270): one page. -/
structure TlbEnt where
  va : Word
  size : Nat
  pa : Word
  r : Bool
  w : Bool
  u : Bool
  se : Bool
  deriving DecidableEq, Repr

/-- A walk-cache entry (R271): the pointer read at a level for a VA prefix. -/
structure WcEnt where
  level : Nat
  pfx : Nat
  ptr : Word
  deriving DecidableEq, Repr

/-- A walk in progress (R271, R275): the table and level read next, the tick since which that read is tried, its TXN once
it is sent; `fillOnly` is a prefetch's walk, `again` discards the result. -/
structure PtWalk where
  va : Word
  level : Nat
  table : Word
  since : Nat := 0
  txn : Option (BitVec 12) := none
  store : Bool := false
  fillOnly : Bool := false
  again : Bool := false
  deriving DecidableEq, Repr

/-- An engine (R238 to R277). -/
structure Eng where
  /-- `ENG_STAT_e.STATE`: 0 reset, 1 running, 2 in `WAIT`, 3 halted. -/
  state : BitVec 2 := 0
  quiesced : Bool := false
  /-- `ENG_CTRL_e.QUIESCE`. -/
  quiesceReq : Bool := false
  fwOk : Bool := false
  refused : Bool := false
  haltCause : BitVec 5 := 0
  /-- The steward has recorded the halt (R249). -/
  haltTold : Bool := false
  /-- An update under R253 holds the engine. -/
  held : Bool := false
  mode : EMode := .supervisor
  /-- The mode firmware had when a program was dispatched (R209). -/
  fwMode : EMode := .supervisor
  regs : NMap Word := []
  pc : Word := 0x8000
  /-- The program's bank: g1 to g7 by number, `ln0` to `ln7` as 8 to 15 (R207). -/
  bank : NMap Word := []
  lnWritten : Bool := false
  farPc : Word := 0
  /-- The slot that runs, and its instruction count. -/
  farSlot : Nat := 0
  farLen : Nat := 0
  /-- ECLK spent of the budget (R208). -/
  farUsed : Nat := 0
  /-- The running program failed a run-time check with this code (R210). -/
  farFault : Option (BitVec 3) := none
  /-- The running program has issued `FRET`. -/
  farDone : Bool := false
  status : BitVec 7 := 0
  epc : Word := 0
  ecause : Word := 0
  eaddr : Word := 0
  evbase : Word := 0x8000
  scratch : Word := 0
  /-- The ECLK at which the engine was last reset, from which `ENG_CR_CYCLE` counts. -/
  resetAt : Nat := 0
  /-- The entry record (R288), newest first; none is an exception's marker. -/
  slots : List (Option Nat) := []
  /-- A committed source that has not been entered yet: its number and handler address (R288). -/
  irq : Option (Nat × Word) := none
  /-- Firmware instructions that a steward engine has completed: the place in the one stream of the tandem (R250). -/
  steps : Nat := 0
  /-- A warm reset waits for the store buffer and for programs in hand (R254, R14); `reload` holds the engine in
  reset afterwards (R253). -/
  warm : Bool := false
  /-- ENTRY of the loaded image as an address (R252). -/
  entry : Word := 0x8000
  /-- Firmware words, and 8-byte data-memory units, whose parity is wrong; of a steward engine, whose instruction memories
  are protected by 8 bytes too, units with an error that SECDED corrects (R239, R251, Table 12.7). -/
  fwBad : List Nat := []
  memBad : List Nat := []
  /-- Units of a steward engine's memories with an error that SECDED cannot correct (R251). -/
  fwDead : List Nat := []
  memDead : List Nat := []
  ptbase : Word := 0
  specFill : Bool := true
  storeTo : BitVec 12 := 50
  rsvValid : Bool := false
  rsvRemote : Bool := false
  rsvLine : LineAddr := 0
  serrPending : Bool := false
  serrTimeout : Bool := false
  serrErrors : BitVec 16 := 0
  serrLate : BitVec 16 := 0
  serrAddr : Word := 0
  /-- `ENG_CR_SEREG_n_BASE` and `_LIMIT`, by 2n and 2n + 1. -/
  sereg : NMap Word := []
  pmcIdx : BitVec 11 := 0
  mem : NMap Byte := []
  fw : NMap (BitVec 32) := []
  sb : List SbEnt := []
  /-- The number of the next store-buffer entry. -/
  sbNext : Nat := 1
  out : List OutTxn := []
  /-- Loads whose data has not returned, in program order (R244). -/
  loads : List PendLoad := []
  /-- TXNs open at a cold reset: their completions are discarded (Table 13.3); those of them that an `SC` sent (R268). -/
  stale : List (BitVec 12) := []
  staleSc : List (BitVec 12) := []
  /-- The TXN of the `TlbInv` whose `TlbInvDone` has not come: the engine's one TLB credit is spent (R71, R274). -/
  tlbTxn : Option (BitVec 12) := none
  /-- The tick at which the present instruction first tried to issue its request (R63). -/
  tryAt : Option Nat := none
  /-- An exception of firmware that came up in far-op mode: cause, EPC and EADDR (R209). -/
  pendExc : Option (Nat × Word × Word) := none
  stall : Stall := .none
  tlb : List TlbEnt := []
  wc : List WcEnt := []
  walk : Option PtWalk := none
  deriving DecidableEq, Repr

/-- Engine `e` under cold reset: a steward engine starts at its boot ROM (R241). -/
def Eng.reset (e : Nat) : Eng :=
  if 132 ≤ e then { pc := 0x10000, evbase := 0x10000 } else {}

/-- The far-program loader and the firmware loader (R206, R211, R252, R253). -/
structure Loader where
  stage : NMap (BitVec 32) := []
  slot : BitVec 8 := 0
  count : BitVec 6 := 0
  busy : Bool := false
  refused : Bool := false
  result : BitVec 4 := 0
  errIndex : BitVec 5 := 0
  worst : BitVec 6 := 0
  /-- The latched load: slot, and words; an empty list unloads. -/
  job : Option (Nat × List (BitVec 32)) := none
  /-- The master copy has been written (R211 step 4). -/
  written : Bool := false
  /-- Master programs by slot; an empty program is an invalid slot (R206). -/
  master : NMap (List (BitVec 32)) := []
  /-- Slots marked invalid everywhere while they are loaded (R211 step 2). -/
  blocked : List Nat := []
  /-- `0x3001:01`-`21`, the commit result `0x3001:23`, VERSION `0x3002:01`, and the master firmware image. -/
  image : NMap (List Byte) := []
  fwResult : BitVec 8 := 0
  version : BitVec 32 := 0
  masterFw : List (BitVec 32) := []
  masterVer : BitVec 32 := 0
  entry : Nat := 0
  /-- Engines still to load under a running commit; the flag is a rolling update, which waits for the far-store copy of the
  engine it has loaded (R253). -/
  fwTodo : List Nat := []
  fwRolling : Bool := false
  fwWait : Option Nat := none
  fwFailed : Bool := false
  /-- `0x3010`: the steward image, written while the boot ROM waits. -/
  stwImage : NMap (List Byte) := []
  /-- Engines whose coming rewrite is the second read-back attempt (R253). -/
  retried : List Nat := []
  deriving DecidableEq, Repr

def noProg (_ : Nat) : List (BitVec 32) := []
def noBytes (_ : Nat) : List Byte := []

/-- A collection entry of the steward port relay: a broadcast and who has not answered it (R274). -/
structure ShootEnt where
  idx : Nat
  src : BitVec 10
  txn : BitVec 12
  /-- Slice stops, by count, and agents that have not answered. -/
  slices : Nat
  agents : BitVec 64
  since : Nat
  reported : Bool := false
  deriving DecidableEq, Repr

/-- A relayed request of an engine, awaiting its completion (Table 5.1); `req` says that it holds a tracker credit. -/
structure RelayEnt where
  src : BitVec 10
  txn : BitVec 12
  home : BitVec 7
  req : Bool
  since : Nat
  reported : Bool := false
  deriving DecidableEq, Repr

/-- An output of the tandem (R250): a message to the steward port, or a push into a report queue. -/
inductive TandemOut where
  | msg (m : Msg) (since : Nat)
  | push (q : Nat) (val : BitVec 32) (n : Fin 5)
  deriving DecidableEq, Repr

/-- Two outputs match; AGE is stamped as they leave (R63, R250). -/
def TandemOut.same : TandemOut → TandemOut → Bool
  | .msg m _, .msg n _ => m == n
  | .push q v k, .push r w l => q == r && v == w && k == l
  | _, _ => false

/-- The steward tandem and the steward port relay (R250, R254, R274, Table 5.1). -/
structure Steward where
  running : Bool := false
  lsMismatch : Bool := false
  /-- Outputs of the main and of the checker engine, held for comparison (R250). -/
  outMain : List TandemOut := []
  outCheck : List TandemOut := []
  /-- The steward boot ROM by word, one for both engines, and the image of the last steward firmware (Table 12.1). -/
  rom : NMap (BitVec 32) := []
  /-- The value of the last block register that the steward read. -/
  readData : Word := 0
  secCnt : BitVec 16 := 0
  /-- Collection entries (R274). -/
  shoots : List ShootEnt := []
  relays : List RelayEnt := []
  /-- The main engine's inputs, delayed for the checker: messages, and the ends of its `WAIT`s and the entries it has made,
  each with the place in the instruction stream, and the source and handler of an entry (R250, R288). -/
  delayed : List Msg := []
  entries : List (Nat × Option (Nat × Word)) := []
  /-- `0x3101:01`. -/
  shootMask : BitVec 64 := 0xFFFFFFFFFFFFFFFF
  shootsDone : BitVec 32 := 0
  shootsBad : BitVec 32 := 0
  deriving DecidableEq, Repr

end Sys2Proof.Machine
end

