-- ==== Sys2Proof/Machine/SysState.lean ====
section
/-! DEFINITION. The parts of the state that belong to the whole block: addressing registers, performance
counters and error records (chapters 2, 16 and 20). -/

namespace Sys2Proof.Machine

/-- Global and addressing registers (R5, R6, R20, R27, R31, R32). -/
structure Glb where
  undefAcc : BitVec 16 := 0
  rsvdWr : BitVec 16 := 0
  /-- `0x2001:01`, bit n: caching agent n is present. -/
  agents : BitVec 64 := 0xFFFFFFFFFFFFFFFF
  /-- `0x2001:02`, bit n: the non-caching requesters of IPn are present. -/
  ioPorts : BitVec 16 := 0xFFFF
  /-- `0x2001:03`. -/
  srcErrs : BitVec 32 := 0
  /-- `MPT_RGN_n`. -/
  rgn : NMap (BitVec 64) := []
  /-- `0x2011`: the start map. -/
  startMap : NMap Nat := []
  /-- GEN of `GLB_SMAP_s`. -/
  smapGen : NMap (BitVec 8) := []
  /-- Slices have been enabled at start-up (R402). -/
  enabled : Bool := false
  /-- The pin `coherent_ready` (R403, R407). -/
  coherentReady : Bool := false
  /-- Every port holds REQ, WB, MNT and `CreditRequest` flits at ingress (R352, R355, R383, R385). -/
  ingressHold : Bool := false
  deriving DecidableEq, Repr

/-- What an unwritten `PMC_SEL_c` reads as. Table 16.3 resets QUAL to 7; Table 16.7 gives the register's image the
default 0. The two conflict, and the model takes Table 16.3 for both views. DESIGN CHOICE (log 85). -/
def pmcSelReset (_ : Nat) : BitVec 32 := 0x00E00000
def zero48 (_ : Nat) : BitVec 48 := 0

/-- The performance counters (R305 to R313). -/
structure Pmc where
  sel : NMap (BitVec 32) := []
  cnt : NMap (BitVec 48) := []
  shadow : NMap (BitVec 48) := []
  ovf : NMap Bool := []
  /-- Counters that have wrapped and whose wrap has not been taken (R306). -/
  wrapped : List Nat := []
  freeze : Bool := false
  hostUser : Bool := false
  snapBusy : Bool := false
  snapRefused : Bool := false
  selRefused : Bool := false
  deriving DecidableEq, Repr

/-- An event source: bits 31:0 of `IAG_SRC_n`, PENDING and ACTIVE; `ready` says that its window has closed; `hist` the
changes of EN, newest first, as (FCLK, the value before) (R281, R285, R287). -/
structure Src where
  cfg : BitVec 32 := 0
  pend : Bool := false
  act : Bool := false
  ready : Bool := false
  hist : List (Nat × Bool) := []
  deriving DecidableEq, Repr

def Src.dflt (_ : Nat) : Src := {}

/-- A coalescing group and its window (R285, Table 14.6). -/
structure Grp where
  count : BitVec 8 := 1
  timeUs : BitVec 16 := 1
  isOpen : Bool := false
  caught : Nat := 0
  ticks : Nat := 0
  deriving DecidableEq, Repr

def Grp.dflt (_ : Nat) : Grp := {}

/-- The event aggregator (chapter 14). -/
structure Iag where
  /-- Events on their way to the aggregator (R284), held at its edge while it is gated (R292). -/
  arrived : List Nat := []
  srcs : NMap Src := []
  grps : NMap Grp := []
  cfgRefused : Bool := false
  lateDeliv : BitVec 16 := 0
  /-- `0x3201:01` to `03`. -/
  toEngines : BitVec 32 := 0
  toHost : BitVec 32 := 0
  late : BitVec 32 := 0
  deriving DecidableEq, Repr

/-- A report-queue entry: a word (`n` = 4) or a fragment of `n` bytes; `loss` marks it as following a loss (R298). -/
structure RpqEnt where
  val : BitVec 32
  n : Fin 5
  loss : Bool
  deriving DecidableEq, Repr

/-- A report queue (R296 to R303). -/
structure Rpq where
  level : BitVec 11 := 0
  ents : List RpqEnt := []
  loss : Bool := false
  seq : BitVec 16 := 0
  drops : BitVec 16 := 0
  flushes : BitVec 8 := 0
  badReads : BitVec 8 := 0
  deriving DecidableEq, Repr

def Rpq.dflt (_ : Nat) : Rpq := {}

/-- An error record (Table 20.1); SEQ is assigned by the collector. -/
structure ErrRec where
  seq : BitVec 32 := 0
  time : Nat := 0
  /-- The ECLK of its capture: those of one ECLK reach the collector together (R365). -/
  eclk : Nat := 0
  cls : BitVec 2
  unit : BitVec 3
  index : Nat
  code : BitVec 8
  addr : Option LineAddr := none
  agent : Option (BitVec 10) := none
  /-- FLAGS[2]: found by a cadence probe, patrol or self-test. -/
  byTest : Bool := false
  /-- FLAGS[3]: records of this log were lost before this one. -/
  lost : Bool := false
  /-- Bytes 28 to 35. -/
  detail : BitVec 64 := 0
  /-- Bytes 36 to 37. -/
  extra : BitVec 16 := 0
  deriving DecidableEq, Repr

end Sys2Proof.Machine
end

