-- ==== Sys2Proof/Machine/PlatformState.lean ====
section
/-! DEFINITION. The parts of the state that belong to power, clocks, start-up, the safety monitor, sparing, memory
ports, the host function and the service island (chapters 17 to 22). -/

namespace Sys2Proof.Machine

/-! Power (R349 to R361) -/

/-- How far a power transition has come (R352 to R354, R356). -/
inductive PwrPhase where
  /-- The drain of R352. -/
  | drain
  /-- Entry, waiting for `bb_ok`, then for `pwr_state_ack`. -/
  | entryBias
  | entryAck
  /-- Exit, waiting for `bb_ok`, then for `pwr_state_ack`. -/
  | exitBias
  | exitAck
  deriving DecidableEq, Repr

/-- A running transition: the state it leads to and the one it left. -/
structure PwrTrans where
  goal : BitVec 2
  origin : BitVec 2
  phase : PwrPhase
  since : Nat
  /-- `pwr_state_ack` has come while `bb_ok` is awaited. -/
  acked : Bool := false
  deriving DecidableEq, Repr

structure Pwr where
  /-- 0 Run, 1 Coast, 2 Freewheel. -/
  state : BitVec 2 := 0
  trans : Option PwrTrans := none
  lastRefuse : BitVec 3 := 0
  coastCnt : BitVec 16 := 0
  fwCnt : BitVec 16 := 0
  refuseCnt : BitVec 16 := 0
  gatedAcc : BitVec 16 := 0
  /-- `0x3505:01` to `03`. -/
  coasts : BitVec 32 := 0
  freewheels : BitVec 32 := 0
  refusals : BitVec 32 := 0
  /-- Domains powered off in every state or by consolidation (R55, R350, R375), and those clock-gated in Run. -/
  off : List Nat := []
  gated : List Nat := [0, 44, 88, 131]
  /-- Domains whose edges are held (R359). -/
  held : List Nat := []
  /-- `bb_sel` and `pwr_state_req` as driven. -/
  bias : BitVec 2 := 0
  stateReq : BitVec 2 := 0
  assist : Bool := false
  /-- The retention source bias of the arrays is on (R354, Table 19.2). -/
  retBias : Bool := false
  /-- Input pins: `pwr_rail_ok` and `pwr_vcore_code`; the output `pwr_assist_ack`. -/
  railOk : BitVec 4 := 0xF
  vcore : BitVec 4 := 0
  assistAck : Bool := false
  /-- `0x3501:02` and `03`. -/
  relEdges : Bool := true
  drainUs : BitVec 12 := 500
  /-- A Freewheel exit left edges held, and the ports their holds (R359). -/
  edgeHold : Bool := false
  /-- Engines the block quiesced itself for Coast (R352). -/
  quiesced : List Nat := []
  /-- The steward is stopped for a power state (R352). -/
  stwStopped : Bool := false
  deriving DecidableEq, Repr

/-! Straps, clocks and start-up (chapters 17, 18, 21 and 22) -/

/-- The strap inputs of Table 22.6. -/
structure Straps where
  hfnVid : BitVec 16 := 0
  hfnDid : BitVec 16 := 0
  hfnSvid : BitVec 16 := 0
  hfnSsid : BitVec 16 := 0
  serial : BitVec 128 := 0
  i3cSa : BitVec 7 := 0
  i3cPid : BitVec 48 := 0
  vdbgKey : BitVec 256 := 0
  idcode : BitVec 31 := 0
  deriving DecidableEq, Repr

structure Clk where
  pllLock : Bool := false
  lossSeen : Bool := false
  lossClock : BitVec 6 := 0
  present : BitVec 36 := 0
  measSel : BitVec 6 := 0
  /-- Frequencies of the last complete window in kHz, by INDEX (R394). -/
  khz : NMap Nat := []
  /-- Clocks found lost that have not returned (R382). -/
  lost : List Nat := []
  deriving DecidableEq, Repr

structure Rst where
  /-- `kh_rst_n` is released, and PHASE, FAIL_CAUSE, BOOT_RESULT and READY_US of Table 21.6. -/
  released : Bool := false
  phase : BitVec 4 := 0
  failCause : BitVec 4 := 0
  bootResult : BitVec 4 := 0
  readyUs : BitVec 32 := 0
  bistFail : BitVec 132 := 0
  portDown : BitVec 50 := 0
  /-- The tick at which phase 4 began (R401). -/
  phase4At : Nat := 0
  /-- The tick at which the restore window opened; it has closed (R326). -/
  restoreAt : Option Nat := none
  restoreClosed : Bool := false
  /-- Memory ports declared down that have recorded `0x1A` (R401). -/
  downTold : List Nat := []
  /-- The test port: the instruction that acts, and what it shifts out (R415; log 42). -/
  tap : TapInstr := .idcode
  tdr : BitVec 32 := 0
  /-- Instructions selected so far: the model's own, for the free values of the boundary register (log 42). -/
  taps : Nat := 0
  deriving DecidableEq, Repr

/-! Safety (R378 to R387) -/

/-- How far kickstand has come (R383, R385, R387). -/
inductive Kick where
  | none
  /-- The clocks of Coast ungate (R387). -/
  | waking
  /-- Ports hold; transactions run to their end. -/
  | window
  /-- `kh_fatal_n` is asserted; the caches are being cleaned. -/
  | flushing
  /-- `kh_safe_ack` is asserted. -/
  | safe
  deriving DecidableEq, Repr

/-- The first block-fatal detection (`SAF_FATAL`); SEQ comes with its record's number (R365, R385). -/
structure Fatal where
  code : BitVec 8
  unit : BitVec 3
  index : Nat
  seq : Option (BitVec 32)
  /-- The ECLK of the detection: of those in one ECLK the lowest code is captured. -/
  eclk : Nat := 0
  deriving DecidableEq, Repr

/-- A cadence probe: the count of scripts started, and the running script's awaited step and start (R379). -/
structure Probe where
  n : BitVec 32 := 0
  step : Nat := 0
  since : Nat := 0
  deriving DecidableEq, Repr

def Probe.dflt (_ : Nat) : Probe := {}

structure Saf where
  fatal : Option Fatal := none
  kick : Kick := .none
  kickAt : Nat := 0
  flushDone : Bool := false
  flushIncomplete : Bool := false
  stwWdog : Bool := false
  /-- The pins `kh_fatal_n` (asserted) and `kh_safe_ack`. -/
  fatalPin : Bool := false
  safeAck : Bool := false
  probeEn : Bool := false
  probeBase : BitVec 39 := 0
  probes : NMap Probe := []
  /-- Probes suspended by a slice's hold (R170). -/
  suspended : List Nat := []
  passes : BitVec 32 := 0
  failSlice : BitVec 8 := 0
  failStep : BitVec 3 := 0
  /-- `0x3701:01` to `03`. -/
  probePeriod : BitVec 16 := 250
  probeRegion : Word := 0
  selfTest : Bool := true
  /-- The tick from which a checker's next periodic test is due, by checker (R380; log 75). -/
  testDue : NMap Nat := []
  /-- The tick of the last `SAF_KICK` (R381). -/
  kickedAt : Nat := 0
  deriving DecidableEq, Repr

/-! Sparing (R371 to R375) -/

/-- A running evacuation: `step` is the last completed step of R30 in the running attempt, 0 between attempts;
`since` the tick at which step 1 began, or at which the last attempt was abandoned. -/
structure Evac where
  lslice : BitVec 7
  old : Nat
  target : Nat
  step : Nat := 0
  since : Nat := 0
  attempts : Nat := 0
  /-- An attempt may begin; it has asked the old engine to quiesce. -/
  due : Bool := true
  asked : Bool := false
  deriving DecidableEq, Repr

structure Spare where
  /-- Spares that the steward has readied (R372). -/
  ready : List Nat := []
  run : Option Evac := none
  result : BitVec 2 := 0
  attempts : BitVec 4 := 0
  /-- Ticks of the rows marked (R188) and of the engine halts, per physical slice (R371). -/
  marks : NMap (List Nat) := []
  halts : NMap (List Nat) := []
  retired : List Nat := []
  /-- An attempt that the rewrite timer abandoned and the steward is to retry when it runs (R374). -/
  abandoned : Option Evac := none
  deriving DecidableEq, Repr

/-! Memory ports (R409 to R412) -/

/-- A command: its tag, the lane it stands at, none while two others stand there, and the FCLK of its transfer. -/
structure MptCmd where
  tag : BitVec 10
  wr : Bool
  msg : Msg
  lane : Option Nat := none
  xfer : Option Nat := none
  deriving DecidableEq, Repr

structure Mpt where
  /-- Commands: transferred ones in the order of their transfer, the others in the order of their tags. -/
  cmds : List MptCmd := []
  /-- Messages that found no tag, or no room in the crossing queue, in arrival order. -/
  waiting : List Msg := []
  /-- Quarantined tags with the tick of their answer; the flag holds a tag until the next rise of ready. -/
  quar : List (BitVec 10 × Nat × Bool) := []
  ready : Bool := false
  down : Bool := false
  timeouts : BitVec 16 := 0
  protoErrs : BitVec 16 := 0
  deriving DecidableEq, Repr

def Mpt.dflt (_ : Nat) : Mpt := {}

/-! Error logs (R364 to R367) -/

/-- A log, newest record first; `lost` marks the next record (R365). -/
structure Log where
  recs : List ErrRec := []
  lost : Bool := false
  deriving DecidableEq, Repr

def Log.dflt (_ : Nat) : Log := {}

structure Ras where
  corrLog : Bool := true
  rpqEn : Bool := false
  rpqSel : BitVec 5 := 0
  autoSpare : Bool := true
  logSel : BitVec 8 := 0
  logPos : BitVec 6 := 0
  /-- Records on their way to the collector (R365). -/
  inflight : List ErrRec := []
  /-- Slice logs by physical slice, the global log as 132. -/
  logs : NMap Log := []
  /-- Records numbered so far, and numbered records already offered to the spill buffer (R367). -/
  next : Nat := 0
  spilled : Nat := 0
  lost : BitVec 16 := 0
  frozen : Bool := false
  /-- `0x3601:01` to `03`. -/
  corrected : BitVec 32 := 0
  contained : BitVec 32 := 0
  fatals : BitVec 32 := 0
  deriving DecidableEq, Repr

/-! Host function (R332 to R348) -/

/-- What the function sends upstream. -/
inductive UpTlp where
  | spill (addr : Word) (record : LineData)
  | msix (addr : Word) (data : BitVec 32)
  | read (tag : BitVec 8) (addr : Word) (len : Nat)
  /-- The completion of a host read (R333). -/
  | completion (data : BitVec 128)
  /-- The completions with status Unsupported Request and Request Retry Status (R332, R346). -/
  | unsupported
  | retry
  deriving DecidableEq, Repr

/-- A host request: a write of a value, or a read (R333, R334). -/
structure HostReq where
  bar : Bar
  off : Nat
  size : Nat
  wr : Option Word
  poisoned : Bool := false
  deriving DecidableEq, Repr

/-- An outstanding read of `n` descriptors from index `first`, of which `got` bytes have come; `drop` says that its
completions are dropped. -/
structure HfnRead where
  tag : BitVec 8
  first : BitVec 16
  n : Nat
  sentAt : Nat
  got : Nat := 0
  drop : Bool := false
  deriving DecidableEq, Repr

/-- An MSI-X table entry: address, data and the vector's mask bit. -/
structure MsixEnt where
  addr : Word := 0
  data : BitVec 32 := 0
  mask : Bool := true
  deriving DecidableEq, Repr

def MsixEnt.dflt (_ : Nat) : MsixEnt := {}

structure Hfn where
  /-- Configuration space (Table 18.1; log 40): BAR addresses, bus-master enable, D3hot, sizes, the completion-timeout
  value, MSI-X enable and function mask, and the AER status bits. -/
  bar0 : Word := 0
  bar2 : Word := 0
  bme : Bool := false
  d3hot : Bool := false
  mrrs : BitVec 3 := 2
  ctoVal : BitVec 4 := 0
  msixEn : Bool := false
  msixMask : Bool := false
  aer : BitVec 32 := 0
  /-- Held in reset: HCLK is lost (Table 20.6), or a hot or function-level reset is in progress. -/
  inReset : Bool := false
  /-- TLPs handed to the root port, in order. -/
  up : List UpTlp := []
  msix : NMap MsixEnt := []
  /-- The pending-bit array. -/
  pba : NMap Bool := []
  /-- The data of the last read the function completed. -/
  readData : BitVec 128 := 0
  /-- Requests taken and not begun: the first waits for a HOLD to clear (R333, R336). -/
  waits : List HostReq := []
  /-- The tick from which configuration requests are accepted after a reset of the function (R346). -/
  cfgAt : Nat := 0
  /-- Table 18.7. -/
  badAcc : BitVec 16 := 0
  cto : BitVec 16 := 0
  late : BitVec 16 := 0
  gated : BitVec 16 := 0
  spillBase : BitVec 52 := 0
  spillEn : Bool := false
  spillSize : BitVec 5 := 6
  spillLevel : BitVec 16 := 0
  spillWr : BitVec 32 := 0
  spillRd : BitVec 32 := 0
  spillBuf : List ErrRec := []
  spillDrop : BitVec 16 := 0
  cmdBase : BitVec 52 := 0
  cmdEn : Bool := false
  cmdSize : BitVec 4 := 4
  tail : BitVec 16 := 0
  head : BitVec 16 := 0
  aborted : Bool := false
  cause : BitVec 3 := 0
  tailRefused : Bool := false
  /-- The next descriptor to read, outstanding reads, the ranges that have arrived, quarantined tags with the tick
  their quarantine ends. -/
  fetch : BitVec 16 := 0
  reads : List HfnRead := []
  arrived : List (BitVec 16 × Nat) := []
  quar : List (BitVec 8 × Nat) := []
  /-- `0x3801:01` to `04`, and `0x3803:01`. -/
  ctos : BitVec 32 := 0
  lates : BitVec 32 := 0
  drops : BitVec 32 := 0
  aborts : BitVec 32 := 0
  bar0Ok : Bool := true
  deriving DecidableEq, Repr

/-! Service island (R316 to R331) -/

/-- A session; `owner` is none for the mailbox, else the endpoint (R317, R321, R322, R327). -/
structure Session where
  n : BitVec 16
  owner : Option Byte
  lastRx : BitVec 16
  lastTx : BitVec 16
  answer : List Byte
  lastType : Byte
  lastStatus : Byte
  level : Byte := 0
  lastNew : Nat
  /-- The outstanding nonce, and whether it is for the vendor debug key (R327). -/
  nonce : Option (Bool × BitVec 128) := none
  deriving DecidableEq, Repr

/-- Where an answer goes: the route, and on the service port the request's tag (R317). -/
structure Peer where
  rt : Route
  tag : BitVec 3 := 0
  deriving DecidableEq, Repr

/-- What a WRITE whose answer is still owed waits for (R325, R351, R211). -/
inductive AwaitKind where
  | power
  | farLoad
  /-- A shift of a ring, or its return to service (R53). -/
  | ring (r : Nat) (back : Bool)
  /-- The evacuation begun, the counters' copy, a warm reset or the quiescing of an engine (R371, R309, R254). -/
  | evacuation
  | snapshot
  | warm (e : Nat)
  | quiesce (e : Nat)
  /-- The flush of a slice's ways, the draining of the home line caches (R230, R232). -/
  | ways (p : Nat)
  | drain
  deriving DecidableEq, Repr

/-- A WRITE in progress: its session, TXSEQ and what it waits for. -/
structure Await where
  peer : Peer
  n : BitVec 16
  tx : BitVec 16
  kind : AwaitKind
  /-- The tick at which its action began: the answer goes out within 100 ms (R325). -/
  since : Nat := 0
  deriving DecidableEq, Repr

/-- One packet that the port sends: at most 64 bytes of payload, tag-owner bit clear (R317). -/
structure MctpOut where
  dst : Byte
  tag : BitVec 3
  owner : Bool := false
  som : Bool
  eom : Bool
  seq : BitVec 2
  payload : List Byte
  deriving DecidableEq, Repr

/-- A message in reassembly (R317). -/
structure Reasm where
  src : Byte
  tag : BitVec 3
  seq : BitVec 2
  bytes : List Byte
  deriving DecidableEq, Repr

structure Svc where
  /-- I3C (R316). -/
  dynAddr : Option (BitVec 7) := none
  mwl : BitVec 16 := 69
  mrl : BitVec 16 := 69
  events : Byte := 0xFF
  /-- The value the last GET CCC returned on the bus. -/
  ccc : List Byte := []
  /-- The mandatory data bytes of the in-band interrupts raised, in order. -/
  ibis : List Byte := []
  /-- MCTP (R317): endpoint identifier, reassembly, messages taken, answers ready and sent. -/
  eid : Byte := 0
  reasm : List Reasm := []
  inbox : List (Byte × BitVec 3 × List Byte) := []
  outbox : List (Byte × BitVec 3 × List Byte) := []
  sent : List (Byte × BitVec 3 × List Byte) := []
  /-- The packets of the messages sent, in order (R317). -/
  packets : List MctpOut := []
  /-- Sessions in order, and the last number assigned (R322). -/
  sessions : List Session := []
  lastN : BitVec 16 := 0
  failures : Nat := 0
  await : Option Await := none
  /-- The tick at which a lockout began (R327). -/
  lockout : Option Nat := none
  challenges : Nat := 0
  ownerKey : Option (List Byte) := none
  /-- The vendor debug key sampled at cold reset; zero is absent (R328). -/
  vdbgKey : BitVec 256 := 0
  /-- `0x1104:01` to `03`. -/
  discarded : BitVec 32 := 0
  malformed : BitVec 32 := 0
  authFails : BitVec 32 := 0
  /-- The mailbox (R330): request words, the answer's bytes, and `SVC_MBX_STAT`. -/
  req : NMap (BitVec 32) := []
  rsp : List Byte := []
  busy : Bool := false
  rspReady : Bool := false
  refused : Bool := false
  /-- The island's sums by `Cnt` number, and its previous reads of the accumulators, by 64·slice + `Cnt` number
  (R324). -/
  sums : NMap (BitVec 32) := []
  polled : NMap (BitVec 32) := []
  /-- The sums over the accumulators of other units, in the order of `State.unitAccs`, as last read (R324). -/
  unitSums : NMap (BitVec 32) := []
  deriving DecidableEq, Repr

end Sys2Proof.Machine
end

