-- ==== Sys2Proof/Machine/SliceState.lean ====
section
/-! DEFINITION. The parts of the state that belong to one home slice (chapters 5, 6, 9, 10 and 11). -/

namespace Sys2Proof.Machine

/-! The home slice: trackers, credits and open lines (R84 to R127) -/

/-- What a tracker's request is served as: the rows of Table 6.5 (R116, R197). -/
inductive ReqKind where
  | readShared
  | readOwn
  | upgrade
  | readNc
  | writeFull
  | writePartial
  | farAtomic
  | farProgram
  deriving DecidableEq, Repr

/-- What a tracker is doing (R107, R110, R114, R181, R182, R189, R201, R207). -/
inductive Phase where
  /-- In a conflict queue. -/
  | queued
  /-- Held under R110 until its `FwdDone`. -/
  | chained
  /-- In `ALLOC_WAIT` (R181). -/
  | allocWait
  /-- Served; awaits invalidation answers, a recall or home data. -/
  | gather
  /-- Served; an owner forward's answer closes it with `Comp` (R112). -/
  | forward
  /-- Served; awaits the `MemAck` of its write (R119). -/
  | writeAck
  /-- Served; the handling of R189 runs before the request itself. -/
  | handling
  /-- Served far operation that has not started its service (R201, R213). -/
  | farStart
  /-- Served far operation waiting for, or in, the atomic ALU or the engine (R205, R209). -/
  | farReady
  deriving DecidableEq, Repr

/-- A tracker entry with its data buffer (Table 1.1, R107, R175). -/
structure Trk where
  req : Msg
  kind : ReqKind
  phase : Phase
  /-- Tick of its arrival at the slice, from which its age counts (R99, R102). -/
  arr : Nat
  /-- Its place in the order of arrival at the slice, and the tick at which it reached breakaway (R100, R181). -/
  seq : Nat := 0
  brkAt : Nat := 0
  /-- It has been counted as a breakaway (R100). -/
  brk : Bool := false
  /-- The snoop-filter position reserved for it (R181). -/
  resv : Option Nat := none
  /-- The line of its victim phase (R182). -/
  victim : Option LineAddr := none
  /-- Step 3 of its victim phase has been written and awaits `MemAck` (R182). -/
  victimWr : Bool := false
  /-- The handling of R189 has been sent for the line of its victim phase. -/
  handled : Bool := false
  /-- Agents whose `InvAck`, `FwdDone`, `CopyBack` or `RecallData` it awaits. -/
  awaits : BitVec 64 := 0
  /-- The awaited answers are to an owner-directed forward. -/
  ownerForm : Bool := false
  /-- It awaits home data (R118). -/
  needs : Bool := false
  /-- It waits for a miss register (R223). -/
  waitMiss : Bool := false
  /-- Its data buffer holds data. -/
  have_ : Bool := false
  data : LineData := 0
  poison : BitVec 8 := 0
  /-- It is served on an entry whose poison bit was set (R123). -/
  onPoison : Bool := false
  /-- Answer with `Grant`, not `DataM` (Table 6.5, `Upgrade` with the requester's bit set). -/
  grant : Bool := false
  /-- The home line cache position pinned for its far operation (R213). -/
  pin : Option Nat := none
  deriving DecidableEq, Repr

/-- An open-line entry (Table 6.1); the conflict queue is listed from its head. -/
structure Olt where
  /-- MODE of Table 6.2. -/
  mode : BitVec 2 := 0
  depth : Nat := 0
  /-- The served tracker; none between the end of one transaction and the service of the next. -/
  serve : Option Nat := none
  /-- PEND: 0 none, 1 `CopyBack`, 2 `FwdDone` for `FwdRead`, 3 `RecallData`. -/
  pend : BitVec 2 := 0
  ackcnt : Nat := 0
  queue : List Nat := []
  /-- The `Writeback` messages held under R121, at most one of each agent, the first held first; WBHELD is set while
  there is one. -/
  wbHeld : List Msg := []
  /-- The snoop-filter position the line holds (R175). -/
  pos : Option Nat := none
  deriving DecidableEq, Repr

def Olt.dflt (_ : Nat) : Olt := {}

/-- A waiting `CreditRequest` (R90, R91). -/
structure Crq where
  /-- The sender, and its holder index (R85). -/
  src : BitVec 10
  holder : Nat
  want : Nat
  age : Nat
  arr : Nat
  /-- It arrived in the FCLK that is passing: step 3 of R91 has not seen it yet. -/
  fresh : Bool := true
  deriving DecidableEq, Repr

/-! The snoop filter (R173 to R194) -/

/-- One row of a block: the data bits of Table 9.1 (bits 95:0, SET in 108:96 for overflow) and RP. -/
structure SfRow where
  data : BitVec 109 := 0
  rp : Bool := false
  deriving DecidableEq, Repr

def SfRow.dflt (_ : Nat) : SfRow := {}

/-- A block: eight rows, the column word, its check bit and the written bit stored twice (R173). -/
structure SfBlock where
  rows : NMap SfRow := []
  col : BitVec 109 := 0
  check : Bool := false
  w0 : Bool := false
  w1 : Bool := false
  deriving DecidableEq, Repr

def SfBlock.dflt (_ : Nat) : SfBlock := {}

def lru12 (_ : Nat) : List Nat := [0, 1, 2, 3, 4, 5, 6, 7, 8, 9, 10, 11]
def lru16 (_ : Nat) : List Nat := [0, 1, 2, 3, 4, 5, 6, 7, 8, 9, 10, 11, 12, 13, 14, 15]
def noNats (_ : Nat) : List Nat := []

/-- The snoop-filter partition. Block 1024w + g is block g of way w, block 12288 + b overflow block b; position
8192w + s is the entry of set s in way w, position 98304 + e overflow entry e. -/
structure Sfl where
  blocks : NMap SfBlock := []
  /-- Ways of a set, least recently used first (R179). -/
  lru : NMap (List Nat) := []
  /-- Allocated overflow entries in allocation order (R179). -/
  ovfOrder : List Nat := []
  /-- Wait lists by set: trackers in order (R181). -/
  wait : NMap (List Nat) := []
  migrate : Bool := true
  prefSingle : Bool := true
  pace : BitVec 16 := 8
  /-- The next block the running patrol pass looks from (R193). -/
  pass : Option Nat := none
  passDone : Bool := false
  initRefused : Bool := false
  /-- `SFL_ERR_CAP` bits 30:0, and VALID. -/
  cap : BitVec 31 := 0
  capValid : Bool := false
  deriving DecidableEq, Repr

/-! The home line cache (R217 to R235) -/

/-- A stored line (Table 11.1). -/
structure HLine where
  tag : BitVec 31 := 0
  v : Bool := false
  poison : BitVec 8 := 0
  tpar : Bool := false
  d0 : Bool := false
  d1 : Bool := false
  pf : Bool := false
  data : LineData := 0
  dpar : BitVec 8 := 0
  deriving DecidableEq, Repr

def HLine.dflt (_ : Nat) : HLine := {}

/-- A waiter of a miss register (R223). -/
inductive Waiter where
  | tracker (t : Nat)
  | maint (i : Nat)
  | prefetch
  deriving DecidableEq, Repr

/-- A miss register (R223); `ord` is its place in the order of memory accesses (R222). -/
structure Mshr where
  idx : Nat
  addr : LineAddr
  demand : Bool
  waiters : List Waiter
  sent : Bool := false
  /-- A write for the line reached the slice while it was open (R222). -/
  wrote : Bool := false
  ord : Nat
  deriving DecidableEq, Repr

/-- A write on its way to memory: an eviction-buffer entry (`evb`), or a write that was not kept (R220, R224). -/
structure MemWrite where
  evb : Bool
  /-- HTAG of its `MemWr` (log 20). -/
  idx : Nat
  addr : LineAddr
  data : LineData
  poison : BitVec 8
  sent : Bool := false
  /-- The tracker whose write completes on its `MemAck` (R119). -/
  waiter : Option Nat := none
  /-- Its place in the order of all memory accesses of the slice (R222). -/
  ord : Nat
  deriving DecidableEq, Repr

/-- A stream-table entry (R225); `train` 0 new, 1 training, 2 steady. The table lists its valid entries least
recently used first. -/
structure Stream where
  reqid : BitVec 10
  stream : BitVec 4
  region : BitVec 39
  delta : Int := 0
  train : Nat := 0
  last : Int := 0
  deriving DecidableEq, Repr

/-- A maintenance-queue entry (R227, R228). `src` is none for a whole-cache operation of the dictionary or, where `kick`
says so, of the kickstand clean (R386). -/
structure Maint where
  idx : Nat
  src : Option Msg
  kick : Bool := false
  op : BitVec 4
  scope : Nat
  addr : LineAddr
  /-- Not yet applied; waits for a miss register, a far pin, an eviction-buffer entry or the walker. -/
  waiting : Bool := true
  /-- Its own writes, by their place in the order of memory accesses, whose `MemAck` is awaited. -/
  acks : List Nat := []
  deriving DecidableEq, Repr

/-- A walk of the cache (R229, R230): for a maintenance entry, or for the drain. `next` is the next position,
`again` the pinned positions to visit again. -/
structure Walk where
  maint : Option Nat
  next : Nat := 0
  again : List Nat := []
  deriving DecidableEq, Repr

/-- A flush of one way (R232). -/
structure Flush where
  way : Nat
  hw : Bool
  pendEnable : Bool := false
  deriving DecidableEq, Repr

structure Hlc where
  en : Bool := true
  rdAlloc : Bool := true
  pfEn : Bool := true
  pfDepth : BitVec 4 := 4
  pfReserve : BitVec 5 := 8
  leakH : BitVec 14 := 24
  /-- `HLC_STAT.STATE`: 0 disabled, 1 enabled, 2 draining. -/
  state : BitVec 2 := 1
  ctrlRefused : Bool := false
  initRefused : Bool := false
  drainDone : Bool := false
  wayEn : BitVec 16 := 0xFFFF
  hwDis : BitVec 16 := 0
  leak : NMap Nat := []
  /-- Tick of the last error or fall, per way (R232). -/
  leakAt : NMap Nat := []
  lines : NMap HLine := []
  lru : NMap (List Nat) := []
  mshrs : List Mshr := []
  writes : List MemWrite := []
  /-- The next place in the order of memory accesses. -/
  ord : Nat := 0
  streams : List Stream := []
  maint : List Maint := []
  /-- The next maintenance index. -/
  maintNext : Nat := 0
  walks : List Walk := []
  flushes : List Flush := []
  /-- `HLC_ERR_CAP` bits 54:0, and VALID. -/
  cap : BitVec 55 := 0
  capValid : Bool := false
  deriving DecidableEq, Repr

/-! Far operations (R197 to R214) -/

/-- A predictor entry: COUNT and RECENT (R198). -/
structure Pred where
  count : BitVec 3 := 0
  recent : BitVec 4 := 0
  deriving DecidableEq, Repr

def Pred.dflt (_ : Nat) : Pred := {}

structure Far where
  autoMode : BitVec 2 := 0
  thresh : BitVec 3 := 4
  recentUs : BitVec 4 := 2
  /-- Ticks of the time base that the predictor has taken (R199, R417). -/
  ticks : Nat := 0
  pred : NMap Pred := []
  /-- Admitted operations (R200). -/
  queue : List Nat := []
  /-- Operations ready for the atomic ALU, in order (R205). -/
  alu : List Nat := []
  /-- Programs ready for dispatch, in order (R209). -/
  prog : List Nat := []
  /-- The dispatched program's tracker. -/
  run : Option Nat := none
  /-- The running program has ended and is in write-back: its status, or its fault code (R207, R210). -/
  ended : Option (Bool × BitVec 8) := none
  faultSlot : BitVec 8 := 0
  faultCode : BitVec 3 := 0
  faultValid : Bool := false
  /-- The engine's far-store copy is complete (R206). -/
  copyDone : Bool := false
  /-- Slots marked invalid at this slice (R210). -/
  slotBad : List Nat := []
  /-- The words of the engine's copy of the far store, key 32·slot + index (R206, Table 12.1). -/
  store : NMap (BitVec 32) := []
  deriving DecidableEq, Repr

/-- A physical slice. -/
structure Slice where
  lslice : BitVec 7
  active : Bool := false
  /-- Trackers in use (R85). -/
  trks : NMap (Option Trk) := []
  olt : NMap Olt := []
  /-- Shared credits held by each external holder, G (R89). -/
  g : NMap Nat := []
  crq : List Crq := []
  brkUs : BitVec 8 := 64
  wdogUs : BitVec 12 := 500
  depthLim : BitVec 4 := 7
  chainEn : Bool := true
  /-- `SLC_PROTO_ERR` bits 19:0 and VALID, and `SLC_PROTO_ERR_ADDR`. -/
  protoErr : BitVec 20 := 0
  protoErrValid : Bool := false
  protoErrAddr : LineAddr := 0
  /-- The RC counter fields, by `Cnt` number. -/
  cnt : NMap Nat := []
  /-- Their accumulators (R324). -/
  acc : NMap (BitVec 32) := []
  sfl : Sfl := {}
  hlc : Hlc := {}
  far : Far := {}
  stop : StopSt := {}
  /-- The watch of the own engine's reservation: its line, and whether it is intact (R267). -/
  watch : Option (LineAddr × Bool) := none
  /-- TXNs of its `SC` requests that wrote nothing and are not yet known to the engine (R268). -/
  scFailed : List (BitVec 12) := []
  /-- The message last taken came over a ring, not from the slice's own engine or probe (R9, R171). -/
  overRing : Bool := false
  /-- Messages between the slice and its own engine and probe, which cross no ring (R9). -/
  local_ : List Msg := []
  /-- Flits taken for its logical slice, per slice-map copy (R171). -/
  taken : NMap (BitVec 32) := []
  /-- Alternation pointer per class: true names ring 2q + 1 (R109). -/
  alt : NMap Bool := []
  /-- REQ messages that have taken a tracker (R100). -/
  arrivals : Nat := 0
  /-- Trackers whose watchdog has reported (R102). -/
  wdogDone : List Nat := []
  deriving DecidableEq, Repr

def Slice.reset (p : Nat) : Slice := { lslice := BitVec.ofNat 7 (resetLogical p) }

def noTrk (_ : Nat) : Option Trk := none
def noErr (_ : Nat) : Bool := false

end Sys2Proof.Machine
end

