-- ==== Sys2Proof/Machine/State.lean ====
section
/-! DEFINITION. The state of the block as plain data, the outcomes that stop it, and the state after reset. -/

namespace Sys2Proof.Machine

/-- The whole state. -/
structure State where
  /-- Commands waiting, first in, first out (log 1). -/
  pending : List Instr := []
  /-- 1 µs ticks since cold reset (R417). -/
  time : Nat := 0
  /-- FCLK cycles since cold reset (log 5). -/
  fclk : Nat := 0
  glb : Glb := {}
  slices : NMap Slice := []
  rings : NMap Ring := []
  engines : NMap Eng := []
  loader : Loader := {}
  stw : Steward := {}
  ports : NMap Port := []
  crg : Crg := {}
  /-- The steward port's and the host-function port's slice-map copies (R29). -/
  stwCopy : Copy := {}
  hfnCopy : Copy := {}
  /-- `CreditRequest`s the steward port relay keeps while their logical slice is on HOLD, with their port (R172). -/
  relayed : List (Nat × Msg) := []
  pmc : Pmc := {}
  iag : Iag := {}
  rpq : NMap Rpq := []
  ras : Ras := {}
  pwr : Pwr := {}
  straps : Straps := {}
  clk : Clk := {}
  rst : Rst := {}
  saf : Saf := {}
  spare : Spare := {}
  mpts : NMap Mpt := []
  hfn : Hfn := {}
  svc : Svc := {}
  deriving DecidableEq, Repr

/-- No meaning of the block stops with a fault: the spec records errors and goes on. -/
inductive Fault where
  /-- Raised by no meaning. Safe. -/
  | none
  deriving DecidableEq, Repr

inductive Refusal where
  /-- Raised by `exec` for a row without a meaning; no row is without one. Safe. -/
  | notModelled (mnemonic : String)
  /-- Raised by TAP_INSTRUCTION for an instruction into the 1687 network of an unlocked test port, whose instruments
  the spec does not describe (R415). Safe. -/
  | debugInstrument
  deriving DecidableEq, Repr

def State.reset : State := {}

end Sys2Proof.Machine
end

