-- ==== Sys2Proof/Machine/Addr.lean ====
section
/-! DEFINITION. Agent numbers, ports, stop positions and the address hashes (chapters 2 and 3). A line address
`a` is bits `a[51:6]`, so its bit i is address bit i + 6. -/

namespace Sys2Proof.Machine

/-- Address bits `[lo + w - 1 : lo]` of a line address. -/
def abits (a : LineAddr) (lo w : Nat) : BitVec w := a.extractLsb' (lo - 6) w

/-- The logical slice of a line (R23). -/
def lsliceOf (a : LineAddr) : BitVec 7 :=
  abits a 6 7 ^^^ abits a 13 7 ^^^ abits a 20 7 ^^^ abits a 27 7 ^^^ abits a 34 7 ^^^ abits a 41 7
    ^^^ (abits a 48 4).setWidth 7

/-- The snoop-filter set of a line (R24). -/
def sfSetOf (a : LineAddr) : BitVec 13 := abits a 13 13 ^^^ abits a 26 13 ^^^ abits a 39 13

/-- The snoop-filter tag of a line (R25). -/
def sfTagOf (a : LineAddr) : BitVec 26 := abits a 26 26

/-- Put together a line address from `a[51:13]` for logical slice `s`, recovering `a[12:6]` (R25, R226). -/
def addrOfRegion (s : BitVec 7) (r : BitVec 39) : LineAddr :=
  let hi : LineAddr := r.setWidth 46 <<< 7
  hi ||| (s ^^^ lsliceOf hi).setWidth 46

/-- Recover a line address from tag, set and logical slice (R25). -/
def sfRecover (s : BitVec 7) (set : BitVec 13) (tag : BitVec 26) : LineAddr :=
  addrOfRegion s (tag ++ (set ^^^ tag.extractLsb' 0 13 ^^^ tag.extractLsb' 13 13))

/-- The home line cache set of a line (R26). -/
def hsetOf (a : LineAddr) : BitVec 8 :=
  abits a 13 8 ^^^ abits a 21 8 ^^^ abits a 29 8 ^^^ abits a 37 8 ^^^ (abits a 45 7).setWidth 8

/-- The home line cache tag of a line (R26). -/
def htagOf (a : LineAddr) : BitVec 31 := abits a 21 31

/-- Recover a line address from a home line cache position (R26). -/
def hRecover (s : BitVec 7) (set : BitVec 8) (tag : BitVec 31) : LineAddr :=
  addrOfRegion s (tag ++ (set ^^^ tag.extractLsb' 0 8 ^^^ tag.extractLsb' 8 8 ^^^ tag.extractLsb' 16 8
    ^^^ (tag.extractLsb' 24 7).setWidth 8))

/-- The region `a[51:13]` of a line (R225). -/
def regionOf (a : LineAddr) : BitVec 39 := abits a 13 39

/-- The predictor entry of a line (R198). -/
def predOf (a : LineAddr) : Nat :=
  (abits a 6 10 ^^^ abits a 16 10 ^^^ abits a 26 10 ^^^ abits a 36 10 ^^^ (abits a 46 6).setWidth 10).toNat

/-- The port that serves a node identifier, by port index of R280 (Tables 2.2 and 4.4); none for a slice stop. -/
def portOfNode (n : Nat) : Option Nat :=
  if n < 32 then some (n / 2)
  else if n < 48 then some (16 + (n - 32) / 4)
  else if n < 64 then some (n - 48 + 32)
  else if n < 320 then some ((n - 64) / 16 + 32)
  else if n = 452 then some 48
  else if 1008 ≤ n ∧ n < 1020 then some (n - 1008 + 20)
  else if n = 1020 then some 48
  else if n = 1021 then some 49
  else none

/-- The slice stop that serves a node identifier: its spoke engine or its cadence probe (R68). -/
def sliceOfNode (n : Nat) : Option Nat :=
  if 320 ≤ n ∧ n < 452 then some (n - 320)
  else if 460 ≤ n ∧ n < 592 then some (n - 460)
  else none

/-- Agent numbers that Table 2.1 allocates. -/
def isAgent (n : Nat) : Bool := n ≤ 452 || (460 ≤ n && n < 592)

def isCA (n : Nat) : Bool := n < 64
def isNCR (n : Nat) : Bool := 64 ≤ n && n < 320
def isEngine (n : Nat) : Bool := 320 ≤ n && n < 452
def isProbe (n : Nat) : Bool := 460 ≤ n && n < 592

/-- Node identifiers valid as a sender (Table 4.4). -/
def validSrc (n : Nat) : Bool := isAgent n || (1008 ≤ n && n ≤ 1021) || n == 1023

/-- Node identifiers valid as a destination (Table 4.4). -/
def validDst (n : Nat) : Bool := isAgent n || (1008 ≤ n && n ≤ 1023)

/-- The pair of a physical slice (R9). -/
def pairOfSlice (p : Nat) : Nat := p / 44

/-- The ring position of a slice stop, by its local index (Table 3.1). -/
def slicePos (p : Nat) : Nat :=
  let i := p % 44
  if i < 11 then 2 * i + 1 else if i < 22 then 2 * i + 2 else if i < 33 then 2 * i + 4 else 2 * i + 5

/-- Positions of DP0 to DP19 on pair 0 (Table 3.3). -/
def dpPos : List Nat := [14, 22, 10, 33, 61, 6, 37, 93, 41, 46, 53, 57, 65, 69, 76, 80, 29, 84, 18, 88]

/-- Positions of MP0 to MP11 (Table 3.2). -/
def mpPos : List Nat := [0, 8, 16, 23, 31, 39, 47, 55, 63, 70, 78, 86]

/-- Positions of IP0 to IP15 (Table 3.2). -/
def ipPos : List Nat := [2, 4, 12, 20, 25, 27, 35, 43, 49, 51, 59, 67, 72, 74, 82, 90]

/-- The position of port `n` on the rings of pair `q` (R35). -/
def portPos (q n : Nat) : Nat :=
  if n < 20 then dpPos.getD ((n + 7 * q) % 20) 0
  else if n < 32 then mpPos.getD (n - 20) 0
  else if n < 48 then ipPos.getD (n - 32) 0
  else if n = 48 then 45 else 92

/-- The position of a stop on ring `r`. -/
def stopPos (r : Nat) : Stop → Nat
  | .slice p => slicePos p
  | .port n => portPos (r / 2) n

/-- The stop attaches to ring `r` (R34, R35). -/
def stopOn (r : Nat) : Stop → Bool
  | .slice p => r / 2 == pairOfSlice p
  | .port _ => true

/-- Whether a stop of ring `r` stands at a position. -/
def stopIsAt (r pos : Nat) (st : Stop) : Bool := stopOn r st && stopPos r st == pos

/-- The stop at a position of ring `r` (Tables 3.1 to 3.3). -/
def stopAt (r pos : Nat) : Option Stop :=
  match (List.finRange 50).find? (fun n : Fin 50 => stopIsAt r pos (.port n)) with
  | some n => some (.port n)
  | none => ((List.finRange 132).find? (fun p : Fin 132 => stopIsAt r pos (.slice p))).map .slice

/-- The class of an opcode, none where Table 4.6 lists no such opcode (R69, R70). -/
def classOf (opc : Nat) : Option MClass :=
  if opc ≤ 0x08 then some .req
  else if 0x10 ≤ opc ∧ opc ≤ 0x12 then some .wb
  else if 0x18 ≤ opc ∧ opc ≤ 0x1B then some .mnt
  else if 0x20 ≤ opc ∧ opc ≤ 0x25 then some .fwd
  else if 0x28 ≤ opc ∧ opc ≤ 0x35 then some .rsp
  else if 0x38 ≤ opc ∧ opc ≤ 0x3F then some .dat
  else none

/-- CLASS of Table 4.5. -/
def classCode : MClass → Nat
  | .req => 0
  | .wb => 1
  | .mnt => 2
  | .fwd => 3
  | .rsp => 4
  | .dat => 5

/-- The slice-map copy index (R29): 0 to 49 the ports, 50 the steward port's, 51 the host-function port's. -/
def stewardCopy : Nat := 50
def hostCopy : Nat := 51

/-- The copy through which a sender's home-addressed flits pass (R29). -/
def copyOfSender (src : Nat) : Nat :=
  if src < 320 then (portOfNode src).getD 0
  else if src = 1021 then hostCopy
  else stewardCopy

end Sys2Proof.Machine
end

