-- ==== Sys2Proof/Machine/Ops.lean ====
section
/-! DEFINITION. The shared operations on the state: access to slices, events, counters, error records, the
sending of messages, and memory regions. -/

namespace Sys2Proof.Machine

open Sys2Proof

/-- Give the machine's next state. -/
abbrev Out := Host.Outcome State Fault Refusal

/-- One more, saturating. -/
def satInc16 (v : BitVec 16) : BitVec 16 := if v = 0xFFFF then v else v + 1

/-- Bytes to a little-endian number (R4). -/
def leNat : List Byte → Nat
  | [] => 0
  | b :: rest => b.toNat + 256 * leNat rest

/-- Take the first copy of a value out of a list. -/
def takeFirst {α : Type} [DecidableEq α] (a : α) : List α → List α
  | [] => []
  | x :: rest => if x = a then rest else x :: takeFirst a rest

/-- Queue key of an ejection queue (R37). -/
def eKey (r c : Nat) : Nat := 8 * r + c

/-- Physical slice `p`. -/
def State.slice (s : State) (p : Nat) : Slice := s.slices.get Slice.reset p

/-- Replace physical slice `p`. -/
def State.setSlice (s : State) (p : Nat) (x : Slice) : State :=
  { s with slices := s.slices.set Slice.reset p x }

/-- Change physical slice `p`. -/
def State.modSlice (s : State) (p : Nat) (f : Slice → Slice) : State := s.setSlice p (f (s.slice p))

def State.eng (s : State) (e : Nat) : Eng := s.engines.get Eng.reset e
def State.modEng (s : State) (e : Nat) (f : Eng → Eng) : State :=
  { s with engines := s.engines.set Eng.reset e (f (s.eng e)) }

/-- Change one unit of the block. -/
def State.modStw (s : State) (f : Steward → Steward) : State := { s with stw := f s.stw }
def State.modLoader (s : State) (f : Loader → Loader) : State := { s with loader := f s.loader }
def State.modIag (s : State) (f : Iag → Iag) : State := { s with iag := f s.iag }
def State.modPmc (s : State) (f : Pmc → Pmc) : State := { s with pmc := f s.pmc }
def State.modPwr (s : State) (f : Pwr → Pwr) : State := { s with pwr := f s.pwr }
def State.modGlb (s : State) (f : Glb → Glb) : State := { s with glb := f s.glb }
def State.modRas (s : State) (f : Ras → Ras) : State := { s with ras := f s.ras }

/-- The restore window is open: within it alone are entries accepted that the manual accepts only before slices are
enabled (R326). -/
def State.restoring (s : State) : Bool := s.rst.restoreAt.isSome && !s.rst.restoreClosed

/-- Count a write that carried a non-zero value into a reserved field (R6). -/
def State.noteRsvd (s : State) (nonzero : Bool) : State :=
  if nonzero then s.modGlb fun g => { g with rsvdWr := if g.rsvdWr = 0xFFFF then 0xFFFF else g.rsvdWr + 1 } else s

def noRing (_ : Nat) : Ring := {}

def State.ring (s : State) (r : Nat) : Ring := s.rings.get noRing r
def State.modRing (s : State) (r : Nat) (f : Ring → Ring) : State :=
  { s with rings := s.rings.set noRing r (f (s.ring r)) }

def State.port (s : State) (n : Nat) : Port := s.ports.get Port.dflt n
def State.modPort (s : State) (n : Nat) (f : Port → Port) : State :=
  { s with ports := s.ports.set Port.dflt n (f (s.port n)) }

/-- Send event source `n` on its way to the aggregator (R284). -/
def State.fire (s : State) (n : Nat) : State :=
  { s with iag := { s.iag with arrived := s.iag.arrived ++ [n] } }

/-- A slice's event source (Tables 9.11, 11.13, R215). -/
def State.fireSlice (s : State) (p k : Nat) : State := s.fire (8 * p + k)

/-- A port's and a ring's event source (Tables 14.2 and 3.7). -/
def State.firePort (s : State) (n k : Nat) : State := s.fire (1056 + 4 * n + k)
def State.fireRing (s : State) (r k : Nat) : State := s.fire (1256 + 8 * r + k)

/-- A domain that Coast and Freewheel stop (Table 19.2). -/
def stateDom (d : Nat) : Bool := decide (d ≤ 321) && d != 319

/-- FCLK runs: `kh_rst_n` is released, the PLL has locked and the clock is not lost (R395, R417, R383). -/
def State.fclkRuns (s : State) : Bool := s.rst.released && s.clk.pllLock && !s.clk.lost.contains 0

/-- A domain's power is off, or its clock gated, in the present state (R350). -/
def Pwr.domOff (p : Pwr) (d : Nat) : Bool := p.off.contains d || (p.state == 2 && stateDom d)
def Pwr.domGated (p : Pwr) (d : Nat) : Bool := p.gated.contains d || (p.state == 1 && stateDom d)

/-- The logic or the arrays of physical slice `p` are off or their clock is gated (Table 19.1). -/
def State.sliceStopped (s : State) (p : Nat) : Bool :=
  s.pwr.domOff p || s.pwr.domGated p || s.pwr.domOff (132 + p) || s.pwr.domGated (132 + p)

/-- The clock of a port's counters, by INDEX of Table 21.1. -/
def portClock (n : Nat) : Nat :=
  if n < 20 then 2 + n else if n < 32 then 2 + n else if n = 49 then 34 else 0

/-- The clock of a counter, and the domain whose gate stops it (Table 16.1); the host-function port's is never gated
(R349). -/
def pmcClock (c : Nat) : Nat :=
  if c < 1152 then 0 else if c < 1552 then portClock ((c - 1152) / 8) else 1
def pmcDomain (c : Nat) : Nat :=
  if c < 1056 then c / 8
  else if c < 1152 then 264 + (c - 1056) / 16
  else if c < 1552 then 270 + (c - 1152) / 8
  else 321

/-- Counter `c` does not change: the block is in Coast or Freewheel, or the counter's clock is stopped or gated (R308,
R310). -/
def State.pmcHeld (s : State) (c : Nat) : Bool :=
  s.pwr.state != 0 || s.clk.lost.contains (pmcClock c) || s.pwr.domOff (pmcDomain c) || s.pwr.domGated (pmcDomain c)

/-- Add to one performance counter, noting a wrap (R306). -/
def Pmc.add (m : Pmc) (c amount : Nat) : Pmc :=
  let old := m.cnt.get zero48 c
  let new := old + BitVec.ofNat 48 amount
  { m with
    cnt := m.cnt.set zero48 c new
    wrapped := if old.toNat + amount < 2 ^ 48 then m.wrapped else m.wrapped ++ [c] }

/-- Whether counter `c` counts occurrences of event `code` with class qualifier `q` (R306, Table 16.3);
`ring` says that QUAL applies. -/
def Pmc.counts (m : Pmc) (c code q : Nat) (ring : Bool) : Bool :=
  let v := m.sel.get pmcSelReset c
  !m.freeze && v.getLsbD 24 && !v.getLsbD 8 && v.extractLsb' 0 8 == BitVec.ofNat 8 code
    && (!ring || v.extractLsb' 21 3 == 7 || v.extractLsb' 21 3 == BitVec.ofNat 3 q)

/-- Count `amount` occurrences of an event in the `n` counters from `base` (R305, R306). -/
def Pmc.event (m : Pmc) (base n code q : Nat) (ring : Bool) (amount : Nat) : Pmc :=
  (List.range n).foldl
    (fun m j => if m.counts (base + j) code q ring then m.add (base + j) amount else m) m

/-- Occurrences counted in the `n` counters from `base`, which have one owner, unless they are held (R308). -/
def State.pmcEvent (s : State) (base n code q : Nat) (ring : Bool) (amount : Nat) : State :=
  { s with pmc := if s.pmcHeld base then s.pmc else s.pmc.event base n code q ring amount }

/-- Occurrences of a slice event (Table 16.6). -/
def State.slcEvent (s : State) (p code : Nat) (amount : Nat := 1) : State := s.pmcEvent (8 * p) 8 code 7 false amount

/-- Occurrences of a ring event of class `q`, 7 for events of no class. -/
def State.ringEvent (s : State) (r code : Nat) (q : Nat := 7) (amount : Nat := 1) : State :=
  s.pmcEvent (1056 + 16 * r) 16 code q (q < 6) amount

/-- Occurrences of a port event. -/
def State.portEvent (s : State) (n code : Nat) (amount : Nat := 1) : State :=
  s.pmcEvent (1152 + 8 * n) 8 code 7 false amount

/-- Occurrences of a global event. -/
def State.glbEvent (s : State) (code : Nat) (amount : Nat := 1) : State :=
  s.pmcEvent 1552 32 code 7 false amount

/-- The counted occurrences of a slice: each has an accumulator, and all but the last two an RC field (R324). -/
inductive Cnt where
  | brk | crqWait
  | fwdOwn | drain | stale | perr
  | vict | ovf | wait | migr
  | sfCorr | sfUncorr
  | autoNear | autoFar | builtin | program
  | dQfull | dSlot | dPoison | dHlc
  | progFault
  | hCorr | hUncorr
  | hit | miss | dirtyEvict | notKept
  | pfIssued | pfDropMshr | pfDropCred | pfUseful
  | creditDiscard
  deriving DecidableEq, Repr

/-- The cap at which an RC field saturates (Tables 5.9, 6.11, 9.8, 9.9, 10.9 to 10.11, 11.11, 11.12). -/
def Cnt.cap : Cnt → Nat
  | .hit | .miss | .dirtyEvict | .notKept => 0xFFFFFFFF
  | .progFault => 0xFF
  | _ => 0xFFFF

/-- The slice event of Table 16.6 that counts the same occurrences. -/
def Cnt.pmc : Cnt → Option Nat
  | .fwdOwn => some 0x03
  | .drain => some 0x04
  | .brk => some 0x05
  | .perr => some 0x06
  | .hit => some 0x07
  | .miss => some 0x08
  | .vict => some 0x09
  | .builtin | .program => some 0x0A
  | .dQfull | .dSlot | .dPoison | .dHlc => some 0x0B
  | _ => none

/-- Count one occurrence: the saturating RC field, the wrapping accumulator and the performance counters. -/
def State.count (s : State) (p : Nat) (c : Cnt) : State :=
  let s := s.modSlice p fun x =>
    { x with
      cnt := x.cnt.set zeroNat c.ctorIdx (satAdd c.cap (x.cnt.get zeroNat c.ctorIdx) 1)
      acc := x.acc.set zero32 c.ctorIdx (x.acc.get zero32 c.ctorIdx + 1) }
  match c.pmc with
  | some code => s.slcEvent p code
  | none => s

def State.modSaf (s : State) (f : Saf → Saf) : State := { s with saf := f s.saf }
def State.modSpare (s : State) (f : Spare → Spare) : State := { s with spare := f s.spare }
def State.modClk (s : State) (f : Clk → Clk) : State := { s with clk := f s.clk }
def State.modRst (s : State) (f : Rst → Rst) : State := { s with rst := f s.rst }
def State.modHfn (s : State) (f : Hfn → Hfn) : State := { s with hfn := f s.hfn }
def State.modSvc (s : State) (f : Svc → Svc) : State := { s with svc := f s.svc }

/-- A register of a unit whose clock or power Coast and Freewheel stop: then only the host reaches it, its access is
discarded and counts in GATED_ACC (R355, Table 19.7). -/
def State.regWrite (s : State) (f : State → State) : State :=
  if s.pwr.state != 0 then s.modPwr fun p => { p with gatedAcc := satInc16 p.gatedAcc } else f s

/-- Power a domain off, its edges latched, or on again; release its edges (R354, R359). -/
def Pwr.offDom (p : Pwr) (d : Nat) : Pwr :=
  { p with
    off := if p.off.contains d then p.off else p.off ++ [d]
    held := if p.held.contains d then p.held else p.held ++ [d] }
def Pwr.onDom (p : Pwr) (d : Nat) : Pwr := { p with off := p.off.filter (· != d) }
def Pwr.release (p : Pwr) (d : Nat) : Pwr := { p with held := p.held.filter (· != d) }

/-- The steward firmware runs, is not stopped for a power state, and its outputs leave the tandem (R16, R250, R352). -/
def State.stewardRuns (s : State) : Bool := s.stw.running && !s.pwr.stwStopped && !s.stw.lsMismatch

/-- Note a row marked for automatic sparing (R371). -/
def State.noteMark (s : State) (p : Nat) : State :=
  s.modSpare fun x => { x with marks := x.marks.set noNats p ((x.marks.get noNats p) ++ [s.time]) }

/-- The ECLK that passes: every second FCLK (R392). -/
def State.eclk (s : State) : Nat := s.fclk / 2

/-- A detection of code `c` is captured: none is yet, or one of the same ECLK with a higher code (R385). -/
def State.fatalFirst (s : State) (c : BitVec 8) : Bool :=
  match s.saf.fatal with
  | none => true
  | some f => f.eclk == s.eclk && decide (c.toNat < f.code.toNat)

/-- Capture the first block-fatal detection, in one ECLK the lowest code (R385). -/
def State.noteFatal (s : State) (e : ErrRec) : State :=
  if s.fatalFirst e.code then
    s.modSaf fun x => { x with
      fatal := some { code := e.code, unit := e.unit, index := e.index, seq := none, eclk := s.eclk } }
  else s

/-- Send an error record toward the collector; a corrected error makes none while CORR_LOG is clear (R364). -/
def State.record (s : State) (e : ErrRec) : State :=
  if e.cls = 0 ∧ s.ras.corrLog = false then s
  else
    let s := if e.cls = 2 then s.noteFatal e else s
    let s := if e.code = 0x02 then s.noteMark e.index else s
    s.modRas fun x => { x with inflight := x.inflight ++ [{ e with time := s.time, eclk := s.eclk }] }

/-- An error of physical slice `p` (Table 20.2). -/
def State.sliceErr (s : State) (p : Nat) (cls code : Nat) (addr : Option LineAddr := none)
    (agent : Option (BitVec 10) := none) (detail : BitVec 64 := 0) (extra : BitVec 16 := 0)
    (byTest : Bool := false) : State :=
  s.record { cls := BitVec.ofNat 2 cls, unit := 0, index := p, code := BitVec.ofNat 8 code, addr, agent, detail,
             extra, byTest }

/-- The slice is being evacuated, from step 1 of R30 on (R170, R234). -/
def State.evacHeld (s : State) (p : Nat) : Bool :=
  match s.spare.run with
  | some v => v.old == p && decide (1 ≤ v.step)
  | none => false

/-- The ports of a region in PORTMASK order. -/
def rgnPorts (v : BitVec 64) : List Nat := (List.range 12).filter (fun m => v.getLsbD (44 + m))

/-- A region contains some address and is enabled (R27, Table 2.5). -/
def rgnLive (v : BitVec 64) : Bool :=
  v.getLsbD 63 && !(rgnPorts v).isEmpty && decide ((v.extractLsb' 0 22).toNat ≤ (v.extractLsb' 22 22).toNat)

/-- The line lies in the region. -/
def rgnHas (v : BitVec 64) (a : LineAddr) : Bool :=
  rgnLive v && decide ((v.extractLsb' 0 22).toNat ≤ (abits a 30 22).toNat)
    && decide ((abits a 30 22).toNat ≤ (v.extractLsb' 22 22).toNat)

/-- The interleave granule as a shift of the 52-bit address (Table 2.5). -/
def rgnShift (v : BitVec 64) : Nat :=
  if v.extractLsb' 56 2 = 0 then 8 else if v.extractLsb' 56 2 = 1 then 12
  else if v.extractLsb' 56 2 = 2 then 16 else 21

/-- The memory port of a line, none where no enabled region has it (R27). -/
def State.portOf (s : State) (a : LineAddr) : Option Nat :=
  match (List.range 16).find? (fun n => rgnHas (s.glb.rgn.get zero64 n) a) with
  | none => none
  | some n =>
    let v := s.glb.rgn.get zero64 n
    let ports := rgnPorts v
    ports[((a.toNat * 64) >>> rgnShift v) % ports.length]?

/-- The flit of a message before injection: DKIND and DEST by its destination, a home at physical slice `phys`
(Table 4.2, R68). -/
def flitOf (m : Msg) (phys : Nat) : Flit :=
  if m.dst = 1023 then { dkind := 0, dest := BitVec.ofNat 10 phys, orig := 0, dir1 := false, msg := m }
  else if m.dst = 1022 then
    { dkind := if m.opc = 0x19 then 3 else 2, dest := 0, orig := 0, dir1 := false, msg := m }
  else { dkind := 1, dest := m.dst, orig := 0, dir1 := false, msg := m }

/-- Queue a message for injection at slice `p`'s stop, or hand it to the slice's own engine or probe; one for another
slice's engine goes to the steward port, which relays it (R9). -/
def State.emit (s : State) (p : Nat) (m : Msg) : State :=
  s.modSlice p fun x =>
    if m.dst = BitVec.ofNat 10 (320 + p) ∨ m.dst = BitVec.ofNat 10 (460 + p) then
      { x with local_ := x.local_ ++ [m] }
    else
      let f := flitOf m 0
      let f := if isEngine m.dst.toNat then { f with dest := 1020 } else f
      { x with stop := { x.stop with outbox := x.stop.outbox ++ [f] } }

/-- A message of opcode `opc`, with the class Table 4.6 gives it. -/
def mkMsg (opc : Nat) (src dst : BitVec 10) : Msg :=
  { cls := BitVec.ofNat 3 (((classOf opc).map classCode).getD 7), opc := BitVec.ofNat 6 opc, src, dst }

/-- A home's message about a line (R68, Table 4.6). -/
def Slice.homeMsg (x : Slice) (opc : Nat) (dst : BitVec 10) (a : LineAddr) : Msg :=
  { mkMsg opc 1023 dst with home := x.lslice, addr := a }

end Sys2Proof.Machine
end

