-- ==== Sys2Proof/Machine/Operands.lean ====
section
/-! DEFINITION. The flit as 768 bits: its regions, header, routing fields and the two checks (R60 to R67, R78). -/

namespace Sys2Proof.Machine

/-- CRC-32C over bits in transmission order (R66). -/
def crc32c (bits : List Bool) : BitVec 32 :=
  ~~~(bits.foldl (fun (c : BitVec 32) b =>
    if (c.getLsbD 0 ^^ b) then (c >>> 1) ^^^ 0x82F63B78 else c >>> 1) 0xFFFFFFFF)

/-- CRC-8 with polynomial x⁸ + x² + x + 1 over bits in transmission order (R66). -/
def crc8 (bits : List Bool) : BitVec 8 :=
  bits.foldl (fun (c : BitVec 8) b => if (c.getLsbD 7 ^^ b) then (c <<< 1) ^^^ 0x07 else c <<< 1) 0

/-- The bits of a byte sequence, each byte least significant bit first. -/
def bitsLsb (bytes : List Byte) : List Bool := bytes.flatMap (fun b => (List.range 8).map (fun i => b.getLsbD i))

/-- The bits of a byte sequence, each byte most significant bit first. -/
def bitsMsb (bytes : List Byte) : List Bool := bytes.flatMap (fun b => (List.range 8).map (fun i => b.getLsbD (7 - i)))

/-- Byte `k` of a vector (R4). -/
def byteAt {w : Nat} (v : BitVec w) (k : Nat) : Byte := v.extractLsb' (8 * k) 8

/-- `n` little-endian bytes of a number (R4). -/
def leBytes (n v : Nat) : List Byte := (List.range n).map fun i => BitVec.ofNat 8 (v / 256 ^ i)

/-- Bytes `lo` to `hi` of a vector. -/
def bytesOf {w : Nat} (v : BitVec w) (lo hi : Nat) : List Byte := (List.range (hi + 1 - lo)).map (fun i => byteAt v (lo + i))

/-- Header, AGE, POISON and payload: flit bits 735:48 (Tables 4.1 and 4.3). -/
def msgBits (m : Msg) : BitVec 688 :=
  m.data ++ m.poison ++ m.age ++ (0 : BitVec 12) ++ BitVec.ofBool m.cret ++ m.stat ++ m.stream ++ m.aux ++ m.hint
    ++ m.aop ++ m.len ++ m.offs ++ m.addr ++ m.home ++ m.htag ++ m.txn ++ m.reqid ++ m.dst ++ m.src ++ m.opc ++ m.cls

/-- Read a message from flit bits 735:48; the reserved bits are ignored (R62). -/
def msgOfBits (v : BitVec 688) : Msg :=
  { cls := v.extractLsb' 0 3, opc := v.extractLsb' 3 6, src := v.extractLsb' 9 10, dst := v.extractLsb' 19 10
    reqid := v.extractLsb' 29 10, txn := v.extractLsb' 39 12, htag := v.extractLsb' 51 8, home := v.extractLsb' 59 7
    addr := v.extractLsb' 66 46, offs := v.extractLsb' 112 6, len := v.extractLsb' 118 7, aop := v.extractLsb' 125 4
    hint := v.extractLsb' 129 2, aux := v.extractLsb' 131 8, stream := v.extractLsb' 139 4, stat := v.extractLsb' 143 4
    cret := v.getLsbD 147, age := v.extractLsb' 160 8, poison := v.extractLsb' 168 8, data := v.extractLsb' 176 512 }

/-- The routing field of a chainring above RCHK: flit bits 47:8 (Table 4.2). -/
def ringRouting (f : Flit) (seq : BitVec 12) : BitVec 40 :=
  f.revpos ++ BitVec.ofBool f.rev ++ BitVec.ofBool f.dir1 ++ f.orig ++ f.dest ++ f.dkind ++ seq

/-- The routing field of a die link above RCHK (Table 4.10). -/
def dieRouting (slot : BitVec 2) (dest : BitVec 10) (seq ackSeq : BitVec 12) (ackV rpl : Bool) : BitVec 40 :=
  (0 : BitVec 2) ++ BitVec.ofBool rpl ++ BitVec.ofBool ackV ++ ackSeq ++ dest ++ slot ++ seq

/-- RCHK over bytes 1 to 5 (R66). -/
def rchkOf (routing : BitVec 40) : BitVec 8 := crc8 (bitsMsb (bytesOf routing 0 4))

/-- The CRC over bytes 6 to 91 (R66). -/
def crcOf (body : BitVec 688) : BitVec 32 := crc32c (bitsLsb (bytesOf body 0 85))

/-- A whole flit (Table 4.1). -/
def packFlit (routing : BitVec 40) (body : BitVec 688) : BitVec 768 := crcOf body ++ body ++ routing ++ rchkOf routing

/-- The regions of a received flit. -/
def rawRouting (raw : BitVec 768) : BitVec 40 := raw.extractLsb' 8 40
def rawBody (raw : BitVec 768) : BitVec 688 := raw.extractLsb' 48 688

/-- Both checks of R67 pass. -/
def rawGood (raw : BitVec 768) : Bool :=
  raw.extractLsb' 0 8 == rchkOf (rawRouting raw) && raw.extractLsb' 736 32 == crcOf (rawBody raw)

/-- RCHK alone passes, as it is checked on an idle slot (R79). -/
def rawRchk (raw : BitVec 768) : Bool := raw.extractLsb' 0 8 == rchkOf (rawRouting raw)

/-- SEQ of a received flit. -/
def rawSeq (raw : BitVec 768) : BitVec 12 := raw.extractLsb' 8 12

/-- SLOT of a received die-link slot (Table 4.10). -/
def rawSlot (raw : BitVec 768) : BitVec 2 := raw.extractLsb' 20 2

/-- The flit a received ring flit carries. -/
def ringFlit (raw : BitVec 768) : Flit :=
  { dkind := raw.extractLsb' 20 2, dest := raw.extractLsb' 22 10, orig := raw.extractLsb' 32 7
    dir1 := raw.getLsbD 39, rev := raw.getLsbD 40, revpos := raw.extractLsb' 41 7, msg := msgOfBits (rawBody raw) }

end Sys2Proof.Machine
end

