-- ==== Sys2Proof/Machine/ForgopoOps.lean ====
section
/-! DEFINITION. Forgopo messages and sessions: headers, answers and the sequence numbers (R317 to R323, R330). -/

namespace Sys2Proof.Machine

/-- The owner of a session on a route: an endpoint, or the mailbox (R317, R322). -/
def ownerOf : Route → Option Byte
  | .svc e => some e
  | .mbx => none

/-- SCLK runs, so the service port and the mailbox are served (Table 20.6). -/
def State.sclk (s : State) : Bool := !(s.clk.lost.contains 35)

/-- The next sequence number (R321). -/
def nextSeq (v : BitVec 16) : BitVec 16 := if v = 0xFFFF then 1 else v + 1

/-- A Forgopo answer (Table 17.1). -/
def fgAnswer (ty : Byte) (n tx rx : BitVec 16) (status detail : Byte) (body : List Byte) : List Byte :=
  [1, ty ||| 0x80] ++ leBytes 2 n.toNat ++ leBytes 2 tx.toNat ++ leBytes 2 rx.toNat ++ leBytes 2 body.length
    ++ [status, detail] ++ body

/-- The device characteristic code of an MCTP endpoint, and the mandatory data byte of a pending read, that R316 takes
from the MCTP I3C transport binding. PRESUMED (log 12). -/
def mctpDcr : Byte := 0xCC
def mctpPending : Byte := 0xAE

/-- The packets of one message: 64 bytes of payload each, the last one shorter, numbered in order (R317). -/
def mctpPackets (dst : Byte) (tag : BitVec 3) (first : BitVec 2) (b : List Byte) : List MctpOut :=
  let n := (b.length + 63) / 64
  (List.range n).map fun i =>
    { dst, tag, som := i == 0, eom := i + 1 == n, seq := first + BitVec.ofNat 2 i, payload := (b.drop (64 * i)).take 64 }

/-- Put one message on the bus; its first packet raises an in-band interrupt unless DISEC has disabled them (R316,
R317). -/
def Svc.put (v : Svc) (m : Byte × BitVec 3 × List Byte) : Svc :=
  { v with
    sent := v.sent ++ [m]
    packets := v.packets ++ mctpPackets m.1 m.2.1 (Config.firstSeq v.sent.length) m.2.2
    ibis := if v.events.getLsbD 0 then v.ibis ++ [mctpPending] else v.ibis }

/-- Send the answers that wait: nothing goes out while a length below 69 is set (R316). -/
def State.svcFlush (s : State) : State :=
  if s.svc.mwl.toNat < 69 ∨ s.svc.mrl.toNat < 69 ∨ s.sclk = false then s
  else s.modSvc fun v => { v.outbox.foldl Svc.put v with outbox := [] }

/-- An MCTP message that waits to be sent to an endpoint (R317). -/
def State.mctpSend (s : State) (dst : Byte) (tag : BitVec 3) (b : List Byte) : State :=
  (s.modSvc fun v => { v with outbox := v.outbox ++ [(dst, tag, b)] }).svcFlush

/-- What precedes a Forgopo message in its MCTP message: the type and the vendor identifier, most significant byte
first (R317; PRESUMED MCTP, log 12). -/
def State.vdmHead (s : State) : List Byte :=
  [0x7E, s.straps.hfnVid.extractLsb' 8 8, s.straps.hfnVid.extractLsb' 0 8]

/-- Hand an answer to its route (R317, R330 step 3). -/
def State.sendTo (s : State) (peer : Peer) (b : List Byte) : State :=
  match peer.rt with
  | .svc e => s.mctpSend e peer.tag (s.vdmHead ++ b)
  | .mbx => (s.modSvc fun v => { v with rsp := b, rspReady := true, busy := false }).fire 1442

/-- The open session of a number that belongs to a route. -/
def State.session (s : State) (rt : Route) (n : BitVec 16) : Option Session :=
  s.svc.sessions.find? fun x => x.n == n && x.owner == ownerOf rt

def State.modSession (s : State) (n : BitVec 16) (f : Session → Session) : State :=
  s.modSvc fun v => { v with sessions := v.sessions.map fun x => if x.n = n then f x else x }

/-- Answer a new request that was carried out: its sequence numbers and answer are kept (R321). -/
def State.answer (s : State) (peer : Peer) (n tx : BitVec 16) (ty status detail : Byte) (body : List Byte) : State :=
  match s.session peer.rt n with
  | none => s
  | some x =>
    let out := nextSeq x.lastTx
    let b := fgAnswer ty n out tx status detail (if status = 0 then body else [])
    (s.modSession n fun x => { x with
      lastRx := tx, lastTx := out, answer := b, lastType := ty, lastStatus := status }).sendTo peer b

/-- Answer SEQ_ERROR: the island's next TXSEQ and its unchanged RXSEQ (R321; log 62). -/
def State.seqError (s : State) (peer : Peer) (x : Session) (ty : Byte) : State :=
  let out := nextSeq x.lastTx
  (s.modSession x.n fun x => { x with lastTx := out }).sendTo peer (fgAnswer ty x.n out x.lastRx 8 0 [])

/-- A WRITE that was in progress has ended: it is answered, unless a reset of the mailbox dropped its answer (R325,
R330). -/
def State.awaitEnd (s : State) (kind : AwaitKind) (status detail : Byte) : State :=
  match s.svc.await with
  | some a =>
    if a.kind = kind then (s.modSvc fun v => { v with await := none }).answer a.peer a.n a.tx 4 status detail []
    else s
  | none => s

end Sys2Proof.Machine
end

