-- ==== Sys2Proof/Machine/Credits.lean ====
section
/-! DEFINITION. Tracker credits of a slice: allowances, the shared pool, credit requests and grants (R83 to R92),
and the effective age of a request (R99). -/

namespace Sys2Proof.Machine

/-- The holder index of an external holder (R85). -/
def holderOf (src : Nat) : Option Nat :=
  if src < 64 then some src else if src < 320 then some (64 + (src - 64) / 16) else none

/-- The pool of reserved credits a sender draws on at slice `p`: 0 to 79 the external holders, 80 the own engine,
81 the own probe, 82 the steward port, 83 none (Table 5.2). -/
def poolOf (p src : Nat) : Nat :=
  match holderOf src with
  | some h => h
  | none =>
    if src = 320 + p then 80 else if src = 460 + p then 81
    else if src = 452 ∨ isEngine src then 82 else 83

/-- Reserved entries of a pool (Table 5.2). -/
def poolSize (g : Nat) : Nat :=
  if g < 64 then 1 else if g < 80 then 2 else if g = 80 then 4 else if g = 81 then 1
  else if g = 82 then 11 else 0

/-- The trackers in use, by index. -/
def Slice.used (x : Slice) : List (Nat × Trk) := x.trks.filterMap (fun e => e.2.map (fun t => (e.1, t)))

def Slice.trk (x : Slice) (t : Nat) : Option Trk := x.trks.get noTrk t

def Slice.setTrk (x : Slice) (t : Nat) (k : Option Trk) : Slice := { x with trks := x.trks.set noTrk t k }

/-- Change tracker `t`, if it is in use. -/
def State.modTrk (s : State) (p t : Nat) (f : Trk → Trk) : State :=
  s.modSlice p fun x => x.setTrk t ((x.trk t).map f)

/-- TXN[11]: the request spends a shared credit (R87). -/
def isShared (m : Msg) : Bool := m.txn.getLsbD 11

/-- Reserved credits of a pool open at the slice. -/
def Slice.resOpen (x : Slice) (p g : Nat) : Nat :=
  (x.used.filter (fun e => poolOf p e.2.req.src.toNat == g && !(isShared e.2.req))).length

/-- Shared transactions of a holder open at the slice. -/
def Slice.sharedOpen (x : Slice) (p g : Nat) : Nat :=
  (x.used.filter (fun e => poolOf p e.2.req.src.toNat == g && (isShared e.2.req))).length

/-- G of holder `h` at the home (R89). -/
def Slice.held (x : Slice) (h : Nat) : Nat := x.g.get zeroNat h

/-- Free shared credits, of 144 (Table 5.2). -/
def Slice.sharedFree (x : Slice) : Nat := 144 - (x.g.map (·.2)).sum

/-- The allowance check of R92. -/
def Slice.allowed (x : Slice) (p : Nat) (m : Msg) : Bool :=
  let g := poolOf p m.src.toNat
  if isShared m then decide (g < 80) && decide (x.sharedOpen p g < x.held g)
  else decide (x.resOpen p g < poolSize g)

/-- The lowest free tracker. -/
def Slice.freeTrk (x : Slice) : Option Nat := (List.range 256).find? (fun t => (x.trk t).isNone)

/-- The effective age of something that arrived at tick `arr` with age `age`, saturating at 255 (R91, R99). -/
def effAge (time age arr : Nat) : Nat := min 255 (age + (time - arr))

/-- Requests `a` goes before `b` in the credit-request table (R91). -/
def crqBefore (time brk : Nat) (a b : Crq) : Bool :=
  let ea := effAge time a.age a.arr
  let eb := effAge time b.age b.arr
  let ba := decide (brk ≤ ea)
  let bb := decide (brk ≤ eb)
  if ba != bb then ba else if ea ≠ eb then decide (eb < ea) else decide (a.holder ≤ b.holder)

/-- The first request in the queue order of R91. -/
def crqFirst (time brk : Nat) : List Crq → Option Crq
  | [] => none
  | c :: rest =>
    match crqFirst time brk rest with
    | none => some c
    | some d => if crqBefore time brk c d then some c else some d

/-- Grant one waiting request, if the pool holds a free credit (R90 step 4, R91 step 3). -/
def State.grantOne (s : State) (p : Nat) : State :=
  let x := s.slice p
  match crqFirst s.time x.brkUs.toNat x.crq with
  | none => s
  | some c =>
    if x.sharedFree = 0 then s
    else
      let n := min c.want x.sharedFree
      let s := s.setSlice p { x with
        crq := x.crq.filter (fun d => d.holder != c.holder)
        g := x.g.set zeroNat c.holder (x.held c.holder + n) }
      s.emit p { mkMsg 0x2E 1023 c.src with home := x.lslice, aux := BitVec.ofNat 8 n }

/-- Grant waiting requests one after another (R91 step 3). -/
def State.grants (s : State) (p : Nat) : State :=
  (List.range (s.slice p).crq.length).foldl (fun s _ => s.grantOne p) s

/-- What slice `p` does about credits at the end of one FCLK, in which credits came back and requests entered: it grants
to the waiting requests, and counts the arrivals that found the pool empty (R90 step 5, R91 step 3; log 2). -/
def State.creditCycle (s : State) (p : Nat) : State :=
  let s := s.grants p
  let late := (s.slice p).crq.filter (·.fresh)
  let s := late.foldl (fun s _ => s.count p .crqWait) s
  s.modSlice p fun x => { x with crq := x.crq.map fun c => { c with fresh := false } }

/-- R91 for every slice with a waiting request. -/
def State.creditCycles (s : State) : State :=
  s.slices.foldl (fun s e => if e.2.crq.isEmpty then s else s.creditCycle e.1) s

/-- Free tracker `t`, returning a shared credit to the pool (R88, R91 step 1). -/
def State.closeTrk (s : State) (p t : Nat) : State :=
  match (s.slice p).trk t with
  | none => s
  | some k =>
    s.modSlice p fun x =>
      let x := { x.setTrk t none with wdogDone := x.wdogDone.filter (· != t) }
      match holderOf k.req.src.toNat with
      | some h => if isShared k.req then { x with g := x.g.set zeroNat h (x.held h - 1) } else x
      | none => x

/-- The image of `SLC_CRD_HOLDER_h` (Table 5.7). -/
def State.crdHolder (s : State) (p h : Nat) : BitVec 32 :=
  let x := s.slice p
  let q := x.crq.find? (fun c => c.holder == h)
  let age := match q with
    | some c => effAge s.time c.age c.arr
    | none => 0
  BitVec.ofNat 32 (x.resOpen p h + x.held h * 4 + (if q.isSome then 64 else 0) + age * 128 + x.sharedOpen p h * 32768)

/-- The comparisons of R25: HOME against `SLC_LOGICAL.LSLICE`, and against the hash of ADDR where ADDR names
a line. -/
def homeMatches (x : Slice) (m : Msg) (named : Bool) : Bool :=
  m.home == x.lslice && (!named || m.home == lsliceOf m.addr)

/-- The image of `SLC_LOGICAL` (Table 2.7). -/
def Slice.logicalReg (x : Slice) : BitVec 64 := BitVec.ofNat 64 (x.lslice.toNat + (if x.active then 128 else 0))

/-- A flit that fails R25 is discarded, which is block-fatal (code `0x04`). -/
def State.homeMismatch (s : State) (p : Nat) (m : Msg) : State :=
  s.sliceErr p 2 0x04 (some m.addr) (some m.src) (s.slice p).logicalReg

/-- A sender's credit request is discarded with a corrected error naming the holder (R90). -/
def State.crqDiscard (s : State) (p : Nat) (m : Msg) : State :=
  (s.count p .creditDiscard).sliceErr p 0 0x11 none (some m.src)
    ((s.crdHolder p (poolOf p m.src.toNat)).setWidth 64)

/-- A `CreditRequest` at slice `p` enters the table; the end of the FCLK grants to it (R90, R91). -/
def State.creditRequest (s : State) (p : Nat) (m : Msg) : State :=
  let x := s.slice p
  if !homeMatches x m false then s.homeMismatch p m
  else
    match holderOf m.src.toNat with
    | none => s.crqDiscard p m
    | some h =>
      let asked := if 1 ≤ m.aux.toNat ∧ m.aux.toNat ≤ 8 then m.aux.toNat else 1
      let want := min asked (8 - poolSize h - x.held h)
      if want = 0 ∨ x.crq.any (fun c => c.holder == h) then s.crqDiscard p m
      else
        let c : Crq := { src := m.src, holder := h, want, age := m.age.toNat, arr := s.time }
        s.setSlice p { x with crq := x.crq ++ [c] }

end Sys2Proof.Machine
end

