-- ==== Sys2Proof/Machine/SnoopFilter.lean ====
section
/-! DEFINITION. The snoop filter: entries, blocks with two-dimensional parity, lookup, allocation and block
checks (chapter 9). -/

namespace Sys2Proof.Machine

/-- The exclusive-or of the bits of a vector. -/
def parity {w : Nat} (v : BitVec w) : Bool := (List.range w).foldl (fun b i => b ^^ v.getLsbD i) false

/-- The set bits of a presence vector, lowest first. -/
def bitsOf (v : BitVec 64) : List Nat := (List.range 64).filter (fun i => v.getLsbD i)

/-- The presence vector with bit `n` alone. -/
def agentBit (n : Nat) : BitVec 64 := BitVec.ofNat 64 (2 ^ n)

/-- A snoop-filter entry (Table 9.1). -/
structure SfEnt where
  tag : BitVec 26 := 0
  vec : BitVec 64 := 0
  st : BitVec 2 := 0
  poison : Bool := false
  set : BitVec 13 := 0
  deriving DecidableEq, Repr

/-- Read an entry from its data bits. -/
def entOf (d : BitVec 109) : SfEnt :=
  { tag := d.extractLsb' 0 26, vec := d.extractLsb' 26 64, st := d.extractLsb' 90 2, poison := d.getLsbD 92,
    set := d.extractLsb' 96 13 }

/-- The data bits of an entry; the spare bits are zero. -/
def bitsOfEnt (e : SfEnt) : BitVec 109 :=
  e.set ++ (0 : BitVec 3) ++ BitVec.ofBool e.poison ++ e.st ++ e.vec ++ e.tag

/-- An entry that is not free (R175). -/
def SfEnt.allocated (e : SfEnt) : Bool := e.st != 0 || e.poison

/-- A position is in the overflow table. -/
def isOvf (pos : Nat) : Bool := decide (98304 ≤ pos)

def SfBlock.written (b : SfBlock) : Bool := b.w0 || b.w1

/-- A row of a block; an unwritten block reads as zero (R191). -/
def SfBlock.row (b : SfBlock) (i : Nat) : SfRow := if b.written then b.rows.get SfRow.dflt i else {}

def Slice.sfBlock (x : Slice) (k : Nat) : SfBlock := x.sfl.blocks.get SfBlock.dflt k

/-- The entry at a position. -/
def Slice.ent (x : Slice) (pos : Nat) : SfEnt := entOf ((x.sfBlock (pos / 8)).row (pos % 8)).data

/-- Write a row of a block with its parity, column word and check bit (R178). -/
def SfBlock.write (b : SfBlock) (i : Nat) (d : BitVec 109) : SfBlock :=
  if b.written then
    let delta := (b.row i).data ^^^ d
    { b with
      rows := b.rows.set SfRow.dflt i { data := d, rp := parity d }
      col := b.col ^^^ delta
      check := b.check ^^ parity delta }
  else
    { rows := NMap.set SfRow.dflt [] i { data := d, rp := parity d }, col := d, check := parity d,
      w0 := true, w1 := true }

def Slice.setBlock (x : Slice) (k : Nat) (b : SfBlock) : Slice :=
  { x with sfl := { x.sfl with blocks := x.sfl.blocks.set SfBlock.dflt k b } }

/-- Write the entry at a position; overflow entries join or leave the allocation order (R179). -/
def Slice.setEnt (x : Slice) (pos : Nat) (e : SfEnt) : Slice :=
  let x := x.setBlock (pos / 8) ((x.sfBlock (pos / 8)).write (pos % 8) (bitsOfEnt e))
  if isOvf pos then
    let k := pos - 98304
    let others := x.sfl.ovfOrder.filter (· != k)
    { x with sfl := { x.sfl with
        ovfOrder := if e.allocated then (if x.sfl.ovfOrder.contains k then x.sfl.ovfOrder else others ++ [k])
                    else others } }
  else x

/-- The way of a position, and the position of a way of a set. -/
def wayPos (w set : Nat) : Nat := 8192 * w + set

/-- The twelve positions of a set. -/
def setPositions (set : Nat) : List Nat := (List.range 12).map (fun w => wayPos w set)

/-- The overflow positions. -/
def ovfPositions : List Nat := (List.range 256).map (98304 + ·)

/-- The positions that hit a line: ways by tag, overflow entries by tag and set (R175). -/
def Slice.sfHits (x : Slice) (a : LineAddr) : List Nat :=
  let set := sfSetOf a
  let tag := sfTagOf a
  (setPositions set.toNat).filter (fun q => (x.ent q).allocated && (x.ent q).tag == tag)
    ++ ovfPositions.filter (fun q =>
      (x.sfBlock (q / 8)).written && (x.ent q).allocated && (x.ent q).tag == tag && (x.ent q).set == set)

/-- An entry is pinned while an open-line entry or a released request holds it (R175, R181). -/
def Slice.pinned (x : Slice) (pos : Nat) : Bool :=
  x.olt.any (fun e => e.2.pos == some pos) || x.used.any (fun e => e.2.resv == some pos)

/-- The line address an allocated entry stands for (R25). -/
def Slice.lineOf (x : Slice) (pos : Nat) : LineAddr :=
  let e := x.ent pos
  sfRecover x.lslice (if isOvf pos then e.set else BitVec.ofNat 13 (pos % 8192)) e.tag

/-- Make a way of a set most recently used (R179). -/
def Slice.touchSf (x : Slice) (pos : Nat) : Slice :=
  if isOvf pos then x
  else
    let set := pos % 8192
    let w := pos / 8192
    { x with sfl := { x.sfl with
        lru := x.sfl.lru.set lru12 set ((x.sfl.lru.get lru12 set).filter (· != w) ++ [w]) } }

/-- What the allocation order of Table 9.3 gives: a free position, a victim, or step 8. -/
inductive Alloc where
  | free (pos : Nat)
  | victim (pos : Nat)
  | full
  deriving DecidableEq, Repr

/-- Choose an entry for a line of `set` (Table 9.3, R180). -/
def Slice.allocate (x : Slice) (set : Nat) : Alloc :=
  let free := fun q => !(x.ent q).allocated && !x.pinned q
  match (setPositions set).find? free with
  | some q => .free q
  | none =>
    let order := (x.sfl.lru.get lru12 set).map (fun w => wayPos w set)
    let loose := order.filter (fun q => !x.pinned q)
    let single := fun q => x.sfl.prefSingle && (x.ent q).st == 1 && (bitsOf (x.ent q).vec).length == 1
    match loose.find? (fun q => (x.ent q).st == 3) with
    | some q => .victim q
    | none =>
    match loose.find? (fun q => (x.ent q).st == 0 && (x.ent q).poison) with
    | some q => .victim q
    | none =>
    match loose.find? single with
    | some q => .victim q
    | none =>
    match loose with
    | q :: _ => .victim q
    | [] =>
    match ovfPositions.find? free with
    | some q => .free q
    | none =>
    match (x.sfl.ovfOrder.map (98304 + ·)).find? (fun q => !x.pinned q) with
    | some q => .victim q
    | none => .full

/-! Block checks (R184 to R188) -/

/-- The columns a block's parity covers (R184). -/
def blockMask (key : Nat) : BitVec 109 :=
  if 12288 ≤ key then BitVec.allOnes 109 else (BitVec.allOnes 96).setWidth 109

/-- Rows whose RP disagrees with their data. -/
def SfBlock.badRows (b : SfBlock) : List Nat :=
  (List.range 8).filter (fun i => (b.row i).rp != parity (b.row i).data)

/-- The exclusive-or of the rows. -/
def SfBlock.colSum (b : SfBlock) : BitVec 109 := (List.range 8).foldl (fun c i => c ^^^ (b.row i).data) 0

/-- Columns whose parity bit disagrees with the exclusive-or of the column. -/
def SfBlock.badCols (b : SfBlock) : BitVec 109 := if b.written then b.colSum ^^^ b.col else 0

def SfBlock.checkOk (b : SfBlock) : Bool := !b.written || b.check == parity b.col

def colsOf (c : BitVec 109) : List Nat := (List.range 109).filter (fun j => c.getLsbD j)

/-- Rewrite a block with consistent parity for given row data (R186). -/
def SfBlock.rebuild (rows : List (BitVec 109)) : SfBlock :=
  let col := rows.foldl (· ^^^ ·) 0
  { rows := (List.range 8).foldl
      (fun m i => let d := rows.getD i 0; NMap.set SfRow.dflt m i { data := d, rp := parity d }) []
    col, check := parity col, w0 := true, w1 := true }

def SfBlock.datas (b : SfBlock) : List (BitVec 109) := (List.range 8).map (fun i => (b.row i).data)

/-- The outcomes of Table 9.4. -/
inductive Syndrome where
  | clean
  | corrected (kind : Nat) (row : Nat)
  | uncorrectable
  deriving DecidableEq, Repr

/-- Table 9.4. -/
def SfBlock.syndrome (b : SfBlock) : Syndrome :=
  match b.badRows, colsOf b.badCols, b.checkOk with
  | [], [], true => .clean
  | [], [], false => .corrected 3 0
  | [], [_], false => .corrected 2 0
  | [r], [], true => .corrected 1 r
  | [r], [_], true => .corrected 0 r
  | _, _, _ => .uncorrectable

/-- The row data a corrected block has: only outcome 0 flips a bit. -/
def SfBlock.mended (b : SfBlock) (kind row : Nat) : List (BitVec 109) :=
  if kind = 0 then b.datas.set row ((b.row row).data ^^^ b.badCols) else b.datas

/-- What becomes of a suspect row (R187). -/
inductive RowFate where
  | zeroed
  | tagSuspect
  | marked (d : BitVec 109)
  deriving DecidableEq, Repr

/-- The fate of a suspect row with suspect columns `sc` (R187, R188); `agents` are the agents R21 allows. -/
def rowFate (key : Nat) (sc d : BitVec 109) (agents : BitVec 64) : RowFate :=
  let e := entOf d
  let c := entOf sc
  let stSuspect := c.st != 0 || c.poison
  if !stSuspect && !e.allocated then .zeroed
  else if c.tag != 0 || (decide (12288 ≤ key) && c.set != 0) then .tagSuspect
  else .marked (bitsOfEnt { e with
      st := 3
      vec := (e.vec ||| c.vec) &&& agents
      poison := stSuspect || e.st == 2 || e.st == 3 || e.poison })

/-- The position of row `i` of block `key`. -/
def rowPos (key i : Nat) : Nat := 8 * key + i

/-- The SET and WAY a capture gives for row `i` of a block (Table 9.10). -/
def capSet (key i : Nat) : BitVec 13 :=
  if 12288 ≤ key then BitVec.ofNat 13 (key - 12288) else BitVec.ofNat 13 ((8 * key + i) % 8192)
def capWay (key : Nat) : BitVec 4 := if 12288 ≤ key then 15 else BitVec.ofNat 4 (key / 1024)

/-- `SFL_ERR_CAP` bits 30:0. -/
def capWord (key row kind : Nat) (col : Nat) (patrol : Bool) : BitVec 31 :=
  BitVec.ofBool patrol ++ BitVec.ofNat 3 kind ++ BitVec.ofNat 7 col
    ++ (if kind = 2 ∨ kind = 3 then (0 : BitVec 3) else BitVec.ofNat 3 row) ++ capWay key ++ capSet key row

/-- Capture a snoop-filter error, unless one is held. -/
def Slice.sfCapture (x : Slice) (c : BitVec 31) : Slice :=
  if x.sfl.capValid then x else { x with sfl := { x.sfl with cap := c, capValid := true } }

/-- The image of `SFL_ERR_CAP`. -/
def Slice.sfCap (x : Slice) : BitVec 64 := (BitVec.ofBool x.sfl.capValid ++ x.sfl.cap).setWidth 64

/-- The overflow entries of a block that a check has rewritten join or leave the allocation order (R175, R179). -/
def Slice.ovfSync (x : Slice) (key : Nat) : Slice :=
  if key < 12288 then x
  else
    let ks := (List.range 8).map fun i => 8 * (key - 12288) + i
    let on := fun k => (x.ent (98304 + k)).allocated
    { x with sfl := { x.sfl with
        ovfOrder := x.sfl.ovfOrder.filter (fun k => !ks.contains k || on k)
          ++ ks.filter fun k => on k && !x.sfl.ovfOrder.contains k } }

/-- One suspect row of an uncorrectable block: record a marked or a tag-suspect row (R187, R188). -/
def State.sfSuspect (s : State) (p key : Nat) (sc : BitVec 109) (patrol : Bool) (i : Nat) : State :=
  let x := s.slice p
  let d := ((x.sfBlock key).row i).data
  match rowFate key sc d s.glb.agents with
  | .marked _ =>
    let pos := rowPos key i
    let s := s.count p .sfUncorr
    (s.sliceErr p 1 0x02 (some (x.lineOf pos)) none x.sfCap 0 patrol).fireSlice p 1
  | .tagSuspect => s.sliceErr p 2 0x03 none none x.sfCap 0 patrol
  | .zeroed => s

/-- The block check of R186 on block `key`, with Table 9.4 and R187. Of several tag-suspect rows KIND 6 names the lowest.
DESIGN CHOICE (log 94). -/
def State.sfBlockCheck (s : State) (p key : Nat) (patrol : Bool) : State :=
  let x := s.slice p
  let b := x.sfBlock key
  let col := ((colsOf b.badCols).head?).getD 127
  match b.syndrome with
  | .clean =>
    if b.w0 == b.w1 then s else s.setSlice p (x.setBlock key { b with w0 := true, w1 := true })
  | .corrected kind row =>
    let x := ((x.setBlock key (SfBlock.rebuild (b.mended kind row))).ovfSync key).sfCapture
      (capWord key row kind col patrol)
    (((s.setSlice p x).count p .sfCorr).sliceErr p 0 0x01 none none x.sfCap 0 patrol).fireSlice p 0
  | .uncorrectable =>
    let rows := if b.badRows.isEmpty then List.range 8 else b.badRows
    let sc := (if b.badCols = 0 then blockMask key else b.badCols)
    let fate := fun i => rowFate key sc (b.row i).data s.glb.agents
    let tagRow := rows.find? (fun i => fate i == .tagSuspect)
    let kind := if tagRow.isSome then 6 else if rows.length = 1 then 4 else 5
    let row := tagRow.getD (rows.headD 0)
    let s := s.setSlice p (x.sfCapture (capWord key row kind col patrol))
    let s := rows.foldl (fun s i => s.sfSuspect p key sc patrol i) s
    let datas := (List.range 8).map (fun i =>
      if rows.contains i then
        match fate i with
        | .zeroed => 0
        | .marked d => d
        | .tagSuspect => (b.row i).data
      else (b.row i).data)
    s.modSlice p fun x => (x.setBlock key (SfBlock.rebuild datas)).ovfSync key

/-- A lookup of `set` finds a failing row parity or column check, or disagreeing written bits, in block `key`
(R177, R186, R191). -/
def lookupFails (b : SfBlock) (rows : List Nat) : Bool :=
  rows.any (fun i => (b.row i).rp != parity (b.row i).data) || !b.checkOk || b.w0 != b.w1

/-- The block checks a lookup of a set inserts, one after another (R177, R186): the way blocks by rising way, then the
overflow blocks. The order decides which is captured, and the spec gives none. DESIGN CHOICE (log 94). -/
def State.sfLookupChecks (s : State) (p set : Nat) : State :=
  let keys := (List.range 12).map (fun w => (1024 * w + set / 8, [set % 8]))
    ++ (List.range 32).map (fun b => (12288 + b, List.range 8))
  keys.foldl (fun s k => if lookupFails ((s.slice p).sfBlock k.1) k.2 then s.sfBlockCheck p k.1 false else s) s

/-- Two hits for one line are block-fatal (R176). KIND 7 names the first of the rows found: the lowest way, then overflow
entries. DESIGN CHOICE (log 94). -/
def State.sfDuplicate (s : State) (p : Nat) (hits : List Nat) : State :=
  match hits with
  | q :: _ :: _ =>
    let s := s.modSlice p fun x => x.sfCapture (capWord (q / 8) (q % 8) 7 127 false)
    s.sliceErr p 2 0x03 none none (s.slice p).sfCap
  | _ => s

/-- Move a hit overflow entry into a free way of its set (R183). The victim of a phase stays where it is: R182 reserves the
very entry that the phase frees. DEDUCED (log 94). -/
def State.sfMigrate (s : State) (p pos : Nat) : State :=
  let x := s.slice p
  let e := x.ent pos
  let set := e.set.toNat
  if isOvf pos ∧ x.sfl.migrate = true ∧ x.sfl.wait.get noNats set = []
      ∧ (x.used.any fun e => e.2.victim == some (x.lineOf pos)) = false then
    match (setPositions set).find? (fun q => !(x.ent q).allocated && !x.pinned q) with
    | none => s
    | some q =>
      let x := ((x.setEnt q { e with set := 0 }).setEnt pos {}).touchSf q
      let x := { x with olt := NMap.mapv Olt.dflt (fun _ o => if o.pos = some pos then { o with pos := some q } else o) x.olt }
      (s.setSlice p x).count p .migr
  else s

/-- The lookup of a line: its block checks, the duplicate check and migration; the answer is the position that
hits (R176, R177, R183). -/
def State.sfLookup (s : State) (p : Nat) (a : LineAddr) : State × Option Nat :=
  let s := s.sfLookupChecks p (sfSetOf a).toNat
  let hits := (s.slice p).sfHits a
  let s := s.sfDuplicate p hits
  match hits with
  | [] => (s, none)
  | q :: _ =>
    let s := (s.slcEvent p 0x02).sfMigrate p q
    let q := ((s.slice p).sfHits a).headD q
    (s.modSlice p fun x => x.touchSf q, some q)

end Sys2Proof.Machine
end

