-- ==== Sys2Proof/Machine/HlcOps.lean ====
section
/-! DEFINITION. Operations on the home line cache: stored lines and their checks, installing, storing, miss
registers, the eviction buffer, the prefetcher and maintenance (chapter 11). Position 16·set + way. -/

namespace Sys2Proof.Machine

def Slice.modHlc (x : Slice) (f : Hlc → Hlc) : Slice := { x with hlc := f x.hlc }
def State.modHlc (s : State) (p : Nat) (f : Hlc → Hlc) : State := s.modSlice p fun x => x.modHlc f

/-- Even parity over TAG, V and POISON (Table 11.1). -/
def tparOf (tag : BitVec 31) (v : Bool) (poison : BitVec 8) : Bool := parity tag ^^ v ^^ parity poison

/-- Even parity of each 8-byte group (Table 11.1). -/
def dparOf (d : LineData) : BitVec 8 :=
  (List.range 8).foldl (fun r j => if parity (d.extractLsb' (64 * j) 64) then r ||| BitVec.ofNat 8 (2 ^ j) else r) 0

/-- A line as it is stored, with its parity. -/
def mkLine (a : LineAddr) (data : LineData) (poison : BitVec 8) (dirty pf : Bool) : HLine :=
  { tag := htagOf a, v := true, poison, tpar := tparOf (htagOf a) true poison, d0 := dirty, d1 := dirty, pf, data,
    dpar := dparOf data }

def Hlc.line (h : Hlc) (q : Nat) : HLine := h.lines.get HLine.dflt q
def Hlc.setLine (h : Hlc) (q : Nat) (l : HLine) : Hlc := { h with lines := h.lines.set HLine.dflt q l }

def HLine.dirty (l : HLine) : Bool := l.d0 || l.d1

/-- The sixteen positions of a line's set. -/
def hPositions (a : LineAddr) : List Nat := (List.range 16).map (fun w => 16 * (hsetOf a).toNat + w)

/-- The line a position holds. -/
def Slice.hAddr (x : Slice) (q : Nat) : LineAddr := hRecover x.lslice (BitVec.ofNat 8 (q / 16)) (x.hlc.line q).tag

/-- Make a way most recently used. -/
def Hlc.touch (h : Hlc) (q : Nat) : Hlc :=
  { h with lru := h.lru.set lru16 (q / 16) ((h.lru.get lru16 (q / 16)).filter (· != q % 16) ++ [q % 16]) }

def Hlc.wayOn (h : Hlc) (w : Nat) : Bool := h.wayEn.getLsbD w

/-- Enabled ways. -/
def Hlc.waysOn (h : Hlc) : Nat := ((List.range 16).filter h.wayOn).length

/-- Data can be installed (R220, R230). -/
def Hlc.installs (h : Hlc) : Bool := h.state == 1 && h.wayEn != 0

/-- Unavailable for far operations (R197). -/
def Hlc.unavailable (h : Hlc) : Bool := h.state != 1 || decide (h.waysOn < 2)

/-- A position pinned by a far operation (R213). -/
def Slice.hPinned (x : Slice) (q : Nat) : Bool := x.used.any (fun e => e.2.pin == some q)

/-- A far operation pins a position of a way (R213, R232). -/
def Slice.wayPinned (x : Slice) (w : Nat) : Bool :=
  x.used.any (fun e => match e.2.pin with
    | some q => q % 16 == w
    | none => false)

/-- The position that holds a line. -/
def Hlc.find (h : Hlc) (a : LineAddr) : Option Nat :=
  (hPositions a).find? (fun q => (h.line q).v && (h.line q).tag == htagOf a)

/-- Eviction-buffer entries. -/
def Hlc.evbs (h : Hlc) : List MemWrite := h.writes.filter (·.evb)

def Hlc.evbFull (h : Hlc) : Bool := decide (16 ≤ h.evbs.length)

/-- The eviction-buffer entry that serves a read of a line: its newest write, if that is in the eviction buffer (R218,
R224). A later write that was not kept must reach memory first, so the read misses and waits for it (R222, log 83). -/
def Hlc.evbFind (h : Hlc) (a : LineAddr) : Option MemWrite :=
  ((h.writes.filter (fun w => w.addr == a)).getLast?).filter (·.evb)

/-- The lowest number not in a list. -/
def leastFree (l : List Nat) : Nat := ((List.range (l.length + 1)).find? (fun i => !l.contains i)).getD 0

/-- HTAG of a register's `MemRd`: the index of the tracker that opened it (R71). A prefetch has no tracker: HTAG is the
register's own number. DESIGN CHOICE (log 20). -/
def Mshr.tag (m : Mshr) : Nat :=
  match m.waiters.head? with
  | some (.tracker t) => t
  | _ => m.idx

/-- Queue a write to memory: its HTAG is the tracker that waits for it (R71). Where none does, eviction-buffer entries are
numbered from 0, other writes from 64. DESIGN CHOICE (log 20). -/
def Hlc.queueWrite (h : Hlc) (evb : Bool) (a : LineAddr) (data : LineData) (poison : BitVec 8)
    (waiter : Option Nat := none) : Hlc :=
  let idx := match waiter with
    | some t => t
    | none => if evb then leastFree (h.evbs.map (·.idx))
      else 64 + leastFree ((h.writes.filter (fun w => !w.evb)).map (fun w => w.idx - 64))
  { h with
    writes := h.writes ++ [{ evb, idx, addr := a, data, poison, waiter, ord := h.ord }]
    ord := h.ord + 1 }

/-! Stored-line errors (R231, R232) -/

/-- `HLC_ERR_CAP` bits 54:0. -/
def hCapWord (q : Nat) (groups : BitVec 8) (tagErr : Bool) (kind : Nat) (tag : BitVec 31) : BitVec 55 :=
  tag ++ BitVec.ofNat 3 kind ++ BitVec.ofBool tagErr ++ groups ++ BitVec.ofNat 4 (q % 16) ++ BitVec.ofNat 8 (q / 16)

def Hlc.capture (h : Hlc) (c : BitVec 55) : Hlc :=
  if h.capValid then h else { h with cap := c, capValid := true }

/-- The image of `HLC_ERR_CAP`. -/
def Hlc.capImage (h : Hlc) : BitVec 64 := BitVec.ofBool h.capValid ++ (0 : BitVec 8) ++ h.cap

/-- The image of `HLC_WAY_EN`. -/
def Hlc.wayEnImage (h : Hlc) : BitVec 32 := h.hwDis ++ h.wayEn

/-- Start a flush of way `w`: it takes no installation and its bit reads 0 (R232). -/
def Hlc.startFlush (h : Hlc) (w : Nat) (hw : Bool) : Hlc :=
  { h with
    wayEn := h.wayEn &&& ~~~(BitVec.ofNat 16 (2 ^ w))
    flushes := h.flushes.filter (fun f => f.way != w) ++ [{ way := w, hw }] }

/-- Raise the leak level of a way; at level 4 the slice flushes and disables it (R232). -/
def Hlc.raiseLeak (h : Hlc) (w time : Nat) : Hlc :=
  let lvl := min 4 (h.leak.get zeroNat w + 1)
  let h := { h with leak := h.leak.set zeroNat w lvl, leakAt := h.leakAt.set zeroNat w time }
  if lvl = 4 ∧ h.wayOn w = true then h.startFlush w true else h

/-- Capture, count, record and leak one stored-line error of a line whose stored tag is `tag` (Table 11.5). R231 counts
each error in `HLC_ERR_CNT`, which has no field for the block-fatal one of KIND 4: it counts in neither. DESIGN CHOICE
(log 94). -/
def State.hError (s : State) (p q : Nat) (tag : BitVec 31) (groups : BitVec 8) (tagErr : Bool) (kind cls code : Nat)
    (a : Option LineAddr) : State :=
  let s := s.modHlc p fun h => (h.capture (hCapWord q groups tagErr kind tag)).raiseLeak (q % 16) s.time
  let s := if cls = 0 then s.count p .hCorr else if cls = 1 then s.count p .hUncorr else s
  s.sliceErr p cls code a none (s.slice p).hlc.capImage

/-- The check of TPAR and D0 = D1 on a way whose tag is read (Table 11.5). -/
def State.hTagCheck (s : State) (p q : Nat) : State :=
  let l := (s.slice p).hlc.line q
  if l.tpar != tparOf l.tag l.v l.poison then
    if l.dirty then s.hError p q l.tag 0 true 4 2 0x0A none
    else (s.modHlc p fun h => h.setLine q {}).hError p q l.tag 0 true 0 0 0x08 none
  else if l.d0 != l.d1 then
    (s.modHlc p fun h => h.setLine q { l with d0 := true, d1 := true }).hError p q l.tag 0 false 1 0 0x08
      (some ((s.slice p).hAddr q))
  else s

/-- The check of DPAR on a data read (Table 11.5). -/
def State.hDataCheck (s : State) (p q : Nat) : State :=
  let l := (s.slice p).hlc.line q
  let bad := l.dpar ^^^ dparOf l.data
  if !l.v || bad = 0 then s
  else if l.dirty then
    let poison := l.poison ||| bad
    ((s.modHlc p fun h => h.setLine q { l with poison, tpar := tparOf l.tag l.v poison, dpar := dparOf l.data }).hError
      p q l.tag bad false 2 1 0x09 (some ((s.slice p).hAddr q))).fireSlice p 5
  else (s.modHlc p fun h => h.setLine q {}).hError p q l.tag bad false 0 0 0x08 (some ((s.slice p).hAddr q))

/-- Check the tags of a line's set, as every lookup does (R218, R231). -/
def State.hTagScan (s : State) (p : Nat) (a : LineAddr) : State :=
  (hPositions a).foldl (fun s q => s.hTagCheck p q) s

/-- The lookup of a REQ, WB or MNT message that concerns a line: the tags of its set and the snoop filter (R109, R177,
R218). -/
def State.lookup (s : State) (p : Nat) (a : LineAddr) : State × Option Nat := (s.hTagScan p a).sfLookup p a

/-- DPAR is checked on a line that is to move or to be copied: a dirty one (R231). -/
def State.hMoveCheck (s : State) (p q : Nat) : State :=
  if ((s.slice p).hlc.line q).dirty then s.hDataCheck p q else s

/-! Installing and storing (R220 to R222) -/

/-- Positions held by a waiting by-address or by-set-and-way operation (R221). -/
def Slice.maintHolds (x : Slice) (q : Nat) : Bool :=
  x.hlc.maint.any (fun m => m.waiting &&
    ((m.scope == 0 && x.hlc.find m.addr == some q)
      || (m.scope == 1 && (m.addr.extractLsb' 0 8).toNat * 16 + (m.addr.extractLsb' 8 4).toNat == q)))

/-- The position a new line takes, under R221. -/
def Slice.choosePos (x : Slice) (a : LineAddr) : Option Nat :=
  match (hPositions a).find? (fun q => x.hlc.wayOn (q % 16) && !(x.hlc.line q).v && !x.hPinned q) with
  | some q => some q
  | none =>
    ((x.hlc.lru.get lru16 (hsetOf a).toNat).map (fun w => 16 * (hsetOf a).toNat + w)).find?
      (fun q => x.hlc.wayOn (q % 16) && !x.hPinned q && !x.maintHolds q)

/-- Make room at a position: a clean victim is dropped, a dirty one moves to the eviction buffer (R221). The
answer says whether the position is free. -/
def State.vacate (s : State) (p q : Nat) : State × Bool :=
  let s := s.hMoveCheck p q
  let x := s.slice p
  let l := x.hlc.line q
  if !l.v then (s, true)
  else if !l.dirty then (s.modHlc p fun h => h.setLine q {}, true)
  else if x.hlc.evbFull then (s, false)
  else ((s.modHlc p fun h => (h.queueWrite true (x.hAddr q) l.data l.poison).setLine q {}).count p .dirtyEvict, true)

/-- The position that a far operation has reserved for a line (R213). -/
def Slice.pinFor (x : Slice) (a : LineAddr) : Option Nat :=
  (x.used.find? fun e => e.2.pin.isSome && e.2.req.addr == a).bind (·.2.pin)

/-- Install a line that is not present (R221): at the position reserved for it, else where R221 chooses. -/
def State.install (s : State) (p : Nat) (a : LineAddr) (data : LineData) (poison : BitVec 8) (dirty pf : Bool) :
    State × Bool :=
  let put := fun (s : State) q => (s.modHlc p fun h => (h.setLine q (mkLine a data poison dirty pf)).touch q, true)
  match (s.slice p).pinFor a with
  | some q => put s q
  | none =>
    match (s.slice p).choosePos a with
    | none => (s.count p .notKept, false)
    | some q =>
      match s.vacate p q with
      | (s, false) => (s.count p .notKept, false)
      | (s, true) => put s q

/-- Store a line at the home (R118, R220, R230). A write to an unsent eviction-buffer entry updates it (R224), if that is
the line's newest write: behind a later write that was not kept, memory would end with the older data (R131). The answer
says whether the cache holds the line; if not, its `MemWr` waits for the tracker `waiter`. -/
def State.storeLine (s : State) (p : Nat) (a : LineAddr) (data : LineData) (poison : BitVec 8)
    (waiter : Option Nat) : State × Bool :=
  let s := s.modHlc p fun h =>
    { h with mshrs := h.mshrs.map (fun m => if m.addr = a then { m with wrote := true } else m) }
  let h := (s.slice p).hlc
  let direct := fun (s : State) => (s.modHlc p fun h => h.queueWrite false a data poison waiter, false)
  let entry := (h.evbFind a).filter (!·.sent)
  let s := match entry with
    | some w => s.modHlc p fun h => { h with writes := h.writes.map (fun v =>
        if v.ord == w.ord then { v with data, poison } else v) }
    | none => s
  match h.find a, entry with
  | some q, _ =>
    if h.installs then (s.modHlc p fun h => (h.setLine q (mkLine a data poison true (h.line q).pf)).touch q, true)
    else
      let s := s.modHlc p fun h => h.setLine q {}
      if entry.isSome then (s, true) else direct s
  | none, some _ => (s, true)
  | none, none =>
    if h.installs then
      match s.install p a data poison true false with
      | (s, true) => (s, true)
      | (s, false) => direct s
    else direct s

/-! Reading (R218, R223) -/

/-- Read a line from a way or the eviction buffer; `demand` reads clear PF (R218, R231). The answer's last part
says that a line with PF set was hit. -/
def State.hRead (s : State) (p : Nat) (a : LineAddr) (demand : Bool) : State × Option (LineData × BitVec 8) × Bool :=
  let s := s.hTagScan p a
  let s := match (s.slice p).hlc.find a with
    | some q => s.hDataCheck p q
    | none => s
  let h := (s.slice p).hlc
  match h.find a with
  | some q =>
    let l := h.line q
    let useful := l.pf && demand
    let s := s.modHlc p fun h => (h.setLine q { l with pf := l.pf && !demand }).touch q
    let s := s.count p .hit
    ((if useful then s.count p .pfUseful else s), some (l.data, l.poison), l.pf)
  | none =>
    match h.evbFind a with
    | some w => (s.count p .hit, some (w.data, w.poison), false)
    | none => (s, none, false)

/-- Join or open a miss register for a line; the answer says whether one took the waiter (R223). MISS counts reads that open
or join a register (Table 11.9): a prefetch that opens one is not counted, a prefetch being no read. DESIGN CHOICE
(log 94). -/
def State.missJoin (s : State) (p : Nat) (a : LineAddr) (w : Waiter) (demand : Bool) : State × Bool :=
  let h := (s.slice p).hlc
  match h.mshrs.find? (fun m => m.addr == a) with
  | some m =>
    if m.waiters.length < 8 then
      let s := s.modHlc p fun h => { h with mshrs := h.mshrs.map (fun n =>
        if n.idx = m.idx then { n with waiters := n.waiters ++ [w], demand := n.demand || demand } else n) }
      let s := s.count p .miss
      ((if demand && !m.demand then s.count p .pfUseful else s), true)
    else (s, false)
  | none =>
    if h.mshrs.length < 48 then
      let m : Mshr := { idx := leastFree (h.mshrs.map (·.idx)), addr := a, demand, waiters := [w], ord := h.ord }
      let s := s.modHlc p fun h => { h with mshrs := h.mshrs ++ [m], ord := h.ord + 1 }
      ((if demand then s.count p .miss else s), true)
    else (s, false)

/-! Memory accesses (R222, Table 5.1) -/

/-- An access of the line is outstanding, or an earlier one of it waits (R222). -/
def Hlc.lineBusy (h : Hlc) (a : LineAddr) (ord : Nat) : Bool :=
  h.mshrs.any (fun m => m.addr == a && (m.sent || decide (m.ord < ord)))
    || h.writes.any (fun w => w.addr == a && (w.sent || decide (w.ord < ord)))

/-- Reads, and writes, outstanding at a memory port. -/
def State.readsAt (s : State) (p m : Nat) : Nat :=
  ((s.slice p).hlc.mshrs.filter (fun r => r.sent && s.portOf r.addr == some m)).length
/-- Miss registers of a memory port that hold a read credit, or are ready and take the next one; a register that R222
holds back counts for none (R223, R226). -/
def State.readsDue (s : State) (p m : Nat) : Nat :=
  ((s.slice p).hlc.mshrs.filter (fun r =>
    s.portOf r.addr == some m && (r.sent || !((s.slice p).hlc.lineBusy r.addr r.ord)))).length
def State.writesAt (s : State) (p m : Nat) : Nat :=
  ((s.slice p).hlc.writes.filter (fun w => w.sent && s.portOf w.addr == some m)).length

/-- A miss register can send its `MemRd` (R222, R223). -/
def State.missReady (s : State) (p : Nat) (m : Mshr) : Bool :=
  !m.sent && !((s.slice p).hlc.lineBusy m.addr m.ord) &&
    match s.portOf m.addr with
    | none => false
    | some n => decide (s.readsAt p n < 2)

/-- The greatest effective age among a register's waiting trackers. -/
def State.missAge (s : State) (p : Nat) (m : Mshr) : Nat :=
  m.waiters.foldl (fun best w => match w with
    | .tracker t =>
      match (s.slice p).trk t with
      | some k => max best (effAge s.time k.req.age.toNat k.arr)
      | none => best
    | _ => best) 0

/-- Register `a` sends before register `b` (R223). -/
def State.missBefore (s : State) (p : Nat) (a b : Mshr) : Bool :=
  if a.demand != b.demand then a.demand
  else if a.demand && s.missAge p a != s.missAge p b then decide (s.missAge p b < s.missAge p a)
  else decide (a.ord < b.ord)

/-- The first of a list under an order. -/
def firstBy {α : Type} (before : α → α → Bool) : List α → Option α
  | [] => none
  | x :: rest =>
    match firstBy before rest with
    | none => some x
    | some y => if before x y then some x else some y

/-- Put an element into an ordered list, ahead of those that it is before. -/
def insertBy {α : Type} (before : α → α → Bool) (x : α) : List α → List α
  | [] => [x]
  | y :: rest => if before x y then x :: y :: rest else y :: insertBy before x rest

/-- A list in an order. -/
def sortBy {α : Type} (before : α → α → Bool) (l : List α) : List α := l.foldr (insertBy before) []

/-- Send the `MemRd` of the first ready register (R223). -/
def State.missSend (s : State) (p : Nat) : State :=
  let x := s.slice p
  match firstBy (s.missBefore p) (x.hlc.mshrs.filter (s.missReady p)) with
  | none => s
  | some m =>
    match s.portOf m.addr with
    | none => s
    | some n =>
      let s := s.modHlc p fun h => { h with mshrs := h.mshrs.map (fun r =>
        if r.idx = m.idx then { r with sent := true } else r) }
      s.emit p { x.homeMsg 0x08 (BitVec.ofNat 10 (1008 + n)) m.addr with htag := BitVec.ofNat 8 m.tag }

/-! Prefetching (R225, R226) -/

/-- Offer a prefetch of a region, checking the tags it reads (R226, R231); a slice being evacuated offers none (R234). -/
def State.offer (s : State) (p : Nat) (r : Int) : State :=
  let x := s.slice p
  if r < 0 ∨ (2 : Int) ^ 39 ≤ r ∨ s.evacHeld p = true then s
  else
    let a := addrOfRegion x.lslice (BitVec.ofNat 39 r.toNat)
    match s.portOf a with
    | none => s
    | some n =>
      let s := s.hTagScan p a
      let x := s.slice p
      if (x.hlc.find a).isSome || x.hlc.evbs.any (fun w => w.addr == a) || x.hlc.mshrs.any (fun m => m.addr == a)
          || !x.hlc.installs || !x.hlc.pfEn then s
      else if 48 - x.hlc.mshrs.length < x.hlc.pfReserve.toNat + 1 then s.count p .pfDropMshr
      else if 2 ≤ s.readsDue p n then s.count p .pfDropCred
      else ((s.missJoin p a .prefetch false).1).count p .pfIssued

/-- One training event on a stream entry (R225, R226). -/
def Stream.train1 (e : Stream) (r : BitVec 39) : Stream :=
  let d : Int := (r.toNat : Int) - (e.region.toNat : Int)
  let near := decide (-32 ≤ d) && decide (d ≤ 31)
  if d = 0 then e
  else if e.train = 0 then
    if near then { e with region := r, delta := d, train := 1 } else { e with region := r }
  else if near then
    if d = e.delta then
      { e with region := r, train := 2, last := if e.train = 2 then e.last else r.toNat }
    else { e with region := r, delta := d, train := 1 }
  else { e with region := r, train := 0 }

/-- The regions a steady entry offers, nearest first (R226). -/
def Stream.offers (e : Stream) (depth : Nat) : List Int :=
  if e.train ≠ 2 then []
  else ((List.range depth).map (fun k => (e.region.toNat : Int) + (k + 1) * e.delta)).filter
    (fun r => if 0 < e.delta then decide (e.last < r) else decide (r < e.last))

/-- A training event for the identity of a request (R225), and the offers that follow (R226). -/
def State.trainStream (s : State) (p : Nat) (m : Msg) : State :=
  let x := s.slice p
  let r := regionOf m.addr
  let same := fun (e : Stream) => e.reqid == m.reqid && e.stream == m.stream
  match x.hlc.streams.find? same with
  | none =>
    let kept := if x.hlc.streams.length < 32 then x.hlc.streams else x.hlc.streams.drop 1
    s.modHlc p fun h => { h with streams := kept ++ [{ reqid := m.reqid, stream := m.stream, region := r }] }
  | some e =>
    let e := e.train1 r
    let regions := e.offers x.hlc.pfDepth.toNat
    let e := { e with last := (regions.getLast?).getD e.last }
    let s := s.modHlc p fun h => { h with streams := h.streams.filter (fun d => !same d) ++ [e] }
    regions.foldl (fun s r => s.offer p r) s

/-! Maintenance (R227 to R230) -/

/-- What Table 11.4 did at a position: nothing to wait for, a write whose `MemAck` is awaited, or blocked on a full
eviction buffer. -/
inductive MaintRes where
  | done
  | moved (ord : Nat)
  | blocked
  deriving DecidableEq, Repr

/-- Table 11.4 on one position; `op` 0 is clean. -/
def State.maintAt (s : State) (p q : Nat) (op : BitVec 4) : State × MaintRes :=
  let s := (s.hTagCheck p q).hMoveCheck p q
  let x := s.slice p
  let l := x.hlc.line q
  if !l.v then (s, .done)
  else if !l.dirty then
    ((if op = 0 then s else s.modHlc p fun h => h.setLine q {}), .done)
  else if x.hlc.evbFull then (s, .blocked)
  else
    let a := x.hAddr q
    let s := s.modHlc p fun h =>
      (h.queueWrite true a l.data l.poison).setLine q
        (if op = 0 then { l with d0 := false, d1 := false } else {})
    (if op = 0 then s else s.count p .dirtyEvict, .moved x.hlc.ord)

/-- Set a maintenance entry. -/
def Hlc.modMaint (h : Hlc) (i : Nat) (f : Maint → Maint) : Hlc :=
  { h with maint := h.maint.map (fun m => if m.idx = i then f m else m) }

/-- The positions of a way that hold a line. -/
def Hlc.wayLines (h : Hlc) (w : Nat) : List Nat :=
  (h.lines.filter (fun e => e.1 % 16 == w && e.2.v)).map (·.1)

/-- Carry a flush of a way on as far as pins and the eviction buffer allow (R232). -/
def State.flushWay (s : State) (p w : Nat) : State :=
  ((s.slice p).hlc.wayLines w).foldl
    (fun s q => if (s.slice p).hPinned q then s else (s.maintAt p q 2).1) s

/-- Finish the maintenance operations that have nothing left to wait for: `MaintDone` goes to the sender (R227). A
by-address operation waits for its line's eviction-buffer entries, which R227 names, and for no `MemWr` of a write that the
cache did not keep. DESIGN CHOICE (log 94). -/
def State.maintFinish (s : State) (p : Nat) : State :=
  let x := s.slice p
  let fin := fun (m : Maint) => !m.waiting && m.acks.isEmpty
    && (m.scope != 0 || !(x.hlc.evbs.any (fun w => w.addr == m.addr)))
  let ended := x.hlc.maint.filter fin
  let s := s.modHlc p fun h => { h with
    maint := h.maint.filter (fun m => !fin m)
    walks := h.walks.filter fun w => !(ended.any fun m => w.maint == some m.idx) }
  ended.foldl (fun s m => match m.src with
    | some q => s.emit p { x.homeMsg 0x34 q.src 0 with txn := q.txn, addr := 0 }
    | none => s) s

/-- The pass of a walk is over: no position is left to visit. -/
def Walk.over (w : Walk) : Bool := decide (4096 ≤ w.next) && w.again.isEmpty

/-- One visit of the walker (R229): the next position, or a pinned one again. A walk whose pass is over keeps its place
until its operation completes. -/
def State.walkVisit (s : State) (p : Nat) : State :=
  match (s.slice p).hlc.walks with
  | [] => s
  | w :: rest =>
    let op : BitVec 4 := match w.maint with
      | none => 2
      | some i => (((s.slice p).hlc.maint.find? (fun m => m.idx == i)).map (·.op)).getD 2
    let ended := fun (s : State) =>
      match w.maint with
      | none => s.modHlc p fun h => { h with walks := rest }
      | some i => (s.modHlc p fun h => h.modMaint i (fun m => { m with waiting := false })).maintFinish p
    let put := fun (s : State) (v : Walk) => s.modHlc p fun h => { h with walks := v :: rest }
    let note := fun (s : State) (r : MaintRes) => match r, w.maint with
      | .moved a, some i => s.modHlc p fun h => h.modMaint i (fun m => { m with acks := m.acks ++ [a] })
      | _, _ => s
    let q := if w.next < 4096 then some w.next else w.again.head?
    match q with
    | none => if w.maint.isSome then s else ended s
    | some q =>
      let after : Walk := if w.next < 4096 then { w with next := w.next + 1 } else { w with again := w.again.drop 1 }
      if (s.slice p).hPinned q then put s { after with again := after.again ++ [q] }
      else
        match s.maintAt p q op with
        | (s, .blocked) => s
        | (s, r) =>
          let s := put (note s r) after
          if after.over then ended s else s

/-- Try to apply a waiting by-address or by-set-and-way operation (R228). -/
def State.maintTry (s : State) (p i : Nat) : State :=
  let x := s.slice p
  match x.hlc.maint.find? (fun m => m.idx == i && m.waiting && decide (m.scope < 2)) with
  | none => s
  | some m =>
    let q := if m.scope = 0 then x.hlc.find m.addr
      else some ((m.addr.extractLsb' 0 8).toNat * 16 + (m.addr.extractLsb' 8 4).toNat)
    let open_ := m.scope == 0 && x.hlc.mshrs.any (fun r => r.addr == m.addr)
    let pinned := m.scope == 0 && x.used.any fun e => e.2.pin.isSome && e.2.req.addr == m.addr
    if open_ then s.modHlc p fun h => { h with mshrs := h.mshrs.map fun r =>
      if r.addr = m.addr ∧ r.waiters.length < 8 ∧ r.waiters.contains (.maint i) = false then
        { r with waiters := r.waiters ++ [.maint i] }
      else r }
    else if pinned then s
    else
      match q with
      | none => (s.modHlc p fun h => h.modMaint i (fun m => { m with waiting := false })).maintFinish p
      | some q =>
        if x.hPinned q then s
        else
          match s.maintAt p q m.op with
          | (s, .blocked) => s
          | (s, r) =>
            let s := s.modHlc p fun h => h.modMaint i (fun m => { m with
              waiting := false
              acks := match r with
                | .moved a => m.acks ++ [a]
                | _ => m.acks })
            s.maintFinish p

/-- A write to memory is over: its entry is free, and an operation whose write it was awaits it no more (R224, R227). -/
def Hlc.writeEnd (h : Hlc) (ord : Nat) : Hlc :=
  { h with
    writes := h.writes.filter (fun w => w.ord != ord)
    maint := h.maint.map (fun m => { m with acks := m.acks.filter (· != ord) }) }

/-- A far operation's pin is gone: the operations that waited for it are tried (R228). -/
def State.maintRetry (s : State) (p : Nat) : State :=
  ((s.slice p).hlc.maint.filter (fun m => m.waiting && m.scope < 2)).foldl (fun s m => s.maintTry p m.idx) s

end Sys2Proof.Machine
end

