-- ==== Sys2Proof/Machine/Home.lean ====
section
/-! DEFINITION. The home's ordering protocol: open lines, admission, service and its end, victim phases, and the
far operations' place in it (chapters 6 and 10, with R181, R182 and R189). -/

namespace Sys2Proof.Machine

/-! Open lines -/

/-- The open-line entry of a line; mode 0 where there is none (R107). -/
def Slice.line (x : Slice) (a : LineAddr) : Olt := x.olt.get Olt.dflt a.toNat

def Slice.setLine (x : Slice) (a : LineAddr) (o : Olt) : Slice := { x with olt := x.olt.set Olt.dflt a.toNat o }

def State.modLine (s : State) (p : Nat) (a : LineAddr) (f : Olt → Olt) : State :=
  s.modSlice p fun x => x.setLine a (f (x.line a))

/-- The snoop-filter entry at an optional position; none is `DIR_I`. -/
def Slice.entAt (x : Slice) : Option Nat → SfEnt
  | none => {}
  | some q => x.ent q

/-- The entry of an open line. -/
def Slice.dir (x : Slice) (a : LineAddr) : SfEnt := x.entAt (x.line a).pos

/-- The directory owner: the one presence bit of `DIR_M` (R106). -/
def SfEnt.owner (e : SfEnt) : Nat := (bitsOf e.vec).headD 0

def SfEnt.has (e : SfEnt) (n : Nat) : Bool := decide (n < 64) && e.vec.getLsbD n

/-- An entry for line `a` at a position. -/
def mkEnt (a : LineAddr) (pos : Nat) (st : BitVec 2) (vec : BitVec 64) (poison : Bool) : SfEnt :=
  { tag := sfTagOf a, vec, st, poison, set := if isOvf pos then sfSetOf a else 0 }

/-- Write the directory state of an open line at the position it holds (R106, R178); no bit is set for an absent agent
(R21). -/
def State.setDir (s : State) (p : Nat) (a : LineAddr) (st : BitVec 2) (vec : BitVec 64) (poison : Bool) : State :=
  match ((s.slice p).line a).pos with
  | none => s
  | some q =>
    let vec := vec &&& s.glb.agents
    let st : BitVec 2 := if vec = 0 then 0 else st
    s.modSlice p fun x => (x.setEnt q (mkEnt a q st vec poison)).touchSf q

/-- Free a line's open-line entry, and its snoop-filter entry where that is free (R106, R107). -/
def State.freeLine (s : State) (p : Nat) (a : LineAddr) : State :=
  let x := s.slice p
  let o := x.line a
  let x := match o.pos with
    | some q => if (x.ent q).allocated then x else x.setEnt q {}
    | none => x
  s.setSlice p (x.setLine a {})

/-- A by-address maintenance operation waits on the line (Table 6.1, R228). -/
def Slice.maintOn (x : Slice) (a : LineAddr) : Bool :=
  x.hlc.maint.any (fun m => m.waiting && m.scope == 0 && m.addr == a)

/-- MAINT of a line (Table 6.1): it is under maintenance, or its slice under evacuation. -/
def State.underMaint (s : State) (p : Nat) (a : LineAddr) : Bool := (s.slice p).maintOn a || s.evacHeld p

/-- The line a tracker serves or waits for. -/
def Trk.lineAddr (k : Trk) : LineAddr := k.victim.getD k.req.addr

/-- An owner-directed forward to `w` for the line awaits its answer (R121). -/
def Slice.forwardAwaits (x : Slice) (a : LineAddr) (w : Nat) : Bool :=
  x.used.any (fun e => e.2.lineAddr == a && e.2.ownerForm && decide (w < 64) && e.2.awaits.getLsbD w)

/-- Whether tracker `t` has reached breakaway (R99). -/
def State.broke (s : State) (p : Nat) (k : Trk) : Bool :=
  decide ((s.slice p).brkUs.toNat ≤ effAge s.time k.req.age.toNat k.arr)

/-! Messages of the home -/

/-- Record and capture a protocol error (R124); the record's detail is this error's own, whatever is captured. -/
def State.protoError (s : State) (p : Nat) (m : Msg) (st mode : BitVec 2) : State :=
  let img : BitVec 20 := mode ++ st ++ m.opc ++ m.src
  let s := s.count p .perr
  let s := s.modSlice p fun x =>
    if x.protoErrValid then x
    else { x with protoErr := img, protoErrValid := true, protoErrAddr := m.addr }
  (s.sliceErr p 1 0x10 (some m.addr) (some m.src) ((BitVec.ofBool true ++ img).setWidth 64)).fire 1454

/-- Send the message that ends tracker `t`'s transaction, with CRET, and free the tracker (R71, R88). -/
def State.endWith (s : State) (p t opc : Nat) (f : Msg → Msg) : State :=
  match (s.slice p).trk t with
  | none => s
  | some k =>
    (s.emit p (f { (s.slice p).homeMsg opc k.req.src k.req.addr with txn := k.req.txn, cret := true })).closeTrk p t

/-- End with `ErrComp` (Table 4.7). -/
def State.endErr (s : State) (p t : Nat) (stat : BitVec 4) : State := s.endWith p t 0x31 fun m => { m with stat }

/-- Load RECENT of a line's predictor entry (R199). -/
def State.loadRecent (s : State) (p : Nat) (a : LineAddr) : State :=
  s.modSlice p fun x => { x with far := { x.far with
    pred := x.far.pred.set Pred.dflt (predOf a) { x.far.pred.get Pred.dflt (predOf a) with recent := x.far.recentUs } } }

/-- Send an owner-directed forward for tracker `t` to agent `o` (R93, Table 4.6); an absent agent is sent none (R21). -/
def State.sendForward (s : State) (p t opc o : Nat) (a : LineAddr) (named : Bool) : State :=
  if !(s.glb.agents.getLsbD o) then s
  else
  let k := (s.slice p).trk t
  let m := { (s.slice p).homeMsg opc (BitVec.ofNat 10 o) a with htag := BitVec.ofNat 8 t }
  let m := match k with
    | some k => if named then { m with reqid := k.req.src, txn := k.req.txn } else m
    | none => m
  let s := s.emit p m
  s.modTrk p t fun k => { k with awaits := k.awaits ||| agentBit o, ownerForm := true }

/-- Send a vector-addressed `Inv` or `BackInv` and count its answers; an empty vector sends nothing (R75, R117). -/
def State.sendVector (s : State) (p t opc : Nat) (a : LineAddr) (vec : BitVec 64) : State :=
  let v := vec &&& s.glb.agents
  if v = 0 then s
  else
    let s := s.emit p { (s.slice p).homeMsg opc 1022 a with htag := BitVec.ofNat 8 t, data := v.setWidth 512 }
    let s := s.modTrk p t fun k => { k with awaits := v, ownerForm := false }
    s.modLine p a fun o => { o with ackcnt := (bitsOf v).length }

/-- The entry of a line: the one its open line holds, or the one its address finds. -/
def Slice.entOfLine (x : Slice) (a : LineAddr) : SfEnt :=
  let o := x.line a
  if o.mode = 0 then x.entAt (x.sfHits a).head? else x.dir a

/-! Conflict queues and wait lists (R100, R114, R181) -/

/-- The effective age of a tracker's request (R99). -/
def State.trkAge (s : State) (k : Trk) : Nat := effAge s.time k.req.age.toNat k.arr

/-- Of two breakaway requests, `j` stays ahead of `k`: by a higher effective age, then by reaching breakaway earlier, then
by arriving at the slice earlier (R100). -/
def State.brkAhead (s : State) (j k : Trk) : Bool :=
  if s.trkAge j ≠ s.trkAge k then decide (s.trkAge k < s.trkAge j)
  else if j.brkAt ≠ k.brkAt then decide (j.brkAt < k.brkAt) else decide (j.seq ≤ k.seq)

/-- In a wait list `j` is ahead of `k`: by a higher effective age, then by arrival (R181). -/
def State.waitAhead (s : State) (j k : Trk) : Bool :=
  if s.trkAge j ≠ s.trkAge k then decide (s.trkAge k < s.trkAge j) else decide (j.seq ≤ k.seq)

/-- Put tracker `t` into a line's conflict queue: at its tail, or by R100 if it has reached breakaway. -/
def State.enqueue (s : State) (p t : Nat) (a : LineAddr) : State :=
  let x := s.slice p
  let q := (x.line a).queue.filter (· != t)
  let ahead := fun i => match x.trk i, x.trk t with
    | some j, some k => j.brk && s.brkAhead j k
    | _, _ => false
  let q := if (x.trk t).any (·.brk) then q.takeWhile ahead ++ [t] ++ q.dropWhile ahead else q ++ [t]
  (s.modLine p a fun o => { o with queue := q }).modTrk p t fun k => { k with phase := .queued }

/-- The kind a request is acted on as: an `Upgrade` is converted unless its bit is set in `DIR_S` (R116). -/
def kindOn (k : Trk) (e : SfEnt) : ReqKind :=
  if k.kind = .upgrade ∧ !(e.st == 1 && e.has k.req.src.toNat) then .readOwn else k.kind

/-- The request allocates an entry on a line that holds none (R180). -/
def needsEntry (k : Trk) (e : SfEnt) (pos : Option Nat) : Bool :=
  pos.isNone && (kindOn k e == .readShared || kindOn k e == .readOwn)

/-- The heads of wait lists that wait at step 8: no victim phase runs for them and no way is reserved (R181). -/
def Slice.stepEight (x : Slice) : List (Nat × Trk) :=
  x.sfl.wait.filterMap fun e => e.2.head?.bind fun t => (x.trk t).bind fun k =>
    if k.victim.isSome || k.resv.isSome then none else some (t, k)

/-- The step 8 head of greatest effective age, which a freed or unpinned overflow entry goes to (R181). -/
def State.eldest (s : State) (p : Nat) : Option Nat :=
  (firstBy (fun a b => s.waitAhead a.2 b.2) (s.slice p).stepEight).map (·.1)

/-- The entry a request that needs one can be given now, none under T8 (R180, R181). -/
def Slice.giveEntry (x : Slice) (k : Trk) : Option Nat :=
  match k.resv with
  | some q => some q
  | none =>
    let set := (sfSetOf k.req.addr).toNat
    if x.sfl.wait.get noNats set ≠ [] then none
    else match x.allocate set with
      | .free q => if isOvf q && !x.stepEight.isEmpty then none else some q
      | _ => none

/-- End a victim phase: the entry is freed and reserved for the head request (R182 step 4). -/
def State.victimEnd (s : State) (p t : Nat) (v : LineAddr) : State :=
  match ((s.slice p).line v).pos with
  | none => s
  | some q =>
    let s := s.modSlice p fun x => x.setEnt q {}
    let s := s.modTrk p t fun k => { k with
      victim := none, victimWr := false, handled := false, resv := some q, awaits := 0 }
    let s := s.modLine p v fun o => { o with pos := none, serve := none }
    if ((s.slice p).line v).queue = [] then s.freeLine p v else s

/-- Step 3 of a victim phase: a poisoned victim is written home with POISON `0xFF`, and the phase then ends
(R182). `poison` says that V's entry has its poison bit set. -/
def State.victimWrite (s : State) (p t : Nat) (v : LineAddr) (poison : Bool) : State :=
  if !poison then s.victimEnd p t v
  else
    match s.storeLine p v 0 0xFF (some t) with
    | (s, true) => s.victimEnd p t v
    | (s, false) => s.modTrk p t fun k => { k with victimWr := true }

/-- Start the handling of an entry with ST `0b11` for the line `a` served by tracker `t` (R189). -/
def State.handleStart (s : State) (p t : Nat) (a : LineAddr) : State :=
  let e := (s.slice p).dir a
  if e.poison then
    let vs := bitsOf (e.vec &&& s.glb.agents)
    let s := vs.foldl (fun s n => s.sendForward p t 0x24 n a false) s
    s.modLine p a fun o => { o with ackcnt := vs.length }
  else s.sendVector p t 0x24 a e.vec

/-- The write of a victim phase is over: the phase ends, once an entry that has been marked uncorrectable meanwhile has been
handled (R168, R182, R189). -/
def State.victimWritten (s : State) (p t : Nat) (v : LineAddr) : State :=
  match (s.slice p).trk t with
  | none => s
  | some k =>
    if ((s.slice p).dir v).st = 3 ∧ k.handled = false then
      (s.modTrk p t fun k => { k with victimWr := false, handled := true }).handleStart p t v
    else s.victimEnd p t v

/-- Start the victim phase of position `q` for tracker `t` (R182). -/
def State.victimStart (s : State) (p t q : Nat) : State :=
  let v := (s.slice p).lineOf q
  let e := (s.slice p).ent q
  let s := (s.count p .vict).modTrk p t fun k => { k with victim := some v }
  let s := s.modLine p v fun o => { o with mode := 2, serve := some t, pos := some q }
  let s :=
    if e.st = 1 then s.sendVector p t 0x24 v e.vec
    else if e.st = 2 then
      (s.sendForward p t 0x24 e.owner v false).modLine p v fun o => { o with pend := 3 }
    else if e.st = 3 then (s.modTrk p t fun k => { k with handled := true }).handleStart p t v
    else s
  let o := (s.slice p).line v
  if o.ackcnt = 0 ∧ o.pend = 0 then s.victimWrite p t v e.poison else s

/-- The head of a set's wait list takes a free way, or starts a victim phase (R181). -/
def State.startHead (s : State) (p set : Nat) : State :=
  match (s.slice p).sfl.wait.get noNats set with
  | [] => s
  | t :: _ =>
    match (s.slice p).trk t with
    | none => s
    | some k =>
      if k.victim.isSome || k.resv.isSome then s
      else
        let mine := fun q => !(isOvf q) || s.eldest p == some t
        match (s.slice p).allocate set with
        | .free q => if mine q then s.modTrk p t fun k => { k with resv := some q } else s
        | .victim q => if mine q then s.victimStart p t q else s
        | .full => s

/-- Join the set's wait list, oldest effective age first, behind a head whose victim phase has started (R181). -/
def State.joinWait (s : State) (p t : Nat) : State :=
  match (s.slice p).trk t with
  | none => s
  | some k =>
    let set := (sfSetOf k.req.addr).toNat
    let old := (s.slice p).sfl.wait.get noNats set
    let ahead : Nat → Bool := fun i => match (s.slice p).trk i with
      | some j => j.victim.isSome || j.resv.isSome || s.waitAhead j k
      | none => false
    let q := old.takeWhile ahead ++ [t] ++ old.dropWhile ahead
    let s := s.modSlice p fun x => { x with sfl := { x.sfl with wait := x.sfl.wait.set noNats set q } }
    let s := (s.count p .wait).modTrk p t fun k => { k with phase := .allocWait }
    if old = [] then s.startHead p set else s

/-! Home data -/

/-- Start the read of home data for tracker `t` (R118, R218, R223, R225). -/
def State.needData (s : State) (p t : Nat) : State :=
  match (s.slice p).trk t with
  | none => s
  | some k =>
    let a := k.req.addr
    let s := s.modTrk p t fun k => { k with needs := true }
    let trains := k.req.opc == 0 || k.req.opc == 1 || k.req.opc == 3
    match s.hRead p a true with
    | (s, some d, pf) =>
      let s := s.modTrk p t fun k => { k with have_ := true, data := d.1, poison := d.2 }
      if trains && pf then s.trainStream p k.req else s
    | (s, none, _) =>
      let s := match s.missJoin p a (.tracker t) true with
        | (s, true) => s
        | (s, false) => s.modTrk p t fun k => { k with waitMiss := true }
      if trains then s.trainStream p k.req else s

/-! Far operations: admission, decline, service start (R200, R201, R213) -/

/-- The slice's engine runs programs: it is loaded, out of reset, and neither halted nor quiesced (R14). -/
def State.engineServes (s : State) (p : Nat) : Bool :=
  (s.eng p).fwOk && ((s.eng p).state == 1 || (s.eng p).state == 2) && !(s.eng p).quiesced

/-- The master copy of a slot is valid, and no load has marked it invalid (R206, R211). -/
def State.masterValid (s : State) (k : Nat) : Bool :=
  !(s.loader.master.get noProg k).isEmpty && !(s.loader.blocked.contains k)

/-- A copy of the far store with the words of slot `k` written (R206, R210, R211). -/
def putSlot (m : NMap (BitVec 32)) (k : Nat) (ws : List (BitVec 32)) : NMap (BitVec 32) :=
  (List.range 32).foldl (fun m i => m.set zero32 (32 * k + i) (ws.getD i 0)) m

/-- A whole copy of the master store (R206). -/
def farWords (master : NMap (List (BitVec 32))) : NMap (BitVec 32) := master.foldl (fun m e => putSlot m e.1 e.2) []

/-- The loader has written the whole copy of slice `p`'s engine, which is complete (R206). -/
def State.farCopied (s : State) (p : Nat) : State :=
  s.modSlice p fun x => { x with far := { x.far with
    copyDone := true, slotBad := [], store := farWords s.loader.master } }

/-- The watch of the own engine's reservation breaks when its line is written or handed out (R267). -/
def State.breakWatch (s : State) (p : Nat) (a : LineAddr) : State :=
  s.modSlice p fun x => match x.watch with
    | some (l, ok) => { x with watch := some (l, ok && l != a) }
    | none => x

/-- Slot `k` is valid at slice `p` (R14, R206, R210). -/
def State.slotValid (s : State) (p k : Nat) : Bool :=
  s.masterValid k && (s.slice p).far.copyDone && !((s.slice p).far.slotBad.contains k) && s.engineServes p

/-- The STAT of the first failing check of Table 10.1 among 1, 2 and 3; `e` is the line's entry. -/
def State.farCheck (s : State) (p : Nat) (m : Msg) (e : SfEnt) : Option (BitVec 4) :=
  if (s.slice p).hlc.unavailable then some 4
  else if m.opc = 7 ∧ s.slotValid p m.aux.toNat = false then some 2
  else if e.poison then some 3
  else none

def declineCnt (stat : BitVec 4) : Cnt :=
  if stat = 1 then .dQfull else if stat = 2 then .dSlot else if stat = 3 then .dPoison else .dHlc

/-- Take a tracker out of the far-operation queues. -/
def State.farLeave (s : State) (p t : Nat) : State :=
  s.modSlice p fun x => { x with far := { x.far with
    queue := x.far.queue.filter (· != t), alu := x.far.alu.filter (· != t), prog := x.far.prog.filter (· != t) } }

/-- Answer tracker `t` with `FarDecline` (R200 to R202). -/
def State.farDecline (s : State) (p t : Nat) (stat : BitVec 4) : State :=
  (((s.count p (declineCnt stat)).farLeave p t).endWith p t 0x30 fun m => { m with stat }).maintRetry p

/-- Whether the operand bytes a far operation touches carry poison (R169). -/
def operandPoisoned (m : Msg) (poison : BitVec 8) : Bool :=
  if m.opc = 7 then poison != 0 else poison.getLsbD (m.offs.toNat / 8)

/-- A far operation holds its operand with ACKCNT zero: it is declined for poison, or for a slot that is no longer
valid, or becomes ready for the atomic ALU or the engine (R14, R169, R205, R207). The answer says that its
transaction ended. -/
def State.farBecomesReady (s : State) (p t : Nat) (k : Trk) : State × Bool :=
  let poison := match k.pin with
    | some q => ((s.slice p).hlc.line q).poison
    | none => k.poison
  if operandPoisoned k.req poison then (s.farDecline p t 3, true)
  else if k.kind = .farProgram ∧ s.engineServes p = false then (s.farDecline p t 2, true)
  else
    let s := s.modTrk p t fun k => { k with phase := .farReady }
    (s.modSlice p fun x => { x with far :=
      if k.kind = .farProgram then { x.far with prog := x.far.prog ++ [t] }
      else { x.far with alu := x.far.alu ++ [t] } }, false)

/-- Positions of a set pinned by far operations. -/
def Slice.pinsInSet (x : Slice) (set : Nat) : Nat :=
  (x.used.filter (fun e => match e.2.pin with
    | some q => q / 16 == set
    | none => false)).length

/-- Reserve a way for a far operation: the line's own position, or a vacated one; none while the pin limit is
reached or a dirty victim finds no eviction-buffer entry (R213, R221). -/
def State.farReserve (s : State) (p : Nat) (a : LineAddr) : State × Option Nat :=
  let x := s.slice p
  if x.hlc.waysOn - 1 ≤ x.pinsInSet (hsetOf a).toNat then (s, none)
  else match x.hlc.find a with
    | some q => (s, some q)
    | none =>
      match x.choosePos a with
      | none => (s, none)
      | some q =>
        match s.vacate p q with
        | (s, true) => (s, some q)
        | (s, false) => (s, none)

/-- Hold a line's data at the pinned position of a far operation, dirty if it is or was (R213, R220). -/
def State.farHold (s : State) (p t : Nat) (a : LineAddr) (data : LineData) (poison : BitVec 8) (dirty : Bool) : State :=
  match (s.slice p).trk t with
  | some k =>
    match k.pin with
    | some q =>
      let was := (s.slice p).hlc.find a == some q && ((s.slice p).hlc.line q).dirty
      let s := s.modHlc p fun h => (h.setLine q (mkLine a data poison (dirty || was) false)).touch q
      s.modTrk p t fun k => { k with have_ := true, data, poison }
    | none => s
  | none => s

/-! Service (R114, R123, Table 6.5) -/

/-- Give tracker `t`'s line the snoop-filter position it can be given (R180). -/
def State.takeEntry (s : State) (p t : Nat) (a : LineAddr) : State :=
  match (s.slice p).trk t with
  | none => s
  | some k =>
    if ((s.slice p).line a).pos.isSome then s
    else match (s.slice p).giveEntry k with
      | none => s
      | some q =>
        let s := s.modLine p a fun o => { o with pos := some q }
        let s := s.modTrk p t fun k => { k with resv := none }
        if isOvf q then s.count p .ovf else s

/-- Forward a `ReadOwn` to the owner: the requester becomes owner and DEPTH rises (R110). -/
def State.chainOwn (s : State) (p t : Nat) (a : LineAddr) (o : Nat) (mode : BitVec 2) : State :=
  match (s.slice p).trk t with
  | none => s
  | some k =>
    let s := s.setDir p a 2 (agentBit k.req.src.toNat) false
    let s := s.modLine p a fun l => { l with mode, depth := l.depth + 1 }
    let s := ((s.count p .fwdOwn).breakWatch p a |>.sendForward p t 0x20 o a true).modTrk p t fun k => { k with phase := .chained }
    s.loadRecent p a

/-- Serve a read from the owner's copy with `FwdShared` or `FwdRead` (R112). -/
def State.forwardRead (s : State) (p t : Nat) (a : LineAddr) (o : Nat) (shared : Bool) : State :=
  match (s.slice p).trk t with
  | none => s
  | some k =>
    let s := s.modLine p a fun l => { l with mode := 2, serve := some t, pend := if shared then 1 else 2 }
    let s := (s.sendForward p t (if shared then 0x21 else 0x22) o a true).modTrk p t fun k => { k with phase := .forward }
    if shared then s.setDir p a 1 (agentBit o ||| agentBit k.req.src.toNat) ((s.slice p).dir a).poison else s

/-- A request is the slice's own engine's transaction of a kind: no field of a message marks an `LR` or an `SC`, and their
requests reach the slice without crossing a ring (R9, R267). -/
def State.ownKind (s : State) (p : Nat) (m : Msg) (kind : OutKind) : Bool :=
  m.src == BitVec.ofNat 10 (320 + p) && (s.eng p).out.any fun o => o.txn == m.txn && o.kind == kind

/-- The engine's reservation is local and names the line (R266, R268). -/
def Eng.rsvNames (g : Eng) (a : LineAddr) : Bool := g.rsvValid && !g.rsvRemote && g.rsvLine == a

/-- The decision of an `LR`'s `ReadNc` sets the watch, broken where it finds `DIR_M` (R267). -/
def State.setWatch (s : State) (p : Nat) (m : Msg) (e : SfEnt) : State :=
  if s.ownKind p m .lr then s.modSlice p fun x => { x with watch := some (m.addr, e.st != 2) } else s

/-- A request is its own engine's `SC`, also one sent before a cold reset of the engine (R268). -/
def State.isStoreCond (s : State) (p : Nat) (m : Msg) : Bool :=
  m.opc == 0x05 && (s.ownKind p m .sc || (m.src == BitVec.ofNat 10 (320 + p) && (s.eng p).staleSc.contains m.txn))

/-- Act on the served request of tracker `t` by Table 6.5 and R123; far operations wait for their service start. An `SC`
whose watch is not intact, or whose reservation names another line, writes nothing and its engine learns so (R268). -/
def State.act (s : State) (p t : Nat) (a : LineAddr) : State :=
  match (s.slice p).trk t with
  | none => s
  | some k =>
    let e := (s.slice p).dir a
    let me := agentBit k.req.src.toNat
    let kind := kindOn k e
    let s := s.modTrk p t fun k => { k with kind, phase := .gather, onPoison := e.poison, awaits := 0, ownerForm := false }
    let misuse := fun (s : State) =>
      ((s.protoError p k.req e.st ((s.slice p).line a).mode).endErr p t 7).modLine p a fun o => { o with serve := none }
    let sc := s.isStoreCond p k.req
    if sc && !((s.slice p).watch == some (a, true) && (s.eng p).rsvNames a) then
      ((s.modSlice p fun x => { x with watch := none, scFailed := x.scFailed ++ [k.req.txn] }).endWith p t 0x2F id).modLine
        p a fun o => { o with serve := none }
    else
    let s := if sc then s.modSlice p fun x => { x with watch := none }
      else if kind = .writeFull ∨ kind = .writePartial then s.breakWatch p a else s
    match kind with
    | .readShared =>
      if e.st = 2 then
        if e.owner = k.req.src.toNat then misuse s else s.forwardRead p t a e.owner true
      else
        let s := (s.takeEntry p t a).setDir p a 1 (e.vec ||| me) e.poison
        s.needData p t
    | .readOwn =>
      if e.st = 2 then
        if e.owner = k.req.src.toNat then misuse s else s.chainOwn p t a e.owner 2
      else
        let s := ((s.takeEntry p t a).setDir p a 2 me false).breakWatch p a
        (s.sendVector p t 0x23 a (e.vec &&& ~~~me)).needData p t
    | .upgrade =>
      let s := ((s.setDir p a 2 me false).breakWatch p a).modTrk p t fun k => { k with grant := true }
      s.sendVector p t 0x23 a (e.vec &&& ~~~me)
    | .readNc =>
      let s := s.setWatch p k.req e
      if e.st = 2 then s.forwardRead p t a e.owner false else s.needData p t
    | .writeFull =>
      if e.st = 2 then
        (s.sendForward p t 0x25 e.owner a false).modLine p a fun o => { o with pend := 3 }
      else if e.st = 1 then (s.setDir p a 0 0 e.poison).sendVector p t 0x23 a e.vec
      else s
    | .writePartial =>
      if e.st = 2 then
        (s.sendForward p t 0x25 e.owner a false).modLine p a fun o => { o with pend := 3 }
      else if e.st = 1 then ((s.setDir p a 0 0 e.poison).sendVector p t 0x23 a e.vec).needData p t
      else s.needData p t
    | .farAtomic | .farProgram => s.modTrk p t fun k => { k with phase := .farStart }

/-- Serve tracker `t` for line `a`: the handling of R189 first, where the entry is uncorrectable. -/
def State.serve (s : State) (p t : Nat) (a : LineAddr) : State :=
  let s := s.modLine p a fun o => { o with mode := 2, serve := some t }
  if ((s.slice p).dir a).st = 3 then
    (s.modTrk p t fun k => { k with phase := .handling }).handleStart p t a
  else s.act p t a

/-- Merge a partial write into a line, and its mask: a group's mark clears only when all eight bytes are written
(R119, R123, R167). -/
def mergeBytes (old new : LineData) (offs len : Nat) : LineData :=
  let mask : LineData := (BitVec.ofNat 512 (2 ^ (8 * len) - 1)) <<< (8 * offs)
  (old &&& ~~~mask) ||| (new &&& mask)

def mergePoison (old new : BitVec 8) (offs len : Nat) : BitVec 8 :=
  (List.range 8).foldl (fun r j =>
    let whole := decide (offs ≤ 8 * j) && decide (8 * j + 8 ≤ offs + len)
    let part := decide (offs < 8 * j + 8) && decide (8 * j < offs + len)
    let bit := (part && new.getLsbD j) || (old.getLsbD j && !whole)
    if bit then r ||| BitVec.ofNat 8 (2 ^ j) else r) 0

/-- Perform the write of a non-caching writer (R119, R123). The answer says that its transaction ended. -/
def State.doWrite (s : State) (p t : Nat) (k : Trk) : State × Bool :=
  let a := k.req.addr
  let full := k.kind == .writeFull
  let offs := k.req.offs.toNat
  let len := k.req.len.toNat
  let old := if k.onPoison then 0xFF else k.poison
  let data := if full then k.req.data else mergeBytes k.data k.req.data offs len
  let poison := if full then k.req.poison else mergePoison old k.req.poison offs len
  let e := (s.slice p).dir a
  let s := if poison = 0 ∧ e.poison = true ∧ e.st ≠ 3 then s.setDir p a e.st e.vec false else s
  match s.storeLine p a data poison (some t) with
  | (s, true) => (s.endWith p t 0x2F id, true)
  | (s, false) => (s.modTrk p t fun k => { k with phase := .writeAck }, false)

/-- The served transaction has everything it awaits: send its last message (R115, Table 6.5). -/
def State.complete (s : State) (p t : Nat) (k : Trk) : State × Bool :=
  let poison := if k.onPoison then 0xFF else k.poison
  match k.kind with
  | .readShared => (s.endWith p t 0x39 fun m => { m with data := k.data, poison }, true)
  | .readOwn => ((s.endWith p t 0x38 fun m => { m with data := k.data, poison }).loadRecent p k.req.addr, true)
  | .upgrade => ((s.endWith p t 0x28 id).loadRecent p k.req.addr, true)
  | .readNc => (s.endWith p t 0x3A fun m => { m with data := k.data, poison }, true)
  | .writeFull | .writePartial => s.doWrite p t k
  | .farAtomic | .farProgram => s.farBecomesReady p t k

/-- One step toward rest for an open line: end or continue what is served, drain, serve the next request, or free
the line (R111, R114, R115, R182, R189). -/
def State.settleStep (s : State) (p : Nat) (a : LineAddr) : State :=
  let x := s.slice p
  let o := x.line a
  let free := fun (r : State × Bool) => if r.2 then r.1.modLine p a fun o => { o with serve := none } else r.1
  if o.mode = 2 then
    match o.serve with
    | some t =>
      match x.trk t with
      | none => s.modLine p a fun o => { o with serve := none }
      | some k =>
        if o.ackcnt ≠ 0 ∨ o.pend ≠ 0 then s
        else if k.victim = some a then
          if k.victimWr then s
          else if (x.dir a).st = 3 ∧ k.handled = false then
            (s.modTrk p t fun k => { k with handled := true }).handleStart p t a
          else s.victimWrite p t a (x.dir a).poison
        else if k.phase = .handling then
          let e := x.dir a
          let s := s.setDir p a 0 0 e.poison
          s.act p t a
        else if k.phase = .gather ∧ (k.needs = false ∨ k.have_ = true) then free (s.complete p t k)
        else s
    | none =>
      if 0 < o.depth then
        if o.queue = [] then s.modLine p a fun o => { o with mode := 1 }
        else (s.modLine p a fun o => { o with mode := 3 }).count p .drain
      else
        match o.queue with
        | [] => s.freeLine p a
        | h :: rest =>
          let s := s.modLine p a fun o => { o with queue := rest }
          match x.trk h with
          | none => s
          | some k =>
            if needsEntry k (x.dir a) o.pos && (x.giveEntry k).isNone then s.joinWait p h
            else s.serve p h a
  else if o.mode = 3 ∧ o.depth = 0 then s.modLine p a fun o => { o with mode := 2, serve := none }
  else if o.mode = 1 ∧ o.depth = 0 then s.freeLine p a
  else s

/-- Let an open line come to rest: every queued request takes at most four steps. -/
def State.settle (s : State) (p : Nat) (a : LineAddr) : State :=
  (List.range (4 * (((s.slice p).line a).queue.length + 2))).foldl (fun s _ => s.settleStep p a) s

/-! Admission (R113, R114) -/

/-- A trigger of Table 6.3 holds for tracker `k` on a line with entry `e` in open-line state `o`. -/
def State.trigger (s : State) (p : Nat) (k : Trk) (e : SfEnt) (o : Olt) : Bool :=
  let x := s.slice p
  e.st == 0 || e.st == 1
    || o.pend != 0 || !o.wbHeld.isEmpty
    || decide (x.depthLim.toNat ≤ o.depth)
    || (k.kind == .farAtomic || k.kind == .farProgram || k.kind == .writeFull || k.kind == .writePartial)
    || s.broke p k
    || e.poison || e.st == 3
    || s.underMaint p k.req.addr
    || !x.chainEn
    || (e.st == 2 && e.has k.req.src.toNat)

/-- A request reaches breakaway: it is counted, once, and the FCLK noted (R100). -/
def State.breakOut (s : State) (p t : Nat) : State :=
  (s.count p .brk).modTrk p t fun k => { k with brk := true, brkAt := s.fclk }

/-- The decision of a request on its line, whose lookup gave the position `hit` (R114). -/
def State.decideReq (s : State) (p t : Nat) (hit : Option Nat) : State :=
  match (s.slice p).trk t with
  | none => s
  | some k =>
    let a := k.req.addr
    let s := if s.broke p k && !k.brk then s.breakOut p t else s
    let x := s.slice p
    let o := x.line a
    if o.mode = 2 ∨ o.mode = 3 then s.enqueue p t a
    else
      let pos := if o.mode = 0 then hit else o.pos
      let e := x.entAt pos
      if o.mode = 0 ∧ needsEntry k e pos = true ∧ (x.giveEntry k).isNone = true then s.joinWait p t
      else
        let s := s.modLine p a fun o => { o with pos }
        if s.trigger p k e o then
          if o.mode = 1 then
            ((s.modLine p a fun o => { o with mode := 3 }).count p .drain).enqueue p t a
          else (s.serve p t a).settle p a
        else match kindOn k e with
          | .readShared => s.forwardRead p t a e.owner true
          | .readNc => (s.setWatch p k.req e).forwardRead p t a e.owner false
          | kind => (s.modTrk p t fun k => { k with kind }).chainOwn p t a e.owner 1

/-- A request looks its line up and is decided (R109, R114). -/
def State.arrive (s : State) (p t : Nat) : State :=
  match (s.slice p).trk t with
  | none => s
  | some k => match s.lookup p k.req.addr with
    | (s, hit) => s.decideReq p t hit

/-- Release a request from its wait list (R181): it uses the reserved way, or that passes to the next of the list. -/
def State.release (s : State) (p t : Nat) : State :=
  match (s.slice p).trk t with
  | none => s
  | some k =>
    let set := (sfSetOf k.req.addr).toNat
    let list := (s.slice p).sfl.wait.get noNats set
    if list.head? ≠ some t then s
    else
      let s := s.startHead p set
      match (s.slice p).trk t with
      | none => s
      | some k =>
        match k.resv with
        | none => match k.victim with
          | some v => s.settle p v
          | none => s
        | some q =>
          let s := s.modSlice p fun x => { x with sfl := { x.sfl with wait := x.sfl.wait.set noNats set (list.drop 1) } }
          let s := s.arrive p t
          let spent := ((s.slice p).ent q).allocated || (s.slice p).olt.any fun e => e.2.pos == some q
          let s := s.modTrk p t fun k => { k with resv := none }
          let s := if spent then s
            else match list.drop 1 with
              | n :: _ => s.modTrk p n fun k => { k with resv := some q }
              | [] => s
          s.startHead p set

end Sys2Proof.Machine
end

