-- ==== Sys2Proof/Machine/Answers.lean ====
section
/-! DEFINITION. What a slice does on writebacks, clean evictions and answers (R111, R120 to R122, R126, R127, R190),
on memory answers (R222 to R224, R418), and the execution of far operations (R204 to R213). -/

namespace Sys2Proof.Machine

/-- Clear an agent's presence bit; the entry is freed when nothing keeps it (R106, R122). -/
def State.clearBit (s : State) (p : Nat) (a : LineAddr) (pos : Option Nat) (w : Nat) : State :=
  match pos with
  | none => s
  | some q =>
    let e := (s.slice p).ent q
    if !e.has w then s
    else
      let vec := e.vec &&& ~~~(agentBit w)
      let st : BitVec 2 := if e.st = 1 ∧ vec = 0 then 0 else e.st
      let e' := { e with vec, st }
      s.modSlice p fun x =>
        if (x.line a).mode = 0 ∧ !e'.allocated then x.setEnt q {} else x.setEnt q e'

/-- Set an entry to `DIR_I` with the given poison bit; a closed line's free entry is cleared (R106). -/
def State.dropEntry (s : State) (p : Nat) (a : LineAddr) (pos : Option Nat) (poison : Bool) : State :=
  match pos with
  | none => s
  | some q => s.modSlice p fun x =>
    if (x.line a).mode = 0 ∧ !poison then x.setEnt q {} else x.setEnt q (mkEnt a q 0 0 poison)

/-- Answer a WB-class message, returning the WB credit (Table 6.6). -/
def State.wbAnswer (s : State) (p : Nat) (m : Msg) (opc : Nat) : State :=
  s.emit p { (s.slice p).homeMsg opc m.src m.addr with txn := m.txn, cret := true }

/-- Decide a `Writeback` (R121, R190); `held` says that it was held before. -/
def State.writeback (s : State) (p : Nat) (m : Msg) (pos : Option Nat) (held : Bool) : State :=
  let x := s.slice p
  let a := m.addr
  let w := m.src.toNat
  let e := x.entAt pos
  if x.forwardAwaits a w then s.modLine p a fun o => { o with wbHeld := o.wbHeld ++ [m] }
  else if e.st = 3 then
    let s := match pos with
      | some q => s.modSlice p fun x => x.setEnt q { e with poison := true }
      | none => s
    if held then (s.count p .stale).wbAnswer p m 0x2C else s.wbAnswer p m 0x2B
  else if e.st = 2 ∧ e.has w = true then
    ((s.storeLine p a m.data m.poison none).1.dropEntry p a pos e.poison).wbAnswer p m 0x2B
  else ((s.count p .stale).clearBit p a pos w).wbAnswer p m 0x2C

/-- Decide an `EvictClean` (R122, R190). -/
def State.evictClean (s : State) (p : Nat) (m : Msg) (pos : Option Nat) : State :=
  let x := s.slice p
  let w := m.src.toNat
  let e := x.entAt pos
  if e.st = 3 then s.wbAnswer p m 0x2B
  else if e.st = 2 ∧ e.has w = true then
    ((s.protoError p m e.st (x.line m.addr).mode).dropEntry p m.addr pos true).wbAnswer p m 0x2B
  else (s.clearBit p m.addr pos w).wbAnswer p m 0x2B

/-- The position a WB-class message sees: the open line's, or the lookup's. -/
def Slice.posOf (x : Slice) (a : LineAddr) (hit : Option Nat) : Option Nat :=
  if (x.line a).mode = 0 then hit else (x.line a).pos

/-- Decide again each held `Writeback` to whose sender no forward awaits its answer any more (R121). -/
def State.redecide (s : State) (p : Nat) (a : LineAddr) : State :=
  let o := (s.slice p).line a
  let waits := fun (m : Msg) => (s.slice p).forwardAwaits a m.src.toNat
  (o.wbHeld.filter (fun m => !waits m)).foldl (fun s m => s.writeback p m o.pos true)
    (s.modLine p a fun o => { o with wbHeld := o.wbHeld.filter waits })

/-- Tracker `t` serves line `a` and awaits an answer of the given form from agent `w`. -/
def Slice.awaitsFrom (x : Slice) (t : Nat) (a : LineAddr) (w : Nat) (owner : Bool) : Bool :=
  match x.trk t with
  | none => false
  | some k => k.lineAddr == a && decide (w < 64) && k.awaits.getLsbD w && k.ownerForm == owner

/-- Note that tracker `t` has agent `w`'s answer. -/
def State.answered (s : State) (p t w : Nat) : State :=
  s.modTrk p t fun k =>
    let awaits := k.awaits &&& ~~~(agentBit w)
    { k with awaits, ownerForm := k.ownerForm && awaits != 0 }

/-- A protocol error by an answer: it is discarded (R124). The directory state it names is that of the line's entry,
which an open line holds and a closed line's address finds. DESIGN CHOICE (log 84): Table 6.12 has no code of DIR for an
entry with ST `0b11`; the entry's own bits are recorded. -/
def State.strayAnswer (s : State) (p : Nat) (m : Msg) : State :=
  s.protoError p m ((s.slice p).entOfLine m.addr).st ((s.slice p).line m.addr).mode

/-- `InvAck` (R117, R127, R189). -/
def State.invAck (s : State) (p : Nat) (m : Msg) : State :=
  let a := m.addr
  let t := m.htag.toNat
  let w := m.src.toNat
  let o := (s.slice p).line a
  if (s.slice p).awaitsFrom t a w false ∧ o.mode = 2 ∧ o.serve = some t ∧ o.ackcnt ≠ 0 then
    (((s.answered p t w).modLine p a fun o => { o with ackcnt := o.ackcnt - 1 }).redecide p a).settle p a
  else if (s.slice p).awaitsFrom t a w true ∧ o.mode = 2 ∧ o.serve = some t ∧ o.ackcnt ≠ 0 then
    (((s.answered p t w).modLine p a fun o => { o with ackcnt := o.ackcnt - 1 }).redecide p a).settle p a
  else s.strayAnswer p m

/-- `FwdDone` (R111, Table 6.7). -/
def State.fwdDone (s : State) (p : Nat) (m : Msg) : State :=
  let a := m.addr
  let t := m.htag.toNat
  let w := m.src.toNat
  let o := (s.slice p).line a
  match (s.slice p).trk t with
  | none => s.strayAnswer p m
  | some k =>
    if (s.slice p).awaitsFrom t a w true = false then s.strayAnswer p m
    else if k.phase = .chained then
      let s := (s.answered p t w).endWith p t 0x2F id
      let s := s.modLine p a fun o => { o with
        depth := o.depth - 1
        serve := if o.serve = some t then none else o.serve }
      (s.redecide p a).settle p a
    else if k.phase = .forward ∧ o.pend = 2 ∧ o.serve = some t then
      let s := (s.answered p t w).endWith p t 0x2F id
      let s := s.modLine p a fun o => { o with pend := 0, serve := none }
      (s.redecide p a).settle p a
    else s.strayAnswer p m

/-- `CopyBack` (R112, R118, Table 6.7). -/
def State.copyBack (s : State) (p : Nat) (m : Msg) : State :=
  let a := m.addr
  let t := m.htag.toNat
  let o := (s.slice p).line a
  if (s.slice p).awaitsFrom t a m.src.toNat true ∧ o.pend = 1 ∧ o.serve = some t then
    let s := (s.storeLine p a m.data m.poison none).1
    let s := (s.answered p t m.src.toNat).endWith p t 0x2F id
    let s := s.modLine p a fun o => { o with pend := 0, serve := none }
    (s.redecide p a).settle p a
  else s.strayAnswer p m

/-- `RecallData` (R120, R182, R189, Table 6.7); an entry marked uncorrectable meanwhile is left to its handling (R168). -/
def State.recallData (s : State) (p : Nat) (m : Msg) : State :=
  let a := m.addr
  let t := m.htag.toNat
  let o := (s.slice p).line a
  match (s.slice p).trk t with
  | none => s.strayAnswer p m
  | some k =>
    if (s.slice p).awaitsFrom t a m.src.toNat true = false ∨ o.serve ≠ some t then s.strayAnswer p m
    else if o.pend = 3 then
      let e := (s.slice p).dir a
      let s := s.answered p t m.src.toNat
      let s := if e.st = 3 then s else s.setDir p a 0 0 e.poison
      let s := s.modLine p a fun o => { o with pend := 0 }
      let s :=
        if k.victim.isSome then (s.storeLine p a m.data m.poison none).1
        else match k.kind with
          | .writePartial => s.modTrk p t fun k => { k with have_ := true, data := m.data, poison := m.poison }
          | .farAtomic | .farProgram => s.farHold p t a m.data m.poison true
          | _ => s
      (s.redecide p a).settle p a
    else if o.ackcnt ≠ 0 then
      (((s.answered p t m.src.toNat).modLine p a fun o => { o with ackcnt := o.ackcnt - 1 }).redecide p a).settle p a
    else s.strayAnswer p m

/-! Memory answers -/

/-- A memory error is recorded, once for each answer that carries it (R418). -/
def State.memError (s : State) (p : Nat) (m : Msg) : State :=
  if m.stat = 6 then s.sliceErr p 1 0x18 (some m.addr) else s

/-- The line as the latest write left it, while a register was open (R222). -/
def Hlc.latest (h : Hlc) (a : LineAddr) : Option (LineData × BitVec 8) :=
  match h.find a with
  | some q => some ((h.line q).data, (h.line q).poison)
  | none => ((h.writes.filter (fun w => w.addr == a)).getLast?).map (fun w => (w.data, w.poison))

/-- Hand a fill to one waiter (R223). -/
def State.deliver (s : State) (p : Nat) (a : LineAddr) (data : LineData) (poison : BitVec 8) (w : Waiter) : State :=
  match w with
  | .tracker t =>
    match (s.slice p).trk t with
    | none => s
    | some k =>
      if k.pin.isSome then s.farHold p t a data poison false
      else s.modTrk p t fun k => { k with have_ := true, data, poison }
  | .maint i => s.maintTry p i
  | .prefetch => s

/-- `MemData` for a miss register (R118, R220, R222, R223, R127). -/
def State.memData (s : State) (p : Nat) (m : Msg) : State :=
  let s := s.memError p m
  let a := m.addr
  let h := (s.slice p).hlc
  match h.mshrs.find? (fun r => r.tag == m.htag.toNat && r.addr == a && r.sent) with
  | none => s.strayAnswer p m
  | some r =>
    let s := s.modHlc p fun h => { h with mshrs := h.mshrs.filter (fun n => n.idx != r.idx) }
    let fill := (m.data, if m.stat = 6 then 0xFF else m.poison)
    let stale := r.wrote || (h.find a).isSome || h.writes.any (fun w => w.evb && w.addr == a)
    let s := match h.find a with
      | some q => s.hDataCheck p q
      | none => s
    let d := if stale then ((s.slice p).hlc.latest a).getD fill else fill
    let pinned := r.waiters.any (fun w => match w with
      | .tracker t => match (s.slice p).trk t with
        | some k => k.pin.isSome
        | none => false
      | _ => false)
    let keep := !stale && !pinned && h.installs && m.stat != 6 && (if r.demand then h.rdAlloc else true)
    let s := if keep then (s.install p a d.1 d.2 false (!r.demand)).1 else s
    let s := r.waiters.foldl (fun s w => s.deliver p a d.1 d.2 w) s
    let s := ((s.slice p).hlc.maint.filter (fun m => m.waiting && m.scope == 0 && m.addr == a)).foldl
      (fun s m => s.maintTry p m.idx) s
    s.settle p a

/-- A write to memory has been answered, or was dropped: what waited for it completes (R119, R182, R227). -/
def State.writeOver (s : State) (p : Nat) (w : MemWrite) : State :=
  let s := match w.waiter with
    | none => s
    | some t =>
      match (s.slice p).trk t with
      | none => s
      | some k =>
        if k.victim = some w.addr ∧ k.victimWr = true then (s.victimWritten p t w.addr).settle p w.addr
        else if k.phase = Phase.writeAck then
          ((s.endWith p t 0x2F id).modLine p w.addr fun o => { o with serve := none }).settle p w.addr
        else s
  s.maintFinish p

/-- `MemAck` (R119, R224, R227, R127). -/
def State.memAck (s : State) (p : Nat) (m : Msg) : State :=
  let s := s.memError p m
  match (s.slice p).hlc.writes.find? (fun w => w.idx == m.htag.toNat && w.addr == m.addr && w.sent) with
  | none => s.strayAnswer p m
  | some w => (s.modHlc p fun h => h.writeEnd w.ord).writeOver p w

/-- Send the `MemWr` of a line's oldest waiting write, where R222 and the write credit allow it (R224); data for a
line in no region is dropped with code `0x19` (R27). -/
def State.writeSend (s : State) (p : Nat) (a : LineAddr) : State :=
  let x := s.slice p
  match x.hlc.writes.find? (fun w => w.addr == a && !w.sent) with
  | none => s
  | some w =>
    if x.hlc.lineBusy a w.ord then s
    else match s.portOf a with
      | none =>
        ((s.sliceErr p 1 0x19 (some a)).modHlc p fun h => h.writeEnd w.ord).writeOver p w
      | some n =>
        if 1 ≤ s.writesAt p n then s
        else
          let s := s.modHlc p fun h => { h with writes := h.writes.map (fun v =>
            if v.ord = w.ord then { v with sent := true } else v) }
          s.emit p { x.homeMsg 0x12 (BitVec.ofNat 10 (1008 + n)) a with
            htag := BitVec.ofNat 8 w.idx, data := w.data, poison := w.poison }

/-- A waiting demand read takes a miss register, or finds its line; the answer says that it waits no more (R223). -/
def State.missTry (s : State) (p t : Nat) (k : Trk) : State × Bool :=
  let a := k.req.addr
  match s.hRead p a true with
  | (s, some d, _) =>
    let s := s.modTrk p t fun k => { k with waitMiss := false }
    (((if k.pin.isSome then s.farHold p t a d.1 d.2 false
      else s.modTrk p t fun k => { k with have_ := true, data := d.1, poison := d.2 })).settle p a, true)
  | (s, none, _) =>
    match s.missJoin p a (.tracker t) true with
    | (s, true) => (s.modTrk p t fun k => { k with waitMiss := false }, true)
    | (s, false) => (s, false)

/-- The first of some waiting demand reads that can take a register does so (R223). -/
def State.missFirst (s : State) (p : Nat) (l : List (Nat × Trk)) : State :=
  (l.foldl (fun r e => if r.2 then r else r.1.missTry p e.1 e.2) (s, false)).1

/-- A waiting demand read takes a miss register: that of the oldest effective age that can take one (R223). Of equal ages
the spec names none: the lowest tracker number goes first. DESIGN CHOICE (log 94). -/
def State.missOpen (s : State) (p : Nat) : State :=
  s.missFirst p (sortBy (fun a b => decide (s.trkAge b.2 ≤ s.trkAge a.2)) ((s.slice p).used.filter (fun e => e.2.waitMiss)))

/-! Far operations -/

/-- Read the operand of a far operation to its pinned position: from the cache, or by a demand miss (R213, R218, R223). -/
def State.farRead (s : State) (p t : Nat) (a : LineAddr) : State :=
  match s.hRead p a true with
  | (s, some d, _) => s.farHold p t a d.1 d.2 false
  | (s, none, _) =>
    match s.missJoin p a (.tracker t) true with
    | (s, true) => s
    | (s, false) => s.modTrk p t fun k => { k with waitMiss := true }

/-- The operand of a far operation is checked as it is read (R231). A dirty line that fails is poisoned, and data so
poisoned is declined (R169). A clean line that fails is cleared and the access is a miss: the operation fetches its operand
again. The answer says that the operand stands. -/
def State.farOperand (s : State) (p t q : Nat) (m : Msg) : State × Bool :=
  let a := m.addr
  let s := s.hDataCheck p q
  let l := (s.slice p).hlc.line q
  if l.v then
    if operandPoisoned m l.poison then
      (((s.farDecline p t 3).modLine p a fun o => { o with serve := none }).settle p a, false)
    else (s, true)
  else
    let s := s.modSlice p fun x => { x with far := { x.far with
      alu := x.far.alu.filter (· != t), prog := x.far.prog.filter (· != t) } }
    (((s.modTrk p t fun k => { k with phase := .gather, have_ := false }).farRead p t a).settle p a, false)

/-- The service start of an admitted far operation (R201, R213, Table 6.5); an entry marked uncorrectable since the operation
was served is handled first (R168, R189). -/
def State.farStart (s : State) (p t : Nat) : State :=
  match (s.slice p).trk t with
  | none => s
  | some k =>
    let a := k.req.addr
    if k.phase ≠ .farStart ∨ ((s.slice p).line a).serve ≠ some t then s
    else
      let e := (s.slice p).dir a
      if e.st = 3 then ((s.modTrk p t fun k => { k with phase := .handling }).handleStart p t a).settle p a
      else
      match s.farCheck p k.req e with
      | some stat => ((s.farDecline p t stat).modLine p a fun o => { o with serve := none }).settle p a
      | none =>
        if (s.slice p).maintOn a then s
        else match s.farReserve p a with
          | (s, none) => s
          | (s, some q) =>
            let s := (s.modTrk p t fun k => { k with pin := some q, phase := .gather, needs := true })
            let s :=
              if e.st = 2 then
                (s.sendForward p t 0x25 e.owner a false).modLine p a fun o => { o with pend := 3 }
              else
                (if e.st = 1 then (s.setDir p a 0 0 e.poison).sendVector p t 0x23 a e.vec else s).farRead p t a
            s.settle p a

/-- The value of `len` bytes at `offs` of a line, zero-extended (R204). -/
def lineBytes (d : LineData) (offs len : Nat) : Nat := (d.toNat / 2 ^ (8 * offs)) % 2 ^ (8 * len)

/-- Two's complement reading of a `len`-byte value. -/
def asSigned (v len : Nat) : Int := if v < 2 ^ (8 * len - 1) then v else (v : Int) - 2 ^ (8 * len)

/-- The new value of a built-in atomic, none where a compare-and-swap fails (Table 10.3). -/
def atomicNew (aop v x c len : Nat) : Option Nat :=
  let sv := asSigned v len
  let sx := asSigned x len
  match aop with
  | 0 => some ((v + x) % 2 ^ (8 * len))
  | 1 => some x
  | 2 => if v = c then some x else none
  | 3 => some (v &&& x)
  | 4 => some (v ||| x)
  | 5 => some (v ^^^ x)
  | 6 => some (if sv ≤ sx then v else x)
  | 7 => some (if sv ≤ sx then x else v)
  | 8 => some (min v x)
  | 9 => some (max v x)
  | _ => none

/-- Write a far operation's line back, dirty, at its pinned position; the mask is kept (R204, R212). -/
def State.farWrite (s : State) (p q : Nat) (a : LineAddr) (data : LineData) : State :=
  (s.breakWatch p a).modHlc p fun h => (h.setLine q (mkLine a data (h.line q).poison true false)).touch q

/-- Send `FarResult` and end the served far operation (R204, R207, R210, R212). -/
def State.farFinish (s : State) (p t : Nat) (stat : BitVec 4) (aux : BitVec 8) (payload : LineData) : State :=
  match (s.slice p).trk t with
  | none => s
  | some k =>
    let a := k.req.addr
    let s := (s.farLeave p t).endWith p t 0x3D fun m => { m with stat, aux, data := payload }
    let s := s.modLine p a fun o => { o with serve := none }
    (s.maintRetry p).settle p a

/-- The atomic ALU executes the operation at the head of its queue (R204, R205, R231). -/
def State.aluExecute (s : State) (p : Nat) : State :=
  match (s.slice p).far.alu with
  | [] => s
  | t :: _ =>
    match (s.slice p).trk t with
    | none => s.farLeave p t
    | some k =>
      let q := k.pin.getD 0
      match s.farOperand p t q k.req with
      | (s, false) => s
      | (s, true) =>
      let d := ((s.slice p).hlc.line q).data
      let offs := k.req.offs.toNat
      let len := k.req.len.toNat
      let v := lineBytes d offs len
      let x := lineBytes k.req.data 0 len
      let c := lineBytes k.req.data 8 len
      let s := (s.count p .builtin).breakWatch p k.req.addr
      match atomicNew k.req.aop.toNat v x c len with
      | some r =>
        (s.farWrite p q k.req.addr (mergeBytes d (BitVec.ofNat 512 (r * 2 ^ (8 * offs))) offs len)).farFinish p t 0 0
          (BitVec.ofNat 512 v)
      | none => s.farFinish p t 0 1 (BitVec.ofNat 512 v)

end Sys2Proof.Machine
end

