-- ==== Sys2Proof/Machine/Messages.lean ====
section
/-! DEFINITION. The meanings of the messages a slice takes (chapters 4 to 6, 10 and 11), and of the rows that act
on a slice's trackers, miss registers, eviction buffer and far operations. -/

namespace Sys2Proof.Machine

/-! Taking a message (R25, R92, R109, R171) -/

/-- The ejection queue of a class and ring at slice `p`. -/
def Slice.queue (x : Slice) (r c : Nat) : List Ejected := x.stop.eject.get noEjected (eKey r c)

/-- The ring of the pair whose message of class `c` the pipeline takes next: the alternation pointer's, if it has one,
else the other; none where neither has (R109). -/
def Slice.nextRing (x : Slice) (p c : Nat) : Option Nat :=
  let q := 2 * pairOfSlice p
  let first := if x.alt.get noBool c then q + 1 else q
  let second := if x.alt.get noBool c then q else q + 1
  if !(x.queue first c).isEmpty then some first
  else if !(x.queue second c).isEmpty then some second else none

/-- What the pipeline takes next from its ejection queues: the first class in the order RSP, DAT, WB, MNT, REQ that has
a message, with its ring (R109). -/
def Slice.nextTake (x : Slice) (p : Nat) : Option (Nat × Nat) :=
  [MClass.rsp, .dat, .wb, .mnt, .req].findSome? fun c => (x.nextRing p (classCode c)).map fun r => (r, classCode c)

/-- A message stands in one of the slice's ejection queues. -/
def Slice.waits (x : Slice) (m : Msg) : Bool := x.stop.eject.any fun k => k.2.any fun e => e.msg == m

/-- The pipeline can take the message now: it is next by R109, or it stands in no ejection queue, having come from the
slice's own engine or probe without crossing a ring (R9) or by the command alone (log 4). -/
def Slice.mayTake (x : Slice) (p : Nat) (m : Msg) : Bool :=
  x.local_.contains m || !(x.waits m)
    || (match x.nextTake p with
      | some (r, c) => (x.queue r c).head?.map (·.msg) == some m
      | none => false)

/-- The pipeline takes a message: from the slice's own engine or probe, else from the head of the ejection queue that is
next, whose class's alternation pointer then names the other ring (R9, R109). -/
def State.takeMsg (s : State) (p : Nat) (m : Msg) : State :=
  s.modSlice p fun x =>
    if x.local_.contains m then { x with local_ := takeFirst m x.local_, overRing := false }
    else if !(x.waits m) then { x with overRing := false }
    else match x.nextTake p with
      | some (r, c) => { x with
          overRing := true
          stop := { x.stop with eject := x.stop.eject.set noEjected (eKey r c) ((x.queue r c).drop 1) }
          alt := x.alt.set noBool c (r % 2 == 0) }
      | none => x

/-- Take a message and go on, if the pipeline can take it now; a message behind others waits (R109). -/
def State.taking (s : State) (p : Nat) (m : Msg) (go : State → State) : State :=
  if (s.slice p).mayTake p m then go (s.takeMsg p m) else s

/-- Count a flit taken for the slice's logical slice against the slice-map copy it came through; what the slice's own engine
or probe sends without crossing a ring comes through none (R9, R29, R171). -/
def State.noteTaken (s : State) (p : Nat) (m : Msg) : State :=
  if !(s.slice p).overRing && (m.src == BitVec.ofNat 10 (320 + p) || m.src == BitVec.ofNat 10 (460 + p)) then s
  else s.modSlice p fun x =>
    let c := copyOfSender m.src.toNat
    { x with taken := x.taken.set zero32 c (x.taken.get zero32 c + 1) }

/-- A REQ beyond its holder's allowance (R92). -/
def State.beyondAllowance (s : State) (p : Nat) (m : Msg) : State :=
  (s.count p .creditDiscard).sliceErr p 1 0x12 none (some m.src)
    ((s.crdHolder p (poolOf p m.src.toNat)).setWidth 64) (m.txn.setWidth 16)

/-- A value the opcode does not allow (R73). -/
def malformed (m : Msg) : Bool :=
  let offs := m.offs.toNat
  let len := m.len.toNat
  if m.opc = 0x05 then len == 0 || decide (64 < offs + len)
  else if m.opc = 0x06 then
    !(len == 1 || len == 2 || len == 4 || len == 8) || decide (offs % len ≠ 0) || decide (9 < m.aop.toNat) || m.hint == 3
  else false

/-- The kind a REQ opcode starts as; an `AtomicReq` is resolved before (R197). -/
def kindOf (opc : Nat) : ReqKind :=
  match opc with
  | 0 => .readShared
  | 1 => .readOwn
  | 2 => .upgrade
  | 3 => .readNc
  | 4 => .writeFull
  | 5 => .writePartial
  | 6 => .farAtomic
  | _ => .farProgram

/-- Take a REQ-class message: the checks of R92, R25, R73 and R27 in that order, then `go` with its tracker. One that arrives
at breakaway is counted (R100). -/
def State.request (s : State) (p : Nat) (m : Msg) (go : State → Nat → State) : State :=
  s.taking p m fun s =>
    let x := s.slice p
    let s := if homeMatches x m true then (s.noteTaken p m).slcEvent p 0x01 else s
    if !(x.allowed p m) then s.beyondAllowance p m
    else match x.freeTrk with
      | none => s.beyondAllowance p m
      | some t =>
        if !homeMatches x m true then s.homeMismatch p m
        else
          let k : Trk := { req := m, kind := kindOf m.opc.toNat, phase := .queued, arr := s.time, seq := x.arrivals }
          let s := s.modSlice p fun x => { x.setTrk t (some k) with arrivals := x.arrivals + 1 }
          let s := if s.broke p k then s.breakOut p t else s
          if malformed m then s.endErr p t 7
          else if (s.portOf m.addr).isNone then (s.sliceErr p 1 0x19 (some m.addr) (some m.src)).endErr p t 5
          else go s t

/-- `m` with the opcode and class of its row. -/
def asOpc (m : Msg) (opc : Nat) : Msg :=
  { m with opc := BitVec.ofNat 6 opc, cls := BitVec.ofNat 3 (((classOf opc).map classCode).getD 7) }

/-- READ_SHARED (R125). -/
def execReadShared (p : Fin 132) (m : Msg) (s : State) : Out := .next (s.request p (asOpc m 0x00) fun s t => s.arrive p t)

/-- READ_OWN (R110). -/
def execReadOwn (p : Fin 132) (m : Msg) (s : State) : Out := .next (s.request p (asOpc m 0x01) fun s t => s.arrive p t)

/-- UPGRADE (R116). -/
def execUpgrade (p : Fin 132) (m : Msg) (s : State) : Out := .next (s.request p (asOpc m 0x02) fun s t => s.arrive p t)

/-- READ_NC (R112, Table 6.5). -/
def execReadNc (p : Fin 132) (m : Msg) (s : State) : Out := .next (s.request p (asOpc m 0x03) fun s t => s.arrive p t)

/-- WRITE_NC_FULL (R119). -/
def execWriteNcFull (p : Fin 132) (m : Msg) (s : State) : Out := .next (s.request p (asOpc m 0x04) fun s t => s.arrive p t)

/-- WRITE_NC_PARTIAL (R119). -/
def execWriteNcPartial (p : Fin 132) (m : Msg) (s : State) : Out :=
  .next (s.request p (asOpc m 0x05) fun s t => s.arrive p t)

/-- Check a far request, whose lookup gave the position `hit`, in the order of Table 10.1, and decide it (R200). -/
def State.farAdmit (s : State) (p t : Nat) (m : Msg) (hit : Option Nat) : State :=
  let x := s.slice p
  match s.farCheck p m (x.entOfLine m.addr) with
  | some stat => s.farDecline p t stat
  | none =>
    if 16 ≤ x.far.queue.length then s.farDecline p t 1
    else (s.modSlice p fun x => { x with far := { x.far with queue := x.far.queue ++ [t] } }).decideReq p t hit

/-- FAR_OP (R200). -/
def execFarOp (p : Fin 132) (m : Msg) (s : State) : Out :=
  .next (s.request p (asOpc m 0x07) fun s t => match s.lookup p m.addr with
    | (s, hit) => s.farAdmit p t (asOpc m 0x07) hit)

/-- An `AtomicReq` is resolved far (R74, R197). -/
def Slice.resolvesFar (x : Slice) (m : Msg) : Bool :=
  if !isCA m.src.toNat then true
  else if m.hint = 1 then false
  else if m.hint = 2 then true
  else if x.hlc.unavailable || decide (16 ≤ x.far.queue.length) || (x.entOfLine m.addr).poison || x.far.autoMode == 1 then
    false
  else if x.far.autoMode = 2 then true
  else decide (x.far.thresh.toNat ≤ (x.far.pred.get Pred.dflt (predOf m.addr)).count.toNat)

/-- Update the predictor entry of an `AtomicReq` (R199). -/
def State.predict (s : State) (p : Nat) (m : Msg) : State :=
  s.modSlice p fun x =>
    let e := x.entOfLine m.addr
    let i := predOf m.addr
    let r := x.far.pred.get Pred.dflt i
    let contended := (e.st == 2 && !(e.has m.src.toNat)) || (x.line m.addr).mode != 0 || r.recent != 0
    let count := if contended then (if r.count = 7 then 7 else r.count + 1) else (if r.count = 0 then 0 else r.count - 1)
    { x with far := { x.far with pred := x.far.pred.set Pred.dflt i { r with count } } }

/-- ATOMIC_REQ (R197, R199, R200). -/
def execAtomicReq (p : Fin 132) (m : Msg) (s : State) : Out :=
  .next (s.request p (asOpc m 0x06) fun s t => match s.lookup p m.addr with
    | (s, hit) =>
      let m := asOpc m 0x06
      let far := (s.slice p).resolvesFar m
      let auto := isCA m.src.toNat && m.hint == 0
      let s := if auto then s.count p (if far then .autoFar else .autoNear) else s
      let s := s.predict p m
      if far then s.farAdmit p t m hit
      else (s.modTrk p t fun k => { k with kind := .readOwn }).decideReq p t hit)

/-! WB class, answers, credits -/

/-- Take a WB-class message and look its line up (R25, R109, R126). -/
def State.wbTake (s : State) (p : Nat) (m : Msg) (go : State → Option Nat → State) : State :=
  s.taking p m fun s =>
    if !homeMatches (s.slice p) m true then s.homeMismatch p m
    else
      match (s.noteTaken p m).lookup p m.addr with
      | (s, hit) => go s ((s.slice p).posOf m.addr hit)

/-- WRITEBACK (R121). -/
def execWriteback (p : Fin 132) (m : Msg) (s : State) : Out :=
  .next (s.wbTake p (asOpc m 0x10) fun s pos => s.writeback p (asOpc m 0x10) pos false)

/-- EVICT_CLEAN (R122). -/
def execEvictClean (p : Fin 132) (m : Msg) (s : State) : Out :=
  .next (s.wbTake p (asOpc m 0x11) fun s pos => s.evictClean p (asOpc m 0x11) pos)

/-- Take an RSP- or DAT-class message, which runs no lookup (R25, R109). -/
def State.answerTake (s : State) (p : Nat) (m : Msg) (go : State → State) : State :=
  s.taking p m fun s => if !homeMatches (s.slice p) m true then s.homeMismatch p m else go s

/-- INV_ACK (R127). -/
def execInvAck (p : Fin 132) (m : Msg) (s : State) : Out :=
  .next (s.answerTake p (asOpc m 0x29) fun s => s.invAck p (asOpc m 0x29))

/-- FWD_DONE (R111). -/
def execFwdDone (p : Fin 132) (m : Msg) (s : State) : Out :=
  .next (s.answerTake p (asOpc m 0x2A) fun s => s.fwdDone p (asOpc m 0x2A))

/-- COPY_BACK (R112, R127). -/
def execCopyBack (p : Fin 132) (m : Msg) (s : State) : Out :=
  .next (s.answerTake p (asOpc m 0x3B) fun s => s.copyBack p (asOpc m 0x3B))

/-- RECALL_DATA (R120). -/
def execRecallData (p : Fin 132) (m : Msg) (s : State) : Out :=
  .next (s.answerTake p (asOpc m 0x3C) fun s => s.recallData p (asOpc m 0x3C))

/-- MEM_DATA (R127). -/
def execMemData (p : Fin 132) (m : Msg) (s : State) : Out :=
  .next (s.answerTake p (asOpc m 0x3E) fun s => s.memData p (asOpc m 0x3E))

/-- MEM_ACK (R127). -/
def execMemAck (p : Fin 132) (m : Msg) (s : State) : Out :=
  .next (s.answerTake p (asOpc m 0x35) fun s => s.memAck p (asOpc m 0x35))

/-- CREDIT_REQUEST (R90, R91). -/
def execCreditRequest (p : Fin 132) (m : Msg) (s : State) : Out :=
  let m := asOpc m 0x2D
  .next (s.taking p m fun s =>
    (if homeMatches (s.slice p) m false then s.noteTaken p m else s).creditRequest p m)

/-! Trackers -/

/-- ALLOC_WAIT_RELEASE (R181). -/
def execAllocWaitRelease (p : Fin 132) (t : Fin 256) (s : State) : Out :=
  .next (match (s.slice p).trk t with
    | none => s
    | some k => if k.phase = Phase.allocWait then s.release p t else s)

/-- BREAKAWAY: a waiting request's effective age reaches the threshold (R99, R100). -/
def execBreakaway (p : Fin 132) (t : Fin 256) (s : State) : Out :=
  .next (match (s.slice p).trk t with
    | none => s
    | some k =>
      if k.brk || !(s.broke p k) then s
      else if k.phase = Phase.queued then (s.breakOut p t).enqueue p t k.req.addr
      else if k.phase = Phase.allocWait then s.breakOut p t
      else s)

/-- TRACKER_WATCHDOG_EXPIRY: a tracker open past `SLC_AGE_CTRL.WDOG_US` is reported once, block-fatal, with its TXN
and age (R102, R384, code `0x13`). -/
def execTrackerWatchdogExpiry (p : Fin 132) (t : Fin 256) (s : State) : Out :=
  .next (match (s.slice p).trk t with
    | none => s
    | some k =>
      let age := s.time - k.arr
      if (s.slice p).wdogDone.contains t.val ∨ age < (s.slice p).wdogUs.toNat then s
      else
        ((s.modSlice p fun x => { x with wdogDone := x.wdogDone ++ [t.val] }).sliceErr p 2 0x13 (some k.lineAddr)
          (some k.req.src) (BitVec.ofNat 64 (k.req.txn.toNat + (min age 65535) * 65536))).fire 1453)

/-! Home line cache rows -/

/-- MISS_REGISTER_OPEN (R223). -/
def execMissRegisterOpen (p : Fin 132) (s : State) : Out := .next (s.missOpen p)

/-- MISS_REGISTER_SEND (R222, R223). -/
def execMissRegisterSend (p : Fin 132) (s : State) : Out := .next (s.missSend p)

/-- EVICTION_WRITE_SEND (R222, R224). -/
def execEvictionWriteSend (p : Fin 132) (a : LineAddr) (s : State) : Out := .next (s.writeSend p a)

/-- The maintenance queue has its eight entries (Tables 1.1 and 5.1). -/
def Hlc.maintFull (h : Hlc) : Bool := decide (8 ≤ (h.maint.filter (·.src.isSome)).length)

/-- The slice has no enabled way, or is disabled: maintenance completes at once (R230). -/
def Hlc.isOff (h : Hlc) : Bool := h.state == 0 || h.wayEn == 0

/-- Take an `HlcMaint` of the given operation (R25, R73, R227, R228, R229, R230); one that concerns a line runs its lookup
(R109). -/
def State.hlcMaint (s : State) (p : Nat) (m : Msg) : State :=
  if (s.slice p).hlc.maintFull then s
  else s.taking p m fun s =>
    if !homeMatches (s.slice p) m (m.aux != 1 && m.aux != 2) then s.homeMismatch p m
    else
      let s := s.noteTaken p m
      let answer := fun (s : State) (stat : BitVec 4) =>
        s.emit p { (s.slice p).homeMsg 0x34 m.src 0 with txn := m.txn, stat }
      if 2 < m.aop.toNat ∨ 2 < m.aux.toNat then answer s 7
      else
        let s := if m.aux = 0 then (s.lookup p m.addr).1 else s
        let h := (s.slice p).hlc
        if h.isOff then answer s 0
        else
          let i := h.maintNext
          let e : Maint := { idx := i, src := some m, op := m.aop, scope := m.aux.toNat, addr := m.addr }
          let s := s.modHlc p fun h => { h with maint := h.maint ++ [e], maintNext := i + 1 }
          if m.aux = 2 then s.modHlc p fun h => { h with walks := h.walks ++ [{ maint := some i }] }
          else
            let s := s.maintTry p i
            if m.aux = 0 ∧ (s.slice p).maintOn m.addr = true then s.breakWatch p m.addr else s

/-- HLC_MAINT_CLEAN (R227). -/
def execHlcMaintClean (p : Fin 132) (m : Msg) (s : State) : Out := .next (s.hlcMaint p { asOpc m 0x1A with aop := 0 })

/-- HLC_MAINT_INVALIDATE (R227). -/
def execHlcMaintInvalidate (p : Fin 132) (m : Msg) (s : State) : Out :=
  .next (s.hlcMaint p { asOpc m 0x1A with aop := 1 })

/-- HLC_MAINT_CLEAN_INVALIDATE (R227): also an operation code Table 4.8 marks invalid, answered without effect (R73). -/
def execHlcMaintCleanInvalidate (p : Fin 132) (m : Msg) (s : State) : Out :=
  .next (s.hlcMaint p (if 2 < m.aop.toNat then asOpc m 0x1A else { asOpc m 0x1A with aop := 2 }))

/-- HLC_MAINT_RESUME: a waiting operation is tried again; `i` counts the waiting operations from the oldest (R228). -/
def execHlcMaintResume (p : Fin 132) (i : Fin 8) (s : State) : Out :=
  .next (match ((s.slice p).hlc.maint.filter (fun m => m.waiting && decide (m.scope < 2)))[i.val]? with
    | none => s
    | some m => s.maintTry p m.idx)

/-- HLC_WALKER_VISIT (R229). -/
def execHlcWalkerVisit (p : Fin 132) (s : State) : Out := .next (s.walkVisit p)

/-! Far-operation rows -/

/-- FAR_SERVICE_START (R201, R213). -/
def execFarServiceStart (p : Fin 132) (t : Fin 256) (s : State) : Out := .next (s.farStart p t)

/-- ATOMIC_ALU_EXECUTE (R204, R205). -/
def execAtomicAluExecute (p : Fin 132) (s : State) : Out := .next (s.aluExecute p)

/-- PREDICTOR_RECENT_TICK: a 1 µs tick that the slice has not yet seen lowers every non-zero RECENT (R199, R417). -/
def execPredictorRecentTick (p : Fin 132) (s : State) : Out :=
  .next (if s.time ≤ (s.slice p).far.ticks then s else s.modSlice p fun x => { x with far := { x.far with
    ticks := x.far.ticks + 1
    pred := x.far.pred.foldl (fun d e =>
      NMap.set Pred.dflt d e.1 { e.2 with recent := if e.2.recent = 0 then 0 else e.2.recent - 1 }) [] } })

/-- FAR_PRED_CLR (R198). -/
def State.farPredClr (s : State) (p : Nat) : State :=
  s.modSlice p fun x => { x with far := { x.far with pred := [] } }

/-- The row of `State.farPredClr`. -/
def execFarPredClr (p : Fin 132) (s : State) : Out := .next (s.regWrite fun s => s.farPredClr p)

/-! Cache and snoop-filter control -/

/-- HLC_DISABLE: a write of 0 to `HLC_CTRL.EN` while enabled starts draining (R230). -/
def State.hlcDisable (s : State) (p : Nat) : State :=
  if (s.slice p).hlc.state = 1 then
      s.modHlc p fun h => { h with en := false, state := 2, walks := h.walks ++ [{ maint := none }] }
    else s

/-- The row of `State.hlcDisable`. -/
def execHlcDisable (p : Fin 132) (s : State) : Out := .next (s.regWrite fun s => s.hlcDisable p)

/-- HLC_ENABLE: a write of 1 to `HLC_CTRL.EN` (R230). -/
def State.hlcEnable (s : State) (p : Nat) : State :=
  if (s.slice p).hlc.state = 0 then s.modHlc p fun h => { h with en := true, state := 1, lines := [] }
    else if (s.slice p).hlc.state = 2 then s.modHlc p fun h => { h with ctrlRefused := true }
    else s

/-- The row of `State.hlcEnable`. -/
def execHlcEnable (p : Fin 132) (s : State) : Out := .next (s.regWrite fun s => s.hlcEnable p)

/-- Every maintenance operation that still waits has nothing left to do: the cache is disabled and holds no line (R230). -/
def State.maintEndAll (s : State) (p : Nat) : State :=
  (s.modHlc p fun h => { h with maint := h.maint.map (fun m => { m with waiting := false }), walks := [] }).maintFinish p

/-- A home line cache drains. -/
def State.hlcDraining (s : State) : Bool := s.slices.any fun e => e.2.hlc.state == 2

/-- The last home line cache has drained: a WRITE that awaits it is answered (R325). -/
def State.drainsOver (s : State) : State := if s.hlcDraining then s else s.awaitEnd .drain 0 0

/-- The last way of a slice is flushed: a WRITE that awaits it is answered (R325). -/
def State.waysOver (s : State) (p : Nat) : State :=
  if (s.slice p).hlc.flushes.isEmpty then s.awaitEnd (.ways p) 0 0 else s

/-- HLC_DRAIN_DONE: the cache is disabled, and what waited to be applied to it completes (R230, Table 11.13). -/
def execHlcDrainDone (p : Fin 132) (s : State) : Out :=
  let h := (s.slice p).hlc
  .next (if h.state = 2 ∧ h.walks.all (fun w => w.maint.isSome) ∧ h.evbs = []
      ∧ (s.slice p).used.all (fun e => e.2.pin.isNone) then
      (((s.modHlc p fun h => { h with state := 0, drainDone := true }).fireSlice p 6).maintEndAll p).drainsOver
    else s)

/-- The slice holds no open transaction: trackers, open lines, maintenance queue and credit requests (R171, R192). -/
def Slice.quiet (x : Slice) : Bool :=
  x.used.isEmpty && x.olt.isEmpty && x.hlc.maint.isEmpty && x.crq.isEmpty

/-- HLC_INIT (R233). -/
def State.hlcInit (s : State) (p : Nat) : State :=
  let x := s.slice p
  if x.active || !x.quiet || x.sfl.pass.isSome || !x.hlc.evbs.isEmpty then
      s.modHlc p fun h => { h with initRefused := true }
    else s.modHlc p fun h => { h with lines := [], lru := [], streams := [] }

/-- The row of `State.hlcInit`. -/
def execHlcInit (p : Fin 132) (s : State) : Out := .next (s.regWrite fun s => s.hlcInit p)

/-- HLC_WAY_DISABLE: a write of 0 to a way's EN bit flushes and disables it, and cancels a pending enable (R232). -/
def State.hlcWayDisable (s : State) (p : Nat) (w : Nat) : State :=
  let h := (s.slice p).hlc
  if h.flushes.any (fun f => f.way == w) then
      s.modHlc p fun h => { h with flushes := h.flushes.map (fun f =>
        if f.way = w then { f with pendEnable := false } else f) }
    else if h.wayOn w then (s.modHlc p fun h => h.startFlush w false).flushWay p w
    else s

/-- The row of `State.hlcWayDisable`. -/
def execHlcWayDisable (p : Fin 132) (w : Fin 16) (s : State) : Out := .next (s.regWrite fun s => s.hlcWayDisable p w)

/-- Enable a way with its lines invalid and its level zero (R232). -/
def Hlc.enableWay (h : Hlc) (w : Nat) : Hlc :=
  { h with
    wayEn := h.wayEn ||| BitVec.ofNat 16 (2 ^ w)
    hwDis := h.hwDis &&& ~~~(BitVec.ofNat 16 (2 ^ w))
    leak := h.leak.set zeroNat w 0
    lines := h.lines.filter (fun e => e.1 % 16 != w) }

/-- HLC_WAY_ENABLE: a write of 1 to a way's EN bit (R232). -/
def State.hlcWayEnable (s : State) (p : Nat) (w : Nat) : State :=
  let h := (s.slice p).hlc
  if h.flushes.any (fun f => f.way == w) then
      s.modHlc p fun h => { h with flushes := h.flushes.map (fun f =>
        if f.way = w then { f with pendEnable := true } else f) }
    else if h.wayOn w then s
    else s.modHlc p fun h => h.enableWay w

/-- The row of `State.hlcWayEnable`. -/
def execHlcWayEnable (p : Fin 132) (w : Fin 16) (s : State) : Out := .next (s.regWrite fun s => s.hlcWayEnable p w)

/-- HLC_WAY_FLUSH_DONE: the flush goes on, and ends when the way holds no line and no far operation pins a position of
it (R232, Table 11.13). -/
def execHlcWayFlushDone (p : Fin 132) (w : Fin 16) (s : State) : Out :=
  .next (match (s.slice p).hlc.flushes.find? (fun f => f.way == w.val) with
    | none => s
    | some f =>
      let s := s.flushWay p w
      if ((s.slice p).hlc.wayLines w).isEmpty && !((s.slice p).wayPinned w) then
        let s := s.modHlc p fun h => { h with flushes := h.flushes.filter (fun f => f.way != w.val) }
        let s := if f.hw then
            let s := s.modHlc p fun h => { h with
              hwDis := h.hwDis ||| BitVec.ofNat 16 (2 ^ w.val) }.capture (hCapWord w 0 false 3 0)
            (s.sliceErr p 0 0x0B none none ((s.slice p).hlc.wayEnImage.setWidth 64)).fireSlice p 4
          else s
        (if f.pendEnable then s.modHlc p fun h => h.enableWay w else s).waysOver p
      else s)

/-- HLC_LEAK_DECAY: the level falls when LEAK_H hours, in whole minutes, have passed with no error (R232). -/
def execHlcLeakDecay (p : Fin 132) (w : Fin 16) (s : State) : Out :=
  let h := (s.slice p).hlc
  .next (if h.leak.get zeroNat w ≠ 0 ∧ h.leakH.toNat * 60 ≤ (s.time - h.leakAt.get zeroNat w) / 60000000 then
      s.modHlc p fun h => { h with
        leak := h.leak.set zeroNat w (h.leak.get zeroNat w - 1), leakAt := h.leakAt.set zeroNat w s.time }
    else s)

/-- SFL_INIT (R192). -/
def State.sflInit (s : State) (p : Nat) : State :=
  let x := s.slice p
  s.modSlice p fun y =>
    if x.active || !x.quiet || x.sfl.pass.isSome then { y with sfl := { y.sfl with initRefused := true } }
    else { y with sfl := { y.sfl with blocks := [], lru := [], wait := [], ovfOrder := [] } }

/-- The row of `State.sflInit`. -/
def execSflInit (p : Fin 132) (s : State) : Out := .next (s.regWrite fun s => s.sflInit p)

/-- SFL_PASS_START; ignored while a pass runs (R193). -/
def State.sflPassStart (s : State) (p : Nat) : State :=
  s.modSlice p fun x =>
    if x.sfl.pass.isSome then x else { x with sfl := { x.sfl with pass := some 0 } }

/-- The row of `State.sflPassStart`. -/
def execSflPassStart (p : Fin 132) (s : State) : Out := .next (s.regWrite fun s => s.sflPassStart p)

/-- SFL_PATROL_CHECK: the pass checks its next written block, and ends when none is left; it stands while the slice's logic
or arrays are off or gated (R186, R193, R350). -/
def execSflPatrolCheck (p : Fin 132) (s : State) : Out :=
  .next (match (s.slice p).sfl.pass with
    | none => s
    | some k =>
      if s.sliceStopped p then s else
      let due := fun (x : Slice) (k : Nat) => x.sfl.blocks.find? (fun e => decide (k ≤ e.1) && e.2.written)
      let finish := fun (s : State) =>
        (s.modSlice p fun x => { x with sfl := { x.sfl with pass := none, passDone := true } }).fireSlice p 2
      match due (s.slice p) k with
      | none => finish s
      | some e =>
        let s := s.sfBlockCheck p e.1 true
        match due (s.slice p) (e.1 + 1) with
        | none => finish s
        | some _ => s.modSlice p fun x => { x with sfl := { x.sfl with pass := some (e.1 + 1) } })

end Sys2Proof.Machine
end

