-- ==== Sys2Proof/Machine/FabricOps.lean ====
section
/-! DEFINITION. Operations of the fabric: stops, paths, transit buffers, reversal, links and replay (chapter 3). -/

namespace Sys2Proof.Machine

/-! Stops -/

def State.stop (s : State) : Stop → StopSt
  | .slice p => (s.slice p).stop
  | .port n => (s.port n).stop

def State.modStop (s : State) (st : Stop) (f : StopSt → StopSt) : State :=
  match st with
  | .slice p => s.modSlice p fun x => { x with stop := f x.stop }
  | .port n => s.modPort n fun x => { x with stop := f x.stop }

/-- The physical slice or port a flit's DEST names; none for multicasts. -/
def destStop (f : Flit) : Option Stop :=
  if f.dkind = 0 then (if h : f.dest.toNat < 132 then some (.slice ⟨f.dest.toNat, h⟩) else none)
  else if f.dkind = 1 then
    match sliceOfNode f.dest.toNat with
    | some p => if h : p < 132 then some (.slice ⟨p, h⟩) else none
    | none => match portOfNode f.dest.toNat with
      | some n => if h : n < 50 then some (.port ⟨n, h⟩) else none
      | none => none
  else none

/-- The agents of a vector behind a port (R43). -/
def agentsAt (vec : BitVec 64) (n : Nat) : List Nat := (bitsOf vec).filter (fun g => portOfNode g == some n)

/-- The agent vector of a multicast flit (R75). -/
def vecOf (f : Flit) : BitVec 64 := f.msg.data.extractLsb' 0 64

/-- The ring positions a flit is for, on ring `r` (R43, R44). -/
def targets (r : Nat) (f : Flit) : List Nat :=
  if f.dkind = 2 ∨ f.dkind = 3 then
    let ports := ((List.range 50).filter (fun n => !(agentsAt (vecOf f) n).isEmpty)).map (portPos (r / 2))
    if f.dkind = 3 then ((List.range 44).map slicePos) ++ ports else ports
  else match destStop f with
    | some st => if stopOn r st then [stopPos r st] else []
    | none => []

/-! Paths (R42, R48, R49) -/

/-- Bit of a direction: 0 increasing, 1 decreasing. -/
def dirIdx (dec : Bool) : Nat := if dec then 1 else 0

/-- The next position in a direction. -/
def nextPos (pos : Nat) (dec : Bool) : Nat := if dec then (pos + 93) % 94 else (pos + 1) % 94

/-- The segment crossed when leaving a position (R33). -/
def segFrom (pos : Nat) (dec : Bool) : Nat := if dec then (pos + 93) % 94 else pos

/-- Hops until every target is passed, reversing once at a segment out of service (R42). -/
def pathHops (out : Nat → Bool) : Nat → Nat → Bool → Bool → List Nat → Nat → Option Nat
  | 0, _, _, _, _, _ => none
  | fuel + 1, pos, dec, rev, rest, hops =>
    match rest.filter (· != pos) with
    | [] => some hops
    | rest =>
      if out (segFrom pos dec) then
        if rev || out (segFrom pos (!dec)) then none
        else pathHops out fuel (nextPos pos (!dec)) (!dec) true rest (hops + 1)
      else pathHops out fuel (nextPos pos dec) dec rev rest (hops + 1)

/-- Segment `k` of a ring is out of service. -/
def Ring.out (x : Ring) (k : Nat) : Bool := x.segOut.getLsbD k

/-- The shortest path on a ring from a position to a flit's targets: hops and first direction; equal hops take the
increasing direction, which a broadcast always takes (R42, R44). A flit that starts next to a segment out of service
goes the other way from the first hop, and only a broadcast reverses there. -/
def Ring.path (x : Ring) (pos : Nat) (ts : List Nat) (broadcast : Bool) : Option (Nat × Bool) :=
  let way := fun (dec : Bool) => if x.out (segFrom pos dec) && !broadcast then none
    else pathHops x.out 300 pos dec false ts 0
  let inc := way false
  let dec := if broadcast then none else way true
  match inc, dec with
  | some i, some d => if d < i then some (d, true) else some (i, false)
  | some i, none => some (i, false)
  | none, some d => some (d, true)
  | none, none => none

/-- Transit buffer key (R37). -/
def tKey (pos c : Nat) (dec : Bool) : Nat := 12 * pos + 2 * c + dirIdx dec

def Ring.buf (x : Ring) (pos c : Nat) (dec : Bool) : List Flit := x.transit.get noFlits (tKey pos c dec)
def Ring.setBuf (x : Ring) (pos c : Nat) (dec : Bool) (l : List Flit) : Ring :=
  { x with transit := x.transit.set noFlits (tKey pos c dec) l }

/-- Link key of a ring segment's direction. -/
def lKey (k : Nat) (d : Dir) : Nat := 2 * k + (match d with | .inc => 0 | .dec => 1)

/-- The number, counted up to `seq`, is covered by an acknowledgement of `seq`. -/
def seqUpTo (v seq : BitVec 12) : Bool := decide ((seq - v).toNat < 2048)

/-- Flits of a replay buffer that the receiver has not accepted. -/
def LinkSt.unaccepted (l : LinkSt) : List (BitVec 12 × Flit) := l.tx.replay.filter fun e => seqUpTo l.rx.exp e.1

/-- The link direction that brings flits to a position: the segment behind it (R33). -/
def linkInto (pos : Nat) (dec : Bool) : Nat := if dec then lKey pos .dec else lKey ((pos + 93) % 94) .inc

/-- Flits of a class on their way to a position: sent, and not yet accepted there. -/
def Ring.coming (x : Ring) (pos c : Nat) (dec : Bool) : Nat :=
  ((x.links.get LinkSt.dflt (linkInto pos dec)).unaccepted.filter fun e => e.2.msg.cls.toNat == c).length

/-- Free slots of a transit buffer, of three (R37). The slot of a flit that has been sent and is not yet accepted is not
free, so that it finds it when it is resent (R39, R46). DEDUCED (log 92). -/
def Ring.freeSlots (x : Ring) (pos c : Nat) (dec : Bool) : Nat :=
  3 - ((x.buf pos c dec).length + x.coming pos c dec)

/-- The direction a flit travels in now. -/
def Flit.dec (f : Flit) : Bool := if f.rev then !f.dir1 else f.dir1

/-- The ring takes injections: in service and neither shifting nor draining (R42, R50, R55). -/
def Ring.takes (x : Ring) : Bool := x.mode == 0 && !x.draining && x.shifting.isNone

/-- The other ring of a pair. -/
def partner (r : Nat) : Nat := if r % 2 = 0 then r + 1 else r - 1

/-- Flits of a ring that is shifted off or drained by moving still stand at a transit buffer; its partner injects them
ahead of the stop's own flits (R50, R55). -/
def Ring.movesAt (x : Ring) (pos c : Nat) (dec : Bool) : Bool :=
  (x.shifting.isSome || x.moving) &&
    !((x.back.get noFlits (tKey pos c dec)).isEmpty && (x.buf pos c dec).isEmpty)

/-- The derailleur's choice of ring and direction, and whether the round-robin pointer was used (R42). A broadcast goes
on the pair its ORIG names until injection fills ORIG (R44). -/
def State.derail (s : State) (st : Stop) (f : Flit) (c : Nat) : Option (Nat × Bool × Bool) :=
  let cands := (List.range 6).filterMap fun r =>
    let x := s.ring r
    let ts := targets r f
    if x.takes && stopOn r st && !ts.isEmpty && (f.dkind != 3 || f.orig.toNat == r / 2) then
      (x.path (stopPos r st) ts (f.dkind == 3)).map (fun h => (r, h.1, h.2))
    else none
  let best := cands.foldl (fun b e => min b e.2.1) 1000
  let near := cands.filter (fun e => e.2.1 == best)
  let room := fun (e : Nat × Nat × Bool) => (s.ring e.1).freeSlots (stopPos e.1 st) c e.2.2
  let most := near.foldl (fun b e => max b (room e)) 0
  match near.filter (fun e => room e == most) with
  | [] => none
  | [e] => some (e.1, e.2.2, false)
  | l =>
    let ptr := (s.stop st).rr
    match l.find? (fun e => decide (ptr ≤ e.1)) with
    | some e => some (e.1, e.2.2, true)
    | none => (l.head?).map (fun e => (e.1, e.2.2, true))

/-- The flit injected next for a class: at a port, a REQ that has reached breakaway first (R38, R99). Which of several
such requests goes first, and whether a later flit may pass one whose ring has no room, the spec leaves open: the one
queued first goes, and none passes it. DESIGN CHOICE (log 86). -/
def State.nextFlit (s : State) (st : Stop) (c : Nat) : Option Flit :=
  let l := (s.stop st).outbox.filter (fun f => f.msg.cls.toNat == c)
  let aged := l.filter (fun f => c == 0 && decide ((s.slice 0).brkUs.toNat ≤ f.msg.age.toNat))
  match st, aged with
  | .port _, f :: _ => some f
  | _, _ => l.head?

/-- Take the first copy of a flit out of a list. -/
def dropFlit (f : Flit) : List Flit → List Flit
  | [] => []
  | x :: rest => if x = f then rest else x :: dropFlit f rest

/-! Multicast delivery (R43, R49) -/

/-- Position `q` lies on the arc from `a` exclusive to `b` inclusive, in a direction. -/
def onArc (a b q : Nat) (dec : Bool) : Bool :=
  let d := fun x => if dec then (a + 94 - x) % 94 else (x + 94 - a) % 94
  decide (0 < d q) && decide (d q ≤ d b)

/-- A flit standing at `pos` still has to deliver at `q` (R49). -/
def Flit.due (f : Flit) (pos q : Nat) : Bool :=
  if f.dkind = 2 ∨ f.dkind = 3 then
    if f.rev then
      !(onArc f.orig.toNat f.revpos.toNat q f.dir1) && !(onArc f.revpos.toNat pos q (!f.dir1) && q != pos)
    else !(onArc f.orig.toNat pos q f.dir1 && q != pos)
  else true

/-- A flit standing at `pos` must be ejected there before it can move on. -/
def Flit.stopsHere (r pos : Nat) (f : Flit) : Bool :=
  !f.dropped && (targets r f).contains pos && f.due pos pos

/-- The flit has further targets after `pos`. -/
def Flit.goesOn (r pos : Nat) (f : Flit) : Bool := (targets r f).any (fun q => q != pos && f.due pos q)

/-! Reversal (R48, R49) -/

/-- A flit at the front of a buffer must reverse there: it has nothing to deliver at the stop and faces a segment out of
service (R48). -/
def Ring.mustTurn (x : Ring) (r pos : Nat) (dec : Bool) (f : Flit) : Bool :=
  x.out (segFrom pos dec) && !(f.stopsHere r pos)

/-- A flit reversed at `pos` (R49). One that has reversed before, and meets a second segment out of service after a
shift, reverses again: ORIG, DIR1 and REVPOS then name the arc it has covered as if it had begun at that arc's far end.
The spec gives a second reversal no fields. DESIGN CHOICE (log 86). -/
def Flit.turned (f : Flit) (pos : Nat) : Flit :=
  if f.rev then
    { f with
      orig := BitVec.ofNat 7 (nextPos f.revpos.toNat f.dir1), dir1 := !f.dir1
      revpos := BitVec.ofNat 7 (if onArc f.orig.toNat f.revpos.toNat pos f.dir1 then nextPos f.orig.toNat f.dir1 else pos) }
  else { f with rev := true, revpos := BitVec.ofNat 7 pos }

/-- Reverse one flit of a class at a stop out of direction `dec`, once the opposite transit buffer has a free slot:
first the flits a replay buffer gave back, then the one at the front of the transit buffer. Where a reversing flit waits
for that slot the spec leaves open: it waits where it stands. DESIGN CHOICE (log 86). -/
def Ring.turnOne (x : Ring) (r pos c : Nat) (dec : Bool) : Ring :=
  let over_ := fun (x : Ring) (f : Flit) => x.setBuf pos c (!dec) (x.buf pos c (!dec) ++ [f.turned pos])
  if x.freeSlots pos c (!dec) = 0 ∨ x.shifting.isSome ∨ x.moving = true then x
  else match x.back.get noFlits (tKey pos c dec), x.buf pos c dec with
    | f :: rest, _ => over_ { x with back := x.back.set noFlits (tKey pos c dec) rest } f
    | [], f :: rest => if x.mustTurn r pos dec f then over_ (x.setBuf pos c dec rest) f else x
    | [], [] => x

/-- Reverse what can reverse in one class at a stop, in both directions. -/
def Ring.settle (x : Ring) (r pos c : Nat) : Ring :=
  (List.range 3).foldl (fun x _ => (x.turnOne r pos c false).turnOne r pos c true) x

/-- Put a flit that stands at `pos` into the transit buffer of direction `dec` (R37, R48). -/
def Ring.place (x : Ring) (r pos c : Nat) (dec : Bool) (f : Flit) : Ring :=
  (x.setBuf pos c dec (x.buf pos c dec ++ [f])).settle r pos c

/-- Inject one flit of a class at a stop, under R39 and R42; flits that move over from the pair's other ring go first
(R50). -/
def State.inject (s : State) (st : Stop) (c : Nat) : State :=
  match s.nextFlit st c with
  | none => s
  | some f =>
    match s.derail st f c with
    | none => s
    | some (r, dec, used) =>
      let pos := stopPos r st
      if (s.ring r).freeSlots pos c dec < 2 then s.ringEvent r 0x04 c
      else if (s.ring (partner r)).movesAt pos c dec then s
      else
        let g := { f with orig := BitVec.ofNat 7 pos, dir1 := dec, rev := false, revpos := 0, dropped := false }
        let s := s.modStop st fun x => { x with
          outbox := dropFlit f x.outbox, rr := if used then (r + 1) % 6 else x.rr }
        (s.modRing r fun x => x.place r pos c dec g).ringEvent r 0x02 c

/-! Links (R45 to R47) -/

/-- What a receiver does with a flit (R45). -/
inductive Rx where
  | accept
  | duplicate
  | reject (ask : Bool)
  deriving DecidableEq, Repr

/-- The three cases of R45; while the receiver waits for a number it asks again only for a flit that fails its
checks (DEDUCED, log 22). The second case of R45 names no CRC: a flit that fails its checks, whatever number it seems to
carry, is none of the first two and is rejected. DESIGN CHOICE (log 92). -/
def LinkRx.receive (l : LinkRx) (good : Bool) (seq : BitVec 12) : Rx :=
  let behind := (l.exp - seq).toNat
  if good ∧ seq = l.exp then .accept
  else if good ∧ l.waiting = false ∧ 1 ≤ behind ∧ behind ≤ 64 then .duplicate
  else .reject (!l.waiting || !good)

/-- The receiver has accepted the expected flit. -/
def LinkRx.accepted (l : LinkRx) : LinkRx := { exp := l.exp + 1, any := true }

/-- The receiver asks for the expected number; a request that names it again is a failed resend (R45, R47). -/
def LinkRx.ask (l : LinkRx) : LinkRx :=
  { l with waiting := true, named := some l.exp, fails := if l.named = some l.exp then l.fails + 1 else 0 }

/-- The request goes out on a ring's sideband (R45). -/
def LinkRx.askRing (l : LinkRx) : LinkRx := { l.ask with requests := l.requests ++ [l.exp] }

/-- Numbers are given out in order, and a flit is kept with its number until it is acknowledged (R45, R46). -/
def LinkTx.send {α : Type} (t : LinkTx α) (f : α) : LinkTx α :=
  { t with next := t.next + 1, replay := t.replay ++ [(t.next, f)] }

/-- The replay buffer has no room for a new flit (R46). -/
def LinkTx.full {α : Type} (t : LinkTx α) : Bool := decide (64 ≤ t.replay.length)

/-- The entry that a resend in progress sends next (R46). -/
def LinkTx.resending {α : Type} (t : LinkTx α) : Option (BitVec 12 × α) :=
  t.again.bind fun v => t.replay.find? fun e => seqUpTo v e.1

/-- The resend has sent number `v`, and goes on with the next, if there is one. -/
def LinkTx.resent {α : Type} (t : LinkTx α) (v : BitVec 12) : LinkTx α :=
  { t with again := if v + 1 = t.next then none else some (v + 1) }

/-- An acknowledgement covers all flits up to `seq`; a resent number it covers counts no further (R46, R47). -/
def LinkTx.ack {α : Type} (t : LinkTx α) (seq : BitVec 12) : LinkTx α :=
  let t := { t with replay := t.replay.filter fun e => !(seqUpTo e.1 seq) }
  match t.named with
  | some v => if seqUpTo v seq then { t with named := none, fails := 0 } else t
  | none => t

/-- A resend from `seq` begins: it counts as failed when it names the same number again (R46, R47). -/
def LinkTx.resend {α : Type} (t : LinkTx α) (seq : BitVec 12) : LinkTx α :=
  { t with again := some seq, named := some seq, fails := if t.named = some seq then t.fails + 1 else 0 }

def Ring.link (x : Ring) (k : Nat) (d : Dir) : LinkSt := x.links.get LinkSt.dflt (lKey k d)
def Ring.modLink (x : Ring) (k : Nat) (d : Dir) (f : LinkSt → LinkSt) : Ring :=
  { x with links := x.links.set LinkSt.dflt (lKey k d) (f (x.link k d)) }

/-- Sending and receiving positions of a segment's direction (R33). -/
def segEnds (k : Nat) : Dir → Nat × Nat
  | .inc => (k, (k + 1) % 94)
  | .dec => ((k + 1) % 94, k)

def isDec : Dir → Bool
  | .inc => false
  | .dec => true

/-- The segment is between its eighth failed resend and step 3 of R48. -/
def Ring.losing (x : Ring) (k : Nat) : Bool := x.segLosing.any fun e => e.1 == k

/-- Flits go on over a segment: the ring is in service, neither shifting nor moving its flits over, and the segment is
neither out nor being taken out (R48, R50). -/
def Ring.crosses (x : Ring) (k : Nat) : Bool :=
  x.mode == 0 && x.shifting.isNone && !x.moving && !(x.out k) && !(x.losing k)

/-- The flit of class `c` ready to cross a segment: at the front of its transit buffer with nothing to deliver there,
and a slot free at the next stop (R38, R39). -/
def Ring.ready (x : Ring) (r k : Nat) (d : Dir) (c : Nat) : Option Flit :=
  let (a, b) := segEnds k d
  match x.buf a c (isDec d) with
  | f :: _ =>
    if f.stopsHere r a || x.freeSlots b c (isDec d) == 0 then none else some f
  | [] => none

/-- The new flit a link direction sends next: the first ready class at or after the one whose turn it is (R38, R46). -/
def Ring.fresh (x : Ring) (r k : Nat) (d : Dir) : Option Flit :=
  let l := x.link k d
  if l.tx.full then none
  else (List.range 6).findSome? fun i => x.ready r k d ((l.turn + i) % 6)

/-- The flit a link direction sends next, with its number: of a resend in progress, else a new one (R38, R45, R46). -/
def Ring.sends (x : Ring) (r k : Nat) (d : Dir) : Option (BitVec 12 × Flit) :=
  if !x.crosses k then none
  else
    let l := x.link k d
    match l.tx.resending with
    | some e => some e
    | none => (x.fresh r k d).map fun f => (l.tx.next, { f with dropped := false })

/-- The flit of `Ring.sends` is on its way: a new one leaves its transit buffer for the replay buffer, and the turn
passes on (R38, R46, R54). -/
def State.ringSent (s : State) (r k : Nat) (d : Dir) (seq : BitVec 12) (f : Flit) : State :=
  let c := f.msg.cls.toNat
  let a := (segEnds k d).1
  (s.modRing r fun x =>
    let x := { x with carried := x.carried + 1 }
    if (x.link k d).tx.resending.isSome then x.modLink k d fun l => { l with tx := l.tx.resent seq }
    else
      let x := x.modLink k d fun l => { l with tx := l.tx.send f, turn := (c + 1) % 6 }
      (x.setBuf a c (isDec d) ((x.buf a c (isDec d)).drop 1)).settle r a c).ringEvent r 0x01 c

/-- A replay request of a ring (R45, R47). -/
def State.ringAsks (s : State) (r : Nat) : State :=
  ((s.modRing r fun x => { x with
    replays := satInc16 x.replays, replaySum := x.replaySum + 1 }).ringEvent r 0x05).fireRing r 0

/-- A flit with number `seq` reaches the receiving stop of a segment's direction (R45, R67). -/
def State.ringTakes (s : State) (r k : Nat) (d : Dir) (good : Bool) (seq : BitVec 12) (f : Option Flit) : State :=
  let fail := fun (s : State) => if good then s
    else (s.modRing r fun x => { x with crcFails := satInc16 x.crcFails, crcSum := x.crcSum + 1 }).ringEvent r 0x06
  match ((s.ring r).link k d).rx.receive good seq with
  | .duplicate => s
  | .reject ask =>
    let s := fail s
    if ask then (s.modRing r fun x => x.modLink k d fun l => { l with rx := l.rx.askRing }).ringAsks r else s
  | .accept => match f with
    | none => s
    | some f => s.modRing r fun x =>
      let x := x.modLink k d fun l => { l with
        rx := l.rx.accepted
        tx := if l.tx.named = some seq then { l.tx with named := none, fails := 0 } else l.tx }
      x.place r (segEnds k d).2 f.msg.cls.toNat (isDec d) f

/-- What arrives over a ring segment. The flit the sender has put on the link arrives whole, or fails its checks; any
other flit that passes them is judged by its number alone, and none with the expected number is accepted (R36, R45,
R46). -/
def State.ringReceive (s : State) (r k : Nat) (d : Dir) (raw : BitVec 768) : State :=
  let good := rawGood raw
  match (s.ring r).sends r k d with
  | some (seq, f) =>
    if !good then (s.ringSent r k d seq f).ringTakes r k d false seq none
    else if seq = rawSeq raw ∧ ringFlit raw = f then (s.ringSent r k d seq f).ringTakes r k d true seq (some f)
    else s.ringTakes r k d true (rawSeq raw) none
  | none => s.ringTakes r k d good (rawSeq raw) none

end Sys2Proof.Machine
end

