-- ==== Sys2Proof/Machine/PortOps.lean ====
section
/-! DEFINITION. Operations of the ports: slice-map copies, ingress, the credits of the non-caching groups and of the
internal ports, the slots of die and I/O links, and ejection (chapters 2 to 5, R20, R29, R30, R72, R77 to R82, R85,
R171, R172, R370). -/

namespace Sys2Proof.Machine

/-! Copies and ingress checks (R20, R29, R30, R72) -/

/-- The slice-map copy with index `c` (R29). -/
def State.copy (s : State) (c : Nat) : Copy :=
  if c = stewardCopy then s.stwCopy else if c = hostCopy then s.hfnCopy
  else { smap := (s.port c).smap, sentFor := (s.port c).sentFor }

def State.modCopy (s : State) (c : Nat) (f : Copy → Copy) : State :=
  if c = stewardCopy then { s with stwCopy := f s.stwCopy }
  else if c = hostCopy then { s with hfnCopy := f s.hfnCopy }
  else s.modPort c fun x =>
    let y := f { smap := x.smap, sentFor := x.sentFor }
    { x with smap := y.smap, sentFor := y.sentFor }

def Copy.entry (c : Copy) (l : Nat) : SMapEnt := c.smap.get SMapEnt.dflt l

/-- Count a flit sent for a logical slice under the entry in force (R171). -/
def Copy.sent (c : Copy) (l : Nat) : Copy :=
  { c with sentFor := c.sentFor.set zero32 l (c.sentFor.get zero32 l + 1) }

/-- The copy a port translates with (R29). -/
def copyOfPort (n : Nat) : Nat := if n = 48 then stewardCopy else if n = 49 then hostCopy else n

/-- A message counted under R171. -/
def counted (m : Msg) : Bool := m.cls == 0 || m.cls == 1 || m.opc == 0x1A || m.opc == 0x2D

/-- Queue a home-addressed message at a port's stop for the physical slice its copy names (R29). -/
def State.sendHome (s : State) (n : Nat) (m : Msg) : State :=
  let c := copyOfPort n
  let phys := if m.opc = 0x1B then m.aux.toNat else ((s.copy c).entry m.home.toNat).phys
  let s := if counted m then s.modCopy c fun x => x.sent m.home.toNat else s
  s.modStop (if h : n < 50 then .port ⟨n, h⟩ else .port 0) fun x => { x with outbox := x.outbox ++ [flitOf m phys] }

/-- Queue a message that is not for a home at a port's stop. -/
def State.sendNode (s : State) (n : Nat) (m : Msg) : State :=
  s.modPort n fun x => { x with stop := { x.stop with outbox := x.stop.outbox ++ [flitOf m 0] } }

/-- The kind of sender Table 4.6 allows for an opcode. -/
def senderAllowed (opc src : Nat) : Bool :=
  let ca := isCA src
  let requester := ca || isNCR src || isEngine src || src == 452 || isProbe src
  let mp := decide (1008 ≤ src) && decide (src < 1020)
  if opc ≤ 2 ∨ opc = 0x10 ∨ opc = 0x11 then ca
  else if opc ≤ 7 then requester
  else if opc = 0x18 then ca || isEngine src || src == 452
  else if opc = 0x19 then src == 1020
  else if opc = 0x1A then isEngine src || src == 452 || src == 1021
  else if opc = 0x1B then src == 452 || src == 1021
  else if opc = 0x29 ∨ opc = 0x2A ∨ opc = 0x3B ∨ opc = 0x3C then ca
  else if opc = 0x2D then requester
  else if opc = 0x32 then ca || src == 1023
  else if opc = 0x35 ∨ opc = 0x3E then mp
  else if opc = 0x38 ∨ opc = 0x39 ∨ opc = 0x3A then ca || src == 1023
  else if opc = 0x33 then src == 1020
  else src == 1023

/-- Opcodes whose payload may be poisoned: those marked line or partial in Table 4.6 (R64). -/
def carriesPoison (opc : Nat) : Bool :=
  opc == 4 || opc == 5 || opc == 0x10 || opc == 0x12 || (decide (0x38 ≤ opc) && decide (opc ≤ 0x3C)) || opc == 0x3E

/-- A message addressed to a home whose ADDR names a line: an `HlcMaint` of scope 1 or 2 names none (R25, R72). -/
def namesLine (m : Msg) : Bool :=
  m.dst == 1023 && m.opc != 0x1B && m.opc != 0x2D && !(m.opc == 0x1A && (m.aux == 1 || m.aux == 2))

/-- A flit R72 discards at ingress. -/
def malformedFlit (m : Msg) : Bool :=
  match classOf m.opc.toNat with
  | none => true
  | some c =>
    BitVec.ofNat 3 (classCode c) != m.cls || !(senderAllowed m.opc.toNat m.src.toNat) || !(validSrc m.src.toNat)
      || !(validDst m.dst.toNat) || (m.poison != 0 && !(carriesPoison m.opc.toNat) && !(m.opc == 0x1B && m.aop == 3))
      || (namesLine m && m.home != lsliceOf m.addr)

/-- The source of a flit is bound to the port and present (R20, Table 2.2); an internal port speaks for its own
node, and the steward port for the engines it relays (R29). -/
def State.sourceOk (s : State) (n : Nat) (m : Msg) : Bool :=
  let src := m.src.toNat
  if src < 64 then portOfNode src == some n && s.glb.agents.getLsbD src
  else if src < 320 then portOfNode src == some n && s.glb.ioPorts.getLsbD (n - 32)
  else if n = 48 then src == 452 || isEngine src || src == 1020
  else if n = 49 then src == 1021
  else portOfNode src == some n

/-- Discard a flit at ingress (R20, R72, code `0x29`). -/
def State.sourceError (s : State) (n : Nat) (m : Msg) : State :=
  let s := s.modPort n fun x => { x with srcErr := if x.srcErr = 0xFFFF then 0xFFFF else x.srcErr + 1 }
  let s := { s with glb := { s.glb with srcErrs := s.glb.srcErrs + 1 } }
  let s := if n < 20 ∨ (32 ≤ n ∧ n < 48) then s.firePort n 2 else s
  (s.portEvent n 0x04).record
    { cls := 1, unit := 2, index := n, code := 0x29, agent := some m.src, detail := (msgBits m).extractLsb' 0 64 }

/-- A message every port holds during a power drain and in kickstand (R352, R385). -/
def heldByPower (m : Msg) : Bool := m.cls == 0 || m.cls == 1 || m.cls == 2 || m.opc == 0x2D

/-- A message a slice-map HOLD stops: REQ, WB and `HlcMaint` (R30, R171). -/
def heldByMap (m : Msg) : Bool := m.dst == 1023 && (m.cls == 0 || m.cls == 1 || m.opc == 0x1A)

/-- A slice-map HOLD stops the message at port `n` (R30). -/
def State.mapHeld (s : State) (n : Nat) (m : Msg) : Bool :=
  heldByMap m && ((s.copy (copyOfPort n)).entry m.home.toNat).hold

/-- Whether a message must wait at ingress now, ahead of any flit already waiting (R30). -/
def State.mustHold (s : State) (n : Nat) (m : Msg) : Bool := (s.glb.ingressHold && heldByPower m) || s.mapHeld n m

/-- Non-caching requests that wait for a credit at a port and are stopped by a HOLD, theirs or one before them: what a
HOLD stops holds back the later REQ and WB of its port (R30). -/
def State.ncStopped (s : State) (n : Nat) : List (Nat × Msg) :=
  (s.port n).ncWait.dropWhile fun w => !(s.mapHeld n w.2)

/-- A message that has just arrived waits at ingress (R30, R352). -/
def State.mustWait (s : State) (n : Nat) (m : Msg) : Bool :=
  s.mustHold n m || (heldByMap m && !((s.ncStopped n).isEmpty))
    || (!((s.port n).held.isEmpty) && (heldByMap m || (s.glb.ingressHold && heldByPower m)))

/-- The message that has just arrived waits because of a slice-map HOLD: its own, or that of a flit before it (R30). -/
def State.waitsForMap (s : State) (n : Nat) (m : Msg) : Bool :=
  s.mapHeld n m || (heldByMap m && (!((s.ncStopped n).isEmpty) || (s.port n).held.any fun h => s.mapHeld n h))

/-- A message waits at ingress under a hold; a REQ or WB that a HOLD holds is counted (R30, R103, Table 16.6). -/
def State.holdBack (s : State) (n : Nat) (m : Msg) : State :=
  (if (m.cls == 0 || m.cls == 1) && s.waitsForMap n m then s.portEvent n 0x05 else s).modPort n fun x =>
    { x with held := x.held ++ [m] }

/-! Link slots (R77 to R80) -/

/-- The port serves a link to a die or an I/O agent. -/
def isLinkPort (n : Nat) : Bool := decide (n < 20) || (decide (32 ≤ n) && decide (n < 48))

/-- SLOT, DEST and bytes 6 to 91 of a numbered slot (Tables 4.10 and 4.11). -/
def SlotBody.kind : SlotBody → BitVec 2
  | .message _ _ => 1
  | .control _ _ => 2
def SlotBody.dest : SlotBody → BitVec 10
  | .message d _ => d
  | .control _ _ => 0
def SlotBody.bits : SlotBody → BitVec 688
  | .message _ m => msgBits m
  | .control init counts => BitVec.ofNat 688
      (leNat (((List.range 6).map fun c => BitVec.ofNat 8 (counts.getD c 0)) ++ [if init then 1 else 0]))

/-- ACKSEQ, and ACKV, as the port fills them in every slot it sends (Table 4.10). -/
def LinkRx.ackSeq (l : LinkRx) : BitVec 12 := l.exp - 1

/-- A numbered slot as the port sends it (R66, R78). -/
def Port.slot (x : Port) (seq : BitVec 12) (b : SlotBody) : BitVec 768 :=
  packFlit (dieRouting b.kind b.dest seq x.rx.ackSeq x.rx.any false) b.bits

/-- An idle slot: its number is zero and so are bytes 6 to 95 (R79). It is modelled where it carries an acknowledgement
or a replay request; the idle slots between carry nothing new (log 81). -/
def Port.idle (x : Port) (rpl : Bool) : BitVec 768 :=
  let routing := dieRouting 0 0 0 x.rx.ackSeq x.rx.any rpl
  (0 : BitVec 720) ++ routing ++ rchkOf routing

/-- The stream of slots sent since entry to Active as 256-byte FDI transfers: transfer `c`, where the stream has reached
its end (R77). -/
def Port.fdiOut (x : Port) (c : Nat) : Option (BitVec 2048) :=
  if (c + 1) * 256 ≤ x.sent.length * 96 then
    some (BitVec.ofNat 2048 (leNat ((List.range 256).map fun b =>
      byteAt (x.sent.getD ((256 * c + b) / 96) 0) ((256 * c + b) % 96))))
  else none

/-- Send an idle slot (R79). -/
def Port.sendIdle (x : Port) (rpl : Bool) : Port := if x.active then { x with sent := x.sent ++ [x.idle rpl] } else x

/-- Send a numbered slot and keep it for replay (R79). -/
def Port.sendSlot (x : Port) (b : SlotBody) : Port := { x with sent := x.sent ++ [x.slot x.tx.next b], tx := x.tx.send b }

/-- Send again, in order, every unacknowledged slot from number `seq` on (R46, R81). -/
def Port.sendAgain (x : Port) (seq : BitVec 12) : Port :=
  if x.active then
    { x with sent := x.sent ++ (x.tx.replay.filter fun e => seqUpTo seq e.1).map fun e => x.slot e.1 e.2 }
  else x

/-- Send a link-control slot with the credits to be granted or returned, once the replay buffer has room (R46, R80). -/
def Port.give (x : Port) : Port :=
  if !x.active || x.tx.full || (!x.oweInit && x.owed.isEmpty) then x
  else
    let counts := (List.range 6).map fun c => x.owed.get zeroNat c
    { x.sendSlot (.control x.oweInit counts) with
      oweInit := false, owed := []
      given := (List.range 6).foldl (fun m c =>
        NMap.set zeroNat m c ((if x.oweInit then 0 else m.get zeroNat c) + counts.getD c 0)) x.given }

/-- A message has left the ingress buffer: its credit goes back to the die, which holds at most 16 of a class (R80). -/
def Port.giveBack (x : Port) (c : Nat) : Port :=
  if x.given.get zeroNat c + x.owed.get zeroNat c < 16 then
    { x with owed := x.owed.set zeroNat c (x.owed.get zeroNat c + 1) }.give
  else x

/-- A message the port takes from what its link has brought stands in its slot of the ingress buffer (R80). -/
def Port.takeIn (x : Port) (m : Msg) : Port :=
  if x.ingress.contains m then { x with ingress := takeFirst m x.ingress, inSlot := x.inSlot ++ [m] } else x

/-- A message leaves the ingress buffer: the link credit of one that stood in a slot goes back (R80). -/
def State.leaveSlot (s : State) (n : Nat) (m : Msg) : State :=
  s.modPort n fun x =>
    if x.inSlot.contains m then { x with inSlot := takeFirst m x.inSlot }.giveBack m.cls.toNat else x

/-! Credits of the non-caching groups (R85 to R90) -/

/-- The credit an I/O port has free for a non-caching request: a shared one, a reserved one, or none (R85, R87). A granted
credit is spent first, since R89 has each spent on a request it was asked for. DESIGN CHOICE (log 87). -/
def Port.ncCredit (x : Port) (l : Nat) : Option Bool :=
  if x.ncOpen.get zeroNat l < x.ncG.get zeroNat l then some true
  else if x.ncRes.get zeroNat l < 2 then some false else none

/-- The non-caching requests that wait for a logical slice, in arrival order (R85). -/
def Port.ncFor (x : Port) (l : Nat) : List (Nat × Msg) := x.ncWait.filter fun w => w.2.home.toNat == l

/-- The first non-caching request that waits for a logical slice (R85). -/
def Port.ncFirst (x : Port) (l : Nat) : Option (Nat × Msg) := (x.ncFor l).head?

/-- The requests committed to the credits that an unanswered `CreditRequest` has asked for (R89). -/
def Port.ncCommitted (x : Port) (l : Nat) : Nat := if x.ncAsked.get noBool l then x.ncWant.get zeroNat l else 0

/-- Send the request that waits longest for a logical slice, if nothing holds it, on a free credit, marking a shared
one in TXN[11] (R30, R85, R87). As many requests stay as the unanswered `CreditRequest` has asked for (R89). -/
def State.ncServeOne (s : State) (n l : Nat) : State :=
  match (s.port n).ncFirst l, (s.port n).ncCredit l with
  | some w, some shared =>
    if s.mustHold n w.2 || (s.ncStopped n).contains w
        || decide (((s.port n).ncFor l).length ≤ (s.port n).ncCommitted l) then s
    else
      ((s.modPort n fun x =>
        let x := { x with ncWait := takeFirst w x.ncWait }
        if shared then { x with ncOpen := x.ncOpen.set zeroNat l (x.ncOpen.get zeroNat l + 1) }
        else { x with ncRes := x.ncRes.set zeroNat l (x.ncRes.get zeroNat l + 1) }).leaveSlot n w.2).sendHome n
          { w.2 with txn := if shared then w.2.txn ||| 0x800 else w.2.txn &&& 0x7FF }
  | _, _ => s

/-- The group asks for shared credits for the requests that wait, within 8 − R − G, unless an earlier request is
unanswered or a power state holds it (R89, R90, R352). Under HOLD the relay keeps it (R172). Table 4.4 gives the port no
node number: the request carries the SRC and the AGE of the requester that has waited longest. DESIGN CHOICE (log 87). -/
def State.ncAsk (s : State) (n l : Nat) : State :=
  let x := s.port n
  match x.ncFirst l with
  | none => s
  | some w =>
    let want := min (x.ncFor l).length (6 - x.ncG.get zeroNat l)
    if want = 0 || x.ncAsked.get noBool l || s.glb.ingressHold then s
    else
      let m := { mkMsg 0x2D w.2.src 1023 with
        home := w.2.home, aux := BitVec.ofNat 8 want, age := BitVec.ofNat 8 (effAge s.time w.2.age.toNat w.1) }
      let s := s.modPort n fun x => { x with
        ncAsked := x.ncAsked.set noBool l true, ncWant := x.ncWant.set zeroNat l want }
      if ((s.copy (copyOfPort n)).entry l).hold then { s with relayed := s.relayed ++ [(n, m)] } else s.sendHome n m

/-- Serve the non-caching requests that wait for a logical slice, in arrival order (R85). -/
def State.ncServe (s : State) (n l : Nat) : State :=
  ((List.range (s.port n).ncWait.length).foldl (fun s _ => s.ncServeOne n l) s).ncAsk n l

/-! Maintenance credits of the internal ports (Table 5.1) -/

/-- What a maintenance credit of the steward or host-function port is counted by: the logical slice, or the physical
slice a `SvcReq` names (log 87). -/
def maintKey (m : Msg) : Nat := if m.opc = 0x1B then 128 + m.aux.toNat else m.home.toNat

/-- Relay entries of a logical slice that hold a maintenance credit of the steward port (Table 5.1). -/
def State.maintHeld (s : State) (l : BitVec 7) : Nat :=
  (s.stw.relays.filter (fun r => !r.req && r.home == l)).length

/-- Maintenance credits in use at an internal port: four of the steward port, two of the host-function port. -/
def State.maintUsed (s : State) (n key : Nat) : Nat :=
  ((s.port n).maints.filter fun e => e.1 == key).length
    + (if n = 48 ∧ key < 128 then s.maintHeld (BitVec.ofNat 7 key) else 0)
def maintMost (n : Nat) : Nat := if n = 49 then 2 else 4

/-- A message of an internal port that spends a maintenance credit. -/
def spendsMaint (n : Nat) (m : Msg) : Bool := (n == 48 || n == 49) && (m.opc == 0x1A || m.opc == 0x1B)

/-- The first `HlcMaint` or `SvcReq` that waits at an internal port goes out on a free credit, if nothing holds it. -/
def State.maintServeOne (s : State) (n : Nat) : State :=
  match (s.port n).mntWait.find? (fun m => decide (s.maintUsed n (maintKey m) < maintMost n) && !(s.mustHold n m)) with
  | none => s
  | some m => (s.modPort n fun x => { x with
      mntWait := takeFirst m x.mntWait, maints := x.maints ++ [(maintKey m, m.txn)] }).sendHome n m

def State.maintServe (s : State) (n : Nat) : State :=
  (List.range (s.port n).mntWait.length).foldl (fun s _ => s.maintServeOne n) s

/-- Pass a message a port has taken on toward its destination (R29, R85, R172). The steward port relay keeps a
`CreditRequest` whose logical slice is on HOLD in its own list. -/
def State.passOn (s : State) (n : Nat) (m : Msg) : State :=
  if m.dst = 1023 then
    if m.cls = 0 ∧ isNCR m.src.toNat = true then
      (s.modPort n fun x => { x with ncWait := x.ncWait ++ [(s.time, m)] }).ncServe n m.home.toNat
    else if spendsMaint n m && !(isEngine m.src.toNat) then
      (s.modPort n fun x => { x with mntWait := x.mntWait ++ [m] }).maintServe n
    else if m.opc = 0x2D ∧ ((s.copy (copyOfPort n)).entry m.home.toNat).hold = true then
      let s := s.leaveSlot n m
      { s with relayed := s.relayed ++ [(n, m)] }
    else (s.leaveSlot n m).sendHome n m
  else (s.leaveSlot n m).sendNode n m

/-- Serve the non-caching requests that wait at a port (R85). -/
def State.ncServeAll (s : State) (n : Nat) : State :=
  (s.port n).ncWait.foldl (fun s w => s.ncServe n w.2.home.toNat) s

/-- Take what waits at ingress in arrival order, as far as nothing holds it: first the requests that wait for a credit,
which arrived before every flit under a hold, then those flits (R30 step 4). -/
def State.releaseHeld (s : State) (n : Nat) : State :=
  let s := s.ncServeAll n
  let s := (s.port n).held.foldl
    (fun s m =>
      match (s.port n).held with
      | h :: rest =>
        if h = m ∧ s.mustHold n m = false ∧ (heldByMap m && !((s.ncStopped n).isEmpty)) = false then
          (s.modPort n fun x => { x with held := rest }).passOn n m
        else s
      | [] => s) s
  s.maintServe n

/-! Egress (R80, R82, R87) -/

/-- Send what waits in a link port's ejection queues, one flit a queue, while link credits last (R46, R80, R82). -/
def State.egressOne (s : State) (n key : Nat) : State :=
  let x := s.port n
  match x.stop.eject.get noEjected key with
  | [] => s
  | e :: rest =>
    let c := e.msg.cls.toNat
    if !x.active || x.creds.get zeroNat c = 0 || x.tx.full then s
    else
      let s := s.modPort n fun x =>
        let m := if isNCR e.msg.dst.toNat then { e.msg with txn := e.msg.txn &&& 0x7FF } else e.msg
        { x with
          stop := { x.stop with eject := x.stop.eject.set noEjected key rest }
          creds := x.creds.set zeroNat c (x.creds.get zeroNat c - 1) }.sendSlot (.message e.dest m)
      s.portEvent n 0x02

/-- Send as much as the link takes: credits owed first, then messages. -/
def State.egress (s : State) (n : Nat) : State :=
  if isLinkPort n then
    ((s.port n).stop.eject.map (·.1)).foldl
      (fun s key => (List.range 8).foldl (fun s _ => s.egressOne n key) s) (s.modPort n Port.give)
  else s

/-! Ejection (R40, R43, R370) -/

/-- The first message of a stop's ejection queues that is `m`, and the stop without it. -/
def StopSt.pull (x : StopSt) (m : Msg) : Option (Ejected × StopSt) :=
  match x.eject.find? (fun k => k.2.any fun e => e.msg == m) with
  | some (k, l) => (l.find? fun e => e.msg == m).map fun e =>
      (e, { x with eject := x.eject.set noEjected k (takeFirst e l) })
  | none => none

/-- The copies a stop ejects of a flit: a vector-addressed one for each agent it serves, the header unchanged (R43,
R44, R61, R82). -/
def copiesAt (st : Stop) (f : Flit) : List Ejected :=
  if f.dkind = 2 ∨ f.dkind = 3 then
    match st with
    | .slice _ => if f.dkind = 3 then [{ dest := f.msg.dst, msg := f.msg }] else []
    | .port n => (agentsAt (vecOf f) n).map (fun g => { dest := BitVec.ofNat 10 g, msg := f.msg })
  else [{ dest := f.msg.dst, msg := f.msg }]

/-- A message that a dead agent's port answers in its place: a forward or a `TlbShoot` (R370). -/
def forDead (e : Ejected) : Bool := e.msg.cls == 3 || e.msg.opc == 0x19

/-- A port consumes an answer to its own request: a grant to the group of an I/O port, a `MaintDone` or `SvcRsp` to the
steward or the host-function port (R89, R90, Table 5.1). That the grant goes no further the spec does not say. DESIGN
CHOICE (log 87). -/
def consumed (n : Nat) (m : Msg) : Bool :=
  (m.opc == 0x2E && isNCR m.dst.toNat)
    || ((n == 48 || n == 49) && !(isEngine m.dst.toNat) && (m.opc == 0x34 || m.opc == 0x3F))

/-- The messages of an ejected flit that a stop keeps: a port whose link is down drops what no dead agent must answer
(R370). -/
def State.keeps (s : State) (st : Stop) (es : List Ejected) : List Ejected :=
  match st with
  | .port n => es.filter fun e => !(consumed n e.msg) && (!(s.port n).down || forDead e)
  | .slice _ => es

/-- The answer `m` returns the maintenance credit `k`: a `MaintDone` names its home, a `SvcRsp` only its TXN (R71, Table
4.6). -/
def returnsMaint (m : Msg) (k : Nat × BitVec 12) : Bool :=
  k.2 == m.txn && (if m.opc = 0x34 then k.1 == m.home.toNat else decide (128 ≤ k.1))

/-- The credits of a message that a port has received: CRET returns one of the non-caching group, a grant adds to its
shared ones, `MaintDone` and `SvcRsp` return a maintenance credit; what waited goes out (R87 to R90, Table 5.1). -/
def State.portGets (s : State) (n : Nat) (e : Ejected) : State :=
  let m := e.msg
  let l := m.home.toNat
  if isNCR m.dst.toNat then
    if m.opc = 0x2E then
      (s.modPort n fun x => { x with
        ncG := x.ncG.set zeroNat l (x.ncG.get zeroNat l + m.aux.toNat)
        ncAsked := x.ncAsked.set noBool l false }).ncServe n l
    else if m.cret then
      (s.modPort n fun x =>
        if m.txn.getLsbD 11 then { x with
          ncG := x.ncG.set zeroNat l (x.ncG.get zeroNat l - 1)
          ncOpen := x.ncOpen.set zeroNat l (x.ncOpen.get zeroNat l - 1) }
        else { x with ncRes := x.ncRes.set zeroNat l (x.ncRes.get zeroNat l - 1) }).ncServe n l
    else s
  else if consumed n m then
    ((s.portEvent n 0x02).modPort n fun x => { x with maints := match x.maints.find? (returnsMaint m) with
      | some k => takeFirst k x.maints
      | none => x.maints }).maintServe n
  else s

/-- Eject at a stop the flit at the front of a transit buffer (R40, R43). -/
def State.ejectAt (s : State) (r pos : Nat) (dec : Bool) (c : Nat) : State :=
  match (s.ring r).buf pos c dec, stopAt r pos with
  | f :: rest, some st =>
    if !(f.stopsHere r pos) then s
    else
      let es := copiesAt st f
      let keep := s.keeps st es
      let q := (s.stop st).eject.get noEjected (eKey r c)
      if 8 < q.length + keep.length then s
      else
        let goes := (f.dkind == 2 || f.dkind == 3) && f.goesOn r pos
        let s := s.modStop st fun x => { x with eject := x.eject.set noEjected (eKey r c) (q ++ keep) }
        let s := s.modRing r fun x =>
          (x.setBuf pos c dec (if goes then { f with dropped := true } :: rest else rest)).settle r pos c
        let s := s.ringEvent r 0x03 c
        let s := if f.dkind = 2 ∨ f.dkind = 3 then s.ringEvent r 0x07 7 es.length else s
        match st with
        | .port n => (es.foldl (fun s e => s.portGets n e) s).egress n
        | .slice _ => s
  | _, _ => s

end Sys2Proof.Machine
end

