-- ==== Sys2Proof/Machine/ReportQueues.lean ====
section
/-! DEFINITION. Report queues: pushing, popping and flushing (chapter 15). -/

namespace Sys2Proof.Machine

def State.rpqOf (s : State) (q : Nat) : Rpq := s.rpq.get Rpq.dflt q
def State.modRpq (s : State) (q : Nat) (f : Rpq → Rpq) : State := { s with rpq := s.rpq.set Rpq.dflt q (f (s.rpqOf q)) }

/-- Source 1500 + q fires when FILL crosses LEVEL upward (R301 step 4). -/
def State.rpqLevel (s : State) (q before : Nat) : State :=
  let x := s.rpqOf q
  if before < x.level.toNat ∧ x.level.toNat ≤ x.ents.length then s.fire (1500 + q) else s

/-- Push one entry; a full queue discards it and sets the loss mark (R298). -/
def State.rpqPush (s : State) (q : Nat) (val : BitVec 32) (n : Fin 5) : State :=
  let x := s.rpqOf q
  if 1024 ≤ x.ents.length then
    (s.modRpq q fun x => { x with
      loss := true, drops := if x.drops = 0xFFFF then 0xFFFF else x.drops + 1 }).glbEvent 0x05
  else
    (s.modRpq q fun x => { x with ents := x.ents ++ [{ val, n, loss := x.loss }], loss := false }).rpqLevel q
      x.ents.length

/-- The entries of the next unit: at most three, ending after a fragment and before an entry that follows a loss
unless it is the first (R299). -/
def unitOf : Nat → Bool → List RpqEnt → List RpqEnt
  | 0, _, _ => []
  | _, _, [] => []
  | k + 1, first, e :: rest =>
    if e.loss && !first then []
    else if e.n.val < 4 then [e]
    else e :: unitOf k false rest

/-- The bytes of a unit's entries. -/
def unitBytes (es : List RpqEnt) : List Byte :=
  es.flatMap fun e => (List.range e.n).map fun i => e.val.extractLsb' (8 * i) 8

/-- A popped unit (Table 15.2): DATA in bits 95:0, TAG in bits 127:96. -/
def unitImage (es : List RpqEnt) (seq : BitVec 16) : BitVec 128 :=
  let data := leNat (unitBytes es)
  let count := (unitBytes es).length
  let lost := match es with
    | e :: _ => e.loss
    | [] => false
  let tag := (if es = [] then 0 else 1) + 2 * count + (if lost then 32 else 0) + 65536 * seq.toNat
  BitVec.ofNat 128 (data + tag * 2 ^ 96)

/-- Take one unit from the head (R299, R300). -/
def State.rpqPop (s : State) (q : Nat) : State × BitVec 128 :=
  let x := s.rpqOf q
  let es := unitOf 3 true x.ents
  (s.modRpq q fun x => { x with ents := x.ents.drop es.length, seq := if es = [] then x.seq else x.seq + 1 },
    unitImage es x.seq)

/-- Discard every entry and the loss mark (R301 step 1). -/
def State.rpqFlush (s : State) (q : Nat) : State :=
  s.modRpq q fun x => { x with
    ents := [], loss := false, flushes := if x.flushes = 0xFF then 0xFF else x.flushes + 1 }

end Sys2Proof.Machine
end

