-- ==== Sys2Proof/Machine/EngineOps.lean ====
section
/-! DEFINITION. Operations of the engines: registers, instruction fields, entries and halts, the store buffer, the
messages an engine sends, translation and resets (chapters 12 and 13, R288). -/

namespace Sys2Proof.Machine

/-! Event sources an engine touches -/

def State.src (s : State) (n : Nat) : Src := s.iag.srcs.get Src.dflt n
def State.modSrc (s : State) (n : Nat) (f : Src → Src) : State :=
  { s with iag := { s.iag with srcs := s.iag.srcs.set Src.dflt n (f (s.src n)) } }

/-- End a source's active state (R288, R291). -/
def State.endActive (s : State) (n : Nat) : State := s.modSrc n fun x => { x with act := false }

/-! Fields and registers -/

/-- Instruction fields (Table 12.5). -/
def wOpc (w : BitVec 32) : BitVec 6 := w.extractLsb' 26 6
def wRd (w : BitVec 32) : Nat := (w.extractLsb' 22 4).toNat
def wR1 (w : BitVec 32) : Nat := (w.extractLsb' 18 4).toNat
def wR2 (w : BitVec 32) : Nat := (w.extractLsb' 14 4).toNat
def wImm (w : BitVec 32) : Word := (w.extractLsb' 0 18).signExtend 64
def wOff22 (w : BitVec 32) : Word := (w.extractLsb' 0 22).signExtend 64

/-- A spoke engine. -/
def isSpoke (e : Nat) : Bool := decide (e < 132)

/-- General register `n`; in far-op mode the program's bank (R207, R241). -/
def Eng.reg (g : Eng) (n : Nat) : Word :=
  if n = 0 then 0 else if g.mode = .farOp then g.bank.get zero64 n else g.regs.get zero64 n

/-- Write register `n`; `g0` discards (R241), and a write of `ln0` to `ln7` is noted (R207). -/
def Eng.setReg (g : Eng) (n : Nat) (v : Word) : Eng :=
  if n = 0 then g
  else if g.mode = .farOp then
    { g with bank := g.bank.set zero64 n v, lnWritten := g.lnWritten || decide (8 ≤ n) }
  else { g with regs := g.regs.set zero64 n v }

/-- The address of the instruction (R206, R241). -/
def Eng.here (g : Eng) : Word := if g.mode = .farOp then g.farPc else g.pc

/-- `ENG_CR_STATUS` fields (Table 12.4). -/
def Eng.ie (g : Eng) : Bool := g.status.getLsbD 1
def Eng.eip (g : Eng) : Bool := g.status.getLsbD 3

/-- A fetch address is good: in the instruction memory and a multiple of 4 (R239, Table 12.1). -/
def validPc (e : Nat) (a : Word) : Bool :=
  a.toNat % 4 == 0
    && (if isSpoke e then decide (0x8000 ≤ a.toNat) && decide (a.toNat < 0x10000) else decide (a.toNat < 0x18000))

/-- Bytes of data memory (Table 12.1). -/
def dmemSize (e : Nat) : Nat := if isSpoke e then 0x8000 else 0x10000

/-- The agent number of an engine (R238). -/
def engAgent (e : Nat) : BitVec 10 := if isSpoke e then BitVec.ofNat 10 (320 + e) else 452

/-- The image of `ENG_STAT_e` (Table 12.12). -/
def State.engStat (s : State) (e : Nat) : BitVec 32 :=
  let g := s.eng e
  BitVec.ofNat 32 (g.state.toNat + (if g.quiesced then 4 else 0) + (if g.fwOk then 8 else 0)
    + (if (s.slice e).far.copyDone then 16 else 0) + (if g.mode = .farOp then 32 else 0)
    + (if g.refused then 64 else 0) + (if g.state = 3 then g.haltCause.toNat * 256 else 0))

/-- The image of `ENG_CR_SERR` (Table 13.5). -/
def Eng.serr (g : Eng) : Word :=
  BitVec.ofNat 64 ((if g.serrPending then 1 else 0) + (if g.serrTimeout then 2 else 0)
    + g.serrErrors.toNat * 2 ^ 16 + g.serrLate.toNat * 2 ^ 32)

/-- The image of `ENG_CR_RSV` (Table 13.5). -/
def Eng.rsv (g : Eng) : Word :=
  BitVec.ofNat 64 ((if g.rsvValid then 1 else 0) + (if g.rsvRemote then 2 else 0) + g.rsvLine.toNat * 64)

/-- An error of an engine (Table 20.2). -/
def State.engErr (s : State) (e cls code : Nat) (detail : BitVec 64) : State :=
  s.record { cls := BitVec.ofNat 2 cls, unit := if isSpoke e then 3 else 4, index := if isSpoke e then e else 0
             code := BitVec.ofNat 8 code, agent := some (engAgent e), detail }

/-! The store buffer (R262, R263) -/

/-- The maximal runs of contiguous bytes of a mask, in address order (R262). -/
def maskRuns (m : BitVec 64) : List (Nat × Nat) :=
  ((List.range 64).foldl (fun (acc : List (Nat × Nat)) i =>
    if m.getLsbD i then
      match acc with
      | (o, l) :: rest => if o + l = i then (o, l + 1) :: rest else (i, 1) :: (o, l) :: rest
      | [] => [(i, 1)]
    else acc) []).reverse

/-- Start sending the open entries that satisfy a condition (R263). -/
def Eng.startSend (g : Eng) (time : Nat) (c : SbEnt → Bool) : Eng :=
  { g with sb := g.sb.map fun b =>
      if !b.sending && c b then { b with sending := true, sendAt := time, unsent := maskRuns b.mask } else b }

/-- Start sending the entry opened earliest (R263). -/
def Eng.startOldest (g : Eng) (time : Nat) : Eng :=
  match g.sb.find? (fun b => !b.sending) with
  | none => g
  | some o => g.startSend time (fun b => b == o)

/-- The line is homed on the engine's own slice (R29, R266). -/
def State.ownLine (s : State) (e : Nat) (a : LineAddr) : Bool :=
  isSpoke e && (s.slice e).active && (s.slice e).lslice == lsliceOf a

/-- The lowest TXN no open transaction of the engine carries, its `TlbInv` among them, nor one open at a cold reset (R71,
Table 13.3). -/
def Eng.freeTxn (g : Eng) : BitVec 12 :=
  BitVec.ofNat 12 (leastFree (g.out.map (·.txn.toNat) ++ g.loads.map (·.txn.toNat) ++ g.stale.map (·.toNat)
    ++ g.tlbTxn.toList.map (·.toNat)))

/-- Requests that the steward port holds tracker credits for at a logical slice, of eleven, as steward engine `e` sees
them (Table 5.2). -/
def State.portHolds (s : State) (e : Nat) (l : BitVec 7) : Nat :=
  (s.stw.relays.filter (fun r => r.req && r.home == l)).length
    + ((s.eng e).out.filter (fun o => lsliceOf (o.addr.extractLsb' 6 46) == l)).length

/-- The engine holds the credits a request for a line spends: an own-slice credit, or a relay credit (Tables 5.1 and
5.2). -/
def State.engCredit (s : State) (e : Nat) (a : LineAddr) : Bool :=
  let g := s.eng e
  if !isSpoke e then decide (s.portHolds e (lsliceOf a) < 11)
  else if s.ownLine e a then decide ((g.out.filter (·.own)).length < 4)
  else decide ((g.out.filter (fun o => !o.own)).length < 2)

/-- The image of `STW_STAT` (Table 12.13). -/
def State.stwStat (s : State) : BitVec 32 :=
  BitVec.ofNat 32 ((if s.stw.running then 1 else 0) + (if s.stw.lsMismatch then 2 else 0) + s.stw.secCnt.toNat * 2 ^ 16)

/-- The outputs of the tandem differ: none leaves any more, and the detection is block-fatal (R250). -/
def State.diverge (s : State) : State :=
  let s := { s with stw := { s.stw with lsMismatch := true, outMain := [], outCheck := [] } }
  s.record { cls := 2, unit := 4, index := 0, code := 0x38, agent := some 452, detail := s.stwStat.setWidth 64 }

/-- The whole microseconds since a request was first tried, as AGE carries them (R63). -/
def State.ageSince (s : State) (since : Nat) : BitVec 8 := BitVec.ofNat 8 (min 255 (s.time - since))

/-- An output that matches leaves the tandem (R250). -/
def State.tandemLeaves (s : State) : TandemOut → State
  | .msg m since =>
    let m := if m.cls = 0 then { m with age := s.ageSince since } else m
    s.modPort 48 fun x => { x with ingress := x.ingress ++ [m] }
  | .push q v n => s.rpqPush q v n

/-- An output of a steward engine is held until the other engine has produced its own, and the two are compared (R250). -/
def State.tandemOut (s : State) (e : Nat) (o : TandemOut) : State :=
  if s.stw.lsMismatch then s
  else
    let s := if e = 132 then s.modStw fun x => { x with outMain := x.outMain ++ [o] }
      else s.modStw fun x => { x with outCheck := x.outCheck ++ [o] }
    match s.stw.outMain, s.stw.outCheck with
    | a :: _, b :: _ =>
      if a.same b then
        (s.modStw fun x => { x with outMain := x.outMain.drop 1, outCheck := x.outCheck.drop 1 }).tandemLeaves a
      else s.diverge
    | _, _ => s

/-- A message leaves an engine, tried since tick `since`: to its own slice, to the steward port relay (R9, R29), or, from
the tandem, to the steward port once both engines have produced it (R250). -/
def State.engSend (s : State) (e : Nat) (m : Msg) (since : Nat := s.time) : State :=
  let m := if m.cls = 0 ∧ isSpoke e = true then { m with age := s.ageSince since } else m
  if 132 ≤ e then s.tandemOut e (.msg m since)
  else if m.dst = 1023 ∧ s.ownLine e m.addr = true then s.modSlice e fun x => { x with local_ := x.local_ ++ [m] }
  else s.modSlice e fun x => { x with stop := { x.stop with
    outbox := x.stop.outbox ++ [{ flitOf m 0 with dkind := 1, dest := 1020 }] } }

/-- Send a request of an engine about the line of address `addr`, first tried at tick `since` (R63); `ent` names its
store-buffer entry. -/
def State.engReq (s : State) (e opc : Nat) (addr : Word) (kind : OutKind) (since : Nat) (f : Msg → Msg) (ent : Nat := 0) :
    State :=
  let a : LineAddr := addr.extractLsb' 6 46
  let t := (s.eng e).freeTxn
  let m := f { mkMsg opc (engAgent e) 1023 with reqid := engAgent e, txn := t, home := lsliceOf a, addr := a }
  let o : OutTxn := { txn := t, kind, addr, own := s.ownLine e a, sentAt := s.time, ent }
  (s.modEng e fun g => { g with out := g.out ++ [o] }).engSend e m since

/-- A pending load reads one of `size` bytes at a physical address (R259). -/
def Eng.loading (g : Eng) (pa : Word) (size : Nat) : Bool :=
  g.loads.any fun l => decide (l.pa.toNat < pa.toNat + size) && decide (pa.toNat < l.pa.toNat + l.size)

/-- A pending load reads a byte that the entry writes: the store is sent after it (R259). -/
def Eng.loadingMask (g : Eng) (b : SbEnt) : Bool :=
  (List.range 64).any fun i => b.mask.getLsbD i && g.loading ((b.addr.setWidth 64 <<< 6) + BitVec.ofNat 64 i) 1

/-- The first entry that can send a message now: none before it is for its line, no timed-out store of the line that
another entry sent is unanswered, and no earlier load of its bytes is pending (R258, R259, R262). -/
def Eng.ready (g : Eng) : List SbEnt → List LineAddr → Option SbEnt
  | [], _ => none
  | b :: rest, seen =>
    if b.sending && !b.unsent.isEmpty && !seen.contains b.addr && !g.loadingMask b
        && !g.out.any (fun o => o.timedOut && o.ent != b.id && o.addr.extractLsb' 6 46 == b.addr) then some b
    else g.ready rest (seen ++ [b.addr])

/-- Byte address of a line. -/
def byteAddr (a : LineAddr) : Word := a.setWidth 64 <<< 6

/-- Replace the first copy of an entry. -/
def sbReplace (b b' : SbEnt) : List SbEnt → List SbEnt
  | [] => []
  | c :: rest => if c = b then b' :: rest else c :: sbReplace b b' rest

/-- Send one store message (R262). -/
def State.sbSendOne (s : State) (e : Nat) : State :=
  match (s.eng e).ready (s.eng e).sb [] with
  | none => s
  | some b =>
    match b.unsent with
    | [] => s
    | (o, l) :: rest =>
      if s.engCredit e b.addr = false then s
      else
        let t := (s.eng e).freeTxn
        let b' := { b with unsent := rest, inflight := b.inflight ++ [t] }
        let s := s.modEng e fun g => { g with sb := sbReplace b b' g.sb }
        let addr := byteAddr b.addr + BitVec.ofNat 64 o
        if l = 64 then s.engReq e 0x04 addr .store b.sendAt (fun m => { m with data := b.data }) b.id
        else s.engReq e 0x05 addr .store b.sendAt (fun m => { m with
          offs := BitVec.ofNat 6 o, len := BitVec.ofNat 7 l, data := mergeBytes 0 b.data o l }) b.id

/-- Send what the engine's credits allow: the walk's read, then stores (R262, R271); nothing while its slice is being
evacuated (R170). -/
def State.pump (s : State) (e : Nat) : State :=
  if s.evacHeld e then s
  else
  let s := match (s.eng e).walk with
    | none => s
    | some k =>
      let addr := k.table + 8 * (((k.va >>> (39 - 9 * k.level)) &&& 0x1FF))
      if k.txn.isSome || s.engCredit e (addr.extractLsb' 6 46) = false then s
      else
        let t := (s.eng e).freeTxn
        (s.modEng e fun g => { g with walk := some { k with txn := some t } }).engReq e 0x03 addr .walk k.since id
  (List.range (((s.eng e).sb.map (fun b => b.unsent.length)).sum)).foldl (fun s _ => s.sbSendOne e) s

/-! Entries and halts (R246 to R249, R288) -/

/-- A source leaves active through an engine; the checker engine's copy of the record does not count (R288). -/
def State.leaveActive (s : State) (e n : Nat) : State := if e = 133 then s else s.endActive n

/-- Push a slot of the entry record; a ninth drops the oldest (R288). -/
def State.pushSlot (s : State) (e : Nat) (v : Option Nat) : State :=
  let l := v :: (s.eng e).slots
  let s := s.modEng e fun g => { g with slots := l.take 8 }
  match l.drop 8 with
  | some n :: _ => s.leaveActive e n
  | _ => s

/-- Empty the record, ending the active state of its sources and of a committed source not yet entered (R288). -/
def State.emptyRecord (s : State) (e : Nat) : State :=
  let g := s.eng e
  let s := g.slots.foldl (fun s v => match v with
    | some n => s.leaveActive e n
    | none => s) s
  let s := match g.irq with
    | some (n, _) => s.leaveActive e n
    | none => s
  s.modEng e fun g => { g with slots := [], irq := none }

/-- The reservation is lost, and the slice's watch with it (R267, Table 13.3). -/
def State.dropRsv (s : State) (e : Nat) : State :=
  let s := s.modEng e fun g => { g with rsvValid := false, rsvRemote := false, rsvLine := 0 }
  if isSpoke e then s.modSlice e fun x => { x with watch := none } else s

/-- Decline every ready program that is not dispatched, its line unchanged (R14). -/
def State.declineReady (s : State) (p : Nat) : State :=
  (s.slice p).far.prog.foldl (fun s t =>
    if (s.slice p).far.run = some t then s
    else match (s.slice p).trk t with
      | none => s
      | some k => ((s.farDecline p t 2).modLine p k.req.addr fun o => { o with serve := none }).settle p k.req.addr) s

/-- Halt an engine (R248). -/
def State.halt (s : State) (e cause : Nat) : State :=
  let s := (s.emptyRecord e).dropRsv e
  let s := s.modEng e fun g => { g.startSend s.time (fun _ => true) with
    state := 3, haltCause := BitVec.ofNat 5 cause, stall := .none, walk := none, loads := [], tryAt := none, pendExc := none }
  let s := if isSpoke e then
      let s := s.modSpare fun x => { x with halts := x.halts.set noNats e ((x.halts.get noNats e) ++ [s.time]) }
      (s.fire (8 * e + 7)).declineReady e
    else s
  s.pump e

/-- Enter supervisor mode at `target` (R246); a bad target is a fetch fault while EIP is set, which halts (R248). -/
def State.enter (s : State) (e cause : Nat) (epc eaddr target : Word) (slot : Option Nat) : State :=
  let s := (s.pushSlot e slot).dropRsv e
  let s := s.modEng e fun g => { g.startSend s.time (fun _ => true) with
    epc, eaddr, ecause := BitVec.ofNat 64 cause, mode := .supervisor, state := 1, tryAt := none
    status := (g.status &&& 0x70) ||| (if g.mode = .user then 1 else 0) ||| (if g.ie then 4 else 0) ||| 8 }
  let s := s.pump e
  if validPc e target then s.modEng e fun g => { g with pc := target } else s.halt e 2

/-- An exception (R246): a halt while EIP is set (R248). One that firmware raises in the background of a program is taken
when the engine returns from far-op mode (R209). -/
def State.exc (s : State) (e cause : Nat) (epc eaddr : Word) : State :=
  if (s.eng e).mode = .farOp then s.modEng e fun g => { g with
    pendExc := match g.pendExc with
      | some x => some x
      | none => some (cause, epc, eaddr) }
  else if (s.eng e).eip then s.halt e cause
  else s.enter e cause epc eaddr ((s.eng e).evbase + BitVec.ofNat 64 (64 * cause)) none

/-- Firmware goes on at an address; a steward engine counts its place in the tandem's stream (R250). -/
def Eng.goto (g : Eng) (e : Nat) (a : Word) : Eng :=
  { g with pc := a, steps := if isSpoke e then g.steps else g.steps + 1 }

/-- Continue firmware at an address (R239). -/
def State.gotoPc (s : State) (e : Nat) (a : Word) : State :=
  if validPc e a then s.modEng e fun g => g.goto e a else s.exc e 2 a a

/-- Firmware continues at its next instruction, also behind a program that runs (R209). -/
def State.fwAdvance (s : State) (e : Nat) : State := s.gotoPc e ((s.eng e).pc + 4)

/-- Continue at the next instruction. -/
def State.advance (s : State) (e : Nat) : State :=
  if (s.eng e).mode = .farOp then s.modEng e fun g => { g with farPc := g.farPc + 4 } else s.fwAdvance e

/-- Write a register of firmware, also behind a program that runs (R209). -/
def Eng.setFwReg (g : Eng) (n : Nat) (v : Word) : Eng :=
  if n = 0 then g else { g with regs := g.regs.set zero64 n v }

/-- Write rd and continue at the next instruction. -/
def State.retire (s : State) (e rd : Nat) (v : Word) : State := (s.modEng e fun g => g.setReg rd v).advance e

/-- The engine stands at an instruction boundary of firmware with nothing in hand. -/
def Eng.atBoundary (g : Eng) : Bool :=
  (g.state == 1 || g.state == 2) && g.stall == .none && g.walk.isNone && g.loads.isEmpty && g.mode != .farOp

/-- The place of the main engine's next entry or end of `WAIT` is one that the checker engine has reached (R250). -/
def State.checkDue (s : State) : Bool :=
  match s.stw.entries with
  | (k, v) :: _ => decide (k ≤ (s.eng 133).steps) && (v.isSome || (s.eng 133).state == 2)
  | [] => false

/-- The checker engine follows the main engine at the same place of the stream: it enters the source that the main engine has
entered, or its `WAIT` ends (R250, R288). DEDUCED (log 77). -/
def State.checkEntry (s : State) : State :=
  if !(s.checkDue && (s.eng 133).atBoundary) then s
  else match s.stw.entries with
    | (_, some (n, h)) :: rest =>
      { s with stw := { s.stw with entries := rest } }.enter 133 0x10 (s.eng 133).pc (BitVec.ofNat 64 n) h (some n)
    | (_, none) :: rest => { s with stw := { s.stw with entries := rest } }.modEng 133 fun g => { g with state := 1 }
    | [] => s

/-- The checker engine is to follow what the main engine did after its present instruction (R250). -/
def State.tellChecker (s : State) (e : Nat) (v : Option (Nat × Word)) : State :=
  if e = 132 then { s with stw := { s.stw with entries := s.stw.entries ++ [((s.eng 132).steps, v)] } } else s

/-- At an instruction boundary a committed source is entered (R246, R288). A load that has not returned may still raise its
exception, so the entry waits for it (log 24). The checker engine enters where the main engine has (R250). -/
def State.boundary (s : State) (e : Nat) : State :=
  let g := s.eng e
  if e = 133 then s.checkEntry
  else match g.irq with
  | none => s
  | some (n, h) =>
    if g.atBoundary && !g.eip && g.ie then
      let s := ((s.modEng e fun g => { g with irq := none }).tellChecker e (some (n, h))).enter e 0x10 g.pc
        (BitVec.ofNat 64 n) h (some n)
      if e = 132 then s.checkEntry else s
    else s

/-- A source is to be entered at this boundary: no further instruction issues before it (R288). -/
def State.entering (s : State) (e : Nat) : Bool :=
  if e = 133 then s.checkDue
  else
    let g := s.eng e
    g.irq.isSome && !g.eip && g.ie && g.mode != .farOp

/-! Issue (R208, R210, R242, R243) -/

/-- The engine issues firmware instructions: running, not stalled, not stopping (R254, log 24). -/
def Eng.issues (g : Eng) : Bool :=
  g.state == 1 && !g.quiesced && !g.quiesceReq && !g.warm && g.stall == .none && g.walk.isNone

/-- The opcodes of Table 12.6. -/
def definedOpc (o : Nat) : Bool :=
  decide (o ≤ 0x0A) || (decide (0x10 ≤ o) && decide (o ≤ 0x18)) || (decide (0x20 ≤ o) && decide (o ≤ 0x34))
    || (decide (0x38 ≤ o) && decide (o ≤ 0x3D)) || o == 0x3F

/-- The registers that an instruction reads or writes (Tables 12.5 and 12.6). -/
def wRegs (w : BitVec 32) : List Nat :=
  let o := (wOpc w).toNat
  if o ≤ 0x0A ∨ o = 0x31 then [wRd w, wR1 w, wR2 w]
  else if o = 0x18 ∨ o = 0x26 ∨ o = 0x3C then [wRd w]
  else if o ≤ 0x30 then [wRd w, wR1 w]
  else if o = 0x3B then [wR1 w, wR2 w]
  else if o = 0x3D then [wR1 w]
  else []

/-- The instruction depends on a load whose data has not returned (R244). -/
def Eng.awaits (g : Eng) (w : BitVec 32) : Bool := g.loads.any fun l => l.rd != 0 && (wRegs w).contains l.rd

/-- An entry was taken, or the engine halted, since it was `g`. -/
def Eng.entered (g' g : Eng) : Bool := g'.state == 3 || (g'.eip && !g.eip)

/-- A run-time check of a program fails (R210). -/
def State.farFail (s : State) (e : Nat) (code : Nat) : State :=
  s.modEng e fun g => { g with farFault := some (BitVec.ofNat 3 code) }

/-- Close the ECLK of a program's instruction: without `FRET` by the end of the 40th, the budget is exceeded (R208,
R210). -/
def State.farBudget (s : State) (e : Nat) : State :=
  let g := s.eng e
  if g.farFault.isSome then s
  else if (g.farDone && decide (g.farUsed ≤ 40)) || decide (g.farUsed < 40) then s
  else s.farFail e 1

/-- A correctable error of a steward engine's memory is mended in place and counted (R251). -/
def State.secCount (s : State) : State := s.modStw fun x => { x with secCnt := satInc16 x.secCnt }

/-- The fetch of the present firmware word: a spoke engine halts on a parity error (R249); a steward engine corrects one
error of a unit in place, and takes FETCH_PARITY for one it cannot correct, its outputs then diverging (R251). The
answer says that the word is good. -/
def State.fetch (s : State) (e : Nat) : State × Bool :=
  let g := s.eng e
  let k := g.pc.toNat / 8
  if isSpoke e then if g.fwBad.contains (g.pc.toNat / 4) then (s.halt e 1, false) else (s, true)
  else if g.fwDead.contains k then ((s.exc e 1 g.pc g.pc).diverge, false)
  else if g.fwBad.contains k then ((s.modEng e fun g => { g with fwBad := g.fwBad.filter (· != k) }).secCount, true)
  else (s, true)

/-- The domain of a spoke engine, that of its slice's logic, is off or its clock gated (Table 19.1, R350). -/
def State.engStopped (s : State) (e : Nat) : Bool := isSpoke e && (s.pwr.domOff e || s.pwr.domGated e)

/-- Issue the instruction word `w` on engine `e`: `opc` is the row's opcode, `zero` the bits its format marks zero,
`far` and `user` say whether far-op and user mode allow it. A word whose opcode Table 12.6 does not define is illegal
(R243); a word with another row's opcode is not this row's. An instruction that depends on a pending load waits, and so
does one whose own exception would come before that of an earlier load (R244, R246, log 24); nothing issues while the
slice is being evacuated (R170), while the engine's domain is off or its clock gated (R350), or before the entry of a
committed source (R288). A word past the end of the program, which
R208 ends with `FRET`, is not allowed in far-op mode (R210; Table 10.6 names no code of its own for it. DESIGN CHOICE, log
93). -/
def State.insn (s : State) (e : Nat) (w : BitVec 32) (opc : Nat) (zero : BitVec 32) (far user : Bool)
    (body : State → State) : State :=
  let g := s.eng e
  let undef := !(definedOpc (wOpc w).toNat)
  if wOpc w ≠ BitVec.ofNat 6 opc ∧ undef = false then s
  else if g.mode = .farOp then
    if g.farFault.isSome || g.farDone then s
    else if undef || !far || (w &&& zero) != 0 || decide (128 * g.farSlot + 4 * g.farLen ≤ g.farPc.toNat) then s.farFail e 2
    else (body (s.modEng e fun g => { g with farUsed := g.farUsed + 1 })).farBudget e
  else if !g.issues || g.awaits w || s.evacHeld e || s.entering e || s.engStopped e then s
  else
    let t := match s.fetch e with
      | (s, false) => s
      | (s, true) =>
        if undef || (w &&& zero) != 0 || (g.mode == EMode.user && !user) || opc == 0x3F then s.exc e 3 g.pc (w.setWidth 64)
        else body s
    if !g.loads.isEmpty && (t.eng e).entered g then s else t.boundary e

/-- Branch or jump to a target: in far-op mode only to a later instruction of the program (R208, R210). -/
def State.jumpTo (s : State) (e : Nat) (target : Word) : State :=
  let g := s.eng e
  if g.mode = .farOp then
    let last := 128 * g.farSlot + 4 * g.farLen
    if g.farPc.toNat < target.toNat ∧ target.toNat < last then
      s.modEng e fun g => { g with farPc := target, farUsed := g.farUsed + 2 }
    else s.farFail e 3
  else s.gotoPc e target

/-! Data accesses (R240, R269 to R273, R296) -/

/-- Where a data access goes. -/
inductive Target where
  | mem (off : Nat)
  | coh (pa : Word) (se : Bool)
  | win (off : Nat)
  | exc (cause : Nat)
  | walk
  deriving DecidableEq, Repr

/-- An entry's page covers an address. -/
def TlbEnt.covers (t : TlbEnt) (va : Word) : Bool := va.toNat / 2 ^ t.size == t.va.toNat / 2 ^ t.size

def Eng.tlbFind (g : Eng) (va : Word) : Option TlbEnt := g.tlb.find? (fun t => t.covers va)

/-- A physical address lies in a side-effect region (Table 13.5). -/
def Eng.inSereg (g : Eng) (pa : Word) : Bool :=
  (List.range 4).any fun n =>
    let base := g.sereg.get zero64 (2 * n)
    let limit := g.sereg.get zero64 (2 * n + 1)
    base.getLsbD 0 && decide (base.toNat / 4096 ≤ pa.toNat / 4096) && decide (pa.toNat / 4096 ≤ limit.toNat / 4096)

/-- The report-queue window (R296). -/
def inWindow (pa : Word) : Bool := decide (0xFFFFFC0000000 ≤ pa.toNat) && decide (pa.toNat < 0xFFFFFC0000200)

/-- The page forbids the access (R270). -/
def TlbEnt.forbids (t : TlbEnt) (store user : Bool) : Bool := (if store then !t.w else !t.r) || (user && !t.u)

/-- Resolve a data access (R240, R269, R270, R296); the lowest cause of Table 12.7 applies. -/
def State.resolve (s : State) (e : Nat) (addr : Word) (size : Nat) (store : Bool) : Target :=
  let g := s.eng e
  let user := g.mode == .user
  if addr.toNat % size ≠ 0 then .exc 5
  else if addr.toNat < dmemSize e then
    if user && !g.status.getLsbD 5 then .exc 6 else .mem addr.toNat
  else if addr.toNat < 0x10000 then .exc 6
  else if user || g.status.getLsbD 4 then
    if addr.extractLsb' 48 16 ≠ 0 then .exc 7
    else match g.tlbFind addr with
      | none => .walk
      | some t =>
        let pa := t.pa + BitVec.ofNat 64 (addr.toNat % 2 ^ t.size)
        if inWindow pa then .exc 6
        else if t.forbids store user then .exc 8
        else .coh pa (t.se || g.inSereg pa)
  else if addr.extractLsb' 52 12 ≠ 0 then .exc 6
  else if inWindow addr then
    if user then .exc 6 else .win (addr.toNat % 512)
  else .coh addr (g.inSereg addr)

/-- Make the page of a translated access most recently used (R240, R271). -/
def Eng.touchTlb (g : Eng) (va : Word) : Eng :=
  if va.toNat < 0x10000 ∨ !(g.mode == EMode.user || g.status.getLsbD 4) ∨ va.extractLsb' 48 16 ≠ 0 then g
  else match g.tlbFind va with
    | none => g
    | some t => { g with tlb := g.tlb.filter (· != t) ++ [t] }

/-- Little-endian bytes of data memory (R4). -/
def Eng.memRead (g : Eng) (off size : Nat) : Word :=
  BitVec.ofNat 64 (leNat ((List.range size).map fun i => g.mem.get zero8 (off + i)))

def Eng.memWrite (g : Eng) (off size : Nat) (v : Word) : Eng :=
  { g with mem := (List.range size).foldl (fun m i => m.set zero8 (off + i) (v.extractLsb' (8 * i) 8)) g.mem }

/-- The newest buffered value of a byte of a line (R264). -/
def Eng.sbByte (g : Eng) (a : LineAddr) (k : Nat) : Option Byte :=
  (g.sb.reverse.find? (fun b => b.addr == a && b.mask.getLsbD k)).map fun b => b.data.extractLsb' (8 * k) 8

/-- What the store buffer has of the bytes a load reads: all of them, some, or none (R264). -/
def Eng.sbLoad (g : Eng) (pa : Word) (size : Nat) : Option (List Byte) × Bool :=
  let bytes := (List.range size).map fun i => g.sbByte (pa.extractLsb' 6 46) (pa.toNat % 64 + i)
  if bytes.all Option.isSome then (some (bytes.filterMap id), true) else (none, bytes.any Option.isSome)

/-! Walks (R271, R272) -/

/-- The prefix of a VA that a pointer read at a level stands for. -/
def vaPrefix (va : Word) (level : Nat) : Nat := (va.toNat % 2 ^ 48) / 2 ^ (39 - 9 * level)

/-- The deepest walk-cache hit (R271 step 1). -/
def Eng.wcFind (g : Eng) (va : Word) : Option WcEnt :=
  ([2, 1, 0].filterMap fun l => g.wc.find? (fun c => c.level == l && c.pfx == vaPrefix va l)).head?

/-- A walk ends without a translation: the instruction raises `cause`, and a prefetch is dropped (R270 to R273). With an
earlier load pending the instruction is only tried again (log 24). -/
def State.walkFail (s : State) (e cause : Nat) (k : PtWalk) : State :=
  let s := s.modEng e fun g => { g with walk := none }
  if k.fillOnly then s.fwAdvance e
  else if (s.eng e).loads ≠ [] then s else s.exc e cause (s.eng e).pc k.va

/-- Take the next step of a walk: its read goes out, unless it would touch the report-queue window or a side-effect
region (R272, R296). -/
def State.walkStep (s : State) (e : Nat) (k : PtWalk) : State :=
  let addr := k.table + 8 * ((k.va >>> (39 - 9 * k.level)) &&& 0x1FF)
  if inWindow addr then s.walkFail e 6 k
  else if (s.eng e).inSereg addr then s.walkFail e 0x0A k
  else (s.modEng e fun g => { g with walk := some { k with txn := none, since := s.time } }).pump e

/-- Start a walk for a VA (R271); one already running is waited for. -/
def State.startWalk (s : State) (e : Nat) (va : Word) (store fillOnly : Bool) : State :=
  if (s.eng e).walk.isSome then s
  else
    let k : PtWalk := match (s.eng e).wcFind va with
      | some c => { va, level := c.level + 1, table := c.ptr, store, fillOnly }
      | none => { va, level := 0, table := (s.eng e).ptbase, store, fillOnly }
    let s := match (s.eng e).wcFind va with
      | some c => s.modEng e fun g => { g with wc := g.wc.filter (· != c) ++ [c] }
      | none => s
    s.walkStep e k

/-! Resets and stops (R241, R254, Table 13.3) -/

/-- Reset an engine: registers and control registers take their reset values; memories stay, and so do the transactions
that await their CRET (R258); then it runs from ENTRY or stays in reset (R241, R253, R254). The slice's copy of the far
store is to be written again (R206). A WRITE that awaits a reset or a stop of the engine is answered (R325). -/
def State.engReset (s : State) (e : Nat) (run : Bool) : State :=
  let s := (s.emptyRecord e).dropRsv e
  let g := s.eng e
  let s := s.modEng e fun _ => { Eng.reset e with
    state := if run then 1 else 0
    out := g.out, stale := g.stale, staleSc := g.staleSc, tlbTxn := g.tlbTxn, sbNext := g.sbNext, fwDead := g.fwDead, memDead := g.memDead
    fwOk := g.fwOk, refused := g.refused, held := g.held, entry := g.entry, pc := if isSpoke e then g.entry else 0x10000
    mem := g.mem, fw := g.fw, fwBad := g.fwBad, memBad := g.memBad, resetAt := s.eclk }
  let s := if isSpoke e then s.modSlice e fun x => { x with far := { x.far with copyDone := false } } else s
  (s.awaitEnd (.warm e) 0 0).awaitEnd (.quiesce e) 0 0

/-- A warm reset takes place once the store buffer is empty and the programs in hand have ended (R14, R254). -/
def State.tryWarm (s : State) (e : Nat) : State :=
  let g := s.eng e
  if g.warm ∧ g.sb = [] ∧ (isSpoke e = false ∨ ((s.slice e).far.run.isNone ∧ (s.slice e).far.prog = [])) then
    (s.modEng e fun g => { g with warm := false }).engReset e true
  else s

/-- Begin a warm reset: the store buffer drains and the reservation is lost (Table 13.3). -/
def State.warmStart (s : State) (e : Nat) : State :=
  let s := (s.dropRsv e).modEng e fun g => { g.startSend s.time (fun _ => true) with
    warm := true, stall := .none, walk := none, loads := [], tryAt := none }
  (s.pump e).tryWarm e

/-- Record a store that completed in error (R257, R258, R261); a halted engine's, or one under a warm reset, is also
recorded as an error of the block (Table 13.3). -/
def State.storeError (s : State) (e : Nat) (addr : Word) (timeout : Bool) : State :=
  let s := s.modEng e fun g => { g with
    serrPending := true, serrTimeout := timeout, serrAddr := addr
    serrErrors := if g.serrErrors = 0xFFFF then 0xFFFF else g.serrErrors + 1 }
  if (s.eng e).state = 3 ∨ (s.eng e).warm = true then s.engErr e 1 0x33 (s.eng e).serr else s

/-- A store message is complete: its entry frees once all its messages are (R262). -/
def State.storeDone (s : State) (e : Nat) (txn : BitVec 12) : State :=
  let s := s.modEng e fun g => { g with sb := (g.sb.map fun b =>
      if b.inflight.contains txn then { b with inflight := b.inflight.filter (· != txn) } else b).filter fun b =>
        !(b.sending && b.unsent.isEmpty && b.inflight.isEmpty) }
  (s.pump e).tryWarm e

/-- Take a message that came for an engine: from its slice, from the stop of its slice or of the steward port, or, for
the checker, from the delayed inputs (R9, R250). -/
def State.engTake (s : State) (e : Nat) (m : Msg) : State :=
  let pull := fun (x : StopSt) => ((x.pull m).map (·.2)).getD x
  if e = 133 then { s with stw := { s.stw with delayed := takeFirst m s.stw.delayed } }
  else if e = 132 then
    { s.modPort 48 fun x => { x with stop := pull x.stop } with stw := { s.stw with delayed := s.stw.delayed ++ [m] } }
  else s.modSlice e fun x =>
    if x.local_.contains m then { x with local_ := takeFirst m x.local_ } else { x with stop := pull x.stop }

/-- A message with CRET returns the credit of its transaction and frees the TXN (R71, R88). -/
def Eng.returned (g : Eng) (m : Msg) : Eng :=
  if m.cret then { g with out := g.out.filter (fun p => p.txn != m.txn) } else g

/-- A completion of a transaction open at a cold reset is discarded on arrival (Table 13.3). -/
def State.staleTake (s : State) (e : Nat) (m : Msg) (go : State → State) : State :=
  if (s.eng e).stale.contains m.txn then
    let s := (s.engTake e m).modEng e fun g =>
      if m.cret then { g with stale := g.stale.filter (· != m.txn), staleSc := g.staleSc.filter (· != m.txn) } else g
    if m.cret && isSpoke e then s.modSlice e fun x => { x with scFailed := x.scFailed.filter (· != m.txn) } else s
  else go s

end Sys2Proof.Machine
end

