-- ==== Sys2Proof/Machine/Events.lean ====
section
/-! DEFINITION. Operations of the event aggregator: captures, windows, sampled enables and commits to engines
(chapter 14). -/

namespace Sys2Proof.Machine

/-- Fields of `IAG_SRC_n` (Table 14.5). -/
def Src.en (x : Src) : Bool := x.cfg.getLsbD 0
def Src.host (x : Src) : Bool := x.cfg.getLsbD 1
def Src.target (x : Src) : Nat := (x.cfg.extractLsb' 2 9).toNat
def Src.group (x : Src) : Nat := (x.cfg.extractLsb' 11 6).toNat
def Src.handler (x : Src) : Nat := (x.cfg.extractLsb' 17 15).toNat

/-- The image of `IAG_SRC_n`. -/
def Src.image (x : Src) : Word :=
  BitVec.ofNat 64 (x.cfg.toNat + (if x.pend then 2 ^ 32 else 0) + (if x.act then 2 ^ 33 else 0))

/-- EN as it stood 3 ECLK before: the value before the oldest change that is younger (R285 step 5). -/
def State.sampledEn (s : State) (n : Nat) : Bool :=
  let x := s.src n
  match ((x.hist.filter (fun h => decide (s.fclk < h.1 + 6))).getLast?) with
  | some (_, before) => before
  | none => x.en

def State.grp (s : State) (g : Nat) : Grp := s.iag.grps.get Grp.dflt g
def State.modGrp (s : State) (g : Nat) (f : Grp → Grp) : State :=
  { s with iag := { s.iag with grps := s.iag.grps.set Grp.dflt g (f (s.grp g)) } }

/-- A capture of an enabled source counts in its group and opens the window (R285 step 1). -/
def State.countIn (s : State) (g : Nat) : State :=
  s.modGrp g fun x => if x.isOpen then { x with caught := x.caught + 1 } else { x with isOpen := true, caught := 1, ticks := 0 }

/-- Capture an event on source `n` (R281, R282, R285 step 1). An active source is committed again only once the window
of its latest capture has closed (R286), so the capture takes its mark of a closed window away (log 78). -/
def State.capture (s : State) (n : Nat) : State :=
  let x := s.src n
  let s := s.modSrc n fun x => { x with pend := true, ready := x.ready && !(x.act && x.en) }
  if x.en then s.countIn x.group else s

/-- A window has expired (R285 step 3). -/
def Grp.expired (x : Grp) : Bool :=
  x.isOpen && (decide (x.count.toNat ≤ x.caught) || decide (x.timeUs.toNat ≤ x.ticks))

/-- Close a window: every pending, enabled source of the group becomes ready (R285 step 4). -/
def State.closeWindow (s : State) (g : Nat) : State :=
  let s := s.modGrp g fun x => { x with isOpen := false, caught := 0, ticks := 0 }
  { s with iag := { s.iag with srcs := s.iag.srcs.map fun e =>
      (e.1, if e.2.pend && e.2.en && e.2.group == g then { e.2 with ready := true } else e.2) } }

/-- The doorbells of the steward engines target only the tandem, 132 (R293). -/
def srcTargetOk (n : Nat) (host : Bool) (target : Nat) : Bool :=
  !(n == 1436 || n == 1437) || (!host && target == 132)

/-- The sources that could be committed to a target: ready, their sampled EN set, not active (R285 step 6). -/
def State.readySrcs (s : State) (host : Bool) (target : Nat) : List Nat :=
  (s.iag.srcs.filter fun e => e.2.ready && s.sampledEn e.1 && !e.2.act && e.2.host == host
    && e.2.target == target && srcTargetOk e.1 host target).map (·.1)

/-- The target number of an engine: both steward engines are 132 (R288). -/
def engTarget (e : Nat) : Nat := if isSpoke e then e else 132

/-- Whether engine `e` can take a source (R288). -/
def State.canTake (s : State) (e : Nat) : Bool :=
  let g := s.eng e
  (g.state == 1 || g.state == 2) && !g.quiesced && !g.quiesceReq && !g.warm && g.mode != .farOp && !g.eip && g.ie && g.irq.isNone

/-- Mark a source committed, counting a delivery after EN was cleared (R281, R287). -/
def State.commitMark (s : State) (n : Nat) : State :=
  let late := !(s.src n).en
  let s := s.modSrc n fun x => { x with pend := false, ready := false, act := true }
  if late then
    { s with iag := { s.iag with
      lateDeliv := if s.iag.lateDeliv = 0xFFFF then 0xFFFF else s.iag.lateDeliv + 1, late := s.iag.late + 1 } }
  else s

/-- Give an engine a committed source; it enters at its next instruction boundary (R288). -/
def State.deliverTo (s : State) (e n : Nat) : State :=
  (s.modEng e fun g => { g with irq := some (n, BitVec.ofNat 64 (4 * (s.src n).handler)) }).boundary e

/-- Commit source `n` to its engine; the checker engine takes it where the main engine has entered it (R250, R288). -/
def State.commitEngine (s : State) (n : Nat) : State :=
  let e := (s.src n).target
  let s := s.commitMark n
  let s := { s with iag := { s.iag with toEngines := s.iag.toEngines + 1 } }.glbEvent 0x02
  s.deliverTo e n

/-- The source that wakes a waiting engine: the lowest ready one it could take apart from IE, unless one is committed to it
already (R289). -/
def State.wakeSrc (s : State) (e : Nat) : Option Nat :=
  let g := s.eng e
  if g.quiesced || g.quiesceReq || g.warm || g.eip || g.mode == .farOp || g.irq.isSome then none
  else (s.readySrcs false e).head?

/-- End `WAIT`: with IE set the source is committed, else the engine goes on (R289); the checker engine's ends where the
main engine's has (R250). -/
def State.wake (s : State) (e : Nat) : State :=
  if e = 133 then s.checkEntry
  else match s.wakeSrc e with
  | none => s
  | some n =>
    if (s.eng e).ie then s.commitEngine n
    else
      let s := (s.modEng e fun g => { g with state := 1 }).tellChecker e none
      if e = 132 then s.checkEntry else s

end Sys2Proof.Machine
end

