-- ==== Sys2Proof/Machine/EngineAlu.lean ====
section
/-! DEFINITION. The meanings of the engines' register instructions, branches and jumps (Table 12.6, R243, R244). -/

namespace Sys2Proof.Machine

/-- The value of a compare. -/
def ofFlag (b : Bool) : Word := if b then 1 else 0

/-- Format A: rd = rs1 op rs2; bits 13:0 are zero. -/
def State.opA (s : State) (e : Nat) (w : BitVec 32) (opc : Nat) (f : Word → Word → Word) : State :=
  s.insn e w opc 0x3FFF true true fun s =>
    s.retire e (wRd w) (f ((s.eng e).reg (wR1 w)) ((s.eng e).reg (wR2 w)))

/-- Format B: rd = rs1 op sx(imm); `zero` are the bits that must be zero. -/
def State.opB (s : State) (e : Nat) (w : BitVec 32) (opc : Nat) (zero : BitVec 32) (f : Word → Word → Word) : State :=
  s.insn e w opc zero true true fun s => s.retire e (wRd w) (f ((s.eng e).reg (wR1 w)) (wImm w))

/-- Format C: a branch to its own address plus 4 × offset. -/
def State.opC (s : State) (e : Nat) (w : BitVec 32) (opc : Nat) (c : Word → Word → Bool) : State :=
  s.insn e w opc 0 true true fun s =>
    let g := s.eng e
    if c (g.reg (wRd w)) (g.reg (wR1 w)) then s.jumpTo e (g.here + 4 * wImm w) else s.advance e

/-- ADD (R244). -/
def execAdd (e : Fin 134) (w : BitVec 32) (s : State) : Out := .next (s.opA e w 0x0 fun a b => a + b)

/-- SUB (R244). -/
def execSub (e : Fin 134) (w : BitVec 32) (s : State) : Out := .next (s.opA e w 0x1 fun a b => a - b)

/-- AND (R244). -/
def execAnd (e : Fin 134) (w : BitVec 32) (s : State) : Out := .next (s.opA e w 0x2 fun a b => a &&& b)

/-- OR (R244). -/
def execOr (e : Fin 134) (w : BitVec 32) (s : State) : Out := .next (s.opA e w 0x3 fun a b => a ||| b)

/-- XOR (R244). -/
def execXor (e : Fin 134) (w : BitVec 32) (s : State) : Out := .next (s.opA e w 0x4 fun a b => a ^^^ b)

/-- SLL (R244). -/
def execSll (e : Fin 134) (w : BitVec 32) (s : State) : Out := .next (s.opA e w 0x5 fun a b => a <<< (b.toNat % 64))

/-- SRL (R244). -/
def execSrl (e : Fin 134) (w : BitVec 32) (s : State) : Out := .next (s.opA e w 0x6 fun a b => a >>> (b.toNat % 64))

/-- SRA (R244). -/
def execSra (e : Fin 134) (w : BitVec 32) (s : State) : Out := .next (s.opA e w 0x7 fun a b => a.sshiftRight (b.toNat % 64))

/-- MUL (R244). -/
def execMul (e : Fin 134) (w : BitVec 32) (s : State) : Out := .next (s.opA e w 0x8 fun a b => a * b)

/-- SLT (R244). -/
def execSlt (e : Fin 134) (w : BitVec 32) (s : State) : Out := .next (s.opA e w 0x9 fun a b => ofFlag (a.slt b))

/-- SLTU (R244). -/
def execSltu (e : Fin 134) (w : BitVec 32) (s : State) : Out := .next (s.opA e w 0xa fun a b => ofFlag (a.ult b))

/-- ADDI (R244). -/
def execAddi (e : Fin 134) (w : BitVec 32) (s : State) : Out := .next (s.opB e w 0x10 0 fun a b => a + b)

/-- ANDI (R244). -/
def execAndi (e : Fin 134) (w : BitVec 32) (s : State) : Out := .next (s.opB e w 0x11 0 fun a b => a &&& b)

/-- ORI (R244). -/
def execOri (e : Fin 134) (w : BitVec 32) (s : State) : Out := .next (s.opB e w 0x12 0 fun a b => a ||| b)

/-- XORI (R244). -/
def execXori (e : Fin 134) (w : BitVec 32) (s : State) : Out := .next (s.opB e w 0x13 0 fun a b => a ^^^ b)

/-- SLTI (R244). -/
def execSlti (e : Fin 134) (w : BitVec 32) (s : State) : Out := .next (s.opB e w 0x17 0 fun a b => ofFlag (a.slt b))

/-- SLLI: the amount is imm[5:0], imm[17:6] is zero (R244). -/
def execSlli (e : Fin 134) (w : BitVec 32) (s : State) : Out := .next (s.opB e w 0x14 0x3FFC0 fun a b => a <<< (b.toNat % 64))

/-- SRLI: the amount is imm[5:0], imm[17:6] is zero (R244). -/
def execSrli (e : Fin 134) (w : BitVec 32) (s : State) : Out := .next (s.opB e w 0x15 0x3FFC0 fun a b => a >>> (b.toNat % 64))

/-- SRAI: the amount is imm[5:0], imm[17:6] is zero (R244). -/
def execSrai (e : Fin 134) (w : BitVec 32) (s : State) : Out := .next (s.opB e w 0x16 0x3FFC0 fun a b => a.sshiftRight (b.toNat % 64))

/-- LUI: rd = sx(imm) × 2¹⁸; rs1 is zero (R244). -/
def execLui (e : Fin 134) (w : BitVec 32) (s : State) : Out := .next (s.opB e w 0x18 0x3C0000 fun _ b => b <<< 18)

/-- BEQ (R244). -/
def execBeq (e : Fin 134) (w : BitVec 32) (s : State) : Out := .next (s.opC e w 0x20 fun a b => a == b)

/-- BNE (R244). -/
def execBne (e : Fin 134) (w : BitVec 32) (s : State) : Out := .next (s.opC e w 0x21 fun a b => a != b)

/-- BLT (R244). -/
def execBlt (e : Fin 134) (w : BitVec 32) (s : State) : Out := .next (s.opC e w 0x22 fun a b => a.slt b)

/-- BGE (R244). -/
def execBge (e : Fin 134) (w : BitVec 32) (s : State) : Out := .next (s.opC e w 0x23 fun a b => !(a.slt b))

/-- BLTU (R244). -/
def execBltu (e : Fin 134) (w : BitVec 32) (s : State) : Out := .next (s.opC e w 0x24 fun a b => a.ult b)

/-- BGEU (R244). -/
def execBgeu (e : Fin 134) (w : BitVec 32) (s : State) : Out := .next (s.opC e w 0x25 fun a b => !(a.ult b))

/-- JAL: rd = address + 4; jump by off (R244). -/
def execJal (e : Fin 134) (w : BitVec 32) (s : State) : Out :=
  .next (s.insn e w 0x26 0 true true fun s =>
    let here := (s.eng e).here
    (s.modEng e fun g => g.setReg (wRd w) (here + 4)).jumpTo e (here + 4 * wOff22 w))

/-- JALR: rd = address + 4; jump to rs1 + sx(imm); in far-op mode a jump to no later instruction of the program (R210,
R244, Table 12.6). -/
def execJalr (e : Fin 134) (w : BitVec 32) (s : State) : Out :=
  .next (s.insn e w 0x27 0 true true fun s =>
    let g := s.eng e
    if g.mode = .farOp then s.farFail e 3
    else (s.modEng e fun g => g.setReg (wRd w) (g.here + 4)).jumpTo e (g.reg (wR1 w) + wImm w))

end Sys2Proof.Machine
end

