-- ==== Sys2Proof/Machine/EngineMem.lean ====
section
/-! DEFINITION. The meanings of the engines' loads, stores, reservations and barriers, and of the answers to them
(chapter 13, R240, R296, R297). -/

namespace Sys2Proof.Machine

/-! Loads -/

/-- An 8-byte unit of data memory has a parity error: a steward engine corrects it in place, and its outputs diverge for
an error it cannot correct (R251); a spoke engine takes DMEM_PARITY and records the error (Table 12.7). The answer says
that the access fails. -/
def State.memParity (s : State) (e off : Nat) : State × Bool :=
  let k := off / 8
  if isSpoke e then
    if (s.eng e).memBad.contains k then (s.engErr e 1 0x32 ((s.engStat e).setWidth 64), true) else (s, false)
  else if (s.eng e).memDead.contains k then (s.diverge, true)
  else if (s.eng e).memBad.contains k then
    ((s.modEng e fun g => { g with memBad := g.memBad.filter (· != k) }).secCount, false)
  else (s, false)

/-- Send the `ReadNc` of a load; without a credit the load has not issued, and AGE counts from now (R63). A prefetch awaits
nothing; the register of any other load is pending until its data returns (R244, R257, R259). -/
def State.loadSend (s : State) (e rd size : Nat) (addr pa : Word) (kind : OutKind) : State :=
  let since := (s.eng e).tryAt.getD s.time
  if (s.eng e).loading pa size then s
  else if s.engCredit e (pa.extractLsb' 6 46) = false then s.modEng e fun g => { g with tryAt := some since }
  else
    let p : PendLoad := { rd, size, addr, pa, txn := (s.eng e).freeTxn, pc := (s.eng e).pc }
    let s := s.engReq e 0x03 pa kind since id
    (s.modEng e fun g => { g with
      tryAt := none, loads := if kind = .prefetch then g.loads else g.loads ++ [p] }).advance e

/-- Start sending the open entries that hold a byte a load of `size` bytes at `pa` needs (R263). -/
def State.startFor (s : State) (e : Nat) (pa : Word) (size : Nat) : State :=
  (s.modEng e fun g => g.startSend s.time fun b => b.addr == pa.extractLsb' 6 46
    && (List.range size).any fun i => b.mask.getLsbD (pa.toNat % 64 + i)).pump e

/-- A load of `size` bytes at `addr`: a prefetch where rd is `g0`, which raises nothing and is dropped where it would touch
a side-effect page or region, or, with SPEC_FILL clear, misses the TLB (R240, R264, R273). -/
def State.load (s : State) (e rd size : Nat) (addr : Word) : State :=
  let g := s.eng e
  let s := s.modEng e fun g => g.touchTlb addr
  match s.resolve e addr size false with
  | .exc c => if rd = 0 then s.advance e else s.exc e c g.pc addr
  | .win _ => if rd = 0 then s.advance e else s.exc e 6 g.pc addr
  | .mem off =>
    match s.memParity e off with
    | (s, true) => if rd = 0 then s.advance e else s.exc e 0x0D g.pc addr
    | (s, false) => s.retire e rd (g.memRead off size)
  | .walk => if rd = 0 ∧ g.specFill = false then s.advance e else s.startWalk e addr false (rd == 0)
  | .coh pa se =>
    if rd = 0 ∧ se = true then s.advance e
    else match g.sbLoad pa size with
      | (some bytes, _) => s.retire e rd (BitVec.ofNat 64 (leNat bytes))
      | (none, true) => s.startFor e pa size
      | (none, false) => s.loadSend e rd size addr pa (if rd = 0 then .prefetch else .load)

/-- A load instruction (Table 12.6). -/
def State.opLoad (s : State) (e : Nat) (w : BitVec 32) (opc size : Nat) : State :=
  s.insn e w opc 0 false true fun s => s.load e (wRd w) size ((s.eng e).reg (wR1 w) + wImm w)

/-- LB (R240). -/
def execLb (e : Fin 134) (w : BitVec 32) (s : State) : Out := .next (s.opLoad e w 0x28 1)
/-- LH (R240). -/
def execLh (e : Fin 134) (w : BitVec 32) (s : State) : Out := .next (s.opLoad e w 0x29 2)
/-- LW (R240). -/
def execLw (e : Fin 134) (w : BitVec 32) (s : State) : Out := .next (s.opLoad e w 0x2A 4)
/-- LD (R240). -/
def execLd (e : Fin 134) (w : BitVec 32) (s : State) : Out := .next (s.opLoad e w 0x2B 8)

/-! Stores -/

/-- Put a store into the store buffer; without a free entry the store has not issued, and the entry opened earliest starts
sending when the store first needs one (R262, R263). -/
def State.sbStore (s : State) (e size : Nat) (pa v : Word) : State :=
  let g := s.eng e
  let a : LineAddr := pa.extractLsb' 6 46
  let o := pa.toNat % 64
  let mask : BitVec 64 := BitVec.ofNat 64 ((2 ^ size - 1) * 2 ^ o)
  let data : LineData := v.setWidth 512 <<< (8 * o)
  let full := fun (g : Eng) => g.startSend s.time (fun b => b.mask == BitVec.allOnes 64)
  if g.sb.any (fun b => b.addr == a && !b.sending) then
    ((s.modEng e fun g => full { g with tryAt := none, sb := g.sb.map fun b =>
      if b.addr = a ∧ b.sending = false then { b with mask := b.mask ||| mask, data := mergeBytes b.data data o size }
      else b }).pump e).advance e
  else if g.sb.length < 8 then
    (s.modEng e fun g => { g with
      sbNext := g.sbNext + 1, tryAt := none
      sb := g.sb ++ [{ id := g.sbNext, since := s.eclk, addr := a, mask, data := mergeBytes 0 data o size }] }).advance e
  else if g.tryAt.isNone then (s.modEng e fun g => { g.startOldest s.time with tryAt := some s.time }).pump e
  else s

/-- A push leaves an engine: the tandem's once both engines have made it (R250). -/
def State.engPush (s : State) (e q : Nat) (val : BitVec 32) (n : Fin 5) : State :=
  if isSpoke e then s.rpqPush q val n else s.tandemOut e (.push q val n)

/-- A store into the report-queue window (Table 15.1, R297). -/
def State.windowStore (s : State) (e size off : Nat) (addr v : Word) : State :=
  let q := off / 16
  if off % 16 = 0 ∧ size = 4 then (s.engPush e q (v.setWidth 32) 4).advance e
  else if off % 16 = 8 ∧ size = 8 then
    let n := (v.extractLsb' 24 2).toNat
    if n = 0 ∨ v.extractLsb' 26 38 ≠ 0 then (s.storeError e addr false).advance e
    else (s.engPush e q ((v.extractLsb' 0 24).setWidth 32 &&& BitVec.ofNat 32 (2 ^ (8 * n) - 1)) (Fin.ofNat 5 n)).advance e
  else s.exc e 6 (s.eng e).pc addr

/-- A store of the low `size` bytes of `v` at `addr` (R240, R262, R296). -/
def State.store (s : State) (e size : Nat) (addr v : Word) : State :=
  let g := s.eng e
  let s := s.modEng e fun g => g.touchTlb addr
  match s.resolve e addr size true with
  | .exc c => s.exc e c g.pc addr
  | .win off => s.windowStore e size off addr v
  | .mem off => (s.modEng e fun g => g.memWrite off size v).advance e
  | .walk => s.startWalk e addr true false
  | .coh pa _ => s.sbStore e size pa v

/-- A store instruction: format S (Table 12.6). -/
def State.opStore (s : State) (e : Nat) (w : BitVec 32) (opc size : Nat) : State :=
  s.insn e w opc 0 false true fun s =>
    s.store e size ((s.eng e).reg (wR1 w) + wImm w) ((s.eng e).reg (wRd w))

/-- SB (R262). -/
def execSb (e : Fin 134) (w : BitVec 32) (s : State) : Out := .next (s.opStore e w 0x2C 1)
/-- SH (R262). -/
def execSh (e : Fin 134) (w : BitVec 32) (s : State) : Out := .next (s.opStore e w 0x2D 2)
/-- SW (R262, R296). -/
def execSw (e : Fin 134) (w : BitVec 32) (s : State) : Out := .next (s.opStore e w 0x2E 4)
/-- SD (R262, R296). -/
def execSd (e : Fin 134) (w : BitVec 32) (s : State) : Out := .next (s.opStore e w 0x2F 8)

/-! Reservations (R266 to R268) -/

/-- Place a reservation, replacing any earlier one, which breaks the slice's watch (R266, R267). -/
def State.placeRsv (s : State) (e : Nat) (a : LineAddr) (remote : Bool) : State :=
  (s.dropRsv e).modEng e fun g => { g with rsvValid := true, rsvRemote := remote, rsvLine := a }

/-- LR (R266): it reads the line from its home, so it waits for the buffered stores of the bytes it reads, which start to
send for it by R263 where the buffer has only some of those bytes (log 24). -/
def execLr (e : Fin 134) (w : BitVec 32) (s : State) : Out :=
  .next (s.insn e w 0x30 0x3FFFF false true fun s =>
    let g := s.eng e
    let addr := g.reg (wR1 w)
    let s := s.modEng e fun g => g.touchTlb addr
    match s.resolve e addr 8 false with
    | .exc c => s.exc e c g.pc addr
    | .win _ => s.exc e 6 g.pc addr
    | .mem off =>
      match s.memParity e off with
      | (s, true) => s.exc e 0x0D g.pc addr
      | (s, false) => (s.placeRsv e (addr.extractLsb' 6 46) true).retire e (wRd w) (g.memRead off 8)
    | .walk => s.startWalk e addr false false
    | .coh pa _ =>
      let a : LineAddr := pa.extractLsb' 6 46
      match g.sbLoad pa 8 with
      | (some _, _) => s.pump e
      | (none, true) => s.startFor e pa 8
      | (none, false) =>
        if g.loading pa 8 = true ∨ s.engCredit e a = false then s.loadSend e (wRd w) 8 addr pa .lr
        else (s.placeRsv e a (!(s.ownLine e a))).loadSend e (wRd w) 8 addr pa .lr)

/-- An `SC` ends, also behind a program that runs: rd says whether it failed, and the reservation and the watch are cleared
(R209, R268). -/
def State.scEnd (s : State) (e rd : Nat) (failed : Bool) : State :=
  ((s.dropRsv e).modEng e fun g => g.setFwReg rd (if failed then 1 else 0)).fwAdvance e

/-- SC (R268): the slice serves it as an 8-byte write that checks the watch. It fails at once where the reservation is
remote or absent, and to a line of another slice, which no local reservation can name. -/
def execSc (e : Fin 134) (w : BitVec 32) (s : State) : Out :=
  .next (s.insn e w 0x31 0x3FFF false true fun s =>
    let g := s.eng e
    let addr := g.reg (wR1 w)
    let s := s.modEng e fun g => g.touchTlb addr
    match s.resolve e addr 8 true with
    | .exc c => s.exc e c g.pc addr
    | .win _ => s.exc e 6 g.pc addr
    | .mem _ => s.scEnd e (wRd w) true
    | .walk => s.startWalk e addr true false
    | .coh pa _ =>
      let a : LineAddr := pa.extractLsb' 6 46
      let o := pa.toNat % 64
      let since := g.tryAt.getD s.time
      if g.sb.any (fun b => b.addr == a) then (s.modEng e fun g => g.startSend s.time (fun b => b.addr == a)).pump e
      else if g.loading pa 8 then s
      else if g.rsvValid = false ∨ g.rsvRemote = true ∨ s.ownLine e a = false then s.scEnd e (wRd w) true
      else if s.engCredit e a = false then s.modEng e fun g => { g with tryAt := some since }
      else
        let t := g.freeTxn
        let s := s.engReq e 0x05 pa .sc since fun m => { m with
          offs := BitVec.ofNat 6 o, len := 8, data := (g.reg (wR2 w)).setWidth 512 <<< (8 * o) }
        s.modEng e fun g => { g with stall := .sc (wRd w) t, tryAt := none })

/-! Barriers (R260, R261) -/

/-- The end of `SBAR` and `FBAR`: a pending store error is taken as STORE_ABORT before the next instruction (R246,
R261, Table 12.7). -/
def State.storeBarrierEnd (s : State) (e : Nat) : State :=
  let g := s.eng e
  if g.serrPending then
    (s.modEng e fun g => { g with serrPending := false }).exc e 0x0E (g.pc + 4) g.pc
  else s.advance e

/-- Every earlier load is performed: its data has returned (R257). -/
def Eng.loadsDone (g : Eng) : Bool := g.loads.isEmpty && g.out.all (fun o => o.kind != .prefetch || o.got)

/-- A push of a steward engine that has not left the tandem, and so is not yet accepted or discarded (R250, R297). -/
def State.pushWaits (s : State) (e : Nat) : Bool :=
  let isPush : TandemOut → Bool := fun o => match o with
    | .push _ _ _ => true
    | .msg _ _ => false
  (e == 132 && s.stw.outMain.any isPush) || (e == 133 && s.stw.outCheck.any isPush)

/-- Start sending every entry; the barrier stays until the buffer is empty (R263). -/
def State.drain (s : State) (e : Nat) : State := (s.modEng e fun g => g.startSend s.time (fun _ => true)).pump e

/-- LBAR (R260). -/
def execLbar (e : Fin 134) (w : BitVec 32) (s : State) : Out :=
  .next (s.insn e w 0x32 0x3FFFFFF false true fun s => if (s.eng e).loadsDone then s.advance e else s)

/-- SBAR (R260, R261, R297). -/
def execSbar (e : Fin 134) (w : BitVec 32) (s : State) : Out :=
  .next (s.insn e w 0x33 0x3FFFFFF false true fun s =>
    if (s.eng e).sb ≠ [] then s.drain e
    else if s.pushWaits e then s else s.storeBarrierEnd e)

/-- FBAR (R260, R261, R297). -/
def execFbar (e : Fin 134) (w : BitVec 32) (s : State) : Out :=
  .next (s.insn e w 0x34 0x3FFFFFF false true fun s =>
    if (s.eng e).sb ≠ [] then s.drain e
    else if (s.eng e).loadsDone && !(s.pushWaits e) then s.storeBarrierEnd e else s)

/-- TLBI: it waits as `SBAR` does, then sends `TlbInv` on the engine's one TLB credit and stalls for `TlbInvDone` (R74,
R83, R274). -/
def execTlbi (e : Fin 134) (w : BitVec 32) (s : State) : Out :=
  .next (s.insn e w 0x3B 0x3C03FFF false false fun s =>
    let g := s.eng e
    if g.sb ≠ [] then s.drain e
    else if s.pushWaits e || g.tlbTxn.isSome then s
    else
      let va := g.reg (wR1 w)
      let r2 := g.reg (wR2 w)
      let x := (r2.extractLsb' 0 6).toNat
      let size := if x < 12 then 12 else if 48 < x then 48 else x
      let all := r2.getLsbD 8
      let data : LineData := (va.setWidth 512 <<< 64) ||| (BitVec.ofNat 512 size <<< 128)
        ||| (if all then BitVec.ofNat 512 1 <<< 136 else 0)
      let t := g.freeTxn
      (s.modEng e fun g => { g with stall := .tlbi t, tlbTxn := some t }).engSend e
        { mkMsg 0x18 (engAgent e) 1020 with txn := t, data })

/-! Answers -/

/-- STORE_BUFFER_SEND: an open entry of the line starts sending once 64 ECLK have passed since its first store, and messages
leave as credits allow (R262, R263). -/
def execStoreBufferSend (e : Fin 134) (a : LineAddr) (s : State) : Out :=
  .next ((s.modEng e fun g => g.startSend s.time (fun b => b.addr == a && decide (b.since + 64 ≤ s.eclk))).pump e)

/-- Eight-byte groups of a line that an access touches carry poison. -/
def poisonedAt (m : Msg) (o size : Nat) : Bool :=
  (List.range size).any fun i => m.poison.getLsbD ((o + i) / 8)

/-- The data of a pending load has come, or an answer that makes it raise `fault` (Table 12.7): the register is written, or
the cause is noted. -/
def Eng.loadData (g : Eng) (m : Msg) (p : PendLoad) : Eng :=
  let k := p.pa.toNat % 64
  let fault := if m.opc = 0x31 then some 0x0B else if poisonedAt m k p.size then some 0x0C else none
  match fault with
  | some _ => { g with loads := g.loads.map fun q => if q.txn = p.txn then { q with fault } else q }
  | none => { g with loads := g.loads.filter fun q => q.txn != p.txn }.setFwReg p.rd
      (BitVec.ofNat 64 (lineBytes m.data k p.size))

/-- The exception of the oldest pending load is taken; the loads after it are given up, to be issued again (R246). -/
def State.loadFault (s : State) (e : Nat) : State :=
  match (s.eng e).loads with
  | p :: _ =>
    match p.fault with
    | some c => (s.modEng e fun g => { g with loads := [], stall := .none, walk := none }).exc e c p.pc p.addr
    | none => s
  | [] => s

/-- An answer to a load or a prefetch has reached the engine: its data or its error, and with CRET its credit (R71, R88,
R257). -/
def Eng.loadAnswer (g : Eng) (m : Msg) : Eng :=
  let reads := fun (o : OutTxn) => o.txn == m.txn && (o.kind == .load || o.kind == .lr || o.kind == .prefetch)
  let g' := match g.loads.find? (fun p => p.txn == m.txn) with
    | some p => if m.opc = 0x2F then g else g.loadData m p
    | none => { g with out := g.out.map fun o => if reads o then { o with got := true } else o }
  if g.out.any reads then g'.returned m else g'

/-- ENGINE_LOAD_RETURN: data ends a load or a prefetch, also behind a program that runs; CRET, which a forwarded answer
does not carry, returns the credit and frees the TXN (R71, R88, R209, R257). -/
def execEngineLoadReturn (e : Fin 134) (m : Msg) (s : State) : Out :=
  .next (s.staleTake e m fun s =>
    let s := (s.engTake e m).modEng e fun g => g.loadAnswer m
    ((s.loadFault e).pump e).boundary e)

/-- An answer ends a store: with CRET its TXN and credit are free, else they wait for the CRET (R71, R88). -/
def Eng.storeAnswer (g : Eng) (m : Msg) : Eng :=
  { g with
    out := if m.cret then g.out.filter (fun p => p.txn != m.txn)
      else g.out.map fun p => if p.txn = m.txn then { p with got := true } else p }

/-- ENGINE_STORE_COMPLETE (R71, R88, R209, R257, R258, R262, R268). -/
def execEngineStoreComplete (e : Fin 134) (m : Msg) (s : State) : Out :=
  .next (s.staleTake e m fun s =>
    let g := s.eng e
    match g.out.find? (fun o => o.txn == m.txn && (o.kind == .store || o.kind == .sc)) with
    | none => s.engTake e m
    | some o =>
      if o.got then (((s.engTake e m).modEng e fun g => g.storeAnswer m).pump e).tryWarm e
      else
      let failed := m.opc == 0x31 || (s.slice e).scFailed.contains m.txn
      let s := (s.engTake e m).modEng e fun g => g.storeAnswer m
      let s := if o.kind = .sc then s.modSlice e fun x => { x with scFailed := x.scFailed.filter (· != m.txn) } else s
      if o.timedOut then
        ((s.modEng e fun g => { g with serrLate := satInc16 g.serrLate }).pump e).tryWarm e
      else
        let s := if m.opc = 0x31 then s.storeError e o.addr false else s
        match g.stall with
        | .sc rd t =>
          if t = m.txn then ((s.modEng e fun g => { g with stall := .none }).scEnd e rd failed).boundary e
          else s.storeDone e m.txn
        | _ => s.storeDone e m.txn)

/-- STORE_TIMEOUT: no completion within `ENG_CR_STORE_TO` µs; the TXN and the credit stay reserved (R209, R257, R258). -/
def execStoreTimeout (e : Fin 134) (txn : BitVec 12) (s : State) : Out :=
  .next (let g := s.eng e
    match g.out.find? (fun o => o.txn == txn && (o.kind == .store || o.kind == .sc) && !o.timedOut && !o.got) with
    | none => s
    | some o =>
      if s.time - o.sentAt < g.storeTo.toNat then s
      else
        let s := (s.modEng e fun g => { g with
          out := g.out.map fun p => if p.txn = txn then { p with timedOut := true } else p }).storeError e o.addr true
        match g.stall with
        | .sc rd t =>
          if t = txn then ((s.modEng e fun g => { g with stall := .none }).scEnd e rd true).boundary e
          else s.storeDone e txn
        | _ => s.storeDone e txn)

/-- The faults of a page-table entry at a level (R270). -/
def pteFault (v : Word) (level : Nat) : Bool :=
  let leaf := v.getLsbD 1
  let size := (v.extractLsb' 6 6).toNat
  let slot := 39 - 9 * level
  !v.getLsbD 0 || v.extractLsb' 52 12 != 0
    || (!leaf && (decide (3 ≤ level) || v.extractLsb' 2 10 != 0))
    || (leaf && (decide (size < slot) || decide (slot + 9 < size) || decide (((v.extractLsb' 12 40).toNat * 4096) % 2 ^ size ≠ 0)))

/-- Page or table base of an entry. -/
def ptePa (v : Word) : Word := (v.extractLsb' 12 40).setWidth 64 <<< 12

/-- Install a page in the 48-entry TLB, least recently used out (R271 step 4). -/
def Eng.fillTlb (g : Eng) (va v : Word) : Eng :=
  let size := (v.extractLsb' 6 6).toNat
  let t : TlbEnt := { va := BitVec.ofNat 64 (va.toNat / 2 ^ size * 2 ^ size), size, pa := ptePa v
                      r := v.getLsbD 2, w := v.getLsbD 3, u := v.getLsbD 4, se := v.getLsbD 5 }
  let l := g.tlb.filter (fun x => !(x.size == t.size && x.va == t.va)) ++ [t]
  { g with tlb := l.drop (l.length - 48) }

/-- Install a pointer in the 16-entry walk cache, least recently used out (R271 step 3). -/
def Eng.fillWc (g : Eng) (va v : Word) (level : Nat) : Eng :=
  let c : WcEnt := { level, pfx := vaPrefix va level, ptr := ptePa v }
  let l := g.wc.filter (fun x => !(x.level == level && x.pfx == c.pfx)) ++ [c]
  { g with wc := l.drop (l.length - 16) }

/-- The entry that a walk's read returned: a fault, the translation, or the next level's read (R270 to R272). With the last
read done the instruction is issued again. -/
def State.walkData (s : State) (e : Nat) (m : Msg) (k : PtWalk) : State :=
  let off := (k.table + 8 * ((k.va >>> (39 - 9 * k.level)) &&& 0x1FF)).toNat % 64
  let v : Word := BitVec.ofNat 64 (lineBytes m.data off 8)
  if k.again then (s.modEng e fun g => { g with walk := none }).startWalk e k.va k.store k.fillOnly
  else if m.opc = 0x31 ∨ poisonedAt m off 8 = true then s.walkFail e 9 k
  else if pteFault v k.level then s.walkFail e 7 k
  else if v.getLsbD 1 then (s.modEng e fun g => { g.fillTlb k.va v with walk := none }).pump e
  else (s.modEng e fun g => g.fillWc k.va v k.level).walkStep e
    { k with level := k.level + 1, table := ptePa v, txn := none }

/-- WALK_READ_RETURN (R71, R209, R270 to R272, R275). -/
def execWalkReadReturn (e : Fin 134) (m : Msg) (s : State) : Out :=
  .next (s.staleTake e m fun s =>
    let s := (s.engTake e m).modEng e fun g =>
      if g.out.any (fun o => o.txn == m.txn && o.kind == .walk) then g.returned m else g
    (match (s.eng e).walk with
      | some k => if k.txn = some m.txn ∧ m.opc ≠ 0x2F then s.walkData e m k else s.pump e
      | none => s.pump e).boundary e)

/-- `TlbInvDone` returns the TLB credit (Table 5.1). -/
def Eng.tlbReturned (g : Eng) (m : Msg) : Eng := { g with tlbTxn := if g.tlbTxn = some m.txn then none else g.tlbTxn }

/-- TLBI_DONE: `TlbInvDone` returns the credit, also after a reset of the engine, and ends `TLBI`, also behind a program that
runs (R83, R209, R274). -/
def execTlbiDone (e : Fin 134) (m : Msg) (s : State) : Out :=
  .next (
    let s := (s.engTake e m).modEng e fun g => g.tlbReturned m
    match (s.eng e).stall with
    | .tlbi t =>
      if t = m.txn then ((s.modEng e fun g => { g with stall := .none }).fwAdvance e).boundary e else s
    | _ => s)

end Sys2Proof.Machine
end

