-- ==== Sys2Proof/Machine/EngineSys.lean ====
section
/-! DEFINITION. The meanings of the engines' system instructions and control registers (R242, R246, R247, R277, R289,
R312). -/

namespace Sys2Proof.Machine

/-- WAIT: it ends at once if a source it could take is ready (R289). -/
def execWait (e : Fin 134) (w : BitVec 32) (s : State) : Out :=
  .next (s.insn e w 0x38 0x3FFFFFF false false fun s =>
    let s := s.advance e
    if (s.eng e).state = 1 then (s.modEng e fun g => { g with state := 2 }).wake e else s)

/-- IRET (R247): the top slot of the entry record is popped, and its source leaves active (R288). -/
def execIret (e : Fin 134) (w : BitVec 32) (s : State) : Out :=
  .next (s.insn e w 0x39 0x3FFFFFF false false fun s =>
    let g := s.eng e
    let s := match g.slots with
      | some n :: _ => s.leaveActive e n
      | _ => s
    let s := s.modEng e fun g => { g with
      slots := g.slots.drop 1
      mode := if g.status.getLsbD 0 then .user else .supervisor
      status := (g.status &&& 0x75) ||| (if g.status.getLsbD 2 then 2 else 0) }
    s.gotoPc e g.epc)

/-- SYSCALL (R246, Table 12.7). -/
def execSyscall (e : Fin 134) (w : BitVec 32) (s : State) : Out :=
  .next (s.insn e w 0x3A 0x3FC0000 false true fun s =>
    s.exc e 4 ((s.eng e).pc + 4) ((w.extractLsb' 0 18).setWidth 64))

/-- Read control register `n`; none where no table lists it (Tables 12.3, 13.5 and 16.2). -/
def State.csrRead (s : State) (e n : Nat) : Option Word :=
  let g := s.eng e
  let counter := fun (c : Nat) => ((s.pmc.cnt.get zero48 c).setWidth 64 : Word)
  if 0x110 ≤ n ∧ n ≤ 0x117 then some (g.sereg.get zero64 (n - 0x110))
  else if 0x210 ≤ n ∧ n ≤ 0x217 then some (if isSpoke e then counter (8 * e + (n - 0x210)) else 0)
  else match n with
    | 0x000 => some (g.status.setWidth 64)
    | 0x001 => some g.epc
    | 0x002 => some g.ecause
    | 0x003 => some g.eaddr
    | 0x004 => some g.evbase
    | 0x005 => some g.scratch
    | 0x006 => some (BitVec.ofNat 64 e)
    | 0x007 => some (BitVec.ofNat 64 (s.eclk - g.resetAt))
    | 0x008 => some (BitVec.ofNat 64 s.time)
    | 0x100 => some g.ptbase
    | 0x101 => some (if g.specFill then 1 else 0)
    | 0x102 => some (g.storeTo.setWidth 64)
    | 0x103 => some g.rsv
    | 0x104 => some g.serr
    | 0x105 => some g.serrAddr
    | 0x200 => some (g.pmcIdx.setWidth 64)
    | 0x201 => some (if g.pmcIdx.toNat < 1584 then counter g.pmcIdx.toNat else 0)
    | 0x202 => some (if g.pmcIdx.toNat < 1584 then (s.pmc.shadow.get zero48 g.pmcIdx.toNat).setWidth 64 else 0)
    | _ => none

/-- Control registers user mode may read while UCTR is set (R312). -/
def userCsr (n : Nat) : Bool := n == 0x201 || n == 0x202 || (decide (0x210 ≤ n) && decide (n ≤ 0x217))

/-- CSRR (R242, R312). -/
def execCsrr (e : Fin 134) (w : BitVec 32) (s : State) : Out :=
  .next (s.insn e w 0x3C 0x3FF000 false true fun s =>
    let g := s.eng e
    let n := (w.extractLsb' 0 12).toNat
    let ok := g.mode != .user || (userCsr n && g.status.getLsbD 6)
    match s.csrRead e n with
    | some v => if ok then s.retire e (wRd w) v else s.exc e 3 g.pc (w.setWidth 64)
    | none => s.exc e 3 g.pc (w.setWidth 64))

/-- Write control register `n`; none for a register that is not listed or is read-only (Tables 12.3, 13.5 and 16.2). -/
def Eng.csrWrite (g : Eng) (n : Nat) (v : Word) : Option Eng :=
  if 0x110 ≤ n ∧ n ≤ 0x117 then
    let mask : Word := if n % 2 = 0 then 0x000FFFFFFFFFF001 else 0x000FFFFFFFFFF000
    some { g with sereg := g.sereg.set zero64 (n - 0x110) (v &&& mask) }
  else match n with
    | 0x000 => some { g with status := v.setWidth 7 }
    | 0x001 => some { g with epc := v }
    | 0x002 => some { g with ecause := v }
    | 0x003 => some { g with eaddr := v }
    | 0x004 => some { g with evbase := v &&& 0xFFFFFFFFFFFFFC00 }
    | 0x005 => some { g with scratch := v }
    | 0x100 => some { g with ptbase := v &&& 0x000FFFFFFFFFF000 }
    | 0x101 => some { g with specFill := v.getLsbD 0 }
    | 0x102 => some { g with storeTo := if v.extractLsb' 0 12 = 0 then g.storeTo else v.extractLsb' 0 12 }
    | 0x200 => some { g with pmcIdx := v.setWidth 11 }
    | _ => none

/-- The reserved bits of a control register that can be written (R6, Tables 12.4, 13.5 and 16.2). -/
def csrRsvd (n : Nat) : Word :=
  if 0x110 ≤ n ∧ n ≤ 0x117 then (if n % 2 = 0 then 0xFFF0000000000FFE else 0xFFF0000000000FFF)
  else match n with
    | 0x000 => 0xFFFFFFFFFFFFFF80
    | 0x100 => 0xFFF0000000000FFF
    | 0x101 => 0xFFFFFFFFFFFFFFFE
    | 0x102 => 0xFFFFFFFFFFFFF000
    | 0x200 => 0xFFFFFFFFFFFFF800
    | _ => 0

/-- CSRW (R6, R242, R277); of the tandem the main engine's write counts. -/
def execCsrw (e : Fin 134) (w : BitVec 32) (s : State) : Out :=
  .next (s.insn e w 0x3D 0x3C00000 false false fun s =>
    let g := s.eng e
    match g.csrWrite (w.extractLsb' 0 12).toNat (g.reg (wR1 w)) with
    | some g' =>
      let bad := e.val != 133 && (g.reg (wR1 w) &&& csrRsvd (w.extractLsb' 0 12).toNat) != 0
      ((s.noteRsvd bad).modEng e fun _ => g').advance e
    | none => s.exc e 3 g.pc (w.setWidth 64))

/-- FRET: the program ends with a status, and its slice starts write-back (R207, R210). -/
def execFret (e : Fin 134) (w : BitVec 32) (s : State) : Out :=
  .next (s.insn e w 0x3F 0x3FFFF00 true false fun s =>
    (s.modEng e fun g => { g with farDone := true }).modSlice e fun x =>
      { x with far := { x.far with ended := some (true, w.extractLsb' 0 8) } })

end Sys2Proof.Machine
end

