-- ==== Sys2Proof/Machine/EngineCtl.lean ====
section
/-! DEFINITION. The meanings of dispatch and write-back of programs, the far-program loader, and the control of engines
and their firmware (R206 to R211, R249 to R254). -/

namespace Sys2Proof.Machine

/-! Programs (R207 to R210) -/

/-- Register image of `FAR_STAT` (Table 10.9): the atomic ALU is busy while an operation is ready for it. -/
def State.farStat (s : State) (p : Nat) : BitVec 32 :=
  let f := (s.slice p).far
  BitVec.ofNat 32 (f.queue.length + (if f.run.isSome then 32 else 0) + (if f.alu.isEmpty then 0 else 64)
    + f.faultSlot.toNat * 2 ^ 8 + (if f.faultValid then f.faultCode.toNat * 2 ^ 16 else 0) + (if f.faultValid then 2 ^ 19 else 0)
    + ((s.slice p).cnt.get zeroNat (Cnt.ctorIdx .progFault)) * 2 ^ 24)

/-- Double word `j` of a line (R4). -/
def lineWord (d : LineData) (j : Nat) : Word := d.extractLsb' (64 * j) 64

/-- FAR_PROGRAM_DISPATCH (R207, R209, R231): the engine leaves firmware at an instruction boundary; what firmware has issued
completes in the background. -/
def execFarProgramDispatch (p : Fin 132) (s : State) : Out :=
  .next (match (s.slice p).far.run, (s.slice p).far.prog with
    | none, t :: rest =>
      match (s.slice p).trk t with
      | none => s.farLeave p t
      | some k =>
        if s.engineServes p = false ∨ (s.eng p).mode = .farOp then s
        else
          let q := k.pin.getD 0
          match s.farOperand p t q k.req with
          | (s, false) => s
          | (s, true) =>
          let d := ((s.slice p).hlc.line q).data
          let slot := k.req.aux.toNat
          let bank : NMap Word := ((List.range 8).map fun j => (8 + j, lineWord d j)).foldl
            (fun (m : NMap Word) e => m.set zero64 e.1 e.2)
            ((NMap.set zero64 (NMap.set zero64 (NMap.set zero64 [] 1 (lineWord k.req.data 0)) 2 (lineWord k.req.data 1)) 3
              (k.req.reqid.setWidth 64)))
          let s := s.modSlice p fun x => { x with far := { x.far with run := some t, prog := rest, ended := none } }
          s.modEng p fun g => { g with
            mode := .farOp, fwMode := g.mode, bank, lnWritten := false, farPc := BitVec.ofNat 64 (128 * slot)
            farUsed := 0, farFault := none, farDone := false, farSlot := slot
            farLen := (s.loader.master.get noProg slot).length }
    | _, _ => s)

/-- FAR_PROGRAM_FAULT (R210): codes 1 to 3 are the failed run-time checks of the running program, code 4 a parity
error of the word it fetches. -/
def execFarProgramFault (p : Fin 132) (code : BitVec 3) (s : State) : Out :=
  .next (match (s.slice p).far.run with
    | none => s
    | some _ =>
      let g := s.eng p
      if (s.slice p).far.ended.isSome ∨ !(g.farFault = some code ∨ (code = 4 ∧ g.farFault = none)) then s
      else
        let s := s.count p .progFault
        let s := s.modSlice p fun x => { x with far := { x.far with
          ended := some (false, code.setWidth 8)
          slotBad := x.far.slotBad.filter (· != g.farSlot) ++ [g.farSlot]
          faultSlot := if x.far.faultValid then x.far.faultSlot else BitVec.ofNat 8 g.farSlot
          faultCode := if x.far.faultValid then x.far.faultCode else code
          faultValid := true } }
        let s := s.modEng p fun g => { g with farFault := some code }
        (s.sliceErr p 0 0x31 none none ((s.farStat p).setWidth 64)).fireSlice p 3)

/-- The line a program leaves in `ln0` to `ln7`. -/
def Eng.lnLine (g : Eng) : LineData :=
  (List.range 8).foldl (fun d j => d ||| ((g.bank.get zero64 (8 + j)).setWidth 512 <<< (64 * j))) 0

/-- Return the engine from far-op mode, to an exception that came up in the background, if there is one (R209). -/
def State.farReturn (s : State) (p : Nat) : State :=
  let s := s.modEng p fun g => { g with
    mode := g.fwMode, bank := [], lnWritten := false, farUsed := 0, farFault := none, farDone := false }
  let s := s.modSlice p fun x => { x with far := { x.far with run := none, ended := none } }
  let s := match (s.eng p).pendExc with
    | some (c, epc, ea) => (s.modEng p fun g => { g with pendExc := none }).exc p c epc ea
    | none => s
  let s := (s.boundary p).tryWarm p
  if (s.eng p).state = 2 then s.wake p else s

/-- FAR_WRITEBACK_DONE (R207, R210, R212). -/
def execFarWritebackDone (p : Fin 132) (s : State) : Out :=
  .next (match (s.slice p).far.run, (s.slice p).far.ended with
    | some t, some (true, status) =>
      let g := s.eng p
      let s := s.count p .program
      let s := if g.lnWritten then
          match (s.slice p).trk t with
          | some k => s.farWrite p (k.pin.getD 0) k.req.addr g.lnLine
          | none => s
        else s
      (s.farFinish p t 0 status ((g.bank.get zero64 1).setWidth 512 ||| ((g.bank.get zero64 2).setWidth 512 <<< 64))).farReturn p
    | some t, some (false, code) => (s.farFinish p t 8 code 0).farReturn p
    | _, _ => s)

/-- SLOT_RECOPY: the slot is copied again from the master store and valid again (R210). -/
def execSlotRecopy (p : Fin 132) (k : Fin 256) (s : State) : Out :=
  .next (s.modSlice p fun x => { x with far := { x.far with
    slotBad := x.far.slotBad.filter (· != k.val)
    store := putSlot x.far.store k (s.loader.master.get noProg k) } })

/-! The far-program loader (R208, R211) -/

/-- The bits an instruction allowed in far-op mode must have zero, none for one not allowed (Table 12.6). -/
def farZero (opc : Nat) : Option (BitVec 32) :=
  if opc ≤ 0x0A then some 0x3FFF
  else if 0x10 ≤ opc ∧ opc ≤ 0x13 then some 0
  else if 0x14 ≤ opc ∧ opc ≤ 0x16 then some 0x3FFC0
  else if opc = 0x17 then some 0
  else if opc = 0x18 then some 0x3C0000
  else if 0x20 ≤ opc ∧ opc ≤ 0x26 then some 0
  else if opc = 0x27 then some 0
  else if opc = 0x3F then some 0x3FFFF00
  else none

def farAllowed (w : BitVec 32) : Bool :=
  match farZero (wOpc w).toNat with
  | some z => (w &&& z) == 0
  | none => false

/-- The index a branch or jump at index `i` targets; `JALR` names no later instruction of the program (Table 12.6). -/
def farTarget (i : Nat) (w : BitVec 32) : Option Int :=
  let opc := (wOpc w).toNat
  if 0x20 ≤ opc ∧ opc ≤ 0x25 then some (i + (w.extractLsb' 0 18).toInt)
  else if opc = 0x26 then some (i + (w.extractLsb' 0 22).toInt)
  else if opc = 0x27 then some 0
  else none

/-- The first failing instruction, with RESULT (R211 step 1). -/
def farScan (n : Nat) : Nat → List (BitVec 32) → Option (Nat × Nat)
  | _, [] => none
  | i, w :: rest =>
    if !farAllowed w then some (2, i)
    else match farTarget i w with
      | some t => if (i : Int) < t ∧ t < n then farScan n (i + 1) rest else some (3, i)
      | none => farScan n (i + 1) rest

/-- The greatest cost from each index to a `FRET`, for the instructions from index `i` on (Table 10.5). -/
def farCosts : Nat → List (BitVec 32) → List Nat
  | _, [] => []
  | i, w :: rest =>
    let tail := farCosts (i + 1) rest
    let at_ := fun (t : Int) => tail.getD ((t - (i + 1)).toNat) 0
    let cost := match farTarget i w with
      | some t => if wOpc w = 0x26 then 3 + at_ t else max (1 + tail.getD 0 0) (3 + at_ t)
      | none => if wOpc w = 0x3F then 1 else 1 + tail.getD 0 0
    cost :: tail

/-- Validate a program: RESULT, ERR_INDEX, and WORST_ECLK where the paths were costed (R208, R211). -/
def farValidate (ws : List (BitVec 32)) : Nat × Nat × Option Nat :=
  match farScan ws.length 0 ws with
  | some (r, i) => (r, i, none)
  | none =>
    if ws.getLast?.map wOpc ≠ some 0x3F then (4, ws.length - 1, none)
    else
      let worst := (farCosts 0 ws).headD 0
      if 40 < worst then (5, 0, some worst) else (0, 0, some worst)

/-- Start a load (R211 step 1 and 2); an empty program unloads. -/
def State.farLoad (s : State) (slot : Nat) (ws : List (BitVec 32)) : State :=
  let go := fun (s : State) =>
    { s with loader := { s.loader with
      busy := true, job := some (slot, ws), written := false, blocked := s.loader.blocked ++ [slot] } }
  if ws = [] then go s
  else
    let (r, i, worst) := farValidate ws
    let s := { s with loader := { s.loader with
      worst := match worst with
        | some c => BitVec.ofNat 6 (min 63 c)
        | none => s.loader.worst } }
    if r = 0 then go s
    else { s with loader := { s.loader with result := BitVec.ofNat 4 r, errIndex := BitVec.ofNat 5 i } }.fire 1440

/-- Little-endian 32-bit words of a byte sequence (R4). -/
def wordsLe : List Byte → List (BitVec 32)
  | a :: b :: c :: d :: rest => (d ++ c ++ b ++ a) :: wordsLe rest
  | _ => []

/-- A write of `FAR_LOAD_CTRL` (R211, Table 10.13). -/
def State.farLoadCtrl (s : State) (v : BitVec 32) : State :=
  let count := v.extractLsb' 8 6
  let go := v.getLsbD 31
  if s.loader.busy then
    if go then { s with loader := { s.loader with refused := true } } else s
  else if 32 < count.toNat then s
  else
    let s := { s with loader := { s.loader with slot := v.extractLsb' 0 8, count } }
    if go then
      s.farLoad (v.extractLsb' 0 8).toNat ((List.range count.toNat).map fun i => s.loader.stage.get zero32 i)
    else s

/-- FAR_LOAD_GO (R211, R216): a write of `FAR_LOAD_CTRL`, or of `0x2310` or `0x2311`, which is refused while a load
runs or with a length that is no program's, and while the steward does not run (R16). -/
def execFarLoadGo (src : LoadSource) (s : State) : Out :=
  .next (match src with
    | .reg v => s.regWrite fun s => (s.noteRsvd (v &&& 0x7FFFC000 != 0)).farLoadCtrl v
    | .dict slot image =>
      if s.stewardRuns = false ∨ s.loader.busy ∨ image.length % 4 ≠ 0 ∨ 128 < image.length then s else s.farLoad slot (wordsLe image))

/-- An admitted `FarOp` names slot `k` at some slice (R211 step 3). -/
def State.slotInUse (s : State) (k : Nat) : Bool :=
  s.slices.any fun e => e.2.used.any fun t => e.2.far.queue.contains t.1 && t.2.req.opc == 7 && t.2.req.aux.toNat == k

/-- FAR_LOAD_WRITE: no admitted `FarOp` names the slot, and the stores are written (R211 steps 3 and 4). -/
def execFarLoadWrite (s : State) : Out :=
  .next (match s.loader.job with
    | none => s
    | some (k, ws) =>
      if s.loader.written ∨ s.slotInUse k = true then s
      else
        let s := { s with loader := { s.loader with
          written := true, master := if ws = [] then s.loader.master else s.loader.master.set noProg k ws } }
        if ws = [] then s
        else (s.slices.map (·.1)).foldl (fun s p => s.modSlice p fun x => { x with far := { x.far with
          slotBad := x.far.slotBad.filter (· != k), store := putSlot x.far.store k ws } }) s)

/-- FAR_LOAD_DONE (R211 step 5). -/
def execFarLoadDone (s : State) : Out :=
  .next (match s.loader.job with
    | none => s
    | some (k, ws) =>
      if !s.loader.written then s
      else
        ({ s with loader := { s.loader with
          busy := false, job := none, written := false, result := 0, errIndex := 0
          blocked := s.loader.blocked.filter (· != k)
          master := if ws = [] then s.loader.master.set noProg k [] else s.loader.master } }.fire 1440).awaitEnd
          .farLoad 0 0)

/-! Engine commands (R254) -/

/-- A command is discarded (R254). -/
def State.engRefuse (s : State) (e : Nat) : State := s.modEng e fun g => { g with refused := true }

/-- A reset command is accepted: no update holds the engine, its firmware is loaded and its logic domain is on (R254). -/
def State.engResetOk (s : State) (e : Nat) : Bool := !(s.eng e).held && (s.eng e).fwOk && !(s.pwr.domOff e)

/-- ENG_WARM_RST (R254, Table 13.3). -/
def State.engWarm (s : State) (e : Nat) : State :=
  if s.engResetOk e then s.warmStart e else s.engRefuse e

/-- The row of `State.engWarm`. -/
def execEngWarmRst (e : Fin 132) (s : State) : Out := .next (s.regWrite fun s => s.engWarm e)

/-- A cold reset: ready and running programs are declined, unsent stores are discarded, and so are the completions of what
has been sent, whose credits are free (R14, R258, Table 13.3). -/
def State.coldStart (s : State) (e : Nat) : State :=
  let s := s.declineReady e
  let s := match (s.slice e).far.run with
    | none => s
    | some t =>
      let s := s.modSlice e fun x => { x with far := { x.far with run := none, ended := none } }
      match (s.slice e).trk t with
      | none => s
      | some k => ((s.farDecline e t 2).modLine e k.req.addr fun o => { o with serve := none }).settle e k.req.addr
  (s.modEng e fun g => { g with
    out := [], stale := g.stale ++ g.out.map (·.txn)
    staleSc := g.staleSc ++ (g.out.filter (·.kind == .sc)).map (·.txn) }).engReset e true

/-- ENG_COLD_RST (R254). -/
def State.engCold (s : State) (e : Nat) : State :=
  if s.engResetOk e then s.coldStart e else s.engRefuse e

/-- The row of `State.engCold`. -/
def execEngColdRst (e : Fin 132) (s : State) : Out := .next (s.regWrite fun s => s.engCold e)

/-- Begin to quiesce an engine (R254, Table 13.3). -/
def State.quiesce (s : State) (e : Nat) : State :=
  ((s.dropRsv e).modEng e fun g => { g.startSend s.time (fun _ => true) with quiesceReq := true }).pump e

/-- Clear QUIESCE: the engine continues, or returns to `WAIT` (R254, Table 12.12). -/
def State.resume (s : State) (e : Nat) : State :=
  let s := ((s.modEng e fun g => { g with quiesceReq := false, quiesced := false }).boundary e).awaitEnd (.quiesce e) 0 0
  if (s.eng e).state = 2 then s.wake e else s

/-- ENG_QUIESCE (R254). -/
def State.engQuiesce (s : State) (e : Nat) : State :=
  if (s.eng e).held then s.engRefuse e else s.quiesce e

/-- The row of `State.engQuiesce`. -/
def execEngQuiesce (e : Fin 132) (s : State) : Out := .next (s.regWrite fun s => s.engQuiesce e)

/-- ENG_RESUME (R254). -/
def State.engResume (s : State) (e : Nat) : State :=
  if (s.eng e).held then s.engRefuse e else s.resume e

/-- The row of `State.engResume`. -/
def execEngResume (e : Fin 132) (s : State) : Out := .next (s.regWrite fun s => s.engResume e)

/-- ENGINE_QUIESCED: at a boundary with the store buffer empty, after the programs in hand (R14, R253, R265). -/
def execEngineQuiesced (e : Fin 132) (s : State) : Out :=
  let g := s.eng e
  .next (if g.quiesceReq && !g.quiesced && (g.state == 1 || g.state == 2) && g.sb.isEmpty && g.stall == .none
      && g.loads.isEmpty && g.walk.isNone && g.mode != .farOp && (s.slice e).far.run.isNone && (s.slice e).far.prog.isEmpty
      then (s.modEng e fun g => { g with quiesced := true }).awaitEnd (.quiesce e) 0 0
    else s)

/-! Firmware loading (R252, R253) -/

/-- The bytes of an image written by sub-index. -/
def imageBytes (m : NMap (List Byte)) : List Byte := m.flatMap (·.2)

/-- The image is written in order, 1,024 bytes per sub-index, the last one shorter (Table 12.14). -/
def imageWhole (m : NMap (List Byte)) : Bool :=
  ((List.range m.length).zip m).all fun e =>
    e.2.1 == e.1 + 1 && (if e.1 + 1 = m.length then decide (e.2.2.length ≤ 1024) else e.2.2.length == 1024)

/-- Validate an image: the result of Table 12.10, the code words and ENTRY. `most` is the greatest WORDS. -/
def fwValidate (m : NMap (List Byte)) (most : Nat) : Nat × List (BitVec 32) × Nat :=
  let b := imageBytes m
  let num := fun (lo n : Nat) => leNat ((b.drop lo).take n)
  let words := num 4 2
  let code := b.drop 16
  if num 0 4 ≠ 0x5746484B then (1, [], 0)
  else if words = 0 ∨ most < words ∨ b.length ≠ 16 + 4 * words ∨ imageWhole m = false then (2, [], 0)
  else if (crc32c (bitsLsb code)).toNat ≠ num 12 4 then (3, [], 0)
  else if words ≤ num 6 2 then (4, [], 0)
  else (0, wordsLe code, num 6 2)

/-- A load holds an engine: a running one is quiesced first (R253 step 1, R254). -/
def State.holdEngine (s : State) (e : Nat) : State :=
  let s := s.modEng e fun g => { g with held := true }
  if (s.eng e).state = 1 ∨ (s.eng e).state = 2 then s.quiesce e else s

/-- Take up the next engine of an update; a rolling update first waits for the far-store copy of the engine it has loaded,
so that at most one slice is without its slots (R253). An engine that fails its second read-back leaves the update going on
with the rest, and result 0x6 shows when it ends: the spec is silent. DESIGN CHOICE (log 93). -/
def State.fwNext (s : State) : State :=
  if s.loader.fwWait.isSome then s
  else match s.loader.fwTodo with
  | [] =>
    { s with loader := { s.loader with
      fwResult := if s.loader.fwFailed then 6 else 0
      version := s.loader.masterVer } }.fire 1441
  | e :: _ => if s.loader.fwRolling then s.holdEngine e else s

/-- An update runs: engines are to be loaded, or the far-store copy of the last one is awaited (R253). -/
def Loader.updating (x : Loader) : Bool := !x.fwTodo.isEmpty || x.fwWait.isSome

/-- A commit: BUSY while an update runs or, for value 1, outside the restore window (R326); a bad image leaves the running
firmware unchanged. Value 1 takes up every engine at once (R253). -/
def State.fwCommit (s : State) (rolling : Bool) : State :=
  if s.loader.fwTodo ≠ [] ∨ s.loader.fwWait.isSome = true ∨ (rolling = false ∧ s.restoring = false) ∨ s.stewardRuns = false then s
  else
    match fwValidate s.loader.image 8192 with
    | (0, code, entry) =>
      let s := if rolling then s else (List.range 132).foldl (fun s e => s.holdEngine e) s
      { s with loader := { s.loader with
        fwWait := none, masterFw := code, entry, masterVer := BitVec.ofNat 32 (leNat ((imageBytes s.loader.image).drop 8 |>.take 4))
        fwResult := 5, fwTodo := List.range 132, fwRolling := rolling, fwFailed := false
        retried := [] } }.fwNext
    | (r, _, _) => { s with loader := { s.loader with fwResult := BitVec.ofNat 8 r } }.fire 1441

/-- FW_COMMIT_ALL: commit value 1 (R253). -/
def execFwCommitAll (s : State) : Out := .next (s.fwCommit false)

/-- FW_COMMIT_ROLLING: commit value 2 (R253). -/
def execFwCommitRolling (s : State) : Out := .next (s.fwCommit true)

/-- Words as the firmware memory from its first address. -/
def fwMap (code : List (BitVec 32)) : NMap (BitVec 32) :=
  ((List.range code.length).zip code).filter (fun e => e.2 != 0)

/-- Write the master image into an engine and release it from reset if its slice runs (R253 steps 2 to 4, R402). -/
def State.fwWrite (s : State) (e : Nat) : State :=
  let s := s.modEng e fun g => { g with
    fw := fwMap s.loader.masterFw, fwOk := true, fwBad := [], entry := BitVec.ofNat 64 (0x8000 + 4 * s.loader.entry)
    held := false }
  s.engReset e (s.glb.enabled && !(s.pwr.domOff e) && !(s.pwr.domGated e))

/-- The engine in turn is quiesced, in reset or halted with its buffer drained, so the update may reset it. -/
def Eng.loadable (g : Eng) : Bool := g.state == 0 || (g.quiesced && g.sb.isEmpty) || (g.state == 3 && g.sb.isEmpty)

/-- No logical slice is mapped to physical slice `p`, and it is neither retired nor failed (R28, R375, R399). -/
def State.isSpare (s : State) (p : Nat) : Bool :=
  (List.range 128).all (fun l => (s.stwCopy.entry l).phys != p) && !s.spare.retired.contains p
    && !s.rst.bistFail.getLsbD p

/-- Steps 1 and 2 of readying a spare: its logic domain is ungated and its arrays are cleared (R192, R233, R372). -/
def State.spareClear (s : State) (p : Nat) : State :=
  ((s.modPwr fun x => { x with gated := x.gated.filter (· != p) }).sflInit p).hlcInit p

/-- It is the engine's turn in a running update: the first of a rolling one, any of one that loads all at once (R253). -/
def Loader.turn (x : Loader) (e : Nat) : Bool :=
  if x.fwRolling then x.fwWait.isNone && x.fwTodo.head? == some e else x.fwTodo.contains e

/-- The steward loads the engine in an update, or for the second time. -/
def Loader.loads (x : Loader) (e : Nat) : Bool := x.turn e || x.retried.contains e

/-- The steward loads the engine of a spare that is not ready (R372). -/
def State.readies (s : State) (e : Nat) : Bool :=
  !(s.loader.loads e) && !(s.eng e).held && s.glb.enabled && s.isSpare e && !s.spare.ready.contains e

/-- The steward loads the engine: in an update, for the second time, halted (R249), or of a spare (R372). -/
def State.loads (s : State) (e : Nat) : Bool :=
  s.loader.loads e || (s.loader.masterFw != [] && ((!(s.eng e).held && (s.eng e).state == 3) || s.readies e))

/-- The steward records a halt, once (R249). -/
def State.haltRecord (s : State) (e : Nat) : State :=
  if (s.eng e).state = 3 ∧ (s.eng e).haltTold = false then
    (s.engErr e 0 0x30 ((s.engStat e).setWidth 64)).modEng e fun g => { g with haltTold := true }
  else s

/-- The load of an engine is over; an update it belongs to goes on (R253). -/
def State.loadOver (s : State) (e : Nat) : State :=
  let s := { s with loader := { s.loader with retried := s.loader.retried.filter (· != e) } }
  if s.loader.turn e then
    let waits := s.loader.fwRolling && (s.eng e).state != 0
    { s with loader := { s.loader with
      fwTodo := s.loader.fwTodo.filter (· != e), fwWait := if waits then some e else none } }.fwNext
  else s

/-- An engine fails its second read-back: it stays in reset, and the error is recorded (R253 step 3). -/
def State.loadFailed (s : State) (e : Nat) : State :=
  let s := (s.modEng e fun g => { g with fwOk := false, held := false }).engReset e false
  let s := s.engErr e 1 0x34 ((s.engStat e).setWidth 64)
  { s with loader := { s.loader with
    fwFailed := true, fwResult := if s.loader.updating then s.loader.fwResult else 6 } }

/-- ENGINE_LOAD (R249, R253 steps 2 to 4, R372): a read-back mismatch is retried once. -/
def execEngineLoad (e : Fin 132) (readBackOk : Bool) (s : State) : Out :=
  .next (if (s.loads e && (s.eng e).loadable && s.stewardRuns) = false then s
    else
      let s := (if s.readies e then s.spareClear e else s).haltRecord e
      if readBackOk then (s.fwWrite e).loadOver e
      else if s.loader.retried.contains e.val then (s.loadFailed e).loadOver e
      else
        let s := (s.modEng e fun g => { g with held := true }).engReset e false
        { s with loader := { s.loader with retried := s.loader.retried ++ [e.val] } })

/-- ENGINE_HALT_RELOAD: the steward records the halt, and reloads and restarts the engine, whose buffer has drained; one
whose read-back fails is loaded by ENGINE_LOAD (R249, R253). An engine that an update holds is that update's to load. -/
def execEngineHaltReload (e : Fin 132) (s : State) : Out :=
  .next (if (s.eng e).state ≠ 3 ∨ (s.eng e).sb ≠ [] ∨ s.stewardRuns = false then s
    else if (s.eng e).held then s.haltRecord e
    else (s.haltRecord e).fwWrite e)

/-- ENGINE_FARSTORE_COPY: the loader has written the copy of an engine that left reset, or whose logic domain was powered
(R206); a rolling update that waited for it goes on (R253 step 5). -/
def execEngineFarstoreCopy (e : Fin 132) (s : State) : Out :=
  .next (if s.pwr.domOff e = true then s
    else
      let s := s.farCopied e
      if s.loader.fwWait = some e.val then
        ({ s with loader := { s.loader with fwWait := none } } : State).fwNext
      else s)

/-! The steward tandem (R250) -/

/-- STEWARD_LOCKSTEP_MISMATCH: no further output leaves, and the detection is block-fatal (R250). -/
def execStewardLockstepMismatch (s : State) : Out := .next s.diverge

end Sys2Proof.Machine
end

