-- ==== Sys2Proof/Machine/Fabric.lean ====
section
/-! DEFINITION. The meanings of the fabric's rows: ingress, injection, links, segments, rings, consolidation and die
links (chapters 3 and 4, R20, R29, R30, R370, R407). -/

namespace Sys2Proof.Machine

/-- Ports take flits: not while `kh_rst_n` is asserted, before the PLL locks or without FCLK, and not in Coast or
Freewheel (R355, R395, R417). -/
def State.takesFlits (s : State) : Bool := s.fclkRuns && s.pwr.state == 0

/-- A port takes a flit (R20, R29, R30, R72, R80, R85, R171, R172, R407). The link credit of one that came over the link
goes back when it leaves the ingress buffer. -/
def State.ingress (s : State) (n : Nat) (m : Msg) : State :=
  let s := (s.modPort n fun x => x.takeIn m).portEvent n 0x01
  let early := !s.glb.coherentReady && isLinkPort n && (m.cls == 0 || m.cls == 1 || m.cls == 2)
  if !(s.sourceOk n m) || malformedFlit m || early then (s.leaveSlot n m).sourceError n m
  else if s.mustWait n m then s.holdBack n m
  else s.passOn n m

/-- FLIT_INGRESS (R20, R29, R30, R72, R355, R395, R417). -/
def execFlitIngress (n : Fin 50) (m : Msg) (s : State) : Out := .next (if s.takesFlits then s.ingress n m else s)

/-- FLIT_INJECT (R38, R39, R42, R417). -/
def execFlitInject (st : Stop) (c : MClass) (s : State) : Out := .next (if s.fclkRuns then s.inject st (classCode c) else s)

/-! Links -/

/-- Resend on a ring segment (R46, R47). -/
def State.ringResend (s : State) (r k : Nat) (d : Dir) (seq : BitVec 12) : State :=
  s.modRing r fun x => x.modLink k d fun l => { l with tx := l.tx.resend seq }

/-- A replay request that the receiver of a ring segment has made reaches the sender; it was counted when it was made
(R45 to R47). -/
def State.ringAsked (s : State) (r k : Nat) (d : Dir) (seq : BitVec 12) : State :=
  if ((s.ring r).link k d).rx.requests.contains seq then
    (s.modRing r fun x => x.modLink k d fun l =>
      { l with rx := { l.rx with requests := takeFirst seq l.rx.requests } }).ringResend r k d seq
  else s

/-- Resend on a port's link, at once, in order (R46, R47, R79). -/
def State.portResend (s : State) (n : Nat) (seq : BitVec 12) : State :=
  s.modPort n fun x => { x with tx := { x.tx.resend seq with again := none } }.sendAgain seq

/-- A replay request on a port's link, made or received: it is counted and fires k = 0 (R47, Table 14.2). -/
def State.portAsks (s : State) (n : Nat) : State :=
  ((s.modPort n fun x => { x with replays := satInc16 x.replays }).portEvent n 0x03).firePort n 0

/-- A replay request received on a port's link (R46, R79). -/
def State.portAsked (s : State) (n : Nat) (seq : BitVec 12) : State := (s.portResend n seq).portAsks n

/-- An acknowledgement on a port's link (R46, R47). -/
def State.portAck (s : State) (n : Nat) (seq : BitVec 12) : State :=
  (s.modPort n fun x => { x with tx := x.tx.ack seq }).egress n

/-- Counts of a link-control slot: an initial grant replaces the credits held, others add to them (R80, Table 4.11). -/
def Port.control (x : Port) (init : Bool) (counts : List Nat) : Port :=
  { x with creds := (List.range 6).foldl (fun m c =>
      NMap.set zeroNat m c ((if init then 0 else m.get zeroNat c) + counts.getD c 0)) x.creds }

/-- The numbered slot that a port accepts: a message enters the ingress buffer, credits are taken up (R80). Table 4.11
defines INIT 0 and 1 only: another value counts as 0. DESIGN CHOICE (log 87). -/
def State.portAccepts (s : State) (n : Nat) (raw : BitVec 768) : State :=
  let s := s.modPort n fun x => { x with rx := x.rx.accepted }
  if rawSlot raw = 1 then
    let m := msgOfBits (rawBody raw)
    let c := m.cls.toNat
    s.modPort n fun x => { x with
      ingress := x.ingress ++ [m], given := x.given.set zeroNat c (x.given.get zeroNat c - 1) }
  else
    (s.modPort n fun x => x.control (byteAt raw 12 == 1)
      ((List.range 6).map (fun c => (byteAt raw (6 + c)).toNat))).egress n

/-- A slot on a port's link (R45, R67, R78, R79). An idle slot is checked by RCHK alone, and one that fails it only
counts. Table 4.10 calls SLOT 0b11 invalid and says no more: such a slot is discarded as one that fails its checks.
DESIGN CHOICE (log 87). Every numbered slot is answered by the state of the receiver in an idle slot (R79). -/
def State.portReceive (s : State) (n : Nat) (raw : BitVec 768) : State :=
  let crcFail := fun (s : State) => s.modPort n fun x => { x with crcFails := satInc16 x.crcFails }
  let side := fun (s : State) =>
    let ackSeq := raw.extractLsb' 32 12
    let s := if raw.getLsbD 44 then s.portAck n ackSeq else s
    if raw.getLsbD 45 then s.portAsked n (ackSeq + 1) else s
  let answer := fun (s : State) (rpl : Bool) => s.modPort n fun x => x.sendIdle rpl
  if (s.port n).down || !(s.port n).active then s
  else if rawSlot raw = 0 then (if rawRchk raw then side s else crcFail s)
  else
    let good := rawGood raw && rawSlot raw != 3
    match (s.port n).rx.receive good (rawSeq raw) with
    | .duplicate => answer (side s) false
    | .reject ask =>
      let s := if good then side s else crcFail s
      if ask then answer ((s.modPort n fun x => { x with rx := x.rx.ask }).portAsks n) true else s
    | .accept => answer (side (s.portAccepts n raw)) false

/-- Take the slots that stand whole in the bytes received since the last entry to Active (R77). -/
def State.fdiSlots (s : State) (n : Nat) : Nat → State
  | 0 => s
  | fuel + 1 =>
    let b := (s.port n).fdi
    if b.length < 96 then s
    else ((s.modPort n fun x => { x with fdi := b.drop 96 }).portReceive n (BitVec.ofNat 768 (leNat (b.take 96)))).fdiSlots
      n fuel

/-- A 256-byte transfer of a die port's FDI: the groups of eight slots follow one another from entry to Active (R76,
R77). -/
def State.fdiReceive (s : State) (n : Nat) (bytes : BitVec 2048) : State :=
  if 20 ≤ n || (s.port n).down || !(s.port n).active then s
  else (s.modPort n fun x => { x with fdi := x.fdi ++ bytesOf bytes 0 255 }).fdiSlots n 3

/-- LINK_FLIT_RECEIVE (R45 to R47, R67, R76 to R79, R395, R408, R417). -/
def execLinkFlitReceive (l : LinkId) (x : LinkIn) (s : State) : Out :=
  .next (if !s.fclkRuns then s else match l, x with
    | .ring r k d, .slot raw => s.ringReceive r k d raw
    | .port n, .slot raw => s.portReceive n raw
    | .port n, .fdi bytes => s.fdiReceive n bytes
    | .ring _ _ _, .fdi _ => s)

/-- REPLAY_REQUEST: the sender resends from the named flit; on a ring, when the receiver has asked for it (R46, R47). -/
def execReplayRequest (l : LinkId) (seq : BitVec 12) (s : State) : Out :=
  .next (match l with
    | .ring r k d => s.ringAsked r k d seq
    | .port n => s.portAsked n seq)

/-- An acknowledgement on a ring segment, of what its receiver has accepted (R46). -/
def State.ringAck (s : State) (r k : Nat) (d : Dir) (seq : BitVec 12) : State :=
  s.modRing r fun x => x.modLink k d fun l =>
    if l.rx.any && seqUpTo seq l.rx.ackSeq then { l with tx := l.tx.ack seq } else l

/-- LINK_ACKNOWLEDGE (R46). -/
def execLinkAcknowledge (l : LinkId) (seq : BitVec 12) (s : State) : Out :=
  .next (match l with
    | .ring r k d => s.ringAck r k d seq
    | .port n => s.portAck n seq)

/-- REPLAY_ACK_TIMEOUT: the oldest unacknowledged flit is resent with no request (R46, R47). -/
def execReplayAckTimeout (l : LinkId) (s : State) : Out :=
  .next (match l with
    | .ring r k d => match ((s.ring r).link k d).tx.replay with
      | (seq, _) :: _ => s.ringResend r k d seq
      | [] => s
    | .port n => match (s.port n).tx.replay with
      | (seq, _) :: _ => s.portResend n seq
      | [] => s)

/-! Segments and rings -/

/-- Segments out of service. -/
def Ring.segsOut (x : Ring) : Nat := ((List.range 94).filter x.out).length

/-- The image of `CRG_RING_STAT_r` (Table 3.4). -/
def Ring.stat (x : Ring) : BitVec 32 :=
  BitVec.ofNat 32 (x.mode.toNat + (if x.segsOut = 1 then 4 else 0) + x.segsOut * 8 + (if x.draining then 1024 else 0)
    + (if x.cmdRefused then 2048 else 0) + (if x.returning then 4096 else 0))

/-- An error of ring `r`. -/
def State.ringErr (s : State) (r cls code : Nat) (extra : BitVec 16 := 0) : State :=
  s.record { cls := BitVec.ofNat 2 cls, unit := 1, index := r, code := BitVec.ofNat 8 code
             detail := (s.ring r).stat.setWidth 64, extra }

/-- The partner of a ring is shifted off or returning (R51, R53). -/
def State.partnerGone (s : State) (r : Nat) : Bool :=
  (s.ring (partner r)).mode == 2 || ((s.ring (partner r)).mode == 3 && (s.ring (partner r)).returning)

/-- The count of qualifying windows of pair `q` starts again (R54). -/
def State.consRestart (s : State) (q : Nat) : State := { s with crg := { s.crg with qual := s.crg.qual.set zeroNat q 0 } }

/-- Ring 2q + 1, gated, starts to wake; its domain is powered (R56). -/
def State.consWake (s : State) (q : Nat) : State :=
  if (s.ring (2 * q + 1)).mode = 1 then
    ((s.modRing (2 * q + 1) fun x => { x with mode := 3, returning := false }).consRestart q).modPwr fun p =>
      p.onDom (264 + (2 * q + 1))
  else s

/-- The flits of a replay buffer that were not accepted go back to their stop, where they have delivered what they had to,
and the link is as new (R43, R48 step 2, R50). -/
def Ring.giveBack (x : Ring) (key : Nat) : Ring :=
  let l := x.links.get LinkSt.dflt key
  let dec := key % 2 == 1
  let pos := if dec then (key / 2 + 1) % 94 else key / 2
  let x := { x with links := x.links.set LinkSt.dflt key {} }
  l.unaccepted.foldl (fun x e =>
    let t := tKey pos e.2.msg.cls.toNat dec
    { x with back := x.back.set noFlits t (x.back.get noFlits t ++ [{ e.2 with dropped := true }]) }) x

/-- Every unaccepted flit of a ring stands at its sending stop (R50). -/
def Ring.giveAllBack (x : Ring) : Ring := (x.links.map (·.1)).foldl (fun x key => x.giveBack key) x

/-- Begin to shift a ring off (R50); the loss of a pair is block-fatal (R51). Every cause `chainFault` fires k = 7
(Table 3.7). A partner gated for consolidation is woken first, and the time of that wake is added to the bound of the
shift; a partner that drains for consolidation takes injections again. DESIGN CHOICE (log 86). -/
def State.shiftOff (s : State) (r : Nat) (cause : ShiftCause) : State :=
  let s := if cause = .chainFault then s.fireRing r 7 else s
  let x := s.ring r
  if x.mode = 2 ∨ x.shifting.isSome then s
  else if cause ≠ .command ∧ s.partnerGone r = true then s.ringErr r 2 0x22
  else
    let y := s.ring (partner r)
    let s := if y.shifting.isNone then s.modRing (partner r) fun y => { y with draining := false, moving := false } else s
    let s := s.consRestart (r / 2)
    let s := s.modRing r fun x => { x.giveAllBack with
      shifting := some cause, draining := true, moving := false, segLosing := []
      shiftBy := s.time + 4 + (if y.mode = 1 ∨ y.mode = 3 then 5 else 0) }
    if y.mode = 1 then s.consWake (r / 2) else s

/-- A count of failed resends on a segment has reached eight (R47). -/
def Ring.failed (x : Ring) (k : Nat) : Bool :=
  decide (8 ≤ (x.link k .inc).tx.fails) || decide (8 ≤ (x.link k .dec).tx.fails)

/-- The segment is being taken out: the pair's consolidation ends (R48, R54, R56). -/
def State.segLose (s : State) (r k : Nat) : State :=
  let s := (s.modRing r fun x => { x with segLosing := x.segLosing ++ [(k, s.time)] }).consRestart (r / 2)
  if r % 2 = 0 then s.consWake (r / 2) else s

/-- SEGMENT_OUT_OF_SERVICE: the eighth failed resend starts R48 for the segment (R47). -/
def execSegmentOutOfService (r : Fin 6) (k : Fin 94) (s : State) : Out :=
  .next (if (s.ring r).out k || (s.ring r).losing k || (s.ring r).shifting.isSome || !(s.ring r).failed k then s
    else s.segLose r k)

/-- Steps 2 and 3 of R48: what waits to cross the segment, in a replay buffer or a transit buffer, reverses (R49). -/
def Ring.segGone (x : Ring) (r k : Nat) : Ring :=
  let x := (x.giveBack (lKey k .inc)).giveBack (lKey k .dec)
  let x := { x with
    segLosing := x.segLosing.filter (fun e => e.1 != k), segOut := x.segOut ||| BitVec.ofNat 94 (2 ^ k) }
  [k, (k + 1) % 94].foldl (fun x pos => (List.range 6).foldl (fun x c => x.settle r pos c) x) x

/-- SEGMENT_OUT_DONE: step 3 of R48 has reached the last stop; a second segment out shifts the ring off (R50). -/
def execSegmentOutDone (r : Fin 6) (k : Fin 94) (s : State) : Out :=
  .next (if (s.ring r).losing k then
      let s := s.modRing r fun x => x.segGone r k
      let s := (s.ringErr r 0 0x20 (BitVec.ofNat 16 k.val)).fireRing r 1
      if 2 ≤ (s.ring r).segsOut then s.shiftOff r .secondSegment else s
    else s)

/-- The controller has had no answer for a segment of the ring within 2 µs (R48). -/
def State.segTimedOut (s : State) (r : Nat) : Bool := (s.ring r).segLosing.any fun e => decide (e.2 + 2 ≤ s.time)

/-- SEGMENT_OUT_TIMEOUT: no answer within 2 µs shifts the ring off (R48, R50). -/
def execSegmentOutTimeout (r : Fin 6) (k : Fin 94) (s : State) : Out :=
  .next (if (s.ring r).segLosing.any (fun e => e.1 == k.val && decide (e.2 + 2 ≤ s.time)) then
      s.shiftOff r .controllerTimeout
    else s)

/-- FLIT_EJECT (R40, R43, R44, R49, R370). -/
def execFlitEject (r : Fin 6) (pos : Fin 94) (d : Dir) (c : MClass) (s : State) : Out :=
  .next (s.ejectAt r pos (isDec d) (classCode c))

/-- A ring command is refused (R53). -/
def State.crgRefuse (s : State) (r : Nat) : State := (s.modRing r fun x => { x with cmdRefused := true }).fireRing r 6

/-- A shift-off command is accepted when the ring is in service, gated or waking, and its partner is neither
shifted off nor returning (R53). -/
def State.crgShiftOk (s : State) (r : Nat) : Bool :=
  let x := s.ring r
  x.mode != 2 && !(x.mode == 3 && x.returning) && !(s.partnerGone r)

/-- The command to shift ring `r` off (R53). -/
def State.crgShift (s : State) (r : Nat) : State :=
  if s.crgShiftOk r then
    (s.modRing r fun x => { x with cmdRefused := false }).shiftOff r .command
  else s.crgRefuse r

/-- The cause of RING_SHIFT_OFF stands (R48, R50). -/
def State.shiftCause (s : State) (r : Nat) : ShiftCause → Bool
  | .secondSegment => decide (2 ≤ (s.ring r).segsOut)
  | .chainFault => true
  | .controllerTimeout => s.segTimedOut r
  | .command => true

/-- RING_SHIFT_OFF (R50, R51, R53). -/
def execRingShiftOff (r : Fin 6) (cause : ShiftCause) (s : State) : Out :=
  .next (if cause = .command then s.crgShift r else if s.shiftCause r cause then s.shiftOff r cause else s)

/-- Move one flit of a ring to the same channel, direction and stop of its partner, as far as R39 lets it be injected
there (R50). -/
def State.moveOne (s : State) (r key : Nat) : State :=
  let x := s.ring r
  let pos := key / 12
  let c := key % 12 / 2
  let dec := key % 2 == 1
  let next := match x.back.get noFlits key, x.transit.get noFlits key with
    | f :: rest, _ => some (f, { x with back := x.back.set noFlits key rest })
    | [], f :: rest => some (f, { x with transit := x.transit.set noFlits key rest })
    | [], [] => none
  match next with
  | none => s
  | some (f, x) =>
    if (s.ring (partner r)).freeSlots pos c dec < 2 then s.ringEvent (partner r) 0x04 c
    else (((s.modRing r fun _ => x).modRing (partner r) fun y => y.place (partner r) pos c dec f)).ringEvent (partner r)
      0x02 c

/-- Move what the partner has room for (R50). -/
def State.moveFlits (s : State) (r : Nat) : State :=
  if !((s.ring (partner r)).takes) then s
  else ((s.ring r).back.map (·.1) ++ (s.ring r).transit.map (·.1)).foldl (fun s key =>
    (List.range (((s.ring r).back.get noFlits key).length + ((s.ring r).transit.get noFlits key).length)).foldl
      (fun s _ => s.moveOne r key) s) s

/-! The holds of R352, and held edges (R359) -/

/-- Release every port's flits that nothing holds any more (R30, R356). -/
def State.releaseAll (s : State) : State := (List.range 50).foldl (fun s n => s.releaseHeld n) s

/-- Lift the hold of R352, unless kickstand or held edges keep it (R359, R385). -/
def State.liftHold (s : State) : State :=
  if s.saf.kick = .none ∧ s.pwr.edgeHold = false then (s.modGlb fun g => { g with ingressHold := false }).releaseAll else s

/-- Held domains other than those of a retired slice (R359, R375). -/
def State.heldLive (s : State) : List Nat :=
  s.pwr.held.filter fun d => !(decide (d < 264) && s.spare.retired.contains (d % 132))

/-- After a Freewheel exit that left edges held, the ports keep their holds until no domain but a retired slice's is held
(R359). -/
def State.edgesLeft (s : State) : State :=
  if s.pwr.edgeHold && s.heldLive.isEmpty then (s.modPwr fun p => { p with edgeHold := false }).liftHold else s

/-- No flit is on the ring: in a transit buffer, or unaccepted in a replay buffer. -/
def Ring.empty (x : Ring) : Bool := x.transit.isEmpty && x.back.isEmpty && x.links.all fun e => e.2.unaccepted.isEmpty

/-- RING_SHIFT_COMPLETE: moved flits are injected on the partner, once it is awake; when none is left the ring is off,
and the command that asked for it is answered (R50, R53). A ring that another cause takes off while it returns to service
is the spec's gap: the return ends here, without k = 6, its dictionary command refused. DESIGN CHOICE (log 86). -/
def execRingShiftComplete (r : Fin 6) (s : State) : Out :=
  .next (if (s.ring r).shifting.isNone then s
    else
      let s := s.moveFlits r
      if (s.ring r).empty && (s.ring (partner r)).mode != 1 && (s.ring (partner r)).mode != 3 then
        let s := s.modRing r fun x => { x with
          mode := 2, draining := false, shifting := none, returning := false, links := [] }
        (((s.ringErr r 0 0x21).fireRing r 2).awaitEnd (.ring r false) 0 0).awaitEnd (.ring r true) 1 0
      else s)

/-- RING_SHIFT_OVERRUN: a shift not complete within its bound is block-fatal (R50, R51). -/
def execRingShiftOverrun (r : Fin 6) (s : State) : Out :=
  .next (if (s.ring r).shifting.isSome ∧ (s.ring r).shiftBy ≤ s.time then s.ringErr r 2 0x22 else s)

/-- CRG_SHIFT_OFF_CMD (R53): 6 and 7 name no ring. -/
def execCrgShiftOffCmd (r : BitVec 3) (s : State) : Out := .next (if 5 < r.toNat then s else s.regWrite fun s => s.crgShift r.toNat)

/-- A return command is accepted when the ring is shifted off and no return runs on its pair (R53). -/
def State.crgReturnOk (s : State) (r : Nat) : Bool :=
  (s.ring r).mode == 2 && !(s.ring r).returning && !((s.ring (partner r)).returning)

/-- The command to return ring `r` to service (R53): its domain is powered. -/
def State.crgReturn (s : State) (r : Nat) : State :=
  if s.crgReturnOk r then
    (((s.modRing r fun x => { x with mode := 3, returning := true, cmdRefused := false, links := [] }).consRestart
      (r / 2)).modPwr fun p => (p.onDom (264 + r)).release (264 + r)).edgesLeft
  else s.crgRefuse r

/-- CRG_RETURN_CMD (R53). -/
def execCrgReturnCmd (r : BitVec 3) (s : State) : Out := .next (if 5 < r.toNat then s else s.regWrite fun s => s.crgReturn r.toNat)

/-- The segment word with the given segments out. -/
def segsOf (l : List (Fin 94)) : BitVec 94 := l.foldl (fun v k => v ||| BitVec.ofNat 94 (2 ^ k.val)) 0

/-- RING_RETURN_COMPLETE: the retest names the segments that failed; the dictionary's command is answered (R53). -/
def execRingReturnComplete (r : Fin 6) (failed : List (Fin 94)) (s : State) : Out :=
  .next (if !(s.ring r).returning || (s.ring r).shifting.isSome then s
    else
      let s := s.modRing r fun x => { x with segOut := segsOf failed, returning := false }
      if (s.ring r).segsOut ≤ 1 then
        ((s.modRing r fun x => { x with mode := 0 }).fireRing r 3).awaitEnd (.ring r true) 0 0
      else ((s.modRing r fun x => { x with mode := 2 }).crgRefuse r).awaitEnd (.ring r true) 1 0)

/-! Consolidation -/

/-- The conditions of R54 other than the load. -/
def State.consFits (s : State) (q : Nat) : Bool :=
  let a := s.ring (2 * q)
  let b := s.ring (2 * q + 1)
  s.crg.consEn && a.segOut == 0 && b.segOut == 0 && a.takes && b.takes && a.segLosing.isEmpty && b.segLosing.isEmpty

/-- Ring 2q + 1 is draining for consolidation. -/
def Ring.gating (x : Ring) : Bool := x.draining && x.shifting.isNone && x.mode == 0

/-- A REQ that has reached breakaway waits at a port for injection onto pair `q` (R38, R56). -/
def State.agedFor (s : State) (q : Nat) : Bool :=
  s.ports.any fun e => e.2.stop.outbox.any fun f =>
    f.msg.cls == 0 && decide ((s.slice 0).brkUs.toNat ≤ f.msg.age.toNat) &&
      (match destStop f with
       | some st => stopOn (2 * q) st
       | none => false)

/-- A cause of R56 that stands, other than the load of one window. -/
def State.wakeCause (s : State) (q : Nat) : Bool :=
  let a := s.ring (2 * q)
  !s.crg.consEn || s.agedFor q || !a.segLosing.isEmpty || a.segOut != 0 || a.shifting.isSome || s.pwr.trans.isSome

/-- Utilisation of `f` flits in a window, against a threshold in percent: below it, and above it (R54, R56). -/
def loadBelow (f cycles pct : Nat) : Bool := decide (f * 100 < pct * (188 * cycles))
def loadAbove (f cycles pct : Nat) : Bool := decide (pct * (188 * cycles) < f * 100)

/-- What pair `q`'s controller has measured in the present window: the flits that rings 2q and 2q + 1 have carried, and the
window's FCLK cycles (R54). -/
def State.consLoad (s : State) (q : Nat) : Nat × Nat × Nat :=
  ((s.ring (2 * q)).carried, (s.ring (2 * q + 1)).carried, 2400 * (s.time - s.crg.winAt.get zeroNat q))

/-- CONS_WINDOW_END: the flits that the pair's rings have carried since the window began are held against the thresholds,
and the next window begins; in Coast and Freewheel no window passes (R54, R56, R350). The command names what the
controller has measured; one that names other figures is not this window's end (log 4). -/
def execConsWindowEnd (q : Fin 3) (f0 f1 cycles : Nat) (s : State) : Out :=
  .next (if s.consLoad q ≠ (f0, f1, cycles) ∨ s.time < s.crg.winAt.get zeroNat q + s.crg.windowUs.toNat ∨ s.pwr.state ≠ 0
    then s
    else
      let n := if s.consFits q && loadBelow (f0 + f1) cycles s.crg.entryPct.toNat then s.crg.qual.get zeroNat q + 1 else 0
      let t := { s with crg := { s.crg with
        qual := s.crg.qual.set zeroNat q n, winAt := s.crg.winAt.set zeroNat q s.time } }
      let t := (t.modRing (2 * q) fun x => { x with carried := 0 }).modRing (2 * q + 1) fun x => { x with carried := 0 }
      if loadAbove f0 cycles s.crg.exitPct.toNat then t.consWake q else t)

/-- CONS_ENTRY (R54, R55). -/
def execConsEntry (q : Fin 3) (s : State) : Out :=
  .next (if s.consFits q ∧ s.crg.entryWin.toNat ≤ s.crg.qual.get zeroNat q ∧ s.pwr.state = 0 then
      s.modRing (2 * q.val + 1) fun x => { x with draining := true, drainAt := s.time }
    else s)

/-- CONS_DRAIN_TIMEOUT: after 20 µs the flits left are moved to ring 2q (R55). -/
def execConsDrainTimeout (q : Fin 3) (s : State) : Out :=
  .next (if (s.ring (2 * q.val + 1)).gating ∧ (s.ring (2 * q.val + 1)).drainAt + 20 ≤ s.time then
      (s.modRing (2 * q.val + 1) fun x => { x.giveAllBack with moving := true }).moveFlits (2 * q.val + 1)
    else s)

/-- CONS_GATED: the empty ring is gated; a cause of R56 that stands already wakes it (R55, R56). -/
def execConsGated (q : Fin 3) (s : State) : Out :=
  .next (if (s.ring (2 * q.val + 1)).gating ∧ (s.ring (2 * q.val + 1)).empty = true then
      let t := ((s.modRing (2 * q.val + 1) fun x => { x with mode := 1, draining := false, moving := false }).modPwr
        fun p => p.offDom (264 + (2 * q.val + 1))).fireRing (2 * q.val + 1) 4
      if s.wakeCause q then t.consWake q else t
    else s)

/-- CONS_WAKE: a cause of R56 stands. -/
def execConsWake (q : Fin 3) (s : State) : Out := .next (if s.wakeCause q then s.consWake q else s)

/-- CONS_WAKE_DONE: the ring's sequence numbers are zero and it is in service (R56). -/
def execConsWakeDone (q : Fin 3) (s : State) : Out :=
  let x := s.ring (2 * q.val + 1)
  .next (if x.mode = 3 ∧ x.returning = false ∧ x.shifting = none then
      (((s.modRing (2 * q.val + 1) fun x => { x with mode := 0, links := [] }).modPwr fun p =>
        p.release (264 + (2 * q.val + 1))).fireRing (2 * q.val + 1) 5).edgesLeft
    else s)

/-! Die and I/O links -/

/-- DIE_LINK_CONTROL_SLOT (R80, Table 4.11). -/
def execDieLinkControlSlot (n : Fin 50) (init : Bool) (counts : List Nat) (s : State) : Out :=
  .next (if isLinkPort n && !(s.port n).down && (s.port n).active then
      (s.modPort n fun x => x.control init counts).egress n
    else s)

/-- The port enters Active: a new group alignment, no credits held, the unacknowledged slots again, and then the initial
grant of 16 for each class (R77, R80, R81). -/
def Port.enterActive (x : Port) : Port :=
  let x := { x with active := true, exitAt := none, creds := [], fdi := [], sent := [] }
  let x := match x.tx.replay with
    | (seq, _) :: _ => x.sendAgain seq
    | [] => x
  { x with oweInit := true, owed := (List.range 6).foldl (fun m c => NMap.set zeroNat m c 16) [] }.give

/-- LINK_ACTIVE_ENTRY (R80, R81, R395, R417). -/
def execLinkActiveEntry (n : Fin 50) (s : State) : Out :=
  .next (if s.fclkRuns = true ∧ isLinkPort n ∧ (s.port n).down = false ∧ (s.port n).active = false then
      let back := (s.port n).exitAt.isSome
      let s := s.modPort n Port.enterActive
      if back then s.firePort n 3 else s
    else s)

/-- LINK_ACTIVE_EXIT: the port stops sending and keeps its replay buffer and sequence numbers (R81). -/
def execLinkActiveExit (n : Fin 50) (s : State) : Out :=
  .next (if isLinkPort n ∧ (s.port n).active = true then
      s.modPort n fun x => { x with active := false, exitAt := some s.time }
    else s)

/-- The caching agents behind a port (Table 2.2). -/
def casBehind (n : Nat) : List Nat := (List.range 64).filter (fun g => portOfNode g == some n)

/-- Treat every answer one tracker awaits from a dead agent as arrived in poisoned form (R370, R70, R148); its `DataM` is a
transfer of ownership (R199). -/
def State.deadAnswer (s : State) (p t g : Nat) : State :=
  match (s.slice p).trk t with
  | none => s
  | some k =>
    if !(k.awaits.getLsbD g) then s
    else
      let a := k.lineAddr
      let x := s.slice p
      let m := { mkMsg 0x29 (BitVec.ofNat 10 g) 1023 with home := x.lslice, addr := a, htag := BitVec.ofNat 8 t }
      let o := x.line a
      let dataFor := fun (s : State) (opc : Nat) =>
        let s := s.emit p { x.homeMsg opc k.req.src a with txn := k.req.txn, poison := 0xFF }
        if opc = 0x38 then s.loadRecent p a else s
      if !k.ownerForm then s.invAck p m
      else if k.phase = .chained then (dataFor s 0x38).fwdDone p { m with opc := 0x2A }
      else if k.phase = .forward ∧ o.pend = 2 then (dataFor s 0x3A).fwdDone p { m with opc := 0x2A }
      else if k.phase = .forward then (dataFor s 0x39).copyBack p { m with opc := 0x3B, cls := 5, poison := 0xFF }
      else s.recallData p { m with opc := 0x3C, cls := 5, poison := 0xFF }

/-- Take a link down; of what its port has ejected, only what a dead agent must answer stays (R47, R81, R370). -/
def State.linkDown (s : State) (n : Nat) : State :=
  if (s.port n).down ∨ isLinkPort n = false then s
  else
    let s := s.modPort n fun x => { x with
      down := true, active := false, exitAt := none
      stop := { x.stop with eject := NMap.mapv noEjected (fun _ l => l.filter forDead) x.stop.eject } }
    let s := (s.record { cls := 1, unit := 2, index := n, code := 0x28 }).firePort n 1
    (List.range 132).foldl (fun s p =>
      if (s.slice p).used.isEmpty then s
      else (List.range 256).foldl (fun s t =>
        (casBehind n).foldl (fun s g => s.deadAnswer p t g) s) s) s

/-- LINK_ACTIVE_TIMEOUT: no return to Active within 100 µs (R81). -/
def execLinkActiveTimeout (n : Fin 50) (s : State) : Out :=
  .next (match (s.port n).exitAt with
    | some at_ => if s.pwr.state = 0 ∧ at_ + 100 ≤ s.time then s.linkDown n else s
    | none => s)

/-- LINK_DOWN: the eighth failed resend in either direction (R47, R370). -/
def execLinkDown (n : Fin 50) (s : State) : Out :=
  .next (if 8 ≤ (s.port n).tx.fails ∨ 8 ≤ (s.port n).rx.fails then s.linkDown n else s)

/-- The poisoned answers a port gives for dead agent `g`: the message to the home, and to REQID where R70 names one
(R148, R370). A `BackInv` names its owner in DST, its sharers in the vector (R70). -/
def deadReplies (g : BitVec 10) (m : Msg) : List Msg :=
  let home := fun (opc : Nat) => { mkMsg opc g 1023 with home := m.home, addr := m.addr, htag := m.htag }
  let poisoned := fun (opc : Nat) => { home opc with poison := 0xFF }
  let data := fun (opc : Nat) => { mkMsg opc g m.reqid with txn := m.txn, home := m.home, addr := m.addr, poison := 0xFF }
  match m.opc.toNat with
  | 0x20 => [data 0x38, home 0x2A]
  | 0x21 => [data 0x39, poisoned 0x3B]
  | 0x22 => [data 0x3A, home 0x2A]
  | 0x23 => [home 0x29]
  | 0x24 => if m.dst = 1022 then [home 0x29] else [poisoned 0x3C]
  | 0x25 => [poisoned 0x3C]
  | 0x19 => [{ mkMsg 0x32 g 1020 with htag := m.htag }]
  | _ => []

/-- DEAD_AGENT_FORWARD: the port of a dead agent takes a message from its ejection queues and answers it (R370). -/
def execDeadAgentForward (n : Fin 50) (m : Msg) (s : State) : Out :=
  .next (if (s.port n).down = false then s
    else
      match (s.port n).stop.pull m with
      | none => s
      | some (e, st) => (deadReplies e.dest m).foldl
          (fun s r => if r.dst = 1023 then s.sendHome n r else s.sendNode n r) (s.modPort n fun x => { x with stop := st }))

end Sys2Proof.Machine
end

