-- ==== Sys2Proof/Machine/Interrupts.lean ====
section
/-! DEFINITION. The meanings of the event aggregator's rows, of the report queues' and of the counters' (chapters 14
to 16), and MSI-X writes (R290). -/

namespace Sys2Proof.Machine

/-! Delivery to the host (R290, R332) -/

def Hfn.vector (h : Hfn) (v : Nat) : MsixEnt := h.msix.get MsixEnt.dflt v

/-- The function sends upstream: bus-master enable is set, it is in D0 and not in reset (R332, R339, R345). -/
def Hfn.sends (h : Hfn) : Bool := h.bme && !h.d3hot && !h.inReset

/-- A vector's write goes out now (R290, PCIe). -/
def Hfn.msixOpen (h : Hfn) (v : Nat) : Bool := h.sends && h.msixEn && !h.msixMask && !(h.vector v).mask

/-- Issue a vector's MSI-X write, or hold it in the pending-bit array (R290). -/
def State.msixWrite (s : State) (v : Nat) : State :=
  if s.hfn.msixOpen v then
    let s := s.modHfn fun h => { h with up := h.up ++ [.msix (h.vector v).addr (h.vector v).data] }
    s.glbEvent 0x03
  else s.modHfn fun h => { h with pba := h.pba.set noBool v true }

/-- Send the held writes that nothing blocks any more (R290, R345). -/
def State.msixRelease (s : State) : State :=
  s.hfn.pba.foldl (fun s e =>
    if e.2 && s.hfn.msixOpen e.1 then
      (s.modHfn fun h => { h with pba := h.pba.set noBool e.1 false }).msixWrite e.1
    else s) s

/-! Aggregator rows -/

/-- The aggregator's domain is powered off or its clock gated (R292, Table 19.1). -/
def State.iagStopped (s : State) : Bool := s.pwr.domOff 321 || s.pwr.domGated 321

/-- Take the first copy of a number out of a list. -/
def dropOne (n : Nat) : List Nat → List Nat
  | [] => []
  | x :: rest => if x = n then rest else x :: dropOne n rest

/-- EVENT_CAPTURE: an event that has reached the aggregator is captured (R281, R282, R284, R285). -/
def execEventCapture (n : Fin 1536) (s : State) : Out :=
  .next (if s.iagStopped || !(s.iag.arrived.contains n.val) then s
    else (s.modIag fun x => { x with arrived := dropOne n x.arrived }).capture n)

/-- WINDOW_EXPIRY (R285 steps 3 and 4). -/
def execWindowExpiry (g : Fin 64) (s : State) : Out :=
  .next (if !s.iagStopped && (s.grp g).expired then s.closeWindow g else s)

/-- Commit source `n` to its MSI-X vector (R281, R290). -/
def State.commitHost (s : State) (n : Nat) : State :=
  let v := (s.src n).target
  ((s.commitMark n).modIag fun x => { x with toHost := x.toHost + 1 }).msixWrite v

/-- SOURCE_COMMIT: the lowest ready source its target can take (R285 steps 5 and 6, R287, R288, R290). -/
def execSourceCommit (n : Fin 1536) (s : State) : Out :=
  .next (
    let x := s.src n
    let first := (s.readySrcs x.host x.target).head? == some n.val
    if s.iagStopped || !first then s
    else if x.host then (if s.hfn.inReset then s else s.commitHost n)
    else if x.target ≤ 132 ∧ s.canTake x.target = true then s.commitEngine n else s)

/-- WAIT_WAKE (R289). -/
def execWaitWake (e : Fin 134) (s : State) : Out :=
  .next (if (s.eng e).state = 2 ∧ s.iagStopped = false then s.wake e else s)

/-- A write of `IAG_HOST_EOI` (R291). -/
def State.hostEoi (s : State) (n : Nat) : State := if (s.src n).host && (s.src n).act then s.endActive n else s

/-- IAG_HOST_EOI (R291). -/
def execIagHostEoi (v : BitVec 11) (s : State) : Out := .next (s.regWrite fun s => s.hostEoi v.toNat)

/-- A write of `IAG_DOORBELL` (R293). -/
def State.doorbell (s : State) (e : Nat) : State := if e ≤ 133 then s.fire (1304 + e) else s

/-- IAG_DOORBELL (R293). -/
def execIagDoorbell (v : BitVec 8) (s : State) : Out := .next (s.regWrite fun s => s.doorbell v.toNat)

/-- A new configuration can be taken: EN has been clear for 3 ECLK, ACTIVE is clear, the target exists and is one the
source can have (R283, R293). -/
def State.srcCfgOk (s : State) (n : Nat) (cfg : BitVec 32) : Bool :=
  let x := s.src n
  !x.en && x.hist.all (fun h => decide (h.1 + 6 ≤ s.fclk)) && !x.act
    && (cfg.getLsbD 1 || decide ((cfg.extractLsb' 2 9).toNat ≤ 132))
    && srcTargetOk n (cfg.getLsbD 1) (cfg.extractLsb' 2 9).toNat

/-- A write of `IAG_SRC_n`; the answer says that it was discarded. Setting EN of a pending source is a capture: of an active
one it takes the mark of a closed window away (R282, R283, R286, R287, R291). -/
def State.srcWrite (s : State) (n : Nat) (v : Word) : State × Bool :=
  let s := s.noteRsvd (v.extractLsb' 34 30 != 0)
  let x := s.src n
  let cfg : BitVec 32 := v.extractLsb' 0 32
  if (cfg ||| 1) ≠ (x.cfg ||| 1) ∧ s.srcCfgOk n cfg = false then (s.modIag fun x => { x with cfgRefused := true }, true)
  else
    let clear := v.getLsbD 32
    let hist := x.hist.filter (fun h => decide (s.fclk < h.1 + 6))
    let s := s.modSrc n fun x => { x with
      cfg
      hist := if cfg.getLsbD 0 = x.en then hist else (s.fclk, x.en) :: hist
      act := x.act && !(clear && x.host)
      pend := x.pend && !clear
      ready := x.ready && !clear && !(!x.en && cfg.getLsbD 0 && x.act && x.pend) }
    (if !x.en && (s.src n).en && (s.src n).pend then s.countIn (s.src n).group else s, false)

/-- IAG_SRC_WRITE. -/
def execIagSrcWrite (n : Fin 1536) (v : Word) (s : State) : Out := .next (s.regWrite fun s => (s.srcWrite n v).1)

/-! Report queues -/

/-- RPQ_FLUSH (R301). -/
def execRpqFlush (q : Fin 32) (s : State) : Out := .next (s.regWrite fun s => s.rpqFlush q)

/-! Counters -/

/-- An event code Table 16.6 has for the owner of counter `c`. -/
def pmcEventOk (c ev : Nat) : Bool :=
  if c < 1056 then decide (ev ≤ 0x0B) || (decide (0x10 ≤ ev) && decide (ev ≤ 0x18))
  else if c < 1152 then decide (ev ≤ 0x07) || (decide (0x10 ≤ ev) && decide (ev ≤ 0x12))
  else if c < 1552 then decide (ev ≤ 0x05) || (decide (0x10 ≤ ev) && decide (ev ≤ 0x11))
  else decide (ev ≤ 0x07) || (decide (0x10 ≤ ev) && decide (ev ≤ 0x11))

/-- A selector that can be taken (R307, Table 16.3). -/
def pmcSelOk (c : Nat) (v : BitVec 32) : Bool :=
  let ev := (v.extractLsb' 0 8).toNat
  let ring := decide (1056 ≤ c) && decide (c < 1152)
  pmcEventOk c ev && (!v.getLsbD 8 || decide (0x10 ≤ ev)) && !(ring && v.extractLsb' 21 3 == 6)

/-- A write of `PMC_SEL_c`; the answer says that it was discarded (R307). -/
def State.pmcSel (s : State) (c : Nat) (v : BitVec 32) : State × Bool :=
  let s := s.noteRsvd (v.extractLsb' 26 6 != 0)
  if pmcSelOk c v then (s.modPmc fun m => { m with sel := m.sel.set pmcSelReset c (v &&& 0x3FFFFFF) }, false)
  else (s.modPmc fun m => { m with selRefused := true }, true)

/-- PMC_SEL_WRITE (R307). -/
def execPmcSelWrite (c : Fin 1584) (v : BitVec 32) (s : State) : Out := .next (s.regWrite fun s => (s.pmcSel c v).1)

/-- A write of `PMC_CNT_c` (R307). -/
def State.pmcCnt (s : State) (c : Nat) (v : Word) : State :=
  (s.noteRsvd (v.extractLsb' 48 16 != 0)).modPmc fun m => { m with cnt := m.cnt.set zero48 c (v.extractLsb' 0 48) }

/-- PMC_CNT_WRITE (R307). -/
def execPmcCntWrite (c : Fin 1584) (v : Word) (s : State) : Out := .next (s.regWrite fun s => s.pmcCnt c v)

/-- Stop or restart every counter (R308). -/
def State.pmcFreeze (s : State) (stop : Bool) : State := s.modPmc fun m => { m with freeze := stop }

/-- PMC_FREEZE (R308). -/
def execPmcFreeze (s : State) : Out := .next (s.regWrite fun s => s.pmcFreeze true)

/-- PMC_UNFREEZE (R308). -/
def execPmcUnfreeze (s : State) : Out := .next (s.regWrite fun s => s.pmcFreeze false)

/-- Copy every counter into its shadow, or refuse while a copy runs (R309). -/
def State.pmcSnapshot (s : State) : State :=
  s.modPmc fun m => if m.snapBusy then { m with snapRefused := true } else { m with shadow := m.cnt, snapBusy := true }

/-- PMC_SNAPSHOT (R309). -/
def execPmcSnapshot (s : State) : Out := .next (s.regWrite fun s => s.pmcSnapshot)

/-- PMC_SNAPSHOT_DONE (R309). -/
def execPmcSnapshotDone (s : State) : Out :=
  .next (if s.pmc.snapBusy then ((s.modPmc fun m => { m with snapBusy := false }).fire 1445).awaitEnd .snapshot 0 0 else s)

/-- COUNTER_WRAP: a counter that has wrapped sets its overflow bit (R306). -/
def execCounterWrap (c : Fin 1584) (s : State) : Out :=
  .next (if s.pmc.wrapped.contains c.val then
      let s := s.modPmc fun m => { m with wrapped := dropOne c m.wrapped, ovf := m.ovf.set noBool c true }
      if (s.pmc.sel.get pmcSelReset c).getLsbD 25 then s.fire 1446 else s
    else s)

end Sys2Proof.Machine
end

