-- ==== Sys2Proof/Machine/RasOps.lean ====
section
/-! DEFINITION. Error records, the logs and log spill (R339, R340, R362 to R367, R386). -/

namespace Sys2Proof.Machine

/-! The record (Table 20.1) -/

/-- Bytes 0 to 59 of a record. -/
def recBody (e : ErrRec) : List Byte :=
  let flags := (if e.addr.isSome then 1 else 0) + (if e.agent.isSome then 2 else 0) + (if e.byTest then 4 else 0)
    + (if e.lost then 8 else 0)
  leBytes 4 e.seq.toNat ++ leBytes 8 e.time ++ leBytes 1 e.cls.toNat ++ leBytes 1 e.unit.toNat ++ leBytes 2 e.index
    ++ leBytes 1 e.code.toNat ++ leBytes 1 flags ++ leBytes 2 ((e.agent.map (·.toNat)).getD 0)
    ++ leBytes 8 ((e.addr.map (·.toNat)).getD 0) ++ leBytes 8 e.detail.toNat ++ leBytes 2 e.extra.toNat
    ++ List.replicate 22 0

/-- The 64 bytes of a record, CHECK included. -/
def recBytes (e : ErrRec) : List Byte := recBody e ++ leBytes 4 (crc32c (bitsLsb (recBody e))).toNat

/-- A record as 64 bytes of memory. -/
def recLine (e : ErrRec) : LineData := BitVec.ofNat 512 (leNat (recBytes e))

/-! Logs -/

/-- The log a record enters: its slice's, for the slice and its spoke engine, else the global log, 132 (R365). -/
def logOf (e : ErrRec) : Nat := if (e.unit = 0 ∨ e.unit = 3) ∧ e.index < 132 then e.index else 132

def logSize (k : Nat) : Nat := if k = 132 then 64 else 16

/-- Take the last record that is not block-fatal out of a list, the newest first. -/
def dropOldest : List ErrRec → Option (List ErrRec)
  | [] => none
  | e :: rest =>
    match dropOldest rest with
    | some l => some (e :: l)
    | none => if e.cls = 2 then none else some rest

/-- A record enters a log; the flag says that a record was lost (R365). -/
def Log.push (l : Log) (size : Nat) (e : ErrRec) : Log × Bool :=
  let e := { e with lost := l.lost }
  if l.recs.length < size then ({ recs := e :: l.recs, lost := false }, false)
  else
    match dropOldest l.recs with
    | some r => ({ recs := e :: r, lost := true }, true)
    | none => ({ l with lost := true }, true)

def State.log (s : State) (k : Nat) : Log := s.ras.logs.get Log.dflt k

/-- The record that `RAS_LOG_SEL` selects. -/
def Ras.selected (r : Ras) : Option ErrRec :=
  if 132 < r.logSel.toNat then none else (r.logs.get Log.dflt r.logSel.toNat).recs[r.logPos.toNat]?

/-- Copy a record into the report queue of `RAS_CTRL.RPQ`, whole or not at all (R366). -/
def State.recordRpq (s : State) (e : ErrRec) : State :=
  if !s.ras.rpqEn then s
  else
    let q := s.ras.rpqSel.toNat
    let x := s.rpqOf q
    if 1024 < x.ents.length + 16 then
      (s.modRpq q fun x => { x with
        loss := true, drops := BitVec.ofNat 16 (satAdd 0xFFFF x.drops.toNat 16) }).glbEvent 0x05 16
    else
      (List.range 16).foldl (fun s i =>
        s.rpqPush q (BitVec.ofNat 32 (leNat ((recBytes e).drop (4 * i) |>.take 4))) 4) s

/-! The spill buffer (R339, R367) -/

/-- The records of every log. -/
def State.allRecs (s : State) : List ErrRec := s.ras.logs.flatMap (fun e => e.2.recs)

/-- Offer one record to the spill buffer. -/
def State.spillOffer (s : State) (e : ErrRec) : State :=
  if 64 ≤ s.hfn.spillBuf.length then
    s.modHfn fun h => { h with spillDrop := satInc16 h.spillDrop, drops := h.drops + 1 }
  else s.modHfn fun h => { h with spillBuf := h.spillBuf ++ [e] }

/-- The running steward copies every record not copied yet, in SEQ order (R367). -/
def State.spillCopy (s : State) : State :=
  if !s.stewardRuns then s
  else
    let todo := (List.range (s.ras.next - s.ras.spilled)).map (fun i => BitVec.ofNat 32 (s.ras.spilled + i))
    let s' := todo.foldl (fun s' n => match s.allRecs.find? (fun e => e.seq == n) with
      | some e => s'.spillOffer e
      | none => s') s
    s'.modRas fun r => { r with spilled := r.next }

/-- Records in the host ring that software has not freed, and the ring's size. -/
def Hfn.spillFill (h : Hfn) : Nat := (h.spillWr - h.spillRd).toNat
def Hfn.spillN (h : Hfn) : Nat := 2 ^ h.spillSize.toNat

/-- Source 1458 fires where WR - RD has risen, from `s` to `t`, from below LEVEL to LEVEL or above; LEVEL 0 has none below
it (R339). -/
def State.spillRose (s t : State) : State :=
  if s.hfn.spillFill < t.hfn.spillLevel.toNat ∧ t.hfn.spillLevel.toNat ≤ t.hfn.spillFill then t.fire 1458 else t

/-- Write the first buffered record to host memory when R339 allows. -/
def State.spillOne (s : State) : State :=
  let h := s.hfn
  match h.spillBuf with
  | [] => s
  | e :: rest =>
    if !h.spillEn || !h.sends || decide (h.spillN ≤ h.spillFill) then s
    else
      let at_ := BitVec.ofNat 64 (h.spillBase.toNat * 4096 + 64 * (h.spillWr.toNat % h.spillN))
      s.spillRose (s.modHfn fun h => { h with
        up := h.up ++ [.spill at_ (recLine e)], spillBuf := rest, spillWr := h.spillWr + 1 })

/-- Spill the buffer as far as R339 allows. -/
def State.spillAll (s : State) : State := (List.range s.hfn.spillBuf.length).foldl (fun s _ => s.spillOne) s

/-- LOG_SPILL_WRITE (R339, R367). -/
def execLogSpillWrite (s : State) : Out := .next (s.spillCopy).spillOne

/-! The collector (R365) -/

/-- Count a record by class and fire its source (R362, R364). -/
def State.countRecord (s : State) (e : ErrRec) : State :=
  if e.cls = 0 then ((s.modRas fun r => { r with corrected := r.corrected + 1 }).glbEvent 0x06).fire 1447
  else if e.cls = 1 then ((s.modRas fun r => { r with contained := r.contained + 1 }).glbEvent 0x07).fire 1448
  else s.modRas fun r => { r with fatals := r.fatals + 1 }

/-- The first block-fatal detection takes its record's SEQ (Table 20.9). -/
def Saf.number (x : Saf) (e : ErrRec) : Saf :=
  match x.fatal with
  | some f =>
    if f.seq.isNone ∧ e.cls = 2 ∧ f.code = e.code ∧ f.unit = e.unit ∧ f.index = e.index then
      { x with fatal := some { f with seq := some e.seq } }
    else x
  | none => x

/-- The collector numbers a record and logs it (R365); after the freeze it counts only in LOST (R386). -/
def State.collect (s : State) (e : ErrRec) : State :=
  if s.ras.frozen then s.modRas fun r => { r with lost := satInc16 r.lost }
  else
    let e := { e with seq := BitVec.ofNat 32 s.ras.next }
    let k := logOf e
    let (l, gone) := (s.log k).push (logSize k) e
    let s := s.modRas fun r => { r with
      next := r.next + 1, logs := r.logs.set Log.dflt k l, lost := if gone then satInc16 r.lost else r.lost }
    (((s.modSaf fun x => x.number e).countRecord e).recordRpq e).spillCopy

/-- Record `a` takes its number before `b`: an earlier ECLK, and in one ECLK the lower UNIT and then INDEX (R365). -/
def recBefore (a b : ErrRec) : Bool :=
  if a.eclk ≠ b.eclk then decide (a.eclk < b.eclk)
  else if a.unit ≠ b.unit then decide (a.unit.toNat < b.unit.toNat)
  else decide (a.index ≤ b.index)

/-- The record that reaches the collector next, and those behind it. -/
def recNext : List ErrRec → Option (ErrRec × List ErrRec)
  | [] => none
  | e :: rest =>
    match recNext rest with
    | none => some (e, rest)
    | some (d, l) => if recBefore e d then some (e, rest) else some (d, e :: l)

/-- ERROR_RECORD: the next record on its way reaches the collector (R365). -/
def execErrorRecord (s : State) : Out :=
  .next (match recNext s.ras.inflight with
    | none => s
    | some (e, rest) => (s.modRas fun r => { r with inflight := rest }).collect e)

/-! The host's side of the spill ring -/

/-- A write of `HFN_SPILL_RD`; one that lowers RD can raise the fill to LEVEL (R339, R340). -/
def State.spillRd (s : State) (v : BitVec 32) : State :=
  if s.hfn.spillN < (s.hfn.spillWr - v).toNat then s
  else s.spillRose { s with hfn := { s.hfn with spillRd := v } }

/-- SPILL_RD_WRITE (R340). -/
def execSpillRdWrite (v : BitVec 32) (s : State) : Out := .next (s.spillRd v)

/-- A write of `HFN_SPILL_CTRL`: discarded whole with SIZE out of range, or changed while EN is set (R340, Table
18.7); setting EN starts spilling. -/
def State.spillCtrl (s : State) (v : BitVec 32) : State :=
  let s := s.noteRsvd (v.extractLsb' 22 10 != 0)
  let size := v.extractLsb' 1 5
  if size.toNat < 6 ∨ 16 < size.toNat ∨ (s.hfn.spillEn = true ∧ size ≠ s.hfn.spillSize) then s
  else
    let s := s.modHfn fun h => { h with spillEn := v.getLsbD 0, spillSize := size, spillLevel := v.extractLsb' 6 16 }
    s.spillAll

/-- SPILL_CTRL_WRITE (R340). -/
def execSpillCtrlWrite (v : BitVec 32) (s : State) : Out := .next (s.spillCtrl v)

end Sys2Proof.Machine
end

