-- ==== Sys2Proof/Machine/Relay.lean ====
section
/-! DEFINITION. The steward port relay: relayed requests and their completions, and broadcast invalidation (R9, R29,
R172, R274, R275, R280). -/

namespace Sys2Proof.Machine

/-- Take a message out of an internal or memory port's ejection queues: a flit out of the port (R314, Table 16.6). -/
def State.portTake (s : State) (n : Nat) (m : Msg) : State :=
  match (s.port n).stop.pull m with
  | some (_, st) => (s.modPort n fun x => { x with stop := st }).portEvent n 0x02
  | none => s

/-- STEWARD_RELAY: an engine's request or `HlcMaint` goes on to the home's pair once a credit for it is free, and the
home's answers go on to the engine's slice; the last one frees the entry (R9, R29, Table 5.1). -/
def execStewardRelay (m : Msg) (s : State) : Out :=
  .next (if m.dst = 1023 then
      let req := m.cls == 0
      let full := if req then decide (11 ≤ s.portHolds 132 m.home) else decide (maintMost 48 ≤ s.maintUsed 48 m.home.toNat)
      if full then s
      else
        let s := s.portTake 48 m
        let s := s.modStw fun x => { x with
          relays := x.relays ++ [{ src := m.src, txn := m.txn, home := m.home, req, since := s.time }] }
        let s := s.portEvent 48 0x01
        if s.mustWait 48 m then s.holdBack 48 m else s.sendHome 48 m
    else if isEngine m.dst.toNat then
      let s := s.portTake 48 m
      let ends := m.cret || m.opc == 0x34
      let s := if ends then (s.modStw fun x => { x with
        relays := x.relays.filter (fun r => !(r.src == m.dst && r.txn == m.txn)) }).maintServe 48 else s
      (s.portEvent 48 0x01).sendNode 48 m
    else s)

/-! Broadcast invalidation (R74, R274, R275) -/

/-- The fields of a `TlbInv` or `TlbShoot` payload (R74). -/
def tlbVa (m : Msg) : Word := m.data.extractLsb' 64 64
def tlbSize (m : Msg) : Nat := (m.data.extractLsb' 128 8).toNat
def tlbAll (m : Msg) : Bool := m.data.getLsbD 136

/-- Drop what a broadcast names from an engine's translation state; walks in flight walk again (R275). -/
def Eng.invalidate (g : Eng) (m : Msg) : Eng :=
  let lo := (tlbVa m).toNat / 2 ^ tlbSize m * 2 ^ tlbSize m
  let hi := lo + 2 ^ tlbSize m
  { g with
    tlb := g.tlb.filter fun t => !(tlbAll m || (decide (t.va.toNat < hi) && decide (lo < t.va.toNat + 2 ^ t.size)))
    wc := [], walk := g.walk.map fun k => { k with again := true } }

/-- Send `TlbInvDone` (R274). -/
def State.tlbDone (s : State) (dst : BitVec 10) (txn : BitVec 12) (stat : BitVec 4) : State :=
  (s.portEvent 48 0x01).sendNode 48 { mkMsg 0x33 1020 dst with txn, stat }

/-- TLB_INV (R274): a collection entry is taken, one `TlbShoot` goes out on each pair, and the relay invalidates the
steward engines itself. -/
def execTlbInv (m : Msg) (s : State) : Out :=
  .next (
    let s := s.portTake 48 m
    let bad := isCA m.src.toNat && !tlbAll m && (decide (tlbSize m < 12) || decide (48 < tlbSize m))
    if bad then
      (s.modStw fun x => { x with shootsBad := x.shootsBad + 1 }).tlbDone m.src m.txn 7
    else if 197 ≤ s.stw.shoots.length then s
    else
      let idx := leastFree (s.stw.shoots.map (·.idx))
      let vec := s.stw.shootMask &&& s.glb.agents
      let s := s.modStw fun x => { x with shoots := x.shoots ++
        [{ idx, src := m.src, txn := m.txn, slices := 132, agents := vec, since := s.time }] }
      let shoot := { mkMsg 0x19 1020 1022 with
        htag := BitVec.ofNat 8 idx, data := ((m.data.extractLsb' 64 80).setWidth 512 <<< 64) ||| vec.setWidth 512 }
      let s := [0, 1, 2].foldl (fun s q => (s.portEvent 48 0x01).modPort 48 fun x => { x with stop := { x.stop with
        outbox := x.stop.outbox ++ [{ flitOf shoot 0 with orig := BitVec.ofNat 7 q }] } }) s
      (s.modEng 132 fun g => g.invalidate m).modEng 133 fun g => g.invalidate m)

/-- TLB_SHOOT: a slice invalidates for its own engine and answers, also for an engine in reset (R15, R275). -/
def execTlbShoot (p : Fin 132) (m : Msg) (s : State) : Out :=
  .next (s.taking p m fun s =>
    (s.modEng p fun g => g.invalidate m).emit p { mkMsg 0x32 1023 1020 with htag := m.htag })

/-- TLB_SHOOT_ACK: the last answer ends the broadcast (R274). -/
def execTlbShootAck (m : Msg) (s : State) : Out :=
  .next (
    let s := s.portTake 48 m
    let mark : ShootEnt → ShootEnt := fun e =>
      if e.idx ≠ m.htag.toNat then e
      else if m.src = 1023 then { e with slices := e.slices - 1 }
      else { e with agents := e.agents &&& ~~~(agentBit m.src.toNat) }
    let shoots := s.stw.shoots.map mark
    let over_ := shoots.filter fun e => e.slices == 0 && e.agents == 0
    let s := s.modStw fun x => { x with
      shoots := shoots.filter fun e => !(e.slices == 0 && e.agents == 0)
      shootsDone := x.shootsDone + BitVec.ofNat 32 over_.length }
    over_.foldl (fun s e => (s.glbEvent 0x04).tlbDone e.src e.txn 0) s)

/-- The tracker watchdog threshold (R102). -/
def State.wdog (s : State) : Nat := (s.slice 0).wdogUs.toNat

/-- TLB_COLLECTION_TIMEOUT: a collection entry open beyond the threshold is reported once with the agents that have
not answered (R274, codes `0x14`, source 1455). -/
def execTlbCollectionTimeout (i : BitVec 8) (s : State) : Out :=
  .next (match s.stw.shoots.find? (fun e => e.idx == i.toNat && !e.reported) with
    | none => s
    | some e =>
      if s.time - e.since < s.wdog then s
      else
        let s := s.modStw fun y => { y with shoots := y.shoots.map fun (x : ShootEnt) =>
          if x.idx = e.idx then { x with reported := true } else x }
        (s.record { cls := 1, unit := 2, index := 48, code := 0x14, agent := some e.src, detail := e.agents }).fire 1455)

end Sys2Proof.Machine
end

