-- ==== Sys2Proof/Machine/MemPorts.lean ====
section
/-! DEFINITION. Memory ports: tags, commands, responses, timeouts and the controller's ready (R401, R409 to R412). -/

namespace Sys2Proof.Machine

def State.mpt (s : State) (m : Nat) : Mpt := s.mpts.get Mpt.dflt m
def State.modMpt (s : State) (m : Nat) (f : Mpt → Mpt) : State :=
  { s with mpts := s.mpts.set Mpt.dflt m (f (s.mpt m)) }

/-- Port index of MPm (R280). -/
def mptPort (m : Nat) : Nat := 20 + m

/-- A tag of a port is neither outstanding nor quarantined (R410). -/
def Mpt.tagFree (x : Mpt) (t : BitVec 10) : Bool :=
  !(x.cmds.any fun c => c.tag == t) && !(x.quar.any fun q => q.1 == t)

/-- The lowest free tag (R410; log 51). -/
def Mpt.freeTag (x : Mpt) : Option (BitVec 10) :=
  ((List.range 1024).map (BitVec.ofNat 10)).find? x.tagFree

/-- The port's answer to a `MemRd` or `MemWr` (R410): `MemData` with POISON all ones, or `MemAck`, on an error. -/
def memAnswer (m : Nat) (q : Msg) (wr : Bool) (stat : BitVec 4) (data : LineData) (poison : Byte) : Msg :=
  let a := { mkMsg (if wr then 0x35 else 0x3E) (BitVec.ofNat 10 (1008 + m)) 1023 with
    home := q.home, addr := q.addr, htag := q.htag, stat }
  if wr then a else { a with data, poison := if stat = 6 then 0xFF else poison }

/-- Send an answer toward the home; one with STAT `0x6` fires the port's source k = 0 (Table 14.2, R314). -/
def State.memSend (s : State) (m : Nat) (a : Msg) : State :=
  let s := (s.portEvent (mptPort m) 0x01).sendHome (mptPort m) a
  if a.stat = 6 then s.firePort (mptPort m) 0 else s

/-- The port answers a message itself with STAT `0x6` (R401, R411, R412). -/
def State.memFail (s : State) (m : Nat) (q : Msg) (wr : Bool) : State := s.memSend m (memAnswer m q wr 6 0 0)

/-- An error of memory port `m` without an answer, code `0x1A`. -/
def State.mptErr (s : State) (m : Nat) (q : Option LineAddr := none) : State :=
  s.record { cls := 1, unit := 2, index := mptPort m, code := 0x1A, addr := q }

/-- Commands that the controller has taken, and those it has not. -/
def Mpt.taken (x : Mpt) : List MptCmd := x.cmds.filter (·.xfer.isSome)
def Mpt.offered (x : Mpt) : List MptCmd := x.cmds.filter (·.xfer.isNone)

/-- A command stands at lane `k`. -/
def Mpt.laneBusy (x : Mpt) (k : Nat) : Bool := x.offered.any fun c => c.lane == some k

/-- The oldest command without a lane goes to lane `k`, if that is free (R409). -/
def Mpt.fillLane (x : Mpt) (k : Nat) : Mpt :=
  match x.offered.find? (·.lane.isNone) with
  | some c => if x.laneBusy k then x
    else { x with cmds := x.cmds.map fun d => if d.tag = c.tag then { d with lane := some k } else d }
  | none => x

/-- Commands go to the lanes in order, and stay at their lane until they transfer (R409). Which lane a command takes the
spec leaves open: the lowest free one. DESIGN CHOICE (log 51). -/
def Mpt.fill (x : Mpt) : Mpt := (x.fillLane 0).fillLane 1

/-- Give a message a tag, or let it wait: for a tag, or for one of the 16 slots of the crossing queue (R393, R410, Table
21.2). -/
def State.mptStart (s : State) (m : Nat) (q : Msg) : State :=
  s.modMpt m fun x =>
    match x.freeTag with
    | some tag => if x.waiting.isEmpty && decide (x.offered.length < 16) then
        Mpt.fill { x with cmds := x.cmds ++ [{ tag, wr := q.opc == 0x12, msg := q }] }
      else { x with waiting := x.waiting ++ [q] }
    | none => { x with waiting := x.waiting ++ [q] }

/-- Take up messages that wait at the port, in order (R410). -/
def State.mptRestart (s : State) (m : Nat) : State :=
  let l := (s.mpt m).waiting
  l.foldl (fun s q => s.mptStart m q) (s.modMpt m fun x => { x with waiting := [] })

/-- The slice answers a message itself with STAT `0x6` for a port that has lost its clock (Table 20.6). -/
def State.memLost (s : State) (m : Nat) (q : Msg) (wr : Bool) : State :=
  let a := memAnswer m q wr 6 0 0
  let p := (s.stwCopy.entry q.home.toNat).phys
  if wr then s.memAck p a else s.memData p a

/-- The clock of a memory port is lost (Table 20.6). -/
def State.mptSilent (s : State) (m : Nat) : Bool := s.clk.lost.contains (22 + m)

/-- A `MemRd` or `MemWr` at its port: translated, or answered at once while the port is down (R401, R410, R412). A
port declared down at start-up records `0x1A` once. -/
def State.memCommand (s : State) (m : Nat) (q : Msg) : State :=
  let s := s.portTake (mptPort m) q
  if s.mptSilent m then s.memLost m q (q.opc == 0x12)
  else if !(s.mpt m).down then s.mptStart m q
  else
    let first := s.rst.portDown.getLsbD (mptPort m) && !(s.rst.downTold.contains m)
    let s := if first then (s.modRst fun r => { r with downTold := m :: r.downTold }).mptErr m (some q.addr) else s
    s.memFail m q (q.opc == 0x12)

/-- MEM_RD (R410). -/
def execMemRd (m : Fin 12) (q : Msg) (s : State) : Out := .next (s.memCommand m { q with opc := 0x08 })

/-- MEM_WR (R410). -/
def execMemWr (m : Fin 12) (q : Msg) (s : State) : Out := .next (s.memCommand m { q with opc := 0x12 })

/-- A response that names no outstanding command: late, or an interface protocol error (R411). Of two lanes that name one
tag in a clock the first in the order of the commands answers it, and the second names a tag no longer outstanding.
DEDUCED (log 51). -/
def State.mptStray (s : State) (m : Nat) (tag : BitVec 10) : State :=
  if (s.mpt m).quar.any (fun q => q.1 == tag) then s.modMpt m fun x => { x with timeouts := satInc16 x.timeouts }
  else (s.modMpt m fun x => { x with protoErrs := satInc16 x.protoErrs }).firePort (mptPort m) 2

/-- A response of the controller (R410, R411). -/
def State.mptResponse (s : State) (m : Nat) (tag : BitVec 10) (wr : Bool) (stat : BitVec 4) (data : LineData)
    (poison : Byte) : State :=
  match (s.mpt m).cmds.find? (fun c => c.tag == tag && c.xfer.isSome && c.wr == wr) with
  | none => s.mptStray m tag
  | some c =>
    let s := s.modMpt m fun x => { x with cmds := x.cmds.filter fun d => d.tag != tag }
    (s.memSend m (memAnswer m c.msg wr stat data poison)).mptRestart m

/-- MEM_READ_RESPONSE (R410, R411). -/
def execMemReadResponse (m : Fin 12) (tag : BitVec 10) (data : LineData) (pois : Byte) (err : Bool) (s : State) : Out :=
  .next (s.mptResponse m tag false (if err then 6 else 0) data pois)

/-- MEM_WRITE_RESPONSE (R410, R411). -/
def execMemWriteResponse (m : Fin 12) (tag : BitVec 10) (err : Bool) (s : State) : Out :=
  .next (s.mptResponse m tag true (if err then 6 else 0) 0 0)

/-- The command was transferred 96,000 FCLK ago or earlier (R411). -/
def MptCmd.late (c : MptCmd) (fclk : Nat) : Bool := c.xfer.any fun at_ => decide (at_ + 96000 ≤ fclk)

/-- MEMORY_COMMAND_TIMEOUT: a command unanswered 40 µs after its transfer is answered by the port (R411). -/
def execMemoryCommandTimeout (m : Fin 12) (tag : BitVec 10) (s : State) : Out :=
  .next (match (s.mpt m).cmds.find? (fun c => c.tag == tag && c.late s.fclk) with
    | none => s
    | some c =>
      let s := s.modMpt m fun x => { x with
        cmds := x.cmds.filter fun d => d.tag != tag
        quar := x.quar ++ [(tag, s.time, false)]
        timeouts := satInc16 x.timeouts }
      ((s.memFail m c.msg c.wr).firePort (mptPort m) 1).mptErr m (some c.msg.addr))

/-- MEM_TAG_QUARANTINE_END: a quarantine of 1 ms, and of the controller's fall, is over (R411, R412). -/
def execMemTagQuarantineEnd (m : Fin 12) (tag : BitVec 10) (s : State) : Out :=
  let over_ := fun (q : BitVec 10 × Nat × Bool) => q.1 == tag && decide (q.2.1 + 1000 ≤ s.time) && !q.2.2
  .next (if (s.mpt m).quar.any over_ then
      (s.modMpt m fun x => { x with quar := x.quar.filter fun q => !over_ q }).mptRestart m
    else s)

/-- Answer every command of a port with STAT `0x6`, transferred ones first and in the order of their transfer, and
quarantine the tags (R412 steps 1 and 2). -/
def State.mptAnswerAll (s : State) (m : Nat) : State :=
  let x := s.mpt m
  let order := x.taken ++ x.offered
  let s := s.modMpt m fun x => { x with
    cmds := [], waiting := [], quar := x.quar ++ order.map fun c => (c.tag, s.time, true) }
  let s := order.foldl (fun s c => s.memFail m c.msg c.wr) s
  x.waiting.foldl (fun s q => s.memFail m q (q.opc == 0x12)) s

/-- MEM_READY_FALL (R280, R412): before the port was up only the change itself is reported. -/
def execMemReadyFall (m : Fin 12) (s : State) : Out :=
  .next (if !(s.mpt m).ready then s
    else if !(s.port (mptPort m)).up then (s.modMpt m fun x => { x with ready := false }).firePort (mptPort m) 3
    else
      let s := (s.modMpt m fun x => { x with ready := false, down := true }).mptAnswerAll m
      (s.mptErr m).firePort (mptPort m) 3)

/-- MEM_READY_RISE (R401, R412): a port declared down at start-up stays down. -/
def execMemReadyRise (m : Fin 12) (s : State) : Out :=
  .next (if (s.mpt m).ready then s
    else
      let s := s.modMpt m fun x => { x with
        ready := true
        down := s.rst.portDown.getLsbD (mptPort m)
        quar := x.quar.map fun q => (q.1, q.2.1, false) }
      s.firePort (mptPort m) 3)

/-- The controller takes the command at a lane: it is the last of those transferred, and the lane takes the next. -/
def Mpt.transfer (x : Mpt) (c : MptCmd) (fclk : Nat) : Mpt :=
  Mpt.fill { x with cmds := x.taken ++ { c with xfer := some fclk } :: takeFirst c x.offered }

/-- MEM_COMMAND_TRANSFER: the command at a lane is taken by the controller (R409). -/
def execMemCommandTransfer (m : Fin 12) (lane : Fin 2) (tag : BitVec 10) (s : State) : Out :=
  .next (if s.mptSilent m then s
    else match (s.mpt m).offered.find? (fun c => c.lane == some lane.val && c.tag == tag) with
      | some c => (s.modMpt m fun x => x.transfer c s.fclk).mptRestart m
      | none => s)

/-- The image of `MPT_STAT` (Table 22.5). -/
def State.mptStat (s : State) (m : Nat) : Word :=
  let x := s.mpt m
  BitVec.ofNat 64 ((if x.ready then 1 else 0) + (if x.down then 2 else 0) + 4 * (x.cmds.filter (!·.wr)).length
    + 2 ^ 11 * (x.cmds.filter (·.wr)).length + 2 ^ 32 * x.timeouts.toNat + 2 ^ 48 * x.protoErrs.toNat)

end Sys2Proof.Machine
end

