-- ==== Sys2Proof/Machine/Power.lean ====
section
/-! DEFINITION. Power commands, the drain, the handshakes, body bias, memory assist and held edges (chapter 19). -/

namespace Sys2Proof.Machine

/-! Images -/

/-- The image of `PWR_STAT` (Table 19.6). -/
def Pwr.stat (p : Pwr) : BitVec 32 :=
  BitVec.ofNat 32 ((if p.trans.isSome then 3 else p.state.toNat) + 4 * p.lastRefuse.toNat
    + (if p.held.any (fun d => !p.domOff d) then 32 else 0) + (if p.assist then 64 else 0) + 128 * p.bias.toNat
    + 512 * p.vcore.toNat)

/-- `kh_pstate` (Table 19.5). -/
def Pwr.pstate (p : Pwr) : BitVec 2 := if p.trans.isSome then 3 else p.state

/-- A block-fatal power error, code `0x50` (R358). -/
def State.pwrFatal (s : State) : State :=
  s.record { cls := 2, unit := 6, index := 0, code := 0x50, detail := s.pwr.stat.setWidth 64 }

/-! Holds -/

/-- Memory assist may be on: in Run, and until the drain that leads out of it has ended (R353, R357). -/
def Pwr.assists (p : Pwr) : Bool :=
  p.state == 0 && (match p.trans with
    | none => true
    | some t => t.phase == .drain)

/-- Memory assist as R357 wants it. -/
def Pwr.followAssist (p : Pwr) : Pwr := { p with assist := p.assists && decide (p.vcore.toNat ≤ 11) }

/-- Stop the steward at an instruction boundary, and let it go on, its watchdog counting anew (R352, R356, R381). -/
def State.stopSteward (s : State) : State :=
  ((s.quiesce 132).quiesce 133).modPwr fun p => { p with stwStopped := true }
def State.startSteward (s : State) : State :=
  (((s.resume 132).resume 133).modPwr fun p => { p with stwStopped := false }).modSaf fun x => { x with kickedAt := s.time }

/-- Engines that run or wait, and are not quiesced by software. -/
def State.busyEngines (s : State) : List Nat :=
  (List.range 132).filter fun e =>
    ((s.eng e).state == 1 || (s.eng e).state == 2) && !(s.eng e).quiesceReq && !(s.eng e).quiesced

/-- Resume the engines the block quiesced itself (R356). -/
def State.resumeOwn (s : State) : State :=
  (s.pwr.quiesced.foldl (fun s e => s.resume e) s).modPwr fun p => { p with quiesced := [] }

/-! Commands (R351) -/

/-- An engine that Freewheel entry refuses for: neither in reset nor halted, and not quiesced with an empty store
buffer (Table 19.3). -/
def Eng.unquiesced (g : Eng) : Bool := (g.state == 1 || g.state == 2) && !(g.quiesced && g.sb.isEmpty)

/-- A shift or return of a ring is in progress. -/
def Ring.busy (x : Ring) : Bool := x.shifting.isSome || x.returning

/-- The refusal cause of a command that Table 19.3 checks before any step, 0 for none. -/
def State.powerCause (s : State) (goal : BitVec 8) : BitVec 3 :=
  let entry := s.pwr.state == 0
  let named := if entry then goal == 1 || goal == 2 else goal == 0
  if !named then 1
  else if goal == 2 && (List.range 132).any (fun e => (s.eng e).unquiesced) then 2
  else if entry && (s.spare.run.isSome || (List.range 6).any (fun r => (s.ring r).busy)) then 3
  else if entry && (s.loader.busy || s.loader.updating) then 4
  else 0

/-- Refuse a power command (R351). -/
def State.powerRefuse (s : State) (cause : BitVec 3) : State :=
  ((s.modPwr fun p => { p with
    trans := none, lastRefuse := cause, refuseCnt := satInc16 p.refuseCnt, refusals := p.refusals + 1 }).fire
      1444).awaitEnd .power 2 (cause.setWidth 8)

/-- Begin the drain of R352. -/
def State.powerDrain (s : State) (goal : BitVec 2) : State :=
  let s := ((s.consWake 0).consWake 1).consWake 2
  let s := s.modGlb fun g => { g with ingressHold := true }
  let s := s.modSaf fun x => { x with probes := NMap.mapv Probe.dflt (fun _ q => { q with step := 0 }) x.probes }
  let own := if goal = 1 then s.busyEngines else []
  let s := (own.foldl (fun s e => s.quiesce e) s).modPwr fun p => { p with quiesced := own }
  s.stopSteward.modPwr fun p => { p with trans := some { goal, origin := 0, phase := .drain, since := s.time } }

/-- Begin an exit: the bias returns to 0 mV (R356, Table 19.4). -/
def State.powerExit (s : State) : State :=
  s.modPwr fun p => { p with
    bias := 0, stateReq := 0
    trans := some { goal := 0, origin := p.state, phase := .exitBias, since := s.time } }

/-- What a power command answers at once: nothing once the transition has begun. -/
inductive PowerRes where
  | busy
  | refused (cause : BitVec 3)
  | begun
  deriving DecidableEq, Repr

/-- A write of `0x3501:01`; under `kh_rst_n` none is served (R329, R351, R395). -/
def State.powerCmd (s : State) (goal : BitVec 8) : State × PowerRes :=
  if s.pwr.trans.isSome ∨ s.saf.kick ≠ .none ∨ s.rst.released = false then (s, .busy)
  else
    let c := s.powerCause goal
    if c ≠ 0 then (s.powerRefuse c, .refused c)
    else if goal = 0 then (s.powerExit, .begun)
    else (s.powerDrain (goal.setWidth 2), .begun)

/-- COAST_ENTRY (R351 to R353). -/
def execCoastEntry (s : State) : Out := .next (s.powerCmd 1).1

/-- COAST_EXIT: a command to Run that finds the block in Freewheel is the next but one row's (R356). -/
def execCoastExit (s : State) : Out := .next (if s.pwr.state = 2 then s else (s.powerCmd 0).1)

/-- FREEWHEEL_ENTRY (R351, R352, R354). -/
def execFreewheelEntry (s : State) : Out := .next (s.powerCmd 2).1

/-- FREEWHEEL_EXIT (R356, Table 19.4). -/
def execFreewheelExit (s : State) : Out := .next (if s.pwr.state = 1 then s else (s.powerCmd 0).1)

/-! The drain (R352) -/

/-- Every structure of R352 step 6 in a slice is empty. -/
def Slice.drained (x : Slice) : Bool :=
  x.used.isEmpty && x.crq.isEmpty && x.hlc.maint.isEmpty && x.hlc.evbs.isEmpty && x.stop.eject.isEmpty
    && x.olt.all fun e => e.2.mode == 0 && e.2.serve.isNone && e.2.wbHeld.isEmpty

/-- A steward engine has stopped with its store buffer empty. -/
def Eng.stopped (g : Eng) : Bool :=
  g.state == 0 || (g.quiesceReq && g.sb.isEmpty && g.stall == .none && g.loads.isEmpty)

/-- The drain has ended (R352). -/
def State.drained (s : State) : Bool :=
  s.slices.all (fun e => e.2.drained) && s.stw.relays.isEmpty && s.stw.shoots.isEmpty && s.relayed.isEmpty
    && s.mpts.all (fun e => e.2.cmds.isEmpty && e.2.waiting.isEmpty)
    && s.rings.all (fun e => e.2.empty && e.2.mode != 1 && e.2.mode != 3 && !e.2.draining)
    && s.ports.all (fun e => e.2.stop.eject.isEmpty)
    && s.pwr.quiesced.all (fun e => (s.eng e).quiesced || (s.eng e).state == 0 || (s.eng e).state == 3)
    && (s.eng 132).stopped && (s.eng 133).stopped

/-- POWER_DRAIN_DONE: the bias and the state are requested, memory assist goes off, and for Freewheel the retention source
bias on (R353 step 1, R354 steps 1 and 2). -/
def execPowerDrainDone (s : State) : Out :=
  .next (match s.pwr.trans with
    | some t =>
      if t.phase = .drain ∧ s.drained = true then
        s.modPwr fun p => { p with
          bias := t.goal, stateReq := t.goal, assist := false, retBias := t.goal == 2
          trans := some { t with phase := .entryBias, since := s.time } }
      else s
    | none => s)

/-- Undo an entry and refuse its command (R351). -/
def State.powerUndo (s : State) (cause : BitVec 3) : State :=
  let s := s.modPwr fun p => { p with bias := 0, stateReq := 0, retBias := false, trans := none }.followAssist
  ((s.resumeOwn.startSteward).liftHold).powerRefuse cause

/-- POWER_DRAIN_TIMEOUT (R351, cause `0x5`). -/
def execPowerDrainTimeout (s : State) : Out :=
  .next (match s.pwr.trans with
    | some t => if t.phase = .drain ∧ s.pwr.drainUs.toNat ≤ s.time - t.since then s.powerUndo 5 else s
    | none => s)

/-! Completion (R353, R354, R356) -/

/-- An entry is complete: Freewheel latches the edges of the domains it powers off (R354, R359). -/
def State.powerEntered (s : State) (t : PwrTrans) : State :=
  let lose := if t.goal = 2 then (List.range 322).filter (fun d => d != 319 && !s.pwr.domOff d) else []
  let s := s.modPwr fun p =>
    let p := { p with held := p.held ++ lose.filter (fun d => !p.held.contains d), state := t.goal, trans := none }
    if t.goal = 1 then { p with coastCnt := satInc16 p.coastCnt, coasts := p.coasts + 1 }
    else { p with fwCnt := satInc16 p.fwCnt, freewheels := p.freewheels + 1 }
  (s.fire 1443).awaitEnd .power 0 0

/-- Freewheel exit zeroes every sequence number; what a link has not acknowledged is numbered afresh, and the link
must return to Active (Table 19.4). -/
def LinkTx.renumber {α : Type} (t : LinkTx α) : LinkTx α :=
  { next := BitVec.ofNat 12 t.replay.length
    replay := ((List.range t.replay.length).zip t.replay).map fun e => (BitVec.ofNat 12 e.1, e.2.2) }

def State.relink (s : State) : State :=
  let s := { s with rings := NMap.mapv noRing (fun _ x => { x with links := [] }) s.rings }
  (List.range 50).foldl (fun s n =>
    if isLinkPort n && (s.port n).up && !(s.port n).down then
      s.modPort n fun x => { x with rx := {}, tx := x.tx.renumber, active := false, exitAt := some s.time }
    else s) s

/-- Slice logic that powers up has its far-store copies written afresh; until then every slot is invalid (R206). -/
def State.copiesLost (s : State) : State :=
  { s with slices := NMap.mapv Slice.reset (fun _ x => { x with far := { x.far with copyDone := false } }) s.slices }

/-- An exit is complete: a commanded one is answered, one that kickstand began leads to its window (R356, R359, R387). When
the first windows of the ring controller begin anew the spec does not say: at the exit, no flit counted yet. DESIGN CHOICE
(log 92). -/
def State.powerLeft (s : State) (t : PwrTrans) : State :=
  let s := s.modPwr fun p => { p with state := 0, trans := none }.followAssist
  let s := { s with
    crg := { s.crg with winAt := [(0, s.time), (1, s.time), (2, s.time)] }
    rings := NMap.mapv noRing (fun _ x => { x with carried := 0 }) s.rings }
  let s := if t.origin = 2 then s.relink.copiesLost
    else { s with ports := NMap.mapv Port.dflt (fun _ x => { x with exitAt := x.exitAt.map fun _ => s.time }) s.ports }
  let s := if t.origin = 2 ∧ s.pwr.relEdges = true then
      s.modPwr fun p => { p with held := p.held.filter fun d => p.domOff d } else s
  let woken := s.saf.kick == .waking
  let s := (if t.origin = 1 && !woken then s.resumeOwn else s).startSteward
  let s := (s.modPwr fun p => { p with edgeHold := t.origin == 2 && !s.heldLive.isEmpty }).liftHold
  if woken then s.modSaf fun x => { x with kick := .window } else (s.fire 1443).awaitEnd .power 0 0

/-- BB_OK: the bias has settled (R353, R354, R356, R358). -/
def execBbOk (s : State) : Out :=
  .next (match s.pwr.trans with
    | some t =>
      match t.phase with
      | .entryBias =>
        if t.goal = 1 ∨ t.acked = true then s.powerEntered t
        else s.modPwr fun p => { p with trans := some { t with phase := .entryAck, since := s.time } }
      | .exitBias =>
        let s := s.modPwr fun p => { p with retBias := false }
        if t.origin = 1 ∨ t.acked = true then s.powerLeft t
        else s.modPwr fun p => { p with trans := some { t with phase := .exitAck, since := s.time } }
      | _ => s
    | none => s)

/-- PWR_STATE_ACK: on exit from Freewheel every rail is set for Run (R354, R358, Table 19.4). -/
def execPwrStateAck (s : State) : Out :=
  .next (match s.pwr.trans with
    | some t =>
      match t.phase with
      | .entryAck => s.powerEntered t
      | .exitAck => (s.modPwr fun p => { p with railOk := 0xF }).powerLeft t
      | .drain => s
      | .entryBias => s.modPwr fun p => { p with trans := some { t with acked := true } }
      | .exitBias => s.modPwr fun p => { p with railOk := 0xF, trans := some { t with acked := true } }
    | none => s)

/-- The bound of the wait a transition stands in, µs (R358). -/
def PwrTrans.bound (t : PwrTrans) : Nat :=
  match t.phase with
  | .entryBias => if t.goal = 1 then 1 else 10
  | .exitBias => if t.origin = 1 then 1 else 10
  | _ => 5

/-- POWER_HANDSHAKE_TIMEOUT: entry is refused with cause `0x6`; on exit it is block-fatal (R351, R358). -/
def execPowerHandshakeTimeout (s : State) : Out :=
  .next (match s.pwr.trans with
    | some t =>
      if t.phase = .drain ∨ s.time - t.since < t.bound then s
      else if t.phase = .entryBias ∨ t.phase = .entryAck then s.powerUndo 6
      else s.pwrFatal
    | none => s)

/-! Rails, assist and edges -/

/-- RAIL_FAULT: a fall of a bit; VDD_CORE, VDD_SRAM, VDD_RET and VDD_AON are bits 0 to 3. One that falls again had risen
(R358). -/
def execRailFault (b : Fin 4) (s : State) : Out :=
  .next (
    let s := s.modPwr fun p => { p with railOk := p.railOk &&& ~~~(BitVec.ofNat 4 (2 ^ b.val)) }
    if s.pwr.state ≠ 2 ∨ b = 2 then s.pwrFatal else s)

/-- VCORE_CODE_CHANGE: assist follows the code; `pwr_assist_ack` rises with the next tick, within 1 µs (R357). -/
def execVcoreCodeChange (c : BitVec 4) (s : State) : Out :=
  .next (s.modPwr fun p => { p with vcore := c, assistAck := false }.followAssist)

/-- A ring that wakes from consolidation, whose edges its controller releases itself (R56). -/
def State.wakes (s : State) (d : Nat) : Bool :=
  decide (264 ≤ d) && decide (d < 270) && (s.ring (d - 264)).mode == 3 && !(s.ring (d - 264)).returning

/-- A write of a domain number to `PWR_EDGE_REL` or `0x3502:01`; the answer says that it was refused (R56, R359). -/
def State.edgeRelease (s : State) (d : Nat) : State × Bool :=
  if 323 < d ∨ s.wakes d = true then (s, false)
  else if s.pwr.domOff d then (s, true)
  else
    ((s.modPwr fun p => p.release d).edgesLeft, false)

/-- EDGE_RELEASE (R359). -/
def execEdgeRelease (d : BitVec 16) (s : State) : Out := .next (s.edgeRelease d.toNat).1

end Sys2Proof.Machine
end

