-- ==== Sys2Proof/Machine/SliceRegs.lean ====
section
/-! DEFINITION. The registers of a slice window (Table 18.4): their images, read-clear fields and writes; and the
service requests to a slice (R68, R73, R373). -/

namespace Sys2Proof.Machine

/-! Images -/

def bit01 (b : Bool) (n : Nat) : Nat := if b then 2 ^ n else 0

def Slice.count_ (x : Slice) (c : Cnt) : Nat := x.cnt.get zeroNat c.ctorIdx

/-- Counter fields side by side, the lowest first. -/
def Slice.counts (x : Slice) (w : Nat) : List Cnt → Nat
  | [] => 0
  | c :: rest => x.count_ c + 2 ^ w * x.counts w rest

/-- `SLC_CRD_STAT` (Table 5.6). -/
def Slice.crdStat (x : Slice) : Nat :=
  x.sharedFree + 2 ^ 8 * x.crq.length + 2 ^ 15 * min 255 x.used.length + bit01 (decide (256 ≤ x.used.length)) 23

/-- `SLC_OLT_STAT` (Table 6.10). -/
def Slice.oltStat (x : Slice) : Nat :=
  let inMode := fun (m : BitVec 2) => (x.olt.filter (fun e => e.2.mode == m)).length
  x.olt.length + 2 ^ 9 * inMode 1 + 2 ^ 18 * inMode 3

/-- `SFL_CTRL`, `SFL_STAT` (Tables 9.6 and 9.7). -/
def Slice.sflCtrl (x : Slice) : Nat :=
  bit01 x.sfl.migrate 2 + bit01 x.sfl.prefSingle 3 + 2 ^ 16 * x.sfl.pace.toNat
def Slice.sflStat (x : Slice) : Nat :=
  x.sfl.ovfOrder.length + 2 ^ 9 * (x.used.filter (fun e => e.2.phase == .allocWait)).length
    + bit01 x.sfl.pass.isSome 18 + bit01 x.sfl.passDone 19 + bit01 x.sfl.initRefused 20

/-- `HLC_CTRL`, `HLC_STAT`, `HLC_WAY_LEAK` (Tables 11.6, 11.7 and 11.9). -/
def Hlc.ctrl (h : Hlc) : Nat :=
  bit01 h.en 0 + bit01 h.rdAlloc 1 + bit01 h.pfEn 2 + 2 ^ 4 * h.pfDepth.toNat + 2 ^ 8 * h.pfReserve.toNat
    + 2 ^ 16 * h.leakH.toNat
def Hlc.stat (h : Hlc) : Nat :=
  h.state.toNat + 2 ^ 2 * h.waysOn + 2 ^ 7 * h.mshrs.length + 2 ^ 13 * h.evbs.length + bit01 (h.walks.any fun w => !w.over) 18
    + bit01 h.ctrlRefused 19 + bit01 h.initRefused 20 + bit01 h.drainDone 21
def Hlc.leaks (h : Hlc) : Nat := ((List.range 16).map fun w => h.leak.get zeroNat w * 2 ^ (3 * w)).sum

/-- `FAR_CTRL` (Table 10.8). -/
def Far.ctrl (f : Far) : Nat := f.autoMode.toNat + 2 ^ 2 * f.thresh.toNat + 2 ^ 8 * f.recentUs.toNat

/-- `SLC_PROTO_ERR` (Table 6.12). -/
def Slice.perr (x : Slice) : Nat := x.protoErr.toNat + bit01 x.protoErrValid 20

/-- The image of the register at offset `o` of physical slice `p`'s window, with whether it is 64 bits wide (Table
18.4); none where the window has no register. -/
def State.sliceImage (s : State) (p o : Nat) : Option (Bool × Nat) :=
  let x := s.slice p
  if o % 8 ≠ 0 then none
  else if 0x400 ≤ o ∧ o < 0x680 then some (false, (s.crdHolder p ((o - 0x400) / 8)).toNat)
  else if 0x4000 ≤ o ∧ o < 0x4080 then some (true, (s.glb.rgn.get zero64 ((o - 0x4000) / 8)).toNat)
  else
    if o = 0x0000 then some (false, x.logicalReg.toNat)
    else if o = 0x0008 then some (false, x.crdStat)
    else if o = 0x0010 then some (false, x.brkUs.toNat + 2 ^ 8 * x.wdogUs.toNat)
    else if o = 0x0018 then some (false, x.counts 16 [.brk, .crqWait])
    else if o = 0x0020 then some (false, x.depthLim.toNat + bit01 x.chainEn 4)
    else if o = 0x0028 then some (false, x.oltStat)
    else if o = 0x0030 then some (true, x.counts 16 [.fwdOwn, .drain, .stale, .perr])
    else if o = 0x0038 then some (false, x.perr)
    else if o = 0x0040 then some (true, x.protoErrAddr.toNat)
    else if o = 0x1000 then some (false, x.sflCtrl)
    else if o = 0x1008 then some (false, x.sflStat)
    else if o = 0x1010 then some (true, x.counts 16 [.vict, .ovf, .wait, .migr])
    else if o = 0x1018 then some (false, x.counts 16 [.sfCorr, .sfUncorr])
    else if o = 0x1020 then some (true, x.sfCap.toNat)
    else if o = 0x2000 then some (false, x.hlc.ctrl)
    else if o = 0x2008 then some (false, x.hlc.stat)
    else if o = 0x2010 then some (false, x.hlc.wayEnImage.toNat)
    else if o = 0x2018 then some (true, x.hlc.leaks)
    else if o = 0x2020 then some (true, x.hlc.capImage.toNat)
    else if o = 0x2028 then some (false, x.counts 16 [.hCorr, .hUncorr])
    else if o = 0x2030 then some (true, x.counts 32 [.hit, .miss])
    else if o = 0x2038 then some (true, x.counts 32 [.dirtyEvict, .notKept])
    else if o = 0x2040 then some (true, x.counts 16 [.pfIssued, .pfDropMshr, .pfDropCred, .pfUseful])
    else if o = 0x3000 then some (false, x.far.ctrl)
    else if o = 0x3008 then some (false, (s.farStat p).toNat)
    else if o = 0x3010 then some (true, x.counts 16 [.autoNear, .autoFar, .builtin, .program])
    else if o = 0x3018 then some (true, x.counts 16 [.dQfull, .dSlot, .dPoison, .dHlc])
    else if o = 0x5000 then some (false, bit01 (s.eng p).quiesceReq 2)
    else if o = 0x5008 then some (false, (s.engStat p).toNat)
    else none

/-! Read-clear fields (Table 0.4, R334) -/

/-- The read-clear fields at an offset: lowest bit, and the counter. -/
def rcFields (o : Nat) : List (Nat × Cnt) :=
  if o = 0x0018 then [(0, .brk), (16, .crqWait)]
  else if o = 0x0030 then [(0, .fwdOwn), (16, .drain), (32, .stale), (48, .perr)]
  else if o = 0x1010 then [(0, .vict), (16, .ovf), (32, .wait), (48, .migr)]
  else if o = 0x1018 then [(0, .sfCorr), (16, .sfUncorr)]
  else if o = 0x2028 then [(0, .hCorr), (16, .hUncorr)]
  else if o = 0x2030 then [(0, .hit), (32, .miss)]
  else if o = 0x2038 then [(0, .dirtyEvict), (32, .notKept)]
  else if o = 0x2040 then [(0, .pfIssued), (16, .pfDropMshr), (32, .pfDropCred), (48, .pfUseful)]
  else if o = 0x3008 then [(24, .progFault)]
  else if o = 0x3010 then [(0, .autoNear), (16, .autoFar), (32, .builtin), (48, .program)]
  else if o = 0x3018 then [(0, .dQfull), (16, .dSlot), (32, .dPoison), (48, .dHlc)]
  else []

/-- The bits an access of `size` bytes at an offset touches in its 8-byte slot (R334). -/
def accMask (off size : Nat) : Word :=
  if size = 8 then BitVec.allOnes 64 else if off % 8 = 0 then 0xFFFFFFFF else 0xFFFFFFFF00000000

/-- Clear the read-clear fields that a read returned. -/
def State.sliceRc (s : State) (p o : Nat) (m : Word) : State :=
  (rcFields o).foldl (fun s f =>
    if m.getLsbD f.1 then s.modSlice p fun x => { x with cnt := x.cnt.set zeroNat f.2.ctorIdx 0 } else s) s

/-- Move a value to the half of its slot that a 4-byte access names, and back. -/
def slotIn (off size : Nat) (v : Word) : Word :=
  if size = 8 then v else if off % 8 = 0 then v &&& 0xFFFFFFFF else v <<< 32
def slotOut (off size : Nat) (v : Word) : Word :=
  if size = 8 then v else if off % 8 = 0 then v &&& 0xFFFFFFFF else v >>> 32

/-- Read a slice-window register; none where there is no register (R5, R334). -/
def State.sliceRead (s : State) (p off size : Nat) : State × Option Word :=
  let o := off / 8 * 8
  match s.sliceImage p o with
  | none => (s, none)
  | some (_, v) => (s.sliceRc p o (accMask off size), some (slotOut off size (BitVec.ofNat 64 v)))

/-! Writes -/

/-- The bits of a slice-window register that its table defines; the others are reserved (R6). -/
def sliceDefined (o : Nat) : Word :=
  if 0x400 ≤ o ∧ o < 0x680 then 0x7FFFF
  else if 0x4000 ≤ o then (if o < 0x5000 then 0x83FFFFFFFFFFFFFF else if o = 0x5000 then 0x7 else 0x1F7F)
  else
    if o = 0x0000 then 0xFF
    else if o = 0x0008 then 0xFFFFFF
    else if o = 0x0010 then 0xFFFFF
    else if o = 0x0020 then 0x1F
    else if o = 0x0028 then 0x7FFFFFF
    else if o = 0x0038 then 0x1FFFFF
    else if o = 0x0040 then 0x3FFFFFFFFFFF
    else if o = 0x1000 then 0xFFFF000F
    else if o = 0x1008 then 0x1FFFFF
    else if o = 0x1020 then 0xFFFFFFFF
    else if o = 0x2000 then 0x3FFF1FFF
    else if o = 0x2008 then 0x3FFFFF
    else if o = 0x2018 then 0xFFFFFFFFFFFF
    else if o = 0x2020 then 0x807FFFFFFFFFFFFF
    else if o = 0x3000 then 0x1F1F
    else if o = 0x3008 then 0xFF0FFF7F
    else BitVec.allOnes 64

/-- A write of `SLC_AGE_CTRL` (Table 5.8), `SLC_PROTO_CTRL` (Table 6.9). -/
def Slice.writeAge (x : Slice) (v : Word) : Slice :=
  let wdog := v.extractLsb' 8 12
  if v.extractLsb' 0 8 = 0 ∨ wdog.toNat < 250 then x else { x with brkUs := v.extractLsb' 0 8, wdogUs := wdog }
def Slice.writeProto (x : Slice) (v : Word) : Slice :=
  if v.extractLsb' 0 4 = 0 then x else { x with depthLim := v.extractLsb' 0 4, chainEn := v.getLsbD 4 }

/-- A write of `SFL_CTRL` (Table 9.6, R192, R193). -/
def State.writeSflCtrl (s : State) (p : Nat) (v : Word) : State :=
  if v.extractLsb' 16 16 = 0 then s
  else
    let s := s.modSlice p fun x => { x with sfl := { x.sfl with
      migrate := v.getLsbD 2, prefSingle := v.getLsbD 3, pace := v.extractLsb' 16 16 } }
    let s := if v.getLsbD 0 then s.sflInit p else s
    if v.getLsbD 1 then s.sflPassStart p else s

/-- A write of `HLC_CTRL`: discarded whole out of range, or to enable a draining cache (Table 11.6, R230, R233). Of a write
that is both, the range comes first: it is discarded without CTRL_REFUSED. DESIGN CHOICE (log 94). -/
def State.writeHlcCtrl (s : State) (p : Nat) (v : Word) : State :=
  let depth := v.extractLsb' 4 4
  let keep := v.extractLsb' 8 5
  let leak := v.extractLsb' 16 14
  if depth = 0 ∨ 8 < depth.toNat ∨ keep = 0 ∨ 24 < keep.toNat ∨ leak = 0 ∨ 8760 < leak.toNat then s
  else if v.getLsbD 0 = true ∧ (s.slice p).hlc.state = 2 then s.hlcEnable p
  else
    let s := s.modHlc p fun h => { h with
      rdAlloc := v.getLsbD 1, pfEn := v.getLsbD 2, pfDepth := depth, pfReserve := keep, leakH := leak }
    let s := if v.getLsbD 0 then s.hlcEnable p else s.hlcDisable p
    if v.getLsbD 3 then s.hlcInit p else s

/-- A write of `HLC_WAY_EN` (R232). -/
def State.writeWays (s : State) (p : Nat) (v : Word) : State :=
  (List.range 16).foldl (fun s w => if v.getLsbD w then s.hlcWayEnable p w else s.hlcWayDisable p w) s

/-- A write of `FAR_CTRL` (Table 10.8). -/
def State.writeFarCtrl (s : State) (p : Nat) (v : Word) : State :=
  let mode := v.extractLsb' 0 2
  if mode = 3 ∨ v.extractLsb' 2 3 = 0 ∨ v.extractLsb' 8 4 = 0 then s
  else
    let s := s.modSlice p fun x => { x with far := { x.far with
      autoMode := mode, thresh := v.extractLsb' 2 3, recentUs := v.extractLsb' 8 4 } }
    if v.getLsbD 12 then s.farPredClr p else s

/-- The QUIESCE bit of a write of `ENG_CTRL_e` (R254, Table 12.11). -/
def State.writeQuiesce (s : State) (e : Nat) (v : Bool) : State :=
  if v = (s.eng e).quiesceReq then s
  else if v then s.engQuiesce e else s.engResume e

/-- A write of `ENG_CTRL_e`, refused while an update holds the engine; with both resets commanded the cold one is taken. A
reset that is accepted clears QUIESCE; where it is discarded the QUIESCE bit of the write still counts (R254). -/
def State.writeEngCtrl (s : State) (e : Nat) (v : Word) : State :=
  if (s.eng e).held then s.engRefuse e
  else if v.getLsbD 0 || v.getLsbD 1 then
    if s.engResetOk e then (if v.getLsbD 1 then s.engCold e else s.engWarm e)
    else (s.engRefuse e).writeQuiesce e (v.getLsbD 2)
  else s.writeQuiesce e (v.getLsbD 2)

/-- A write of `MPT_RGN_n`, which takes effect only before slices are enabled (R27). -/
def State.writeRgn (s : State) (n : Nat) (v : Word) : State :=
  if s.glb.enabled then s
  else s.modGlb fun g => { g with rgn := g.rgn.set zero64 n (v &&& 0x83FFFFFFFFFFFFFF) }

/-- The write-1-to-clear bits of a slice-window register (Tables 6.12, 9.7, 9.10, 10.9, 11.7, 11.10 and 12.12). -/
def State.sliceW1c (s : State) (p o : Nat) (b : Word) : State :=
  s.modSlice p fun x =>
    if o = 0x0038 then { x with protoErrValid := x.protoErrValid && !b.getLsbD 20 }
    else if o = 0x1008 then { x with sfl := { x.sfl with
        passDone := x.sfl.passDone && !b.getLsbD 19, initRefused := x.sfl.initRefused && !b.getLsbD 20 } }
    else if o = 0x1020 then { x with sfl := { x.sfl with capValid := x.sfl.capValid && !b.getLsbD 31 } }
    else if o = 0x2008 then x.modHlc fun h => { h with
        ctrlRefused := h.ctrlRefused && !b.getLsbD 19, initRefused := h.initRefused && !b.getLsbD 20
        drainDone := h.drainDone && !b.getLsbD 21 }
    else if o = 0x2020 then x.modHlc fun h => { h with capValid := h.capValid && !b.getLsbD 63 }
    else if o = 0x3008 then { x with far := { x.far with faultValid := x.far.faultValid && !b.getLsbD 19 } }
    else x

/-- Write `v`, the bits of mask `m`, into the slice-window register at slot `o`, which has image `old` (R5, R6, Table
0.4). -/
def State.sliceStore (s : State) (p o : Nat) (old v m : Word) : State :=
  let b := v &&& m
  let new := (old &&& ~~~m) ||| b
  let s := s.noteRsvd ((b &&& ~~~(sliceDefined o)) != 0)
  if 0x4000 ≤ o ∧ o < 0x4080 then s.writeRgn ((o - 0x4000) / 8) new
  else
    if o = 0x0010 then s.modSlice p fun x => x.writeAge new
    else if o = 0x0020 then s.modSlice p fun x => x.writeProto new
    else if o = 0x1000 then s.writeSflCtrl p new
    else if o = 0x2000 then s.writeHlcCtrl p new
    else if o = 0x2010 then s.writeWays p new
    else if o = 0x3000 then s.writeFarCtrl p new
    else if o = 0x5000 then s.writeEngCtrl p new
    else if o = 0x5008 then s.modEng p fun g => { g with refused := g.refused && !b.getLsbD 6 }
    else s.sliceW1c p o b

/-- A write into a slice window; the answer says whether there is a register. The high half of a 32-bit register's
slot is ignored (R334). -/
def State.sliceWrite (s : State) (p off size : Nat) (v : Word) : State × Bool :=
  let o := off / 8 * 8
  match s.sliceImage p o with
  | none => (s, false)
  | some (wide, old) =>
    let m := accMask off size &&& (if wide then BitVec.allOnes 64 else 0xFFFFFFFF)
    (if m = 0 then s else s.sliceStore p o (BitVec.ofNat 64 old) (slotIn off size v) m, true)

/-! Service requests (R68, R73, Tables 4.6 and 4.8) -/

/-- Answer a service request (Table 4.6). -/
def State.svcRsp (s : State) (p : Nat) (q : Msg) (stat : BitVec 4) (len : Nat) (data : LineData) : State :=
  s.emit p { mkMsg 0x3F 1023 q.src with txn := q.txn, stat, len := BitVec.ofNat 7 len, data }

/-- The bytes a register service request reads or writes: 8 with a LEN above 4, else 4 (log 31). -/
def svcSize (q : Msg) : Nat := if 4 < q.len.toNat then 8 else 4

/-- Take a service request, carry it out and answer it; one with an AOP that Table 4.8 marks invalid is answered without
effect (R73). -/
def State.svcReq (s : State) (p : Nat) (m : Msg) (go : State → Msg → State) : State :=
  let q := asOpc m 0x1B
  s.taking p q fun s => if 3 < q.aop.toNat then s.svcRsp p q 7 0 0 else go s q

/-- SVC_REQ_REGISTER_READ: ADDR is the register's place in the slice window, in 8-byte slots (log 31). -/
def execSvcReqRegisterRead (p : Fin 132) (m : Msg) (s : State) : Out :=
  .next (s.svcReq p m fun s q => match s.sliceRead p (8 * q.addr.toNat) (svcSize q) with
    | (s, v) => s.svcRsp p q 0 (svcSize q) ((v.getD 0).setWidth 512))

/-- What a service request may also write: `SLC_LOGICAL` and the holders' G, 32-bit registers, at step 2 of R30 (R6, R30,
R373). -/
def State.svcStore (s : State) (p o : Nat) (v : Word) : Option State :=
  let n := s.noteRsvd ((v &&& 0xFFFFFFFF &&& ~~~(sliceDefined o)) != 0)
  if o = 0 then some (n.modSlice p fun x => { x with lslice := v.extractLsb' 0 7, active := v.getLsbD 7 })
  else if 0x400 ≤ o ∧ o < 0x680 then
    some (n.modSlice p fun x => { x with g := x.g.set zeroNat ((o - 0x400) / 8) (v.extractLsb' 2 4).toNat })
  else none

/-- SVC_REQ_REGISTER_WRITE (R68). -/
def execSvcReqRegisterWrite (p : Fin 132) (m : Msg) (s : State) : Out :=
  .next (s.svcReq p m fun s q =>
    let o := 8 * q.addr.toNat
    let v : Word := q.data.extractLsb' 0 64
    let s := match s.svcStore p o v with
      | some s => s
      | none => (s.sliceWrite p o (svcSize q) v).1
    s.svcRsp p q 0 0 0)

/-- The block a directory-entry copy names, and its half (R373). -/
def copyBlock (a : LineAddr) : Nat :=
  let way := (a.extractLsb' 0 4).toNat
  let k := (a.extractLsb' 4 10).toNat
  if way = 15 then 12288 + k else 1024 * way + k
def copyHalf (a : LineAddr) : Nat := if a.getLsbD 14 then 4 else 0

/-- Data bits a copy carries of one entry: 96 of a way entry in 12 bytes, 109 of an overflow entry in 14 (R373). -/
def copyWidth (key : Nat) : Nat := if 12288 ≤ key then 112 else 96

/-- An entry without the presence bits of absent agents; one left without a bit names no agent (R21). -/
def SfEnt.present (agents : BitVec 64) (e : SfEnt) : SfEnt :=
  let vec := e.vec &&& agents
  { e with vec, st := if vec = 0 ∧ e.vec ≠ 0 then 0 else e.st }

/-- Take four entries of a block from a copy's payload (R21, R178, R373). -/
def Slice.putEntries (x : Slice) (agents : BitVec 64) (key half : Nat) (d : LineData) : Slice :=
  (List.range 4).foldl (fun x i =>
    let e : BitVec 109 := BitVec.ofNat 109 ((d.toNat / 2 ^ (copyWidth key * i)) % 2 ^ copyWidth key)
    x.setEnt (8 * key + half + i) ((entOf e).present agents)) x

/-- SVC_REQ_DIRECTORY_COPY: the target writes four entries with its own parity and both written bits (R373). -/
def execSvcReqDirectoryCopy (p : Fin 132) (m : Msg) (s : State) : Out :=
  .next (s.svcReq p m fun s q =>
    (s.modSlice p fun x => x.putEntries s.glb.agents (copyBlock q.addr) (copyHalf q.addr) q.data).svcRsp p q 0 0 0)

/-- Put a copied line at a position of the target: into a way that is on, or, if dirty, to memory (R234 steps 3, 4). -/
def State.putLine (s : State) (p pos : Nat) (tag : BitVec 31) (data : LineData) (poison : BitVec 8) (dirty : Bool) :
    State :=
  let a := hRecover (s.slice p).lslice (BitVec.ofNat 8 (pos / 16)) tag
  if (s.slice p).hlc.wayOn (pos % 16) then s.modHlc p fun h => h.setLine pos (mkLine a data poison dirty false)
  else if dirty then s.modHlc p fun h => h.queueWrite false a data poison
  else s

/-- SVC_REQ_LINE_COPY: ADDR carries set, way, tag and D, POISON the line's mask, as R234 has the copy move them (log 31). -/
def execSvcReqLineCopy (p : Fin 132) (m : Msg) (s : State) : Out :=
  .next (s.svcReq p m fun s q =>
    let pos := 16 * (q.addr.extractLsb' 0 8).toNat + (q.addr.extractLsb' 8 4).toNat
    let s := s.putLine p pos (q.addr.extractLsb' 12 31) q.data q.poison (q.addr.getLsbD 43)
    s.svcRsp p q 0 0 0)

/-! Dictionary maintenance (R227, R237) -/

/-- A whole-cache operation of the dictionary runs in some slice; the clean of kickstand is none (R237, R386). -/
def State.dictMaintBusy (s : State) : Bool :=
  s.slices.any fun e => e.2.hlc.maint.any fun m => m.src.isNone && !m.kick

/-- Start a whole-cache operation on every active slice, which completes at once where the cache is disabled or has no
enabled way (R227, R229, R230). -/
def State.dictMaint (s : State) (op : BitVec 4) : State :=
  if s.dictMaintBusy then s
  else
    (List.range 132).foldl (fun s p =>
      let x := s.slice p
      if !x.active || x.hlc.isOff then s
      else
        let i := x.hlc.maintNext
        s.modHlc p fun h => { h with
          maint := h.maint ++ [{ idx := i, src := none, op, scope := 2, addr := 0 }], maintNext := i + 1
          walks := h.walks ++ [{ maint := some i }] }) s

/-- A write of `0x2410:01`, which the running steward carries out (R16). -/
def State.dictMaintCmd (s : State) (op : BitVec 4) : State := if s.stewardRuns then s.dictMaint op else s

/-- HLC_DICT_CLEAN_ALL (R16, R227, R237). -/
def execHlcDictCleanAll (s : State) : Out := .next (s.dictMaintCmd 0)

/-- HLC_DICT_INVALIDATE_ALL (R16, R227, R237). -/
def execHlcDictInvalidateAll (s : State) : Out := .next (s.dictMaintCmd 1)

/-- HLC_DICT_CLEAN_INVALIDATE_ALL (R16, R227, R237). -/
def execHlcDictCleanInvalidateAll (s : State) : Out := .next (s.dictMaintCmd 2)

end Sys2Proof.Machine
end

