-- ==== Sys2Proof/Machine/Sparing.lean ====
section
/-! DEFINITION. Slice-map comparison, spares and evacuation (R30, R31, R170 to R172, R234, R371 to R375). -/

namespace Sys2Proof.Machine

/-! The slice map (R31) -/

/-- The image of `GLB_SMAP_s`, which reads the steward port's copy (Table 2.6). -/
def State.smapImage (s : State) (l : Nat) : Nat :=
  let e := s.stwCopy.entry l
  e.phys % 256 + bit01 e.hold 8 + 2 ^ 16 * (s.glb.smapGen.get zero8 l).toNat

/-- Two copies differ in entry `l`, its HOLD bit clear. Whose HOLD bit exempts an entry R31 does not say: the steward
port's copy's. DESIGN CHOICE (log 88). -/
def smapDiffers (a b : Copy) (l : Nat) : Bool := !(a.entry l).hold && a.entry l != b.entry l

/-- SMAP_COPY_COMPARE: a difference is block-fatal, code `0x23`, and fires the source of the port whose copy it is, of
those that have one (R31, Table 14.2). What UNIT and INDEX of the record name, and which entry of several, the spec leaves
open: the steward port, and the lowest entry of the lowest-numbered copy that differs. DESIGN CHOICE (log 88). -/
def execSmapCopyCompare (s : State) : Out :=
  let bad := fun (c : Nat) => (List.range 128).find? fun l => smapDiffers s.stwCopy (s.copy c) l
  .next (match ((List.range 52).filter (· != stewardCopy)).findSome? bad with
    | none => s
    | some l =>
      let s' := (s.record { cls := 2, unit := 2, index := 48, code := 0x23
                            detail := BitVec.ofNat 64 (s.smapImage l) }).firePort 48 0
      if (bad hostCopy).isSome then s'.firePort 49 0 else s')

/-! Spares (R28, R371, R372) -/

/-- The spares that are ready: readied by the steward, FW_OK and FAR_OK showing (R372). -/
def State.readySpares (s : State) : List Nat :=
  s.spare.ready.filter fun p => (s.eng p).fwOk && (s.slice p).far.copyDone

/-- SPARE_READY: after slice enable the steward ungates and clears a spare and loads its engine and far store; without a
master image FW_OK cannot show and the spare is not ready; one whose read-back fails is loaded by ENGINE_LOAD (R192, R233,
R350, R372, R402). -/
def execSpareReady (p : Fin 132) (s : State) : Out :=
  .next (if !s.glb.enabled || !s.isSpare p || !s.stewardRuns || s.readySpares.contains p.val || (s.eng p).held then s
    else
      let s := s.spareClear p
      if s.loader.masterFw = [] then s
      else
        let s := (s.fwWrite p).farCopied p
        s.modSpare fun x => { x with ready := x.ready.filter (· != p.val) ++ [p.val] })

/-- The spare chosen for an old slice: the lowest-numbered ready one of its pair, else the lowest-numbered (R371). -/
def State.chooseSpare (s : State) (old : Nat) : Option Nat :=
  match (s.readySpares.filter fun p => p / 44 == old / 44).min? with
  | some p => some p
  | none => s.readySpares.min?

/-- The image of `RAS_SPARE_STAT` (Table 20.8). -/
def State.spareStat (s : State) : BitVec 32 :=
  let x := s.spare
  BitVec.ofNat 32 (bit01 x.run.isSome 0 + 2 * x.result.toNat + 8 * x.attempts.toNat + 128 * s.readySpares.length)

/-- The block is in Run, outside kickstand (R371). -/
def State.inRun (s : State) : Bool := s.pwr.state == 0 && s.pwr.trans.isNone && s.saf.kick == .none

/-- Start the evacuation of logical slice `l` to a target (R371). -/
def State.evacBegin (s : State) (l : BitVec 7) (target : Nat) : State :=
  (s.modSpare fun x => { x with
    run := some { lslice := l, old := (s.stwCopy.entry l.toNat).phys, target }, attempts := 0, abandoned := none }).fire 1451

/-- The target of an evacuation command: the ready spare it names, else the choice of R371. A number above 131 names none. -/
def State.evacTarget (s : State) (old named : Nat) : Option Nat :=
  if decide (named < 132) && s.readySpares.contains named then some named else s.chooseSpare old

/-- An evacuation command. The answer says that it was refused (R371). -/
def State.evacCmd (s : State) (l : BitVec 7) (named : Nat) : State × Bool :=
  match s.evacTarget (s.stwCopy.entry l.toNat).phys named with
  | some t =>
    if s.spare.run.isNone && s.inRun then (s.evacBegin l t, false)
    else (s.modSpare fun x => { x with result := 2 }, true)
  | none => (s.modSpare fun x => { x with result := 2 }, true)

/-- A write of `RAS_SPARE_CMD` (Table 20.8): without GO it has no effect. -/
def State.spareCtrl (s : State) (v : BitVec 32) : State :=
  if v.getLsbD 31 then (s.evacCmd (v.extractLsb' 0 7) (v.extractLsb' 8 8).toNat).1 else s

/-- SPARE_EVACUATE_CMD: a write of the register, or of `0x3602:01`, which the running steward carries out (R16, R371, R388,
R390). -/
def execSpareEvacuateCmd (src : SpareSource) (s : State) : Out :=
  .next (match src with
    | .reg v => s.regWrite fun s => (s.noteRsvd (v &&& 0x7FFF0080 != 0)).spareCtrl v
    | .dict v => if v.toNat < 128 ∧ s.stewardRuns = true then (s.evacCmd (v.extractLsb' 0 7) 255).1 else s)

/-- Ticks in 24 h. -/
def dayTicks : Nat := 86400000000

/-- Ticks of a list that lie within the last 24 h. -/
def State.inDay (s : State) (l : List Nat) : Nat := (l.filter fun t => decide (s.time ≤ t + dayTicks)).length

/-- An automatic-sparing condition holds at a physical slice (R371). -/
def State.sparesItself (s : State) (p : Nat) : Bool :=
  let ways := ((List.range 16).filter fun w => (s.slice p).hlc.hwDis.getLsbD w).length
  decide (4 ≤ ways) || decide (2 ≤ s.inDay (s.spare.marks.get noNats p)) || decide (3 ≤ s.inDay (s.spare.halts.get noNats p))

/-- AUTO_SPARE_TRIGGER (R371). -/
def execAutoSpareTrigger (p : Fin 132) (s : State) : Out :=
  .next (if !s.ras.autoSpare || !s.sparesItself p || !s.stewardRuns || !s.inRun || s.spare.run.isSome
      || !(s.slice p).active then s
    else
      match s.chooseSpare p with
      | none => s
      | some t => s.evacBegin (s.slice p).lslice t)

/-! The five steps of R30 -/

def Evac.l (v : Evac) : Nat := v.lslice.toNat

def State.modEvac (s : State) (f : Evac → Evac) : State := s.modSpare fun x => { x with run := x.run.map f }

/-- Change entry `l` in all 52 copies. -/
def State.allCopies (s : State) (f : Copy → Copy) : State := (List.range 52).foldl (fun s c => s.modCopy c f) s
def Copy.setEntry (c : Copy) (l : Nat) (e : SMapEnt) : Copy := { c with smap := c.smap.set SMapEnt.dflt l e }
def Copy.setHold (c : Copy) (l : Nat) (hold : Bool) : Copy := c.setEntry l { c.entry l with hold }

/-- The old slice's engine has stopped with its store buffer empty, and its probe sends nothing (R170). -/
def State.evacReady (s : State) (v : Evac) : Bool :=
  let g := s.eng v.old
  (g.state == 0 || ((g.quiesced || g.state == 3) && g.sb.isEmpty)) && (s.saf.probes.get Probe.dflt v.old).step == 0

/-- Count the non-caching requests that wait for a credit at a port and that a HOLD set since `before` holds (R103, Table
16.6). -/
def State.countStopped (s before : State) : State :=
  (List.range 50).foldl (fun s n =>
    let k := (s.ncStopped n).length - (before.ncStopped n).length
    if k = 0 then s else s.portEvent n 0x05 k) s

/-- SMAP_HOLD_SET: the steward quiesces the old engine; once it has stopped, HOLD is set in every copy (R30 step 1,
R170). While the engine drains the command is given again. -/
def execSmapHoldSet (s : State) : Out :=
  .next (match s.spare.run with
    | none => s
    | some v =>
      if v.step ≠ 0 || !v.due || !s.stewardRuns || !s.inRun then s
      else if s.evacReady v then
        let s := (s.allCopies fun c => c.setHold v.l true).countStopped s
        let s := s.modSaf fun x => { x with suspended := [v.old, v.target] }
        let s := s.modSlice v.old fun x => { x with watch := none }
        s.modSpare fun x => { x with
          run := some { v with step := 1, since := s.time, attempts := v.attempts + 1 }
          attempts := BitVec.ofNat 4 (v.attempts + 1) }
      else if v.asked || (s.eng v.old).quiesceReq then s
      else (s.quiesce v.old).modEvac fun v => { v with asked := true })

/-- The old slice holds no open transaction: R171, and its prefetch registers and writes are done (R234 step 2). -/
def State.evacQuiet (s : State) (v : Evac) : Bool :=
  let x := s.slice v.old
  x.quiet && x.hlc.mshrs.isEmpty && x.hlc.writes.isEmpty
    && (List.range 52).all fun c => (s.copy c).sentFor.get zero32 v.l == x.taken.get zero32 c

/-- Copy one written block of the old slice, read through the checks of R186 (R373). -/
def State.copyOne (s : State) (old new key : Nat) : State :=
  let s := s.sfBlockCheck old key false
  let b := (s.slice old).sfBlock key
  s.modSlice new fun x => (List.range 8).foldl (fun x i => x.setEnt (8 * key + i) (entOf (b.row i).data)) x

/-- Copy one valid line of the old slice; a clean line that fails its checks is not copied (R231, R234). -/
def State.copyLine (s : State) (old new pos : Nat) : State :=
  let s := (s.hTagCheck old pos).hDataCheck old pos
  let l := (s.slice old).hlc.line pos
  if l.v then s.putLine new pos l.tag l.data l.poison l.dirty else s

/-- Copy the state of a slice: blocks, lines, per-holder credits and control registers, and `SLC_LOGICAL` (R30 step 2,
R373). -/
def State.copySlice (s : State) (old new : Nat) (l : BitVec 7) : State :=
  let keys := ((s.slice old).sfl.blocks.filter (·.2.written)).map (·.1)
  let s := s.modSlice new fun x => { x with lslice := l }
  let s := keys.foldl (fun s k => s.copyOne old new k) s
  let lines := ((s.slice old).hlc.lines.filter (·.2.v)).map (·.1)
  let s := lines.foldl (fun s q => s.copyLine old new q) s
  let x := s.slice old
  let s := s.modSlice new fun y => { y with
    g := x.g, brkUs := x.brkUs, wdogUs := x.wdogUs, depthLim := x.depthLim, chainEn := x.chainEn, taken := []
    active := true }
  let s := s.writeSflCtrl new (BitVec.ofNat 64 x.sflCtrl)
  let s := s.writeHlcCtrl new (BitVec.ofNat 64 x.hlc.ctrl)
  let s := s.writeWays new (x.hlc.wayEn.setWidth 64)
  (s.writeFarCtrl new (BitVec.ofNat 64 x.far.ctrl)).sflPassStart new

/-- SMAP_STATE_COPY (R30 step 2, R171, R373). -/
def execSmapStateCopy (s : State) : Out :=
  .next (match s.spare.run with
    | none => s
    | some v =>
      if v.step = 1 ∧ s.stewardRuns = true ∧ s.evacQuiet v = true then
        (s.copySlice v.old v.target v.lslice).modEvac fun v => { v with step := 2 }
      else s)

/-- Step 3: the new physical number in every copy (R30). -/
def State.evacEntry (s : State) (v : Evac) : State :=
  (s.allCopies fun c => { c.setEntry v.l { phys := v.target, hold := true } with
    sentFor := c.sentFor.set zero32 v.l 0 }).modEvac fun v => { v with step := 3 }

/-- SMAP_ENTRY_WRITE (R30 step 3). -/
def execSmapEntryWrite (s : State) : Out :=
  .next (match s.spare.run with
    | none => s
    | some v => if v.step = 2 ∧ s.stewardRuns = true then s.evacEntry v else s)

/-- The relay delivers the credit requests it holds for logical slice `l` to physical slice `p`, in their arrival order and
before HOLD clears in any copy; they count at no copy and at no slice (R171, R172). -/
def State.relayDeliver (s : State) (l p : Nat) : State :=
  let mine := s.relayed.filter fun e => e.2.home.toNat == l
  let s := { s with relayed := s.relayed.filter fun e => e.2.home.toNat != l }
  mine.foldl (fun s e => s.creditRequest p e.2) s

/-- Clear HOLD for `l` in every copy; waiting flits proceed (R30 step 4). -/
def State.clearHold (s : State) (l : Nat) : State := (s.allCopies fun c => c.setHold l false).releaseAll

/-- Step 4 (R30, R172); the new slice's probe goes on. -/
def State.evacClear (s : State) (v : Evac) : State :=
  (((s.relayDeliver v.l v.target).clearHold v.l).modSaf fun x => { x with suspended := [v.old] }).modEvac
    fun v => { v with step := 4 }

/-- An error of the evacuation of physical slice `old` (codes `0x58`, `0x59`; log 41). -/
def State.evacRecord (s : State) (cls code old : Nat) : State :=
  s.record { cls := BitVec.ofNat 2 cls, unit := 0, index := old, code := BitVec.ofNat 8 code
             detail := s.spareStat.setWidth 64 }

/-- Retire a physical slice: inactive, its arrays cleared, its engine in reset, both domains off (R192, R350, R375). What
`SLC_LOGICAL.LSLICE` reads then Table 2.7 and R375 do not say, since the slice carries no logical slice and is no spare: it
keeps the old number. DESIGN CHOICE (log 92). -/
def State.retire_ (s : State) (p : Nat) : State :=
  let s := s.modSlice p fun x => { x with
    active := false
    sfl := { x.sfl with blocks := [], lru := [], wait := [], ovfOrder := [], pass := none } }
  let s := (s.modEng p fun g => { g with stall := .none, out := [], sb := [], walk := none }).engReset p false
  s.modPwr fun x => (x.offDom p).offDom (132 + p)

/-- Step 5, and the end of the evacuation (R30, R375). -/
def State.evacDone (s : State) (v : Evac) : State :=
  let s := s.modGlb fun g => { g with smapGen := g.smapGen.set zero8 v.l (g.smapGen.get zero8 v.l + 1) }
  let s := s.retire_ v.old
  let s := s.modSaf fun x => { x with suspended := [] }
  let s := s.modSpare fun x => { x with
    run := none, result := 0, ready := x.ready.filter (· != v.target), retired := x.retired ++ [v.old] }
  ((s.evacRecord 0 0x58 v.old).fire 1452).awaitEnd .evacuation 0 0

/-- SMAP_GEN_INCREMENT (R30 step 5, R375). -/
def execSmapGenIncrement (s : State) : Out :=
  .next (match s.spare.run with
    | none => s
    | some v => if v.step = 4 ∧ s.stewardRuns = true then s.evacDone v else s)

/-! Abandoned attempts (R373, R374) -/

/-- The steps of R373 that undo an attempt: credit requests go back to the old slice, HOLD clears, its engine and
probe resume. -/
def State.evacUndo (s : State) (v : Evac) : State :=
  let s := (s.relayDeliver v.l v.old).clearHold v.l
  let s := s.modSaf fun x => { x with suspended := [] }
  (if v.asked then s.resume v.old else s).modEvac fun v => { v with step := 0, since := s.time, due := false, asked := false }

/-- The evacuation ends abandoned (R373, R374); a WRITE that began it is answered REFUSED with that RESULT, since nothing has
changed (R325, Table 17.3; log 65). -/
def State.evacGiveUp (s : State) (v : Evac) : State :=
  (((s.modSpare fun x => { x with run := none, result := 1 }).evacRecord 1 0x59 v.old).fire 1452).awaitEnd .evacuation 2 1

/-- The steward runs again and retries what the rewrite timer abandoned, on a spare that is ready (R374). -/
def State.evacAgain (s : State) : State :=
  match s.spare.abandoned with
  | none => s
  | some v =>
    match s.chooseSpare v.old with
    | none => s
    | some t =>
      if !s.stewardRuns || !s.inRun || decide (8 ≤ v.attempts) || decide (s.time < v.since + 1000) then s
      else (s.modSpare fun x => { x with
        abandoned := none, run := some { v with target := t, step := 0, due := true, asked := false } }).fire 1451

/-- EVACUATION_RETRY: 1 ms after an abandon the next attempt may begin (R373, R374). -/
def execEvacuationRetry (s : State) : Out :=
  .next (match s.spare.run with
    | none => s.evacAgain
    | some v =>
      if v.step ≠ 0 || v.due || !s.stewardRuns || decide (s.time < v.since + 1000) then s
      else s.modEvac fun v => { v with due := true })

/-- A target whose partial copy is discarded: inactive, empty and without a logical slice, and no longer ready (R374,
Table 2.7). -/
def State.discardTarget (s : State) (t : Nat) : State :=
  let s := s.modSlice t fun x => { x with
    active := false, lslice := 0, g := []
    sfl := { x.sfl with blocks := [], lru := [], ovfOrder := [], pass := none }
    hlc := { x.hlc with lines := [], lru := [] } }
  s.modSpare fun x => { x with ready := x.ready.filter (· != t) }

end Sys2Proof.Machine
end

