-- ==== Sys2Proof/Machine/HfnOps.lean ====
section
/-! DEFINITION. The host function: descriptor fetch and its abort, completions and their timeout, bus mastering, D3hot,
hot reset and function-level reset (R332, R339 to R346). -/

namespace Sys2Proof.Machine

/-! Descriptor fetch (R342) -/

/-- The completion timeout, µs (R344). -/
def Hfn.timeout (h : Hfn) : Nat := if h.ctoVal = 6 then 200000 else 50000

/-- Descriptors in the ring. -/
def Hfn.cmdN (h : Hfn) : Nat := 2 ^ h.cmdSize.toNat

/-- Descriptors of one read: the lower of Max Read Request Size and 512 bytes. -/
def Hfn.chunk (h : Hfn) : Nat := min (128 * 2 ^ h.mrrs.toNat) 512 / 16

/-- A tag that is neither outstanding nor quarantined. -/
def Hfn.freeTag (h : Hfn) : Option (BitVec 8) :=
  ((List.range 256).map (BitVec.ofNat 8)).find? fun t =>
    !(h.reads.any fun r => r.tag == t) && !(h.quar.any fun q => q.1 == t)

/-- The function may fetch (R342, R343). -/
def Hfn.fetches (h : Hfn) : Bool := h.cmdEn && h.sends && !h.aborted && h.cause == 0

/-- Exposed descriptors that no read has asked for yet; none where TAIL has been lowered to what was read before (R342). -/
def Hfn.unread (h : Hfn) : Nat := (h.tail - h.head).toNat - (h.fetch - h.head).toNat

/-- Send one read of descriptors, if one is due and at most three are outstanding. -/
def Hfn.fetchOne (h : Hfn) (now : Nat) : Hfn :=
  if !h.fetches || decide (4 ≤ h.reads.length) || h.unread == 0 then h
  else
    match h.freeTag with
    | none => h
    | some tag =>
      let at_ := h.fetch.toNat % h.cmdN
      let n := min (min h.chunk h.unread) (h.cmdN - at_)
      { h with
        up := h.up ++ [.read tag (BitVec.ofNat 64 (h.cmdBase.toNat * 4096 + 16 * at_)) (16 * n)]
        reads := h.reads ++ [{ tag, first := h.fetch, n, sentAt := now }]
        fetch := h.fetch + BitVec.ofNat 16 n }

/-- Fetch what may be fetched now (R342). -/
def State.hfnFetch (s : State) : State :=
  s.modHfn fun h => (List.range 4).foldl (fun h _ => h.fetchOne s.time) h

/-- What an abort keeps: the arrived ranges that follow HEAD without a gap (R343). -/
def keepRun : Nat → BitVec 16 → List (BitVec 16 × Nat) → List (BitVec 16 × Nat)
  | 0, _, _ => []
  | fuel + 1, head, l =>
    match l.find? (fun r => r.1 == head) with
    | none => []
    | some r => r :: keepRun fuel (head + BitVec.ofNat 16 r.2) (l.filter (fun q => q != r))

/-- An abort is complete once the descriptors it keeps are applied and the completions of outstanding reads are dropped:
ABORTED is set and source 1457 fires (R343). -/
def State.abortDone (s : State) : State :=
  if s.hfn.cause ≠ 0 ∧ s.hfn.aborted = false ∧ s.hfn.arrived = [] ∧ s.hfn.reads = [] then
    (s.modHfn fun h => { h with aborted := true, aborts := h.aborts + 1 }).fire 1457
  else s

/-- Abort the fetch (R343); outstanding reads are accepted and dropped. A cause already set stays. -/
def State.hfnAbort (s : State) (cause : BitVec 3) : State :=
  if s.hfn.cause ≠ 0 then s
  else
    (s.modHfn fun h => { h with
      cause, fetch := h.tail, reads := h.reads.map fun r => { r with drop := true }
      arrived := keepRun h.arrived.length h.head h.arrived }).abortDone

/-- HEAD advances past one descriptor (R342). -/
def Hfn.advance (h : Hfn) : Hfn :=
  { h with
    head := h.head + 1
    arrived := h.arrived.flatMap fun r =>
      if r.1 = h.head then (if r.2 ≤ 1 then [] else [(r.1 + 1, r.2 - 1)]) else [r] }

/-- The function takes memory requests: phase 0 is over, and it is in D0 and not in reset (R332, R398, Table 20.6). -/
def State.hfnTakes (s : State) : Bool := s.rst.released && s.rst.phase != 0 && !s.hfn.d3hot && !s.hfn.inReset

/-- The function takes configuration requests: 1 ms has passed since its last reset ended (R346). -/
def State.cfgTakes (s : State) : Bool :=
  s.rst.released && s.rst.phase != 0 && !s.hfn.inReset && decide (s.hfn.cfgAt ≤ s.time)

/-- A write of `HFN_CMD_TAIL` (R342). -/
def State.cmdTail (s : State) (v : BitVec 32) : State :=
  let tail := v.extractLsb' 0 16
  let s := s.noteRsvd (v.extractLsb' 16 16 != 0)
  if s.hfn.cmdN < (tail - s.hfn.head).toNat then s.modHfn fun h => { h with tailRefused := true }
  else (s.modHfn fun h => { h with tail }).hfnFetch

/-- Write 1 to ABORTED: CAUSE clears and fetching resumes at HEAD (R343). -/
def State.cmdResume (s : State) : State :=
  if s.hfn.aborted then
    (s.modHfn fun h => { h with aborted := false, cause := 0, fetch := h.head, arrived := [] }).hfnFetch
  else s

/-! Completions (R343, R344) -/

/-- AER status bits: Completion Timeout, Unexpected Completion (PRESUMED PCIe, log 40). -/
def aerTimeout : BitVec 32 := 0x4000
def aerUnexpected : BitVec 32 := 0x10000

/-- HFN_COMPLETION_TIMEOUT: a read has waited the timeout (R344). -/
def execHfnCompletionTimeout (tag : BitVec 8) (s : State) : Out :=
  .next (match s.hfn.reads.find? (fun r => r.tag == tag) with
    | none => s
    | some r =>
      if s.time < r.sentAt + s.hfn.timeout then s
      else
        let s := s.modHfn fun h => { h with
          reads := h.reads.filter fun q => q.tag != tag
          quar := h.quar ++ [(tag, s.time + 4 * h.timeout)]
          aer := h.aer ||| aerTimeout, cto := satInc16 h.cto, ctos := h.ctos + 1 }
        ((s.fire 1456).hfnAbort 2).abortDone)

/-- HFN_TAG_QUARANTINE_END (R344). -/
def execHfnTagQuarantineEnd (tag : BitVec 8) (s : State) : Out :=
  .next ((s.modHfn fun h => { h with
    quar := h.quar.filter fun q => !(q.1 == tag && decide (q.2 ≤ s.time)) }).hfnFetch)

/-- The bytes a read has brought once a completion has come. -/
def HfnRead.after (r : HfnRead) : CplStatus → Nat
  | .ok => 16 * r.n
  | .bad => r.got
  | .part b => min (16 * r.n) (r.got + b)

/-- A completion is the last of its read. -/
def HfnRead.last (r : HfnRead) (st : CplStatus) : Bool := st == .bad || r.after st == 16 * r.n

/-- A completion of a read: the read ends with its last one, and the descriptors that have come whole since the last
completion have arrived. -/
def Hfn.takes (h : Hfn) (r : HfnRead) (st : CplStatus) : Hfn :=
  { h with
    reads := if r.last st then h.reads.filter fun q => q.tag != r.tag
      else h.reads.map fun q => if q.tag = r.tag then { q with got := r.after st } else q
    arrived := if r.drop || r.after st / 16 == r.got / 16 then h.arrived
      else h.arrived ++ [(r.first + BitVec.ofNat 16 (r.got / 16), r.after st / 16 - r.got / 16)] }

/-- HFN_COMPLETION: a completion naming a tag that is outstanding, quarantined, or neither (R343, R344). -/
def execHfnCompletion (tag : BitVec 8) (st : CplStatus) (s : State) : Out :=
  .next (match s.hfn.reads.find? (fun r => r.tag == tag) with
    | some r =>
      let s := s.modHfn fun h => h.takes r st
      if r.drop then s.abortDone else if st = .bad then s.hfnAbort 3 else s.hfnFetch
    | none =>
      if s.hfn.quar.any (fun q => q.1 == tag) then
        s.modHfn fun h => { h with late := satInc16 h.late, lates := h.lates + 1 }
      else s.modHfn fun h => { h with aer := h.aer ||| aerUnexpected })

/-! Bus mastering and D3hot (R332, R345) -/

/-- Clear bus-master enable: the completions of outstanding reads are dropped, and a fetch with work left aborts with CAUSE 1
(R345). -/
def State.bmeClear (s : State) : State :=
  if !s.hfn.bme then s
  else
    let work := (s.hfn.cmdEn && s.hfn.head != s.hfn.tail) || !s.hfn.reads.isEmpty || !s.hfn.arrived.isEmpty
    let s := s.modHfn fun h => { h with bme := false }
    if work then s.hfnAbort 1 else s

/-- Set bus-master enable: held MSI-X writes, spill records and descriptor fetch go on (R290, R339, R345). -/
def State.bmeSet (s : State) : State := ((s.modHfn fun h => { h with bme := true }).msixRelease.spillAll).hfnFetch

/-- Return to D0: the function's state is as it was, and what waited goes on (R332). -/
def State.hfnToD0 (s : State) : State := ((s.modHfn fun h => { h with d3hot := false }).msixRelease.spillAll).hfnFetch

/-! Reset of the function (Table 18.6) -/

/-- Configuration space, MSI-X and the function's registers take their reset values; AER, spill-buffer records, the
counts since start and `0x3803:01` stay; outstanding reads are dropped and their tags quarantined. -/
def Hfn.resetBy (h : Hfn) (now : Nat) : Hfn :=
  { aer := h.aer, spillBuf := h.spillBuf, up := h.up, inReset := h.inReset, cfgAt := now + 1000
    ctos := h.ctos, lates := h.lates, drops := h.drops, aborts := h.aborts, bar0Ok := h.bar0Ok
    quar := h.quar ++ h.reads.map fun r => (r.tag, now + 4 * h.timeout) }

/-- Clear the mailbox and close its sessions (R322, R330); a WRITE in progress goes on, and its answer finds no
session. -/
def Svc.resetMbx (v : Svc) : Svc :=
  { v with req := [], rsp := [], busy := false, rspReady := false, refused := false
           sessions := v.sessions.filter fun x => x.owner.isSome }

/-- Host-target sources lose EN, PENDING and ACTIVE (R291). -/
def Src.resetHost (x : Src) (now : Nat) : Src :=
  if x.host then
    { x with
      cfg := x.cfg &&& 0xFFFFFFFE, pend := false, act := false, ready := false
      hist := if x.en then (now, true) :: x.hist else x.hist }
  else x

/-- A group holds only host-target sources; every source not configured is an engine-target source of group 0 (R291,
Table 14.5). -/
def Iag.onlyHost (g : Iag) (k : Nat) : Bool :=
  (g.srcs.all fun e => e.2.group != k || e.2.host) && (k != 0 || decide (1536 ≤ g.srcs.length))

/-- A reset's effect on the aggregator (R291). -/
def Iag.hostReset (g : Iag) (now : Nat) : Iag :=
  { g with
    srcs := g.srcs.map fun e => (e.1, e.2.resetHost now)
    grps := g.grps.foldl (fun d e =>
      NMap.set Grp.dflt d e.1
        (if g.onlyHost e.1 then { e.2 with isOpen := false, caught := 0, ticks := 0 } else e.2)) [] }

/-- Hot reset or function-level reset of the host function (R291, R302, R330, R346). -/
def State.hostReset (s : State) : State :=
  let s := { s with rpq := [] }
  ((s.modIag fun g => g.hostReset s.fclk).modSvc Svc.resetMbx).modHfn fun h => h.resetBy s.time

/-- HOST_RESET (R346, Table 18.6). -/
def execHostReset (s : State) : Out := .next s.hostReset

end Sys2Proof.Machine
end

