-- ==== Sys2Proof/Machine/Monitor.lean ====
section
/-! DEFINITION. The safety monitor: cadence probes, checker self-test, the steward watchdog, clock loss and kickstand
(R378 to R387, R394, R399). -/

namespace Sys2Proof.Machine

/-! Start-up failure (R399) -/

/-- Start-up ends in PHASE 8. -/
def State.startFail (s : State) (cause : BitVec 4) : State :=
  (s.modRst fun r => { r with phase := 8, failCause := cause }).modSaf fun x => { x with
    fatalPin := true, safeAck := true, flushIncomplete := true }

/-- Nothing but READ is served: kickstand has begun, or start-up has failed (R386, R399). -/
def State.inKickstand (s : State) : Bool := s.saf.kick != .none || s.rst.phase == 8

/-! Cadence probes (R379) -/

def State.probe (s : State) (p : Nat) : Probe := s.saf.probes.get Probe.dflt p
def State.modProbe (s : State) (p : Nat) (f : Probe → Probe) : State :=
  s.modSaf fun x => { x with probes := x.probes.set Probe.dflt p (f (s.probe p)) }

/-- The probe line of a slice's logical slice. -/
def State.probeLine (s : State) (p : Nat) : LineAddr := addrOfRegion (s.slice p).lslice s.saf.probeBase

/-- The pattern P of the `n`-th script for logical slice `l`. -/
def probePattern (n : BitVec 32) (l : BitVec 7) : LineData :=
  (List.range 8).foldl (fun d j =>
    d ||| (BitVec.ofNat 512 (n.toNat * 2 ^ 32 + 0x100 * l.toNat + j) <<< (64 * j))) 0

/-- The running script's pattern; `n` counts scripts begun, so the first has number 0. -/
def State.probeP (s : State) (p : Nat) : LineData := probePattern ((s.probe p).n - 1) (s.slice p).lslice

/-- The message of a script step; REQID is the probe, as of every requester (R70, R71). Its TXN the spec leaves to the
requester: the number of the step. DESIGN CHOICE (log 90). -/
def State.probeMsg (s : State) (p step : Nat) : Msg :=
  let opc := if step = 1 then 4 else if step = 3 then 6 else 3
  let m := { mkMsg opc (BitVec.ofNat 10 (460 + p)) 1023 with
    reqid := BitVec.ofNat 10 (460 + p)
    home := (s.slice p).lslice, addr := s.probeLine p, txn := BitVec.ofNat 12 step }
  if step = 1 then { m with data := s.probeP p }
  else if step = 3 then { m with len := 8, hint := 2, data := 1 }
  else m

/-- Send a step's message to the probe's own slice (R9). -/
def State.probeSend (s : State) (p step : Nat) : State :=
  let m := s.probeMsg p step
  (s.modProbe p fun x => { x with step }).modSlice p fun x => { x with local_ := x.local_ ++ [m] }

/-- A probe may start its script: enabled, its period over, its slice active and not held, no drain running (R379,
R403). -/
def State.probeDue (s : State) (p : Nat) : Bool :=
  s.saf.probeEn && (s.slice p).active && !s.saf.suspended.contains p && s.saf.kick == .none && s.pwr.state == 0
    && s.pwr.trans.isNone && s.glb.coherentReady && (s.probe p).step == 0
    && decide (max (s.probe p).since s.rst.readyUs.toNat + s.saf.probePeriod.toNat ≤ s.time)

/-- PROBE_START (R379). -/
def execProbeStart (p : Fin 132) (s : State) : Out :=
  .next (if s.probeDue p then
      (s.modProbe p fun x => { x with n := x.n + 1, since := s.time }).probeSend p 1
    else s)

/-- The image of `SAF_PROBE_STAT` (Table 20.9). -/
def Saf.probeStat (x : Saf) : Word :=
  BitVec.ofNat 64 (x.passes.toNat + 2 ^ 32 * x.failSlice.toNat + 2 ^ 40 * x.failStep.toNat)

/-- A script has failed (R379, code `0x48`). -/
def State.probeFail (s : State) (p : Nat) (step : BitVec 3) : State :=
  let s := (s.modProbe p fun x => { x with step := 0 }).modSaf fun x => { x with
    failSlice := BitVec.ofNat 8 p, failStep := step }
  s.record { cls := 2, unit := 0, index := p, code := 0x48, byTest := true, detail := s.saf.probeStat }

/-- The answer a step expects. -/
def State.probeGood (s : State) (p step : Nat) (m : Msg) : Bool :=
  let w := s.probeP p
  if step = 1 then m.opc == 0x2F || m.opc == 0x28
  else if step = 3 then m.opc == 0x3D && m.stat == 0 && m.poison == 0 && m.data.extractLsb' 0 64 == w.extractLsb' 0 64
  else
    let want := if step = 2 then w
      else (w >>> 64 <<< 64) ||| ((w.extractLsb' 0 64 : Word) + 1).setWidth 512
    m.opc == 0x3A && m.poison == 0 && m.data == want

/-- Take a message for the probe out of its slice. -/
def State.probeTake (s : State) (p : Nat) (m : Msg) : State :=
  s.modSlice p fun x => { x with local_ := takeFirst m x.local_ }

/-- PROBE_STEP: the answer of the running step; one that no script awaits is dropped (R379). -/
def execProbeStep (p : Fin 132) (m : Msg) (s : State) : Out :=
  .next (if !((s.slice p).local_.contains m && m.dst == BitVec.ofNat 10 (460 + p.val)) then s
    else
      let k := (s.probe p).step
      let s := s.probeTake p m
      if k = 0 ∨ m.txn ≠ BitVec.ofNat 12 k then s
      else if !(s.probeGood p k m) then s.probeFail p (BitVec.ofNat 3 k)
      else if k = 4 then (s.modProbe p fun x => { x with step := 0 }).modSaf fun x => { x with passes := x.passes + 1 }
      else s.probeSend p (k + 1))

/-- PROBE_TIMEOUT: no completion within 100 µs of the start (R379). -/
def execProbeTimeout (p : Fin 132) (s : State) : Out :=
  .next (if (s.probe p).step = 0 ∨ s.time < (s.probe p).since + 100 then s else s.probeFail p 5)

/-! Checkers and the steward (R380, R381) -/

/-- The record of a failed checker; the checker's number is in bytes 28 and 29 (Table 20.2). -/
def State.checkerFail (s : State) (c : BitVec 16) : State :=
  s.record { cls := 2, unit := 5, index := 0, code := 0x49, byTest := true, detail := c.setWidth 64 }

/-- The checkers of R380: 0 to 131 the snoop filters', 132 to 263 the home line caches', then those of the 94 stops of each
ring, then those of the 50 ports. The numbers are the model's. DESIGN CHOICE (log 75). -/
def checkers : Nat := 132 + 132 + 6 * 94 + 50

/-- The period of a checker's self-test, µs (R380). -/
def testPeriod : Nat := 500

/-- A periodic test of checker `c` is due. -/
def State.testIsDue (s : State) (c : Nat) : Bool := decide (c < checkers) && decide (s.saf.testDue.get zeroNat c ≤ s.time)

/-- CHECKER_SELF_TEST: the checker must pass the good pattern and flag the bad one (R380); before `coherent_ready` a
failure ends start-up (R399). -/
def execCheckerSelfTest (c : BitVec 16) (flagsGood flagsBad : Bool) (s : State) : Out :=
  .next (if !s.saf.selfTest || s.pwr.state != 0 || s.rst.phase.toNat < 3 || s.rst.phase == 8 || !s.testIsDue c.toNat then s
    else
      let s := s.modSaf fun x => { x with testDue := x.testDue.set zeroNat c.toNat (s.time + testPeriod) }
      if !flagsGood && flagsBad then s
      else if s.rst.phase = 7 then s.checkerFail c
      else (s.checkerFail c).startFail 4)

/-- SAF_KICK: the running steward's write is accepted; the host's is discarded (R381, R389). -/
def execSafKick (who : Writer) (s : State) : Out :=
  .next (match who with
    | .host => s
    | .steward => if s.stewardRuns then s.modSaf fun x => { x with kickedAt := s.time } else s)

/-- STEWARD_WATCHDOG_EXPIRY: 200 µs without a write of `SAF_KICK` (R16, R381). -/
def execStewardWatchdogExpiry (s : State) : Out :=
  .next (if !s.stewardRuns || decide (s.time < s.saf.kickedAt + 200) then s
    else
      let s := ((s.engReset 132 false).engReset 133 false).modStw fun x => { x with
        running := false, delayed := [], entries := [], outMain := [], outCheck := [] }
      let s := (s.modSaf fun x => { x with stwWdog := true }).modLoader fun x => { x with stwImage := [] }
      (s.record { cls := 1, unit := 4, index := 0, code := 0x39, agent := some 452
                  detail := s.stwStat.setWidth 64 }).fire 1439)

/-! Clocks (R382, R383, R394) -/

/-- Nominal frequency of a clock in kHz (Table 21.1). -/
def nominalKhz (i : Nat) : Nat :=
  if i = 0 then 2400000 else if i = 1 then 1200000 else if i < 22 then 1250000 else if i < 34 then 1100000
  else if i = 34 then 1000000 else 100000

/-- A measured frequency lies within 10 % of nominal (R382). -/
def clockOk (i khz : Nat) : Bool := decide (9 * nominalKhz i ≤ 10 * khz) && decide (10 * khz ≤ 11 * nominalKhz i)

def clockBit (i : Nat) : BitVec 36 := BitVec.ofNat 36 (2 ^ i)

/-- CLOCK_MEAS_WINDOW_END: the frequencies of the window, by INDEX (R394, Table 21.5). -/
def execClockMeasWindowEnd (khz : List Nat) (s : State) : Out :=
  .next (s.modClk fun c => { c with
    khz := (List.range 36).foldl (fun d i => NMap.set zeroNat d i (khz.getD i 0)) []
    present := (List.range 36).foldl (fun v i => if clockOk i (khz.getD i 0) then v ||| clockBit i else v) 0 })

/-- The loss of FCLK or ECLK: the monitor takes the block to kickstand itself, its counters frozen and copied (R310, R383); before `coherent_ready` start-up
fails, unless it has (R399). -/
def State.coreClockLost (s : State) (i : Nat) : State :=
  let s := if s.saf.fatal.isSome || s.rst.phase == 8 then s
    else s.modSaf fun x => { x with
      fatal := some { code := 0x40, unit := 7, index := i, seq := some 0xFFFFFFFF, eclk := s.eclk } }
  if s.glb.coherentReady then
    let s := if s.saf.kick = .none ∨ s.saf.kick = .waking ∨ s.saf.kick = .window then (s.pmcFreeze true).pmcSnapshot else s
    (s.modGlb fun g => { g with ingressHold := true }).modSaf fun x => { x with
      kick := .safe, fatalPin := true, safeAck := true, flushIncomplete := !x.flushDone }
  else if s.rst.phase = 8 then s else s.startFail 6

/-- Every access outstanding at a memory port is answered by the slices (Table 20.6); its tag waits for the clock. -/
def State.mptClockLost (s : State) (m : Nat) : State :=
  let x := s.mpt m
  let s := s.modMpt m fun x => { x with
    cmds := [], waiting := [], quar := x.quar ++ x.cmds.map fun c => (c.tag, s.time, true) }
  let s := x.cmds.foldl (fun s c => s.memLost m c.msg c.wr) s
  x.waiting.foldl (fun s q => s.memLost m q (q.opc == 0x12)) s

/-- The record of a lost clock (Table 20.2). -/
def State.clockRecord (s : State) (i : Nat) : State :=
  s.record { cls := 1, unit := 7, index := i, code := 0x41, detail := BitVec.ofNat 64 i }

/-- The reaction to a lost clock (Table 20.6). -/
def State.clockReact (s : State) (i : Nat) : State :=
  if i < 2 then s.coreClockLost i
  else
    let s := s.clockRecord i
    if i < 22 then s.linkDown (i - 2)
    else if i < 34 then s.mptClockLost (i - 22)
    else if i = 34 then s.hostReset.modHfn fun h => { h with inReset := true }
    else s

/-- CLOCK_LOSS (R382). -/
def execClockLoss (i : Fin 36) (s : State) : Out :=
  .next (if !s.rst.released || s.clk.lost.contains i.val then s
    else
      let s := s.modClk fun c => { c with
        lost := c.lost ++ [i.val], present := c.present &&& ~~~(clockBit i)
        lossSeen := true, lossClock := if c.lossSeen then c.lossClock else BitVec.ofNat 6 i }
      (s.fire 1450).clockReact i)

/-- CLOCK_RETURN: the host function leaves reset, the service port sends what waits, and a memory port's tags start
their 1 ms (R382, R411, Table 20.6). -/
def execClockReturn (i : Fin 36) (s : State) : Out :=
  .next (if !(s.clk.lost.contains i.val) then s
    else
      let s := s.modClk fun c => { c with
        lost := c.lost.filter (· != i.val), present := c.present ||| clockBit i }
      if i.val = 34 then s.modHfn fun h => { h with inReset := false, cfgAt := s.time + 1000 }
      else if i.val = 35 then s.svcFlush
      else if 22 ≤ i.val then
        s.modMpt (i.val - 22) fun x => { x with quar := x.quar.map fun q => if q.2.2 then (q.1, s.time, false) else q }
      else s)

/-! Kickstand (R385 to R387) -/

/-- Kickstand without a flush: in Freewheel, or where the power handshake prevents leaving Coast (R310, R387). -/
def State.kickDirect (s : State) : State :=
  let s := ((s.modPwr fun p => { p with trans := none }).awaitEnd .power 1 0).modSaf fun x => { x with
    kick := .safe, kickAt := s.time, fatalPin := true, safeAck := true, flushIncomplete := true }
  ((s.pmcFreeze true).pmcSnapshot).fire 1449

/-- Drop an entry that had begun; its command is answered BUSY (R387, R329). -/
def State.kickWake (s : State) : State :=
  if s.pwr.trans.isSome then
    (s.modPwr fun p => { p with trans := none, bias := 0, stateReq := 0, retBias := false }.followAssist).startSteward.awaitEnd
      .power 1 0
  else s

/-- Kickstand from Coast: the clocks ungate through the exit's handshake, which may run already; its command is answered
BUSY (R387, R329). -/
def State.kickCoast (s : State) : State :=
  let s := if s.pwr.trans.isSome then s.awaitEnd .power 1 0 else s.powerExit
  (s.modGlb fun g => { g with ingressHold := true }).modSaf fun x => { x with kick := .waking, kickAt := s.time }

/-- The exit from Coast that kickstand waits for has outlasted its bound (R358, R387). -/
def State.wakeLate (s : State) : Bool :=
  match s.pwr.trans with
  | some t => decide (t.bound ≤ s.time - t.since)
  | none => false

/-- KICKSTAND_ENTRY: a block-fatal detection has been captured (R385, R387). -/
def execKickstandEntry (s : State) : Out :=
  .next (match s.saf.fatal with
    | none => s
    | some f =>
      if s.saf.kick = .waking then (if s.wakeLate then s.kickDirect else s)
      else if s.inKickstand || !s.rst.released then s
      else if s.pwr.state == 2 || (s.pwr.state == 1 && s.pwr.trans.isSome && f.code == 0x50) then s.kickDirect
      else if s.pwr.state = 1 then s.kickCoast
      else
        (s.kickWake.modGlb fun g => { g with ingressHold := true }).modSaf fun x => { x with
          kick := .window, kickAt := s.time })

/-- Some slice holds an open or waiting request. -/
def State.workOpen (s : State) : Bool := s.slices.any fun e => !e.2.used.isEmpty

/-- Write a line of an ending transaction into the cache and to memory with POISON `0xFF`, and set its entry's poison
bit, where it has one (R369, R385). -/
def State.poisonOut (s : State) (p : Nat) (a : LineAddr) (held : Option LineData) : State :=
  let h := (s.slice p).hlc
  let d := match held with
    | some d => d
    | none => ((h.latest a).map (·.1)).getD (Config.lostLine a)
  let s := s.modHlc p fun h => { h with mshrs := h.mshrs.map fun m => if m.addr = a then { m with wrote := true } else m }
  let s := match h.find a with
    | some q => s.modHlc p fun h => h.setLine q (mkLine a d 0xFF false false)
    | none => if h.installs then (s.install p a d 0xFF false false).1 else s
  let s := s.modHlc p fun h => h.queueWrite false a d 0xFF
  let e := (s.slice p).dir a
  s.setDir p a e.st e.vec true

/-- The data message a request still lacks, none where it asks for no data or an owner supplies it (R385). -/
def Trk.lacks (k : Trk) : Option Nat :=
  if k.phase = .forward ∨ k.phase = .chained then none
  else match k.kind with
    | .readShared => some 0x39
    | .readOwn => if k.grant then none else some 0x38
    | .readNc => some 0x3A
    | _ => none

/-- End one transaction still open (R385): the message with CRET returns its credit (R88), and a `DataM` is a transfer of
ownership (R199). -/
def State.kickEnd (s : State) (p t : Nat) (k : Trk) : State :=
  let s := s.poisonOut p k.req.addr (if k.have_ then some k.data else none)
  let s := match k.victim with
    | some v => s.poisonOut p v none
    | none => s
  match k.lacks with
  | some opc =>
    let s := s.endWith p t opc fun m => { m with poison := 0xFF }
    if opc = 0x38 then s.loadRecent p k.req.addr else s
  | none => s

/-- End every transaction of a slice: its trackers, open lines and queues empty, and its engine leaves a program. -/
def State.kickSlice (s : State) (p : Nat) : State :=
  let s := (s.slice p).used.foldl (fun s e => s.kickEnd p e.1 e.2) s
  let s := if (s.slice p).far.run.isSome then s.farReturn p else s
  s.modSlice p fun x => { x with
    trks := [], olt := []
    sfl := { x.sfl with wait := [] }
    far := { x.far with queue := [], alu := [], prog := [] } }

/-- Start a clean of every enabled cache (R229, R385). -/
def State.kickClean (s : State) : State :=
  (List.range 132).foldl (fun s p =>
    let x := s.slice p
    if x.hlc.isOff || x.hlc.lines.isEmpty then s
    else
      let i := x.hlc.maintNext
      s.modHlc p fun h => { h with
        maint := h.maint ++ [{ idx := i, src := none, op := 0, scope := 2, addr := 0, kick := true }], maintNext := i + 1
        walks := h.walks ++ [{ maint := some i }] }) s

/-- KICKSTAND_WINDOW_END: the transactions still open end, the logs freeze, and `kh_fatal_n` is asserted (R310, R368,
R385). -/
def execKickstandWindowEnd (s : State) : Out :=
  .next (if s.saf.kick ≠ .window then s
    else if s.workOpen = true ∧ s.time < s.saf.kickAt + 150 then s
    else
      let s := ((s.slices.filter fun e => !e.2.used.isEmpty).map (·.1)).foldl (fun s p => s.kickSlice p) s
      let s := (s.modRas fun r => { r with frozen := true }).modSaf fun x => { x with fatalPin := true, kick := .flushing }
      (((s.pmcFreeze true).pmcSnapshot).fire 1449).kickClean)

/-- Memory holds every value a slice held: no dirty line and no write on its way. -/
def Slice.flushed (x : Slice) : Bool :=
  x.hlc.lines.all (fun e => !(e.2.v && e.2.dirty)) && x.hlc.writes.isEmpty && x.hlc.walks.isEmpty

/-- KICKSTAND_SAFE_ACK: the cleans are done, or 10 ms have passed (R385). -/
def execKickstandSafeAck (cleaned : Bool) (s : State) : Out :=
  .next (
    let all := s.slices.all fun e => e.2.flushed
    if s.saf.kick ≠ .flushing then s
    else if !(cleaned && all) && decide (s.time < s.saf.kickAt + 10000) then s
    else s.modSaf fun x => { x with kick := .safe, safeAck := true, flushDone := all, flushIncomplete := !all })

end Sys2Proof.Machine
end

