-- ==== Sys2Proof/Machine/Startup.lean ====
section
/-! DEFINITION. Cold reset, the start-up phases, the time base, the relay watchdog and the test port (R280, R326, R392,
R395 to R403, R415, R417). -/

namespace Sys2Proof.Machine

/-! Cold reset (R395 to R397) -/

/-- COLD_RESET: everything takes its reset value; commands, straps and input pins are not the block's state. -/
def execColdReset (s : State) : Out :=
  .next { State.reset with
    pending := s.pending, straps := s.straps
    pwr := { State.reset.pwr with railOk := s.pwr.railOk } }

/-- COLD_RESET_RELEASE: straps are sampled; every rail is good (R395), and the islands start (R398). EXTEST ends with
the reset (R415). -/
def execColdResetRelease (s : State) : Out :=
  .next (if s.rst.released then s
    else
      let s := s.modRst fun r => { r with released := true, tap := if r.tap = .extest then .bypass else r.tap }
      (s.modSvc fun v => { v with vdbgKey := s.straps.vdbgKey }).modPwr fun p => { p with railOk := 0xF }.followAssist)

/-! Phases 0 to 3 (Table 21.4) -/

/-- PLL_LOCK: every clock is checked, and phase 1 begins (R392, R398). -/
def execPllLock (s : State) : Out :=
  .next (if !s.rst.released || s.rst.phase != 0 then s
    else
      let s := s.modClk fun c => { c with
        pllLock := true, present := c.lost.foldl (fun v i => v &&& ~~~(clockBit i)) (BitVec.allOnes 36) }
      s.modRst fun r => { r with phase := 1 })

/-- PLL_LOCK_TIMEOUT: no lock within 200 µs (R392, R399). -/
def execPllLockTimeout (s : State) : Out :=
  .next (if !s.rst.released || s.rst.phase != 0 || decide (s.time < 200) then s else s.startFail 1)

/-- The mask of a list of slices. -/
def bistBits (l : List (Fin 132)) : BitVec 132 := l.foldl (fun v p => v ||| BitVec.ofNat 132 (2 ^ p.val)) 0

/-- ARRAY_SELF_TEST_DONE (R398, R399): more failing slices than the four spares end start-up. -/
def execArraySelfTestDone (failed : List (Fin 132)) (outside : Bool) (s : State) : Out :=
  .next (if s.rst.phase ≠ 1 then s
    else
      let s := s.modRst fun r => { r with bistFail := bistBits failed }
      if outside then s.startFail 2
      else if 4 < ((List.range 132).filter fun p => s.rst.bistFail.getLsbD p).length then s.startFail 3
      else s.modRst fun r => { r with phase := 2 })

/-- CHECKER_TEST_AND_CLEAR_DONE (R192, R233, R398, R399). -/
def execCheckerTestAndClearDone (failed : Option (BitVec 16)) (s : State) : Out :=
  .next (if s.rst.phase ≠ 2 then s
    else
      match failed with
      | some c => (s.checkerFail c).startFail 4
      | none =>
        ((List.range 132).foldl (fun s p => (s.sflInit p).hlcInit p) s).modRst fun r => { r with phase := 3 })

/-- Ring `r` after training: rerouted with one failing segment, shifted off with more (R53, R398). -/
def State.ringTrained (s : State) (r : Nat) (out : BitVec 94) : State :=
  let s := s.modRing r fun x => { x with segOut := out, links := [] }
  if (s.ring r).segsOut ≤ 1 then s else s.modRing r fun x => { x with mode := 2 }

/-- The boot ROM of the steward engines runs (R400). -/
def State.bootSteward (s : State) : State := (s.engReset 132 true).engReset 133 true

/-- RING_TRAINING_DONE: phase 4 begins, unless both rings of a pair failed (R398, R399). -/
def execRingTrainingDone (failed : List (Fin 6 × Fin 94)) (s : State) : Out :=
  .next (if s.rst.phase ≠ 3 then s
    else
      let segs := fun (r : Nat) => segsOf ((failed.filter fun e => e.1.val == r).map (·.2))
      let s := (List.range 6).foldl (fun s r => s.ringTrained r (segs r)) s
      let gone := fun (r : Nat) => (s.ring r).mode == 2
      if [0, 2, 4].any (fun r => gone r && gone (r + 1)) then s.startFail 5
      else s.bootSteward.modRst fun r => { r with phase := 4, phase4At := s.time })

/-! Phases 4 and 5 -/

/-- WORDS of an image header. -/
def imageWords (b : List Byte) : Nat := leNat ((b.drop 4).take 2)

/-- The image is to be checked: 16 + 4 × WORDS bytes have arrived, or WORDS names more than can be (R400). -/
def imageDue (b : List Byte) : Bool :=
  decide (16 ≤ b.length) && (decide (16384 < imageWords b) || decide (16 + 4 * imageWords b ≤ b.length))

/-- Firmware in both steward engines, from instruction address 0 (Table 12.1). -/
def State.stewardStart (s : State) (code : List (BitVec 32)) (entry : Nat) : State :=
  let run := fun (s : State) (e : Nat) =>
    (s.engReset e true).modEng e fun g => { g with fw := fwMap code, fwOk := true, pc := BitVec.ofNat 64 (4 * entry) }
  let s := (run (run s 132) 133).modStw fun x => { x with
    running := true, delayed := [], entries := [], outMain := [], outCheck := [] }
  let s := s.modSaf fun x => { x with kickedAt := s.time }
  let s := if s.rst.phase = 4 then
      s.modRst fun r => { r with phase := 5, restoreAt := some s.time }
    else s
  (s.modRst fun r => { r with bootResult := 0 }).fire 1438

/-- A write of `0x3010`; the answer says that it was refused: the ROM does not wait, the sub-index is out of order, or
the length is no sub-index's (R400, R255). What was written from that sub-index on is dropped. -/
def State.stewardImage (s : State) (sub : Nat) (b : List Byte) : State × Bool :=
  let m := s.loader.stwImage
  let ordered := sub == 1 || (m.get noBytes (sub - 1)).length == 1024
  if s.rst.phase.toNat < 4 || s.inKickstand || s.stw.running || sub == 0 || decide (65 < sub) || !ordered || b.isEmpty
      || decide (1024 < b.length) then (s, true)
  else
    let m := NMap.set noBytes (m.filter fun e => decide (e.1 < sub)) sub b
    let bytes := imageBytes m
    let s := s.modLoader fun x => { x with stwImage := m }
    if !imageDue bytes then (s, false)
    else
      match fwValidate m 16384 with
      | (0, code, entry) => (s.stewardStart code entry, false)
      | (r, _, _) =>
        ((s.modLoader fun x => { x with stwImage := [] }).modRst fun x => { x with bootResult := BitVec.ofNat 4 r }, false)

/-- STEWARD_IMAGE_WRITE (R326, R400). -/
def execStewardImageWrite (sub : Nat) (b : List Byte) (s : State) : Out := .next (s.stewardImage sub b).1

/-- Phase 6 begins when the restore window is closed and every port is up or declared down (Table 21.4). -/
def State.portsDone (s : State) : State :=
  if s.rst.phase = 5 ∧ s.rst.restoreClosed = true ∧
      (List.range 48).all (fun n => (s.port n).up || s.rst.portDown.getLsbD n) = true then
    s.modRst fun r => { r with phase := 6 }
  else s

/-! The start map (R28, R399) -/

/-- The spare that takes over from failed slice `p`: one of its pair, else the lowest-numbered (R399). -/
def spareFor (spares : List Nat) (p : Nat) : Option Nat :=
  match spares.find? (fun q => q / 44 == p / 44) with
  | some q => some q
  | none => spares.head?

/-- The start map with every failed slice replaced, in order of the logical slices (R28, R399). -/
def placeMap (fail : BitVec 132) : List Nat → List Nat → List Nat
  | _, [] => []
  | spares, p :: rest =>
    if fail.getLsbD p then
      match spareFor spares p with
      | some q => q :: placeMap fail (spares.filter (· != q)) rest
      | none => p :: placeMap fail spares rest
    else p :: placeMap fail spares rest

/-- The physical slice of every logical slice by `0x2011`. -/
def State.startSlices (s : State) : List Nat := (List.range 128).map fun l => s.glb.startMap.get resetMap l

/-- The start map with every failed slice replaced by a spare (R399). -/
def State.mendedMap (s : State) : List Nat :=
  let want := s.startSlices
  placeMap s.rst.bistFail ((List.range 132).filter fun p => !want.contains p && !s.rst.bistFail.getLsbD p) want

/-- Apply a start map: `0x2011`, every copy and every `SLC_LOGICAL.LSLICE` name it; no slice is active yet (R28, R399, Table
21.4). -/
def State.applyMap (s : State) (m : List Nat) : State :=
  let s := s.modGlb fun g => { g with
    startMap := (List.range 128).foldl (fun d l => NMap.set resetMap d l (m.getD l 0)) [] }
  let s := (List.range 52).foldl (fun s c => s.modCopy c fun k => { k with
    smap := (List.range 128).foldl (fun d l => NMap.set SMapEnt.dflt d l { phys := m.getD l 0 }) [], sentFor := [] }) s
  (List.range 132).foldl (fun s p => s.modSlice p fun x => { x with
    lslice := BitVec.ofNat 7 (((List.range 128).find? fun l => m.getD l 132 == p).getD 0) }) s

/-- Write TRUE to `0x1103:01`: the start map stands and is applied; the answer says that it was refused (R326, R331, R399,
Table 21.4). -/
def State.restoreClose (s : State) : State × Bool :=
  if s.rst.restoreAt.isNone || s.rst.restoreClosed then (s, true)
  else (((s.applyMap s.mendedMap).modRst fun r => { r with restoreClosed := true }).portsDone, false)

/-- RESTORE_WINDOW_CLOSE_CMD, which the running steward carries out (R16, R326). -/
def execRestoreWindowCloseCmd (s : State) : Out := .next (if s.stewardRuns then s.restoreClose.1 else s)

/-- RESTORE_WINDOW_TIMEOUT: 8 ms after it opened (R326). -/
def execRestoreWindowTimeout (s : State) : Out :=
  .next (match s.rst.restoreAt with
    | some t => if s.time < t + 8000 then s else s.restoreClose.1
    | none => s)

/-- Ports are being brought up (R401). -/
def State.bringUp (s : State) (n : Nat) : Bool :=
  decide (4 ≤ s.rst.phase.toNat) && !s.inKickstand && decide (n < 48) && !(s.port n).up && !s.rst.portDown.getLsbD n

/-- A port's bring-up is complete: its link is Active with initial credits and no replay pending, or its controller is
ready (R401). -/
def State.linkReady (s : State) (n : Nat) : Bool :=
  if 20 ≤ n ∧ n < 32 then (s.mpt (n - 20)).ready
  else (s.port n).active && !(s.port n).creds.isEmpty && !(s.port n).rx.waiting && (s.port n).tx.named.isNone

/-- PORT_UP (R401). -/
def execPortUp (n : Fin 50) (s : State) : Out :=
  .next (if s.bringUp n && s.linkReady n then (s.modPort n fun x => { x with up := true }).portsDone else s)

/-- PORT_DEADLINE: a port still down 30 ms after phase 4 began is declared down (R401). -/
def execPortDeadline (n : Fin 50) (s : State) : Out :=
  .next (if !(s.bringUp n) || decide (s.time < s.rst.phase4At + 30000) then s
    else
      let s := s.modRst fun r => { r with portDown := r.portDown ||| BitVec.ofNat 50 (2 ^ n.val) }
      let s := if 20 ≤ n.val ∧ n.val < 32 then
          (s.modMpt (n - 20) fun x => { x with down := true }).firePort n 1
        else s
      s.portsDone)

/-! Slice enable (R86, R402) -/

/-- The slices that the start map names become active, and every holder has its reserved credits at each slice (R86,
R402). -/
def State.activate (s : State) : State :=
  (List.range 132).foldl (fun s p => s.modSlice p fun x => { x with
    active := s.startSlices.contains p, g := [], taken := [] }) s

/-- SLICE_ENABLE: the reserved credits, the active slices, the engines with firmware, and the links declared down (R86, R401,
R402). -/
def execSliceEnable (s : State) : Out :=
  .next (if s.rst.phase ≠ 6 ∨ s.glb.enabled = true then s
    else
      let m := s.startSlices
      let s := s.activate.modGlb fun g => { g with enabled := true }
      let s := s.modPwr fun p => { p with gated := (List.range 132).filter fun q => !m.contains q }
      let s := (List.range 132).foldl (fun s p => if (s.eng p).fwOk then s.engReset p true else s) s
      ((List.range 50).filter fun n => s.rst.portDown.getLsbD n && isLinkPort n).foldl (fun s n => s.linkDown n) s)

/-- COHERENT_READY: every released engine shows FAR_OK; the command says that the rings have carried their flits and the
checkers a further round (R402). The steward writes `SAF_PROBE_BASE` from `0x3701:02` and starts the patrol passes
(R193, R378). -/
def execCoherentReady (s : State) : Out :=
  .next (if s.rst.phase ≠ 6 || !s.glb.enabled || (List.range 132).any (fun e =>
      (s.eng e).state != 0 && !(s.slice e).far.copyDone) then s
    else
      let s := s.modRst fun r => { r with phase := 7, readyUs := BitVec.ofNat 32 s.time }
      let s := s.modGlb fun g => { g with coherentReady := true }
      if !s.stewardRuns then s
      else
        let s := if s.saf.probeRegion = 0 then s
          else s.modSaf fun x => { x with probeEn := true, probeBase := x.probeRegion.extractLsb' 13 39 }
        ((List.range 132).filter fun p => (s.slice p).active).foldl (fun s p => s.sflPassStart p) s)

/-! The time base and the relay watchdog -/

/-- Open windows count a tick (R285, R292). -/
def Iag.tick (g : Iag) : Iag :=
  { g with grps := NMap.mapv Grp.dflt (fun _ x => if x.isOpen then { x with ticks := x.ticks + 1 } else x) g.grps }

/-- TIME_BASE_TICK: one 1 µs tick, counted from release; before the PLL locks no FCLK-timed unit runs (R417). Memory assist
matches the code within 1 µs of its change (R357). -/
def execTimeBaseTick (s : State) : Out :=
  .next (if !s.rst.released then s
    else
      let s := { s with time := s.time + 1, pwr := { s.pwr with assistAck := true } }
      if !s.clk.pllLock || s.iagStopped then s else (s.modIag Iag.tick).glbEvent 0x01)

/-- RELAY_ENTRY_WATCHDOG: an entry of the steward port relay open past the tracker threshold fires source k = 1 once; the
host-function port relays nothing (R102, R280, Table 14.2). -/
def execRelayEntryWatchdog (host : Bool) (s : State) : Out :=
  .next (if host then s
    else
      match s.stw.relays.find? (fun r => !r.reported && decide (s.wdog ≤ s.time - r.since)) with
      | none => s
      | some r =>
        (s.modStw fun x => { x with relays := x.relays.map fun (e : RelayEnt) =>
          if e = r then { e with reported := true } else e }).firePort 48 1)

/-! The test port (R415) -/

/-- Debug is unlocked while a session holds vendor-debug level (R328, R415). -/
def State.debugOpen (s : State) : Bool := s.svc.sessions.any fun x => x.level == 2

/-- The test port selects an instruction: IDCODE shifts out the strapped code, its bit 0 one; BYPASS a zero; SAMPLE/PRELOAD and
EXTEST the boundary register, whose cells the spec does not give: a free value. DESIGN CHOICE (log 42). -/
def State.tapTake (s : State) (i : TapInstr) : State :=
  s.modRst fun r => { r with
    tap := i, taps := r.taps + 1
    tdr := match i with
      | .idcode => s.straps.idcode ++ (1 : BitVec 1)
      | .samplePreload | .extest => Config.boundary r.taps
      | .bypass | .other => 0 }

/-- TAP_INSTRUCTION: locked, an instruction outside the four acts as BYPASS; EXTEST acts only under `kh_rst_n`; the spec
gives no instrument of the 1687 network. -/
def execTapInstruction (i : TapInstr) (s : State) : Out :=
  match i with
  | .other => if s.debugOpen then .refused .debugInstrument else .next (s.tapTake .bypass)
  | .extest => .next (s.tapTake (if s.rst.released then .bypass else .extest))
  | .idcode => .next (s.tapTake .idcode)
  | .bypass => .next (s.tapTake .bypass)
  | .samplePreload => .next (s.tapTake .samplePreload)

end Sys2Proof.Machine
end

