-- ==== Sys2Proof/Machine/BlockRegs.lean ====
section
/-! DEFINITION. The registers of BAR0 outside the slice windows: images, and the effect of a write (R5, R6, R57, R214,
R283, R294, R307, R313, R334, R335, R347, R360, R388, R389, R404, R412). -/

namespace Sys2Proof.Machine

/-! Images -/

/-- Bits of a predicate, from bit 0. -/
def bitsIf (n : Nat) (f : Nat → Bool) : Nat := (List.range n).foldl (fun v b => v + bit01 (f b) b) 0

/-- The image of `CRG_CONS_CTRL`. -/
def Crg.ctrl (g : Crg) : Nat :=
  bit01 g.consEn 0 + 2 * g.entryPct.toNat + 2 ^ 8 * g.exitPct.toNat + 2 ^ 16 * g.entryWin.toNat + 2 ^ 20 * g.windowUs.toNat

/-- The image of `FAR_LOAD_CTRL`, `FAR_LOAD_STAT` (Tables 10.13, 10.14). -/
def Loader.ctrl (x : Loader) : Nat := x.slot.toNat + 2 ^ 8 * x.count.toNat
def Loader.stat (x : Loader) : Nat :=
  bit01 x.busy 0 + bit01 x.refused 1 + 2 ^ 8 * x.result.toNat + 2 ^ 12 * x.errIndex.toNat + 2 ^ 17 * x.worst.toNat

/-- The image of `IAG_GRP_g` (Table 14.6). -/
def Grp.image (x : Grp) : Nat := x.count.toNat + 2 ^ 8 * x.timeUs.toNat + bit01 x.isOpen 24

/-- The image of `IAG_STAT`, `PMC_GCTRL`, `PMC_GSTAT` (Tables 14.8 and 16.5). -/
def Iag.stat (x : Iag) : Nat := bit01 x.cfgRefused 0 + 2 ^ 16 * x.lateDeliv.toNat
def Pmc.gctrl (m : Pmc) : Nat := bit01 m.freeze 0 + bit01 m.hostUser 2
def Pmc.gstat (m : Pmc) : Nat := bit01 m.snapBusy 0 + bit01 m.snapRefused 1 + bit01 m.selRefused 2

/-- The images of `HFN_STAT`, `HFN_ERR_CNT`, `HFN_SPILL_STAT`, `HFN_CMD_STAT` (Table 18.7). -/
def Hfn.stat (h : Hfn) : Nat :=
  bit01 (!h.reads.isEmpty) 0 + bit01 (h.head != h.tail && !h.aborted) 1 + 2 ^ 16 * h.badAcc.toNat
def Hfn.errCnt (h : Hfn) : Nat := h.cto.toNat + 2 ^ 16 * h.late.toNat + 2 ^ 32 * h.gated.toNat
def Hfn.spillStat (h : Hfn) : Nat :=
  bit01 (h.spillFill == h.spillN) 0 + 2 * h.spillBuf.length + 2 ^ 16 * h.spillDrop.toNat
def Hfn.cmdStat (h : Hfn) : Nat := bit01 h.aborted 0 + 2 * h.cause.toNat + bit01 h.tailRefused 4

/-- The host-function registers by offset. -/
def Hfn.image (h : Hfn) (o : Nat) : Option (Bool × Nat) :=
  if o = 0x00 then some (false, h.stat)
  else if o = 0x08 then some (true, h.errCnt)
  else if o = 0x10 then some (true, 4096 * h.spillBase.toNat)
  else if o = 0x18 then some (false, bit01 h.spillEn 0 + 2 * h.spillSize.toNat + 2 ^ 6 * h.spillLevel.toNat)
  else if o = 0x20 then some (false, h.spillWr.toNat)
  else if o = 0x28 then some (false, h.spillRd.toNat)
  else if o = 0x30 then some (false, h.spillStat)
  else if o = 0x40 then some (true, 4096 * h.cmdBase.toNat)
  else if o = 0x48 then some (false, bit01 h.cmdEn 0 + 2 * h.cmdSize.toNat)
  else if o = 0x50 then some (false, h.tail.toNat)
  else if o = 0x58 then some (false, h.head.toNat)
  else if o = 0x60 then some (false, h.cmdStat)
  else none

/-- The image of `PWR_CNT` (Table 19.7). -/
def Pwr.cnt (p : Pwr) : Nat :=
  p.coastCnt.toNat + 2 ^ 16 * p.fwCnt.toNat + 2 ^ 32 * p.refuseCnt.toNat + 2 ^ 48 * p.gatedAcc.toNat

/-- Power registers by offset (Tables 19.6 to 19.8). -/
def Pwr.image (p : Pwr) (o : Nat) : Option (Bool × Nat) :=
  let word := fun (w : Nat) (f : Nat → Bool) => bitsIf 32 fun b => decide (32 * w + b < 324) && f (32 * w + b)
  if o = 0x000 then some (false, p.stat.toNat)
  else if o = 0x008 then some (true, p.cnt)
  else if 0x040 ≤ o ∧ o < 0x098 then some (false, word ((o - 0x040) / 8) fun d => !p.domOff d)
  else if 0x0C0 ≤ o ∧ o < 0x118 then some (false, word ((o - 0x0C0) / 8) fun d => p.held.contains d)
  else if o = 0x140 then some (false, 0)
  else none

/-- The image of `RAS_CTRL` (Table 20.8). -/
def Ras.ctrl (r : Ras) : Nat := bit01 r.corrLog 0 + bit01 r.rpqEn 1 + 4 * r.rpqSel.toNat + bit01 r.autoSpare 7

/-- Bytes 8i to 8i + 7 of the selected record, zero where none is (Table 20.8). -/
def Ras.data (r : Ras) (i : Nat) : Nat :=
  match r.selected with
  | some e => leNat ((recBytes e).drop (8 * i) |>.take 8)
  | none => 0

/-- RAS registers by offset (Table 20.8). -/
def State.rasImage (s : State) (o : Nat) : Option (Bool × Nat) :=
  let r := s.ras
  if o = 0x000 then some (false, r.ctrl)
  else if o = 0x008 then some (true, r.next % 2 ^ 32 + 2 ^ 32 * r.lost.toNat)
  else if o = 0x010 then some (false, r.logSel.toNat + 2 ^ 8 * r.logPos.toNat)
  else if 0x020 ≤ o ∧ o < 0x060 then some (true, r.data ((o - 0x020) / 8))
  else if o = 0x080 then some (false, 0)
  else if o = 0x088 then some (false, s.spareStat.toNat)
  else none

/-- Every parameter of Table 20.5 lies in its safety range (R378). -/
def State.safeCfg (s : State) : Bool :=
  let wdog := fun (x : Slice) => decide (250 ≤ x.wdogUs.toNat) && decide (x.wdogUs.toNat ≤ 1000)
  decide (50 ≤ s.saf.probePeriod.toNat) && decide (s.saf.probePeriod.toNat ≤ 250) && s.saf.probeEn && s.saf.selfTest
    && s.slices.all fun e => wdog e.2

/-- The images of `SAF_STAT` and `SAF_FATAL` (Table 20.9). -/
def State.safStat (s : State) : Nat :=
  bit01 s.saf.fatalPin 0 + bit01 s.saf.flushDone 1 + bit01 s.saf.flushIncomplete 2 + bit01 s.saf.stwWdog 3
    + bit01 s.safeCfg 4
def Saf.fatalImage (x : Saf) : Nat :=
  match x.fatal with
  | some f => f.code.toNat + 2 ^ 8 * f.unit.toNat + 2 ^ 16 * f.index + 2 ^ 32 * (f.seq.getD 0).toNat
  | none => 0

/-- Safety registers by offset (Table 20.9). -/
def State.safImage (s : State) (o : Nat) : Option (Bool × Nat) :=
  if o = 0x000 then some (false, s.safStat)
  else if o = 0x008 then some (true, s.saf.fatalImage)
  else if o = 0x010 then some (true, bit01 s.saf.probeEn 0 + 2 ^ 13 * s.saf.probeBase.toNat)
  else if o = 0x018 then some (false, 0)
  else if o = 0x020 then some (true, s.saf.probeStat.toNat)
  else none

/-- Clock registers by offset (Table 21.5). -/
def Clk.stat (c : Clk) : Nat := bit01 c.pllLock 0 + bit01 c.lossSeen 1 + 4 * c.lossClock.toNat
def Clk.image (c : Clk) (o : Nat) : Option (Bool × Nat) :=
  if o = 0x000 then some (false, c.stat)
  else if o = 0x008 then some (true, c.present.toNat)
  else if o = 0x010 then some (false, c.measSel.toNat)
  else if o = 0x018 then
    some (false, if 35 < c.measSel.toNat then 0 else c.khz.get zeroNat c.measSel.toNat % 2 ^ 24)
  else none

/-- Reset and start-up registers by offset (Table 21.6). -/
def Rst.stat (r : Rst) : Nat :=
  r.phase.toNat + 2 ^ 4 * r.failCause.toNat + 2 ^ 8 * r.bootResult.toNat + 2 ^ 32 * r.readyUs.toNat
def Rst.bist (r : Rst) (w : Nat) : Nat := r.bistFail.toNat / 2 ^ (32 * w) % 2 ^ 32
def Rst.ports (r : Rst) (w : Nat) : Nat := r.portDown.toNat / 2 ^ (32 * w) % 2 ^ 32
def Rst.image (r : Rst) (o : Nat) : Option (Bool × Nat) :=
  if o = 0x000 then some (true, r.stat)
  else if 0x040 ≤ o ∧ o < 0x068 then some (false, r.bist ((o - 0x040) / 8))
  else if 0x080 ≤ o ∧ o < 0x090 then some (false, r.ports ((o - 0x080) / 8))
  else none

/-- Ring registers by offset in `0x1_0000` (R57). -/
def State.crgImage (s : State) (o : Nat) : Option (Bool × Nat) :=
  if o < 0x30 then some (false, (s.ring (o / 8)).stat.toNat)
  else if 0x100 ≤ o ∧ o < 0x1C0 then
    let r := (o - 0x100) / 0x20
    let w := (o - 0x100) % 0x20 / 8
    if w < 3 then some (false, (s.ring r).segOut.toNat / 2 ^ (32 * w) % 2 ^ 32) else none
  else if 0x200 ≤ o ∧ o < 0x230 then
    let x := s.ring ((o - 0x200) / 8)
    some (false, x.replays.toNat + 2 ^ 16 * x.crcFails.toNat)
  else if o = 0x300 then some (false, 0)
  else if o = 0x308 then some (false, s.crg.ctrl)
  else none

/-- Far-program loader registers by offset in `0x2_0000` (Tables 10.12 to 10.15). -/
def State.farImage (s : State) (o : Nat) : Option (Bool × Nat) :=
  if o < 0x100 then some (false, (s.loader.stage.get zero32 (o / 8)).toNat)
  else if o = 0x100 then some (false, s.loader.ctrl)
  else if o = 0x108 then some (false, s.loader.stat)
  else if 0x200 ≤ o ∧ o < 0x240 then
    some (false, bitsIf 32 fun b => s.masterValid (32 * ((o - 0x200) / 8) + b))
  else none

/-- Aggregator registers by offset in `0x4_0000` (Tables 14.5 to 14.8). -/
def State.iagImage (s : State) (o : Nat) : Option (Bool × Nat) :=
  if o < 0x3000 then some (true, (s.src (o / 8)).image.toNat)
  else if 0x4000 ≤ o ∧ o < 0x4200 then some (false, (s.grp ((o - 0x4000) / 8)).image)
  else if 0x5000 ≤ o ∧ o < 0x5180 then some (false, bitsIf 32 fun b => (s.src (32 * ((o - 0x5000) / 8) + b)).pend)
  else if 0x5200 ≤ o ∧ o < 0x5380 then some (false, bitsIf 32 fun b => (s.src (32 * ((o - 0x5200) / 8) + b)).act)
  else if o = 0x6000 ∨ o = 0x6008 then some (false, 0)
  else if o = 0x6010 then some (false, s.iag.stat)
  else none

/-- Counter registers by offset in `0x5_0000` (Tables 16.3 to 16.5). -/
def State.pmcImage (s : State) (o : Nat) : Option (Bool × Nat) :=
  if o < 0x3180 then some (false, (s.pmc.sel.get pmcSelReset (o / 8)).toNat)
  else if 0x4000 ≤ o ∧ o < 0x7180 then some (true, (s.pmc.cnt.get zero48 ((o - 0x4000) / 8)).toNat)
  else if 0x8000 ≤ o ∧ o < 0x8190 then
    some (false, bitsIf 32 fun b => s.pmc.ovf.get noBool (32 * ((o - 0x8000) / 8) + b))
  else if o = 0x8200 then some (false, s.pmc.gctrl)
  else if o = 0x8208 then some (false, s.pmc.gstat)
  else none

/-- The register at offset `o` of the global and port windows: whether it is 64 bits wide, and its image (Tables 18.2
and 18.3). -/
def State.glbImage (s : State) (o : Nat) : Option (Bool × Nat) :=
  if o % 8 ≠ 0 then none
  else if o = 0x0 then some (false, s.glb.undefAcc.toNat)
  else if o = 0x8 then some (false, s.glb.rsvdWr.toNat)
  else if 0x1000 ≤ o ∧ o < 0x1400 then some (false, s.smapImage ((o - 0x1000) / 8))
  else if 0x10000 ≤ o ∧ o < 0x20000 then s.crgImage (o - 0x10000)
  else if 0x20000 ≤ o ∧ o < 0x30000 then s.farImage (o - 0x20000)
  else if o = 0x30000 then some (false, s.stwStat.toNat)
  else if 0x40000 ≤ o ∧ o < 0x50000 then s.iagImage (o - 0x40000)
  else if 0x50000 ≤ o ∧ o < 0x60000 then s.pmcImage (o - 0x50000)
  else if 0x60000 ≤ o ∧ o < 0x70000 then s.hfn.image (o - 0x60000)
  else if 0x80000 ≤ o ∧ o < 0x90000 then s.pwr.image (o - 0x80000)
  else if 0x90000 ≤ o ∧ o < 0xA0000 then s.rasImage (o - 0x90000)
  else if 0xA0000 ≤ o ∧ o < 0xB0000 then s.safImage (o - 0xA0000)
  else if 0xB0000 ≤ o ∧ o < 0xC0000 then s.clk.image (o - 0xB0000)
  else if 0xC0000 ≤ o ∧ o < 0xD0000 then s.rst.image (o - 0xC0000)
  else if 0x114000 ≤ o ∧ o < 0x120000 ∧ o % 0x1000 = 0 then some (true, (s.mptStat ((o - 0x114000) / 0x1000)).toNat)
  else none

/-! Reserved bits (R6) -/

/-- The bits of a register of the global and port windows that its table defines; all ones where the write itself
counts its reserved bits. -/
def glbDefined (o : Nat) : Word :=
  if o < 0x10 then 0xFFFF
  else if o < 0x10000 then 0xFF01FF
  else if o < 0x10100 then 0x1FFF
  else if o < 0x10200 then (if (o - 0x10100) % 0x20 = 0x10 then 0x3FFFFFFF else 0xFFFFFFFF)
  else if o = 0x10300 then 0x1F
  else if o = 0x10308 then 0xFFFF7FFF
  else if o = 0x20100 then 0x80003FFF
  else if o = 0x20108 then 0x7FFF03
  else if o = 0x30000 then 0xFFFF0003
  else if 0x44000 ≤ o ∧ o < 0x44200 then 0x1FFFFFF
  else if o = 0x46000 then 0x7FF
  else if o = 0x46008 then 0xFF
  else if o = 0x46010 then 0xFFFF0001
  else if o = 0x58188 then 0xFFFF
  else if o = 0x58200 ∨ o = 0x58208 then 0x7
  else if o = 0x60000 then 0xFFFF0003
  else if o = 0x60008 then 0xFFFFFFFFFFFF
  else if o = 0x60010 ∨ o = 0x60040 then 0xFFFFFFFFFFFFF000
  else if o = 0x60030 then 0xFFFF00FF
  else if o = 0x60048 ∨ o = 0x60060 then 0x1F
  else if o = 0x60058 then 0xFFFF
  else if o = 0x80000 then 0x1FFF
  else if o = 0x80090 ∨ o = 0x80110 then 0xF
  else if o = 0x80140 then 0x1FF
  else if o = 0x90000 then 0xFF
  else if o = 0x90008 then 0xFFFFFFFFFFFF
  else if o = 0x90010 then 0x3FFF
  else if o = 0x90080 then 0x8000FF7F
  else if o = 0x90088 then 0x3FF
  else if o = 0xA0000 then 0x1F
  else if o = 0xA0008 then 0xFFFFFFFFFFFF07FF
  else if o = 0xA0010 then 0xFFFFFFFFFE001
  else if o = 0xA0020 then 0x7FFFFFFFFFF
  else if o = 0xB0000 then 0xFF
  else if o = 0xB0008 then 0xFFFFFFFFF
  else if o = 0xB0010 then 0x3F
  else if o = 0xB0018 then 0xFFFFFF
  else if o = 0xC0000 then 0xFFFFFFFF00000FFF
  else if o = 0xC0060 then 0xF
  else if o = 0xC0088 then 0x3FFFF
  else if 0x114000 ≤ o then 0xFFFFFFFF0007FFFF
  else BitVec.allOnes 64

/-! Writes. `new` is the register after an RW write of the accessed bits, `b` the written bits alone. -/

/-- A write of `CRG_CMD` (R53, R57). -/
def State.crgCmd (s : State) (b : Word) : State :=
  let r := (b.extractLsb' 0 3).toNat
  if 5 < r then s
  else if b.extractLsb' 3 2 = 1 then s.crgShift r
  else if b.extractLsb' 3 2 = 2 then s.crgReturn r
  else s

/-- The consolidation control that a write of `v` would leave (R57). -/
def Crg.written (g : Crg) (v : Word) : Crg :=
  { g with
    consEn := v.getLsbD 0, entryPct := v.extractLsb' 1 7, exitPct := v.extractLsb' 8 7
    entryWin := v.extractLsb' 16 4, windowUs := v.extractLsb' 20 12 }

/-- The limits of `CRG_CONS_CTRL` hold (R57). -/
def Crg.ok (g : Crg) : Bool :=
  decide (g.entryPct.toNat < g.exitPct.toNat) && decide (g.exitPct.toNat ≤ 100) && g.entryWin != 0 && g.windowUs != 0

/-- Set the consolidation control; disabling it starts the counts of qualifying windows again and wakes what is gated (R54,
R56). -/
def State.consSet (s : State) (g : Crg) : State :=
  let s := { s with crg := g }
  if g.consEn then s else [0, 1, 2].foldl (fun s q => (s.consRestart q).consWake q) s

/-- A write of `CRG_CONS_CTRL`; the answer says that it was discarded. -/
def State.consCtrl (s : State) (v : Word) : State × Bool :=
  if (s.crg.written v).ok then (s.consSet (s.crg.written v), false) else (s, true)

/-- A write of `IAG_GRP_g`; the answer says that it was discarded (Table 14.6). -/
def State.grpWrite (s : State) (g : Nat) (v : Word) : State × Bool :=
  if v.extractLsb' 0 8 = 0 ∨ v.extractLsb' 8 16 = 0 then (s, true)
  else (s.modGrp g fun x => { x with count := v.extractLsb' 0 8, timeUs := v.extractLsb' 8 16 }, false)

/-- A write of `PMC_OVF_w` (W1C). -/
def State.ovfClear (s : State) (w : Nat) (b : Word) : State :=
  s.modPmc fun m => { m with
    ovf := (List.range 32).foldl (fun d i => if b.getLsbD i then NMap.set noBool d (32 * w + i) false else d) m.ovf }

/-- A write of `PMC_GCTRL` (R308, R309): a freeze and a snapshot in one write copy the frozen values. -/
def State.pmcGctrl (s : State) (v : Word) : State :=
  let s := (s.pmcFreeze (v.getLsbD 0)).modPmc fun m => { m with hostUser := v.getLsbD 2 }
  if v.getLsbD 1 then s.pmcSnapshot else s

/-- A write of `HFN_CMD_CTRL`: discarded whole with SIZE out of range, or changed while EN is set (Table 18.7). -/
def State.cmdCtrl (s : State) (v : Word) : State :=
  let size := v.extractLsb' 1 4
  if size.toNat < 4 ∨ 12 < size.toNat ∨ (s.hfn.cmdEn = true ∧ size ≠ s.hfn.cmdSize) then s
  else (s.modHfn fun h => { h with cmdEn := v.getLsbD 0, cmdSize := size }).hfnFetch

/-- A write of a host-function register (Table 18.7). -/
def State.hfnStore (s : State) (o : Nat) (new b : Word) : State :=
  if o = 0x10 then (if s.hfn.spillEn then s else s.modHfn fun h => { h with spillBase := new.extractLsb' 12 52 })
  else if o = 0x18 then s.spillCtrl (new.setWidth 32)
  else if o = 0x28 then s.spillRd (new.setWidth 32)
  else if o = 0x40 then (if s.hfn.cmdEn then s else s.modHfn fun h => { h with cmdBase := new.extractLsb' 12 52 })
  else if o = 0x48 then s.cmdCtrl new
  else if o = 0x50 then s.cmdTail (new.setWidth 32)
  else if o = 0x60 then
    let s := if b.getLsbD 4 then s.modHfn fun h => { h with tailRefused := false } else s
    if b.getLsbD 0 then s.cmdResume else s
  else s

/-- A write of a RAS register (Table 20.8). -/
def State.rasStore (s : State) (o : Nat) (new b : Word) : State :=
  if o = 0x000 then s.modRas fun r => { r with
    corrLog := new.getLsbD 0, rpqEn := new.getLsbD 1, rpqSel := new.extractLsb' 2 5, autoSpare := new.getLsbD 7 }
  else if o = 0x010 then s.modRas fun r => { r with logSel := new.extractLsb' 0 8, logPos := new.extractLsb' 8 6 }
  else if o = 0x080 then s.spareCtrl (b.setWidth 32)
  else s

/-- A write of a safety register (Table 20.9): EN is RW, BASE only before slices are enabled, `SAF_KICK` from the
steward only. -/
def State.safStore (s : State) (who : Writer) (o : Nat) (new b : Word) : State :=
  if o = 0x000 then s.modSaf fun x => { x with stwWdog := x.stwWdog && !b.getLsbD 3 }
  else if o = 0x010 then
    let base := s.glb.enabled
    s.modSaf fun x => { x with
      probeEn := new.getLsbD 0, probeBase := if base then x.probeBase else new.extractLsb' 13 39 }
  else if o = 0x018 then
    if who = .steward ∧ s.stewardRuns = true then s.modSaf fun x => { x with kickedAt := s.time } else s
  else s

/-- A write of an aggregator register (Tables 14.5 to 14.8). -/
def State.iagStore (s : State) (o : Nat) (new b : Word) : State :=
  if o < 0x3000 then
    (s.srcWrite (o / 8) ((new &&& ~~~(0x300000000 : Word)) ||| (b &&& 0xFFFFFFFF00000000))).1
  else if 0x4000 ≤ o ∧ o < 0x4200 then (s.grpWrite ((o - 0x4000) / 8) new).1
  else if o = 0x6000 then s.hostEoi (b.extractLsb' 0 11).toNat
  else if o = 0x6008 then s.doorbell (b.extractLsb' 0 8).toNat
  else if o = 0x6010 then s.modIag fun x => { x with cfgRefused := x.cfgRefused && !b.getLsbD 0 }
  else s

/-- A write of a counter register (Tables 16.3 to 16.5). -/
def State.pmcStore (s : State) (o : Nat) (new b : Word) : State :=
  if o < 0x3180 then (s.pmcSel (o / 8) (new.setWidth 32)).1
  else if 0x4000 ≤ o ∧ o < 0x7180 then
    (s.noteRsvd (b.extractLsb' 48 16 != 0)).pmcCnt ((o - 0x4000) / 8) (new &&& 0xFFFFFFFFFFFF)
  else if 0x8000 ≤ o ∧ o < 0x8190 then s.ovfClear ((o - 0x8000) / 8) b
  else if o = 0x8200 then s.pmcGctrl new
  else if o = 0x8208 then
    s.modPmc fun m => { m with
      snapRefused := m.snapRefused && !b.getLsbD 1, selRefused := m.selRefused && !b.getLsbD 2 }
  else s

/-- A write of a far-program loader register (R211). -/
def State.farStore (s : State) (o : Nat) (new b : Word) : State :=
  if o < 0x100 then s.modLoader fun x => { x with stage := x.stage.set zero32 (o / 8) (new.setWidth 32) }
  else if o = 0x100 then s.farLoadCtrl (new.setWidth 32)
  else if o = 0x108 then s.modLoader fun x => { x with refused := x.refused && !b.getLsbD 1 }
  else s

/-- A write of a clock register (Table 21.5). -/
def State.clkStore (s : State) (o : Nat) (new b : Word) : State :=
  if o = 0x000 then s.modClk fun c => { c with lossSeen := c.lossSeen && !b.getLsbD 1 }
  else if o = 0x010 then s.modClk fun c => { c with measSel := new.extractLsb' 0 6 }
  else s

/-- Write the bits of mask `m` of `v` into the register at offset `o` of the global and port windows. -/
def State.glbStore (s : State) (who : Writer) (o : Nat) (old v m : Word) : State :=
  let b := v &&& m
  let new := (old &&& ~~~m) ||| b
  let s := s.noteRsvd ((b &&& ~~~(glbDefined o)) != 0)
  if o = 0x10300 then s.crgCmd b
  else if o = 0x10308 then (s.consCtrl new).1
  else if 0x20000 ≤ o ∧ o < 0x30000 then s.farStore (o - 0x20000) new b
  else if 0x40000 ≤ o ∧ o < 0x50000 then s.iagStore (o - 0x40000) new b
  else if 0x50000 ≤ o ∧ o < 0x60000 then s.pmcStore (o - 0x50000) new b
  else if 0x60000 ≤ o ∧ o < 0x70000 then s.hfnStore (o - 0x60000) new b
  else if o = 0x80140 then (s.edgeRelease (b.extractLsb' 0 9).toNat).1
  else if 0x90000 ≤ o ∧ o < 0xA0000 then s.rasStore (o - 0x90000) new b
  else if 0xA0000 ≤ o ∧ o < 0xB0000 then s.safStore who (o - 0xA0000) new b
  else if 0xB0000 ≤ o ∧ o < 0xC0000 then s.clkStore (o - 0xB0000) new b
  else s

/-- Count an access to an address where no register is (R5). -/
def State.undefAccess (s : State) : State := s.modGlb fun g => { g with undefAcc := satInc16 g.undefAcc }

/-- A write into the global and port windows (R5, R334). -/
def State.glbWrite (s : State) (who : Writer) (off size : Nat) (v : Word) : State :=
  let o := off / 8 * 8
  match s.glbImage o with
  | none => s.undefAccess
  | some (wide, old) =>
    let m := accMask off size &&& (if wide then BitVec.allOnes 64 else 0xFFFFFFFF)
    if m = 0 then s else s.glbStore who o (BitVec.ofNat 64 old) (slotIn off size v) m

/-! Reads (R5, R333, R334). `m` are the bits that the read returns; a read-clear field clears when it is among them. -/

/-- A read of `HFN_STAT`, `HFN_ERR_CNT` or `HFN_SPILL_STAT` clears its counts (Table 18.7). -/
def Hfn.readClear (h : Hfn) (o : Nat) (m : Word) : Hfn :=
  let z := fun (b : Nat) (v : BitVec 16) => if m.getLsbD b then 0 else v
  if o = 0x00 then { h with badAcc := z 16 h.badAcc }
  else if o = 0x08 then { h with cto := z 0 h.cto, late := z 16 h.late, gated := z 32 h.gated }
  else if o = 0x30 then { h with spillDrop := z 16 h.spillDrop }
  else h

/-- A read of `PWR_CNT` clears its counts (Table 19.7). -/
def Pwr.readClear (p : Pwr) (m : Word) : Pwr :=
  let z := fun (b : Nat) (v : BitVec 16) => if m.getLsbD b then 0 else v
  { p with coastCnt := z 0 p.coastCnt, fwCnt := z 16 p.fwCnt, refuseCnt := z 32 p.refuseCnt, gatedAcc := z 48 p.gatedAcc }

/-- A read of `MPT_STAT` clears its counts (Table 22.5). -/
def Mpt.readClear (x : Mpt) (m : Word) : Mpt :=
  { x with
    timeouts := if m.getLsbD 32 then 0 else x.timeouts, protoErrs := if m.getLsbD 48 then 0 else x.protoErrs }

/-- Clear the read-clear fields that a read of the global and port windows returned (Tables 14.8, 18.7, 19.7, 20.8 and
22.5). -/
def State.glbRc (s : State) (o : Nat) (m : Word) : State :=
  if o = 0x46010 then s.modIag fun x => { x with lateDeliv := if m.getLsbD 16 then 0 else x.lateDeliv }
  else if 0x60000 ≤ o ∧ o < 0x70000 then s.modHfn fun h => h.readClear (o - 0x60000) m
  else if o = 0x80008 then s.modPwr fun p => p.readClear m
  else if o = 0x90008 then s.modRas fun r => { r with lost := if m.getLsbD 32 then 0 else r.lost }
  else if 0x114000 ≤ o ∧ o < 0x120000 then s.modMpt ((o - 0x114000) / 0x1000) fun x => x.readClear m
  else s

/-- Read a register of the global and port windows; none where there is no register. -/
def State.glbRead (s : State) (off size : Nat) : State × Option Word :=
  let o := off / 8 * 8
  match s.glbImage o with
  | none => (s, none)
  | some (_, v) => (s.glbRc o (accMask off size), some (slotOut off size (BitVec.ofNat 64 v)))

/-! BAR0 (R334 to R337, R355) -/

/-- A shape BAR0 takes (R334). -/
def bar0Shape (off size : Nat) : Bool := (size == 4 && off % 4 == 0) || (size == 8 && off % 8 == 0)

/-- The physical slice of an access to logical slice `l`, none while HOLD makes it wait (R336). -/
def State.hostSlice (s : State) (l : Nat) : Option Nat :=
  let e := s.hfnCopy.entry l
  if e.hold then none else some e.phys

/-- The physical slice whose window a BAR0 offset lies in, through the slice map for a logical window (R335, R336). -/
def State.bar0Slice (s : State) (off : Nat) : Option Nat :=
  if off < 0x1840000 then some ((off - 0x1000000) / 0x10000) else s.hostSlice ((off - 0x2000000) / 0x10000)

/-- A BAR0 offset lies in a slice window (Table 18.2). -/
def inSliceWindow (off : Nat) : Bool :=
  (decide (0x1000000 ≤ off) && decide (off < 0x1840000)) || (decide (0x2000000 ≤ off) && decide (off < 0x2800000))

/-- The data of a read; one where no register is returns zero and is counted (R5). -/
def State.readEnd (r : State × Option Word) : State × Word :=
  match r with
  | (s, some v) => (s, v)
  | (s, none) => (s.undefAccess, 0)

/-- A BAR0 read that has passed the function's gates (R335, R336); none while HOLD makes it wait. -/
def State.bar0Load (s : State) (off size : Nat) : Option (State × Word) :=
  if off < 0x1000000 then some (State.readEnd (s.glbRead off size))
  else if inSliceWindow off then (s.bar0Slice off).map fun p => State.readEnd (s.sliceRead p (off % 0x10000) size)
  else some (s.undefAccess, 0)

/-- A BAR0 write that has passed the function's gates (R335, R336); none while HOLD makes it wait. -/
def State.bar0Store (s : State) (who : Writer) (off size : Nat) (v : Word) : Option State :=
  if off < 0x1000000 then some (s.glbWrite who off size v)
  else if inSliceWindow off then
    (s.bar0Slice off).map fun p =>
      match s.sliceWrite p (off % 0x10000) size v with
      | (s, true) => s
      | (s, false) => s.undefAccess
  else some s.undefAccess

/-- BAR0 locations that answer in Coast and Freewheel (R355, R360, R404). -/
def bar0Awake (off : Nat) : Bool :=
  (decide (0x60000 ≤ off) && decide (off < 0x70000)) || (decide (0x80000 ≤ off) && decide (off < 0x90000))
    || (decide (0xB0000 ≤ off) && decide (off < 0xD0000))

/-- BAR0 locations that `0x3803:01` does not close (R337). -/
def bar0Open (off : Nat) : Bool :=
  (decide (0x60000 ≤ off) && decide (off < 0x70000)) || (decide (0x46000 ≤ off) && decide (off < 0x46010))

/-- An access of a shape that its location does not take (R334). -/
def State.badAccess (s : State) : State := s.modHfn fun h => { h with badAcc := satInc16 h.badAcc }

/-- An access that Coast or Freewheel discards is counted (R355). -/
def State.gatedAccess (s : State) (asleep : Bool) : State :=
  if asleep then s.modPwr fun p => { p with gatedAcc := satInc16 p.gatedAcc } else s

/-- A host BAR0 read: shape and R355, then the register; none while it must wait for HOLD. -/
def State.bar0Read (s : State) (off size : Nat) : Option (State × Word) :=
  let asleep := s.pwr.state != 0 && !(bar0Awake off)
  if !(bar0Shape off size) then some ((s.gatedAccess asleep).badAccess, 0)
  else if asleep then some (s.gatedAccess true, 0)
  else s.bar0Load off size

/-- A host BAR0 write, direct or by descriptor: shape, R337 and R355, then the register; none while it must wait for
HOLD. -/
def State.bar0Write (s : State) (off size : Nat) (v : Word) : Option State :=
  let asleep := s.pwr.state != 0 && !(bar0Awake off)
  if !(bar0Shape off size) then some (s.gatedAccess asleep).badAccess
  else
    let gated := !s.hfn.bar0Ok && !(bar0Open off)
    let s := if gated then s.modHfn fun h => { h with gated := satInc16 h.gated } else s
    let s := s.gatedAccess asleep
    if gated || asleep then some s else s.bar0Store .host off size v

end Sys2Proof.Machine
end

