-- ==== Sys2Proof/Machine/Dictionary.lean ====
section
/-! DEFINITION. The parameter dictionary: its entries, what a READ of each returns and what a WRITE of each does (R319,
R324, R325, and the entry tables of chapters 2 to 22). -/

namespace Sys2Proof.Machine

/-! The entries -/

/-- Entries `lo:s1` to `hi:s2`: type code of Table 17.6, access 0 RO, 1 RW, 2 WO, 3 RWX, level 0 B or 1 X, restorable. -/
structure DRow where
  lo : Nat
  hi : Nat
  s1 : Nat
  s2 : Nat
  ty : Nat
  acc : Nat
  lvl : Nat
  rest : Bool
  deriving DecidableEq, Repr

/-- Tables 17.10, 2.8 and 6.14. -/
def dRowsA : List DRow :=
  [⟨0x1000, 0x1000, 1, 1, 9, 0, 0, false⟩, ⟨0x1000, 0x1000, 2, 2, 3, 0, 0, false⟩, ⟨0x1000, 0x1000, 3, 4, 2, 0, 0, false⟩,
   ⟨0x1000, 0x1000, 5, 5, 8, 0, 0, false⟩, ⟨0x1000, 0x1000, 6, 6, 2, 0, 0, false⟩,
   ⟨0x1001, 0x1001, 1, 1, 7, 0, 0, false⟩, ⟨0x1001, 0x1001, 2, 2, 6, 0, 0, false⟩, ⟨0x1001, 0x1001, 3, 3, 3, 0, 0, false⟩,
   ⟨0x1101, 0x1101, 1, 1, 8, 2, 0, false⟩, ⟨0x1101, 0x1101, 2, 3, 6, 0, 0, false⟩,
   ⟨0x1102, 0x1102, 1, 1, 1, 0, 0, false⟩, ⟨0x1102, 0x1102, 2, 2, 2, 0, 0, false⟩, ⟨0x1102, 0x1102, 3, 4, 1, 0, 0, false⟩,
   ⟨0x1103, 0x1103, 1, 1, 6, 2, 1, false⟩, ⟨0x1104, 0x1104, 1, 3, 3, 0, 0, false⟩,
   ⟨0x2001, 0x2001, 1, 1, 4, 3, 1, true⟩, ⟨0x2001, 0x2001, 2, 2, 2, 3, 1, true⟩, ⟨0x2001, 0x2001, 3, 3, 3, 0, 0, false⟩,
   ⟨0x2002, 0x2002, 1, 1, 1, 3, 1, true⟩, ⟨0x2002, 0x2002, 2, 2, 6, 3, 1, true⟩, ⟨0x2003, 0x2003, 1, 4, 3, 0, 0, false⟩,
   ⟨0x2004, 0x2004, 1, 0x84, 3, 0, 0, false⟩,
   ⟨0x2010, 0x2010, 1, 0x80, 1, 0, 0, false⟩, ⟨0x2011, 0x2011, 1, 0x80, 1, 3, 1, true⟩]

/-- Tables 5.10, 9.12 and 10.16. -/
def dRowsB : List DRow :=
  [⟨0x2101, 0x2101, 1, 1, 1, 3, 1, true⟩, ⟨0x2101, 0x2101, 2, 2, 2, 3, 1, true⟩, ⟨0x2102, 0x2102, 1, 3, 3, 0, 0, false⟩,
   ⟨0x2103, 0x2103, 1, 0x84, 3, 0, 0, false⟩,
   ⟨0x2201, 0x2201, 1, 1, 2, 3, 1, true⟩, ⟨0x2201, 0x2201, 2, 3, 6, 3, 1, true⟩, ⟨0x2202, 0x2202, 1, 5, 3, 0, 0, false⟩,
   ⟨0x2203, 0x2203, 1, 0x84, 3, 0, 0, false⟩, ⟨0x2204, 0x2204, 1, 0x84, 4, 0, 0, false⟩,
   ⟨0x2301, 0x2301, 1, 1, 7, 3, 1, true⟩, ⟨0x2301, 0x2301, 2, 3, 1, 3, 1, true⟩, ⟨0x2302, 0x2302, 1, 5, 3, 0, 0, false⟩,
   ⟨0x2303, 0x2303, 1, 0x84, 3, 0, 0, false⟩, ⟨0x2310, 0x2311, 1, 0x80, 8, 3, 1, true⟩,
   ⟨0x2312, 0x2312, 1, 4, 4, 0, 0, false⟩]

/-- Tables 11.14 and 3.8, Table 2.8's regions, and `0x2602`. -/
def dRowsC : List DRow :=
  [⟨0x2401, 0x2401, 1, 3, 6, 1, 0, true⟩, ⟨0x2401, 0x2401, 4, 5, 1, 3, 1, true⟩, ⟨0x2401, 0x2401, 6, 6, 2, 3, 1, true⟩,
   ⟨0x2402, 0x2402, 1, 5, 3, 0, 0, false⟩, ⟨0x2403, 0x2403, 1, 0x84, 3, 0, 0, false⟩,
   ⟨0x2404, 0x2404, 1, 0x84, 3, 3, 1, true⟩, ⟨0x2405, 0x2405, 1, 0x84, 4, 0, 0, false⟩,
   ⟨0x2410, 0x2410, 1, 1, 7, 2, 1, false⟩, ⟨0x2410, 0x2410, 2, 2, 6, 0, 0, false⟩,
   ⟨0x2501, 0x2501, 1, 1, 6, 1, 0, true⟩, ⟨0x2501, 0x2501, 2, 2, 2, 3, 1, true⟩, ⟨0x2501, 0x2501, 3, 5, 1, 3, 1, true⟩,
   ⟨0x2502, 0x2504, 1, 6, 3, 0, 0, false⟩, ⟨0x2505, 0x2505, 1, 2, 1, 2, 1, false⟩,
   ⟨0x2601, 0x2601, 1, 0x10, 4, 3, 1, true⟩, ⟨0x2602, 0x2602, 1, 0xC, 4, 0, 0, false⟩]

/-- Tables 12.14, 13.6, 14.9, 15.6 and 16.7. -/
def dRowsD : List DRow :=
  [⟨0x3001, 0x3001, 1, 0x21, 8, 3, 1, true⟩, ⟨0x3001, 0x3001, 0x22, 0x22, 1, 2, 1, false⟩,
   ⟨0x3001, 0x3001, 0x23, 0x23, 1, 0, 0, false⟩, ⟨0x3002, 0x3002, 1, 1, 3, 0, 0, false⟩,
   ⟨0x3003, 0x3003, 1, 0x84, 3, 0, 0, false⟩, ⟨0x3004, 0x3004, 1, 0x84, 1, 2, 1, false⟩,
   ⟨0x3010, 0x3010, 1, 0x41, 8, 3, 1, true⟩, ⟨0x3011, 0x3011, 1, 1, 3, 0, 0, false⟩,
   ⟨0x3101, 0x3101, 1, 1, 4, 3, 1, true⟩, ⟨0x3102, 0x3102, 1, 2, 3, 0, 0, false⟩, ⟨0x3103, 0x3103, 1, 0x86, 3, 0, 0, false⟩,
   ⟨0x3201, 0x3201, 1, 3, 3, 0, 0, false⟩, ⟨0x3210, 0x3217, 1, 0xC0, 4, 3, 1, true⟩, ⟨0x3220, 0x3220, 1, 0x40, 3, 3, 1, true⟩,
   ⟨0x3301, 0x3301, 1, 0x20, 2, 1, 0, true⟩, ⟨0x3302, 0x3302, 1, 0x20, 4, 0, 0, false⟩,
   ⟨0x3303, 0x3303, 1, 0x20, 6, 2, 1, false⟩,
   ⟨0x3401, 0x3401, 1, 1, 6, 1, 0, false⟩, ⟨0x3401, 0x3401, 2, 2, 6, 2, 0, false⟩, ⟨0x3401, 0x3401, 3, 3, 6, 3, 1, true⟩,
   ⟨0x3410, 0x3416, 1, 0xF0, 3, 1, 0, true⟩, ⟨0x3420, 0x3426, 1, 0xF0, 4, 0, 0, false⟩]

/-- Tables 19.9, 20.10, 18.8 and 21.7. -/
def dRowsE : List DRow :=
  [⟨0x3501, 0x3501, 1, 1, 7, 1, 0, false⟩, ⟨0x3501, 0x3501, 2, 2, 6, 3, 1, true⟩, ⟨0x3501, 0x3501, 3, 3, 2, 3, 1, true⟩,
   ⟨0x3502, 0x3502, 1, 1, 2, 2, 1, false⟩, ⟨0x3503, 0x3503, 1, 0xB, 3, 0, 0, false⟩, ⟨0x3504, 0x3504, 1, 1, 3, 0, 0, false⟩,
   ⟨0x3505, 0x3505, 1, 3, 3, 0, 0, false⟩,
   ⟨0x3601, 0x3601, 1, 3, 3, 0, 0, false⟩, ⟨0x3602, 0x3602, 1, 1, 1, 2, 1, false⟩, ⟨0x3602, 0x3602, 2, 2, 3, 0, 0, false⟩,
   ⟨0x3603, 0x3603, 1, 2, 6, 3, 1, true⟩, ⟨0x3603, 0x3603, 3, 3, 1, 3, 1, true⟩,
   ⟨0x3701, 0x3701, 1, 1, 2, 3, 1, true⟩, ⟨0x3701, 0x3701, 2, 2, 4, 3, 1, true⟩, ⟨0x3701, 0x3701, 3, 3, 6, 3, 1, true⟩,
   ⟨0x3702, 0x3702, 1, 1, 3, 0, 0, false⟩, ⟨0x3702, 0x3702, 2, 2, 4, 0, 0, false⟩,
   ⟨0x3801, 0x3801, 1, 4, 3, 0, 0, false⟩, ⟨0x3802, 0x3802, 1, 2, 3, 0, 0, false⟩, ⟨0x3803, 0x3803, 1, 1, 6, 3, 1, true⟩,
   ⟨0x3901, 0x3901, 1, 1, 3, 0, 0, false⟩, ⟨0x3901, 0x3901, 2, 2, 4, 0, 0, false⟩, ⟨0x3902, 0x3902, 1, 1, 4, 0, 0, false⟩,
   ⟨0x3903, 0x3903, 1, 5, 3, 0, 0, false⟩, ⟨0x3904, 0x3904, 1, 2, 3, 0, 0, false⟩]

def dRows : List DRow := dRowsA ++ dRowsB ++ dRowsC ++ dRowsD ++ dRowsE

/-- The highest sub-index of an index, 0 where the index has no entry. -/
def dTop (idx : Nat) : Nat :=
  dRows.foldl (fun m (r : DRow) => if r.lo ≤ idx ∧ idx ≤ r.hi then max m r.s2 else m) 0

/-- The entry of an index and sub-index; sub-index 0 reads the highest sub-index (R319). -/
def dictRow (idx sub : Nat) : Option DRow :=
  if sub = 0 then (if dTop idx = 0 then none else some ⟨idx, idx, 0, 0, 1, 0, 0, false⟩)
  else dRows.find? fun r => decide (r.lo ≤ idx) && decide (idx ≤ r.hi) && decide (r.s1 ≤ sub) && decide (sub ≤ r.s2)

/-- Value bytes of a fixed-length type; none for OCTETS and VISSTR (Table 17.6). -/
def tyWidth (ty : Nat) : Option Nat :=
  if ty = 1 ∨ ty = 6 ∨ ty = 7 then some 1
  else if ty = 2 then some 2
  else if ty = 3 ∨ ty = 5 then some 4
  else if ty = 4 then some 8
  else none

/-- The length fits the type (R319). -/
def tyFits (ty n : Nat) : Bool :=
  match tyWidth ty with
  | some w => n == w
  | none => decide (n ≤ (if ty = 9 then 255 else 1024))

/-! Reads (R324) -/

/-- The island's sum over counted occurrences (R324). -/
def Svc.sum (v : Svc) (l : List Cnt) : Nat :=
  (l.foldl (fun a (c : Cnt) => a + v.sums.get zero32 c.ctorIdx) (0 : BitVec 32)).toNat

/-- Accumulators beside the RC counter fields of units that are no slice: entries into Coast and Freewheel, refusals,
completion timeouts, late completions, records not spilled, deliveries under R287 (R324). -/
def State.unitAccs (s : State) : List (BitVec 32) :=
  [s.pwr.coasts, s.pwr.freewheels, s.pwr.refusals, s.hfn.ctos, s.hfn.lates, s.hfn.drops, s.iag.late]

/-- The island's sum over the `i`-th of those accumulators. -/
def Svc.unitSum (v : Svc) (i : Nat) : Nat := (v.unitSums.get zero32 i).toNat

/-- The counted occurrences an entry of `0x2102`, `0x2003`, `0x2202`, `0x2302` or `0x2402` sums. -/
def sumOf (idx sub : Nat) : List Cnt :=
  if idx = 0x2102 then [[.brk], [.crqWait], [.creditDiscard]].getD (sub - 1) []
  else if idx = 0x2003 then [[.fwdOwn], [.drain], [.stale], [.perr]].getD (sub - 1) []
  else if idx = 0x2202 then [[.sfCorr], [.sfUncorr], [.vict], [.ovf], [.wait]].getD (sub - 1) []
  else if idx = 0x2302 then
    [[.autoNear], [.autoFar], [.builtin, .program], [.dQfull, .dSlot, .dPoison, .dHlc], [.progFault]].getD (sub - 1) []
  else if idx = 0x2402 then [[.hit], [.miss], [.hCorr], [.hUncorr], [.pfDropMshr, .pfDropCred]].getD (sub - 1) []
  else []

/-- `0x1001:01` (Table 17.10). -/
def State.blockState (s : State) : Nat :=
  if s.inKickstand then 4
  else if s.pwr.state = 1 then 2
  else if s.pwr.state = 2 then 3
  else if s.glb.coherentReady then 1 else 0

/-- The image of `RPQ_STAT_q`, `RPQ_CTRL_q` (Tables 15.3, 15.4). -/
def Rpq.stat (x : Rpq) : Nat :=
  x.ents.length + bit01 x.loss 11 + 2 ^ 16 * x.seq.toNat + 2 ^ 32 * x.drops.toNat + 2 ^ 48 * x.flushes.toNat
    + 2 ^ 56 * x.badReads.toNat
def Rpq.ctrl (x : Rpq) : Nat := x.level.toNat

/-- Entries of `0x1000` to `0x1FFF`; `n` and `lvl` are of the session that reads (Table 17.10). -/
def State.readIdent (s : State) (n lvl idx sub : Nat) : Nat :=
  if idx = 0x1000 then
    (if sub = 2 then Config.siliconRev.toNat else if sub = 3 then s.straps.hfnVid.toNat
     else if sub = 4 then s.straps.hfnDid.toNat else 1)
  else if idx = 0x1001 then
    (if sub = 1 then s.blockState else if sub = 2 then bit01 s.stw.running 0 else s.time / 1000000 % 2 ^ 32)
  else if idx = 0x1101 then (if sub = 2 then bit01 s.svc.ownerKey.isSome 0 else bit01 (s.svc.vdbgKey != 0) 0)
  else if idx = 0x1102 then
    (if sub = 1 then lvl else if sub = 2 then n else if sub = 3 then min 255 s.svc.failures else s.svc.sessions.length)
  else if sub = 1 then s.svc.discarded.toNat else if sub = 2 then s.svc.malformed.toNat else s.svc.authFails.toNat

/-- Entries of `0x2000` to `0x22FF`; a parameter of every slice is read at physical slice 0 (log 63). -/
def State.readHome (s : State) (idx sub : Nat) : Nat :=
  let x := s.slice 0
  let y := s.slice (sub - 1)
  if idx = 0x2001 then
    (if sub = 1 then s.glb.agents.toNat else if sub = 2 then s.glb.ioPorts.toNat else s.glb.srcErrs.toNat)
  else if idx = 0x2002 then (if sub = 1 then x.depthLim.toNat else bit01 x.chainEn 0)
  else if idx = 0x2004 then y.oltStat
  else if idx = 0x2010 then (s.stwCopy.entry (sub - 1)).phys
  else if idx = 0x2011 then s.glb.startMap.get resetMap (sub - 1)
  else if idx = 0x2101 then (if sub = 1 then x.brkUs.toNat else x.wdogUs.toNat)
  else if idx = 0x2103 then y.crdStat
  else if idx = 0x2201 then
    (if sub = 1 then x.sfl.pace.toNat else if sub = 2 then bit01 x.sfl.migrate 0 else bit01 x.sfl.prefSingle 0)
  else if idx = 0x2203 then y.sflStat
  else y.sfCap.toNat

/-- Entries of `0x2300` to `0x2FFF`. -/
def State.readSlice (s : State) (idx sub : Nat) : Nat :=
  let x := s.slice 0
  let y := s.slice (sub - 1)
  let r := s.ring (sub - 1)
  if idx = 0x2301 then
    (if sub = 1 then x.far.autoMode.toNat else if sub = 2 then x.far.thresh.toNat else x.far.recentUs.toNat)
  else if idx = 0x2303 then (s.farStat (sub - 1)).toNat
  else if idx = 0x2312 then bitsIf 64 fun b => s.masterValid (64 * (sub - 1) + b)
  else if idx = 0x2401 then
    (if sub = 1 then bit01 x.hlc.en 0 else if sub = 2 then bit01 x.hlc.rdAlloc 0 else if sub = 3 then bit01 x.hlc.pfEn 0
     else if sub = 4 then x.hlc.pfDepth.toNat else if sub = 5 then x.hlc.pfReserve.toNat else x.hlc.leakH.toNat)
  else if idx = 0x2403 then y.hlc.stat
  else if idx = 0x2404 then y.hlc.wayEnImage.toNat
  else if idx = 0x2405 then y.hlc.capImage.toNat
  else if idx = 0x2410 then bit01 s.dictMaintBusy 0
  else if idx = 0x2501 then
    (if sub = 1 then bit01 s.crg.consEn 0 else if sub = 2 then s.crg.windowUs.toNat else if sub = 3 then s.crg.entryPct.toNat
     else if sub = 4 then s.crg.entryWin.toNat else s.crg.exitPct.toNat)
  else if idx = 0x2502 then r.stat.toNat
  else if idx = 0x2503 then r.replaySum.toNat
  else if idx = 0x2504 then r.crcSum.toNat
  else if idx = 0x2601 then (s.glb.rgn.get zero64 (sub - 1)).toNat
  else (s.mptStat (sub - 1)).toNat

/-- Entries of `0x3000` to `0x34FF`. -/
def State.readUnits (s : State) (idx sub : Nat) : Nat :=
  if idx = 0x3001 then s.loader.fwResult.toNat
  else if idx = 0x3002 then s.loader.version.toNat
  else if idx = 0x3003 then (s.engStat (sub - 1)).toNat
  else if idx = 0x3011 then s.stwStat.toNat
  else if idx = 0x3101 then s.stw.shootMask.toNat
  else if idx = 0x3102 then (if sub = 1 then s.stw.shootsDone.toNat else s.stw.shootsBad.toNat)
  else if idx = 0x3103 then (s.eng (sub - 1)).serrErrors.toNat
  else if idx = 0x3201 then
    (if sub = 1 then s.iag.toEngines.toNat else if sub = 2 then s.iag.toHost.toNat else s.svc.unitSum 6)
  else if 0x3210 ≤ idx ∧ idx ≤ 0x3217 then (s.src (192 * (idx - 0x3210) + sub - 1)).image.toNat
  else if idx = 0x3220 then (s.grp (sub - 1)).image
  else if idx = 0x3301 then (s.rpqOf (sub - 1)).ctrl
  else if idx = 0x3302 then (s.rpqOf (sub - 1)).stat
  else if idx = 0x3401 then (if sub = 1 then bit01 s.pmc.freeze 0 else bit01 s.pmc.hostUser 0)
  else
    let c := 240 * (idx % 16) + sub - 1
    if 1583 < c then 0
    else if idx < 0x3420 then (s.pmc.sel.get pmcSelReset c).toNat
    else (s.pmc.shadow.get zero48 c).toNat

/-- Entries of `0x3500` to `0x39FF`. -/
def State.readPlatform (s : State) (idx sub : Nat) : Nat :=
  if idx = 0x3501 then
    (if sub = 1 then s.pwr.state.toNat else if sub = 2 then bit01 s.pwr.relEdges 0 else s.pwr.drainUs.toNat)
  else if idx = 0x3503 then ((s.pwr.image (0x0C0 + 8 * (sub - 1))).map (·.2)).getD 0
  else if idx = 0x3504 then s.pwr.stat.toNat
  else if idx = 0x3505 then
    s.svc.unitSum (sub - 1)
  else if idx = 0x3601 then
    (if sub = 1 then s.ras.corrected.toNat else if sub = 2 then s.ras.contained.toNat else s.ras.fatals.toNat)
  else if idx = 0x3602 then s.spareStat.toNat
  else if idx = 0x3603 then
    (if sub = 1 then bit01 s.ras.corrLog 0 else if sub = 2 then bit01 s.ras.autoSpare 0
     else if s.ras.rpqEn then s.ras.rpqSel.toNat else 255)
  else if idx = 0x3701 then
    (if sub = 1 then s.saf.probePeriod.toNat else if sub = 2 then s.saf.probeRegion.toNat else bit01 s.saf.selfTest 0)
  else if idx = 0x3702 then (if sub = 1 then s.safStat else s.saf.fatalImage)
  else if idx = 0x3801 then
    (if sub < 4 then s.svc.unitSum (2 + sub) else s.hfn.aborts.toNat)
  else if idx = 0x3802 then (if sub = 1 then s.hfn.spillStat else s.hfn.cmdStat)
  else if idx = 0x3803 then bit01 s.hfn.bar0Ok 0
  else if idx = 0x3901 then (if sub = 1 then s.clk.stat else s.clk.present.toNat)
  else if idx = 0x3902 then s.rst.stat
  else if idx = 0x3903 then s.rst.bist (sub - 1)
  else s.rst.ports (sub - 1)

/-- The number an entry of a fixed-length type reads as. -/
def State.dictNat (s : State) (n lvl idx sub : Nat) : Nat :=
  if sub = 0 then dTop idx
  else if sumOf idx sub ≠ [] then s.svc.sum (sumOf idx sub)
  else if idx < 0x2000 then s.readIdent n lvl idx sub
  else if idx < 0x2300 then s.readHome idx sub
  else if idx < 0x3000 then s.readSlice idx sub
  else if idx < 0x3500 then s.readUnits idx sub
  else s.readPlatform idx sub

/-- "Koreel KH-128" (Table 17.10). -/
def productName : List Byte := [0x4B, 0x6F, 0x72, 0x65, 0x65, 0x6C, 0x20, 0x4B, 0x48, 0x2D, 0x31, 0x32, 0x38]

/-- The bytes of an OCTETS or VISSTR entry. -/
def State.dictOctets (s : State) (idx sub : Nat) : List Byte :=
  if idx = 0x1000 then (if sub = 1 then productName else leBytes 16 s.straps.serial.toNat)
  else if idx = 0x2310 ∨ idx = 0x2311 then
    (s.loader.master.get noProg (128 * (idx - 0x2310) + sub - 1)).flatMap fun w => leBytes 4 w.toNat
  else if idx = 0x3001 then s.loader.image.get noBytes sub
  else if idx = 0x3010 then s.loader.stwImage.get noBytes sub
  else []

/-- The value bytes of an entry (Table 17.6). -/
def State.dictRead (s : State) (n lvl idx sub ty : Nat) : List Byte :=
  match tyWidth ty with
  | some w => leBytes w (s.dictNat n lvl idx sub)
  | none => s.dictOctets idx sub

/-! Writes (R325) -/

/-- How a WRITE ends: done, BUSY, REFUSED with a DETAIL, or answered when its action completes. -/
inductive WRes where
  | ok
  | busy
  | refused (detail : Byte)
  | later (k : AwaitKind)
  deriving DecidableEq, Repr

/-- Carried out when the value is allowed, else refused. -/
def State.okIf (s : State) (ok : Bool) (t : State) : State × WRes := if ok then (t, .ok) else (s, .refused 0)

/-- From an operation that says whether it was discarded. -/
def discarded (r : State × Bool) (w : WRes) : State × WRes := (r.1, if r.2 then w else .ok)

/-- Answered when the action of kind `k` has completed, at once where it already has (R325). -/
def endsLater (t : State) (runs : Bool) (k : AwaitKind) : State × WRes := (t, if runs then .later k else .ok)

/-- Change every slice. -/
def State.allSlices (s : State) (f : Slice → Slice) : State := (List.range 132).foldl (fun s p => s.modSlice p f) s
def State.allHlc (s : State) (f : Hlc → Hlc) : State := s.allSlices fun x => { x with hlc := f x.hlc }

/-- Write the owner key: once per cold reset, 32 bytes (R328). -/
def State.ownerKeyPut (s : State) (key : List Byte) : State × WRes :=
  s.okIf (s.svc.ownerKey.isNone && key.length == 32) (s.modSvc fun v => { v with ownerKey := some key })

/-- `0x1103`, `0x2001` to `0x22FF`. -/
def State.writeHome (s : State) (idx sub v : Nat) : State × WRes :=
  let put := fun (ok : Bool) (f : Slice → Slice) => s.okIf ok (s.allSlices f)
  if idx = 0x1103 then (if v = 1 then discarded s.restoreClose (.refused 0) else (s, .ok))
  else if idx = 0x2001 then
    if sub = 2 then (s.modGlb fun g => { g with ioPorts := BitVec.ofNat 16 v }, .ok)
    else if !s.restoring then (s, .busy)
    else (s.modGlb fun g => { g with agents := BitVec.ofNat 64 v }, .ok)
  else if idx = 0x2002 then
    if sub = 1 then put (decide (1 ≤ v) && decide (v ≤ 15)) fun x => { x with depthLim := BitVec.ofNat 4 v }
    else put true fun x => { x with chainEn := v == 1 }
  else if idx = 0x2011 then
    s.okIf (decide (v < 132) && (List.range 128).all fun l => l + 1 == sub || s.glb.startMap.get resetMap l != v)
      (s.modGlb fun g => { g with startMap := g.startMap.set resetMap (sub - 1) v })
  else if idx = 0x2101 then
    if sub = 1 then put (v != 0) fun x => { x with brkUs := BitVec.ofNat 8 v }
    else put (decide (250 ≤ v) && decide (v ≤ 4095)) fun x => { x with wdogUs := BitVec.ofNat 12 v }
  else
    if sub = 1 then put (v != 0) fun x => { x with sfl := { x.sfl with pace := BitVec.ofNat 16 v } }
    else if sub = 2 then put true fun x => { x with sfl := { x.sfl with migrate := v == 1 } }
    else put true fun x => { x with sfl := { x.sfl with prefSingle := v == 1 } }

/-- A write of `0x2310` or `0x2311` (R211, R216). -/
def State.writeProg (s : State) (slot : Nat) (b : List Byte) : State × WRes :=
  if s.loader.busy then (s, .busy)
  else if b.length % 4 ≠ 0 ∨ 128 < b.length then (s, .refused 0)
  else
    let t := s.farLoad slot (wordsLe b)
    if t.loader.busy then (t, .later .farLoad) else (t, .refused (t.loader.result.setWidth 8))

/-- `0x2301`, `0x2401` to `0x2410`. -/
def State.writeCache (s : State) (idx sub v : Nat) : State × WRes :=
  let far := fun (ok : Bool) (f : Far → Far) => s.okIf ok (s.allSlices fun x => { x with far := f x.far })
  let hlc := fun (ok : Bool) (f : Hlc → Hlc) => s.okIf ok (s.allHlc f)
  if idx = 0x2301 then
    if sub = 1 then far (decide (v ≤ 2)) fun f => { f with autoMode := BitVec.ofNat 2 v }
    else if sub = 2 then far (decide (1 ≤ v) && decide (v ≤ 7)) fun f => { f with thresh := BitVec.ofNat 3 v }
    else far (decide (1 ≤ v) && decide (v ≤ 15)) fun f => { f with recentUs := BitVec.ofNat 4 v }
  else if idx = 0x2401 then
    if sub = 1 then
      if v = 0 then
        let t := (List.range 132).foldl (fun s p => s.hlcDisable p) s
        endsLater t t.hlcDraining .drain
      else if s.hlcDraining then (s, .busy)
      else ((List.range 132).foldl (fun s p => s.hlcEnable p) s, .ok)
    else if sub = 2 then hlc true fun h => { h with rdAlloc := v == 1 }
    else if sub = 3 then hlc true fun h => { h with pfEn := v == 1 }
    else if sub = 4 then hlc (decide (1 ≤ v) && decide (v ≤ 8)) fun h => { h with pfDepth := BitVec.ofNat 4 v }
    else if sub = 5 then hlc (decide (1 ≤ v) && decide (v ≤ 24)) fun h => { h with pfReserve := BitVec.ofNat 5 v }
    else hlc (decide (1 ≤ v) && decide (v ≤ 8760)) fun h => { h with leakH := BitVec.ofNat 14 v }
  else if idx = 0x2404 then
    let t := s.writeWays (sub - 1) (BitVec.ofNat 64 v)
    endsLater t (!(t.slice (sub - 1)).hlc.flushes.isEmpty) (.ways (sub - 1))
  else if 2 < v then (s, .refused 0)
  else if s.dictMaintBusy then (s, .busy)
  else (s.dictMaint (BitVec.ofNat 4 v), .ok)

/-- `CRG_CONS_CTRL` with one field replaced (R59). -/
def Crg.field (g : Crg) (sub v : Nat) : Crg :=
  if sub = 1 then { g with consEn := v == 1 }
  else if sub = 2 then { g with windowUs := BitVec.ofNat 12 v }
  else if sub = 3 then { g with entryPct := BitVec.ofNat 7 v }
  else if sub = 4 then { g with entryWin := BitVec.ofNat 4 v }
  else { g with exitPct := BitVec.ofNat 7 v }

/-- The widest value a field of `CRG_CONS_CTRL` holds. -/
def consMost (sub : Nat) : Nat := if sub = 1 then 1 else if sub = 2 then 4095 else if sub = 4 then 15 else 127

/-- `0x2501`, `0x2505` and `0x2601`; a ring command is answered when the ring is off, or its return has ended (R53,
R325). -/
def State.writeRings (s : State) (idx sub v : Nat) : State × WRes :=
  if idx = 0x2501 then
    s.okIf (decide (v ≤ consMost sub) && (s.crg.field sub v).ok) (s.consSet (s.crg.field sub v))
  else if idx = 0x2505 then
    if 5 < v then (s, .refused 0)
    else if sub = 1 then (s.crgShift v, if s.crgShiftOk v then .later (.ring v false) else .busy)
    else (s.crgReturn v, if s.crgReturnOk v then .later (.ring v true) else .busy)
  else s.okIf s.restoring ((s.noteRsvd ((BitVec.ofNat 64 v).extractLsb' 58 5 != 0)).writeRgn (sub - 1) (BitVec.ofNat 64 v))

/-- A commit of the spoke image (R253). -/
def State.writeCommit (s : State) (v : Nat) : State × WRes :=
  if v ≠ 1 ∧ v ≠ 2 then (s, .refused 0)
  else if s.loader.updating = true ∨ (v = 1 ∧ s.restoring = false) then (s, .busy)
  else (s.fwCommit (v == 2), .ok)

/-- A command of `0x3004`, with the refusals of `ENG_CTRL_e`; a warm reset and a quiesce are answered when they have taken
place (R254, R325). -/
def State.writeEngine (s : State) (e v : Nat) : State × WRes :=
  let free := !(s.eng e).held
  let reset := s.engResetOk e
  if v = 1 then
    if reset then endsLater (s.engWarm e) ((s.engWarm e).eng e).warm (.warm e) else (s.engWarm e, .refused 0)
  else if v = 2 then (s.engCold e, if reset then .ok else .refused 0)
  else if v = 3 then
    if free then endsLater (s.engQuiesce e) ((s.eng e).state == 1 || (s.eng e).state == 2) (.quiesce e)
    else (s.engQuiesce e, .refused 0)
  else if v = 4 then (s.engResume e, if free then .ok else .refused 0)
  else (s, .refused 0)

/-- `0x3001` to `0x34FF`; `b` is the value of an OCTETS entry. -/
def State.writeUnits (s : State) (idx sub v : Nat) (b : List Byte) : State × WRes :=
  if idx = 0x3001 then
    if sub = 0x22 then s.writeCommit v
    else (s.modLoader fun x => { x with image := x.image.set noBytes sub b }, .ok)
  else if idx = 0x3004 then s.writeEngine (sub - 1) v
  else if idx = 0x3101 then (s.modStw fun x => { x with shootMask := BitVec.ofNat 64 v }, .ok)
  else if 0x3210 ≤ idx ∧ idx ≤ 0x3217 then
    discarded (s.srcWrite (192 * (idx - 0x3210) + sub - 1) (BitVec.ofNat 64 v)) .busy
  else if idx = 0x3220 then
    discarded ((s.noteRsvd ((BitVec.ofNat 64 v).extractLsb' 25 7 != 0)).grpWrite (sub - 1) (BitVec.ofNat 64 v)) (.refused 0)
  else if idx = 0x3301 then
    s.okIf (decide (v ≤ 1024)) (s.modRpq (sub - 1) fun x => { x with level := BitVec.ofNat 11 v })
  else if idx = 0x3303 then (if v = 1 then s.rpqFlush (sub - 1) else s, .ok)
  else if idx = 0x3401 then
    if sub = 1 then (s.pmcFreeze (v == 1), .ok)
    else if sub = 3 then (s.modPmc fun m => { m with hostUser := v == 1 }, .ok)
    else if v = 0 then (s, .ok)
    else (s.pmcSnapshot, if s.pmc.snapBusy then .busy else .later .snapshot)
  else
    let c := 240 * (idx % 16) + sub - 1
    if 1583 < c then (s, .refused 0) else discarded (s.pmcSel c (BitVec.ofNat 32 v)) (.refused 0)

/-- The power entries, which the island writes itself (R329, R351, R359; log 65). -/
def State.writePower (s : State) (idx sub v : Nat) : State × WRes :=
  if idx = 0x3502 then
    if 323 < v then (s, .refused 0) else discarded (s.edgeRelease v) (.refused 0)
  else if sub = 1 then
    match s.powerCmd (BitVec.ofNat 8 v) with
    | (t, .busy) => (t, .busy)
    | (t, .refused c) => (t, .refused (c.setWidth 8))
    | (t, .begun) => (t, .later .power)
  else if sub = 2 then s.okIf (decide (v ≤ 1)) (s.modPwr fun p => { p with relEdges := v == 1 })
  else s.okIf (decide (250 ≤ v) && decide (v ≤ 4095)) (s.modPwr fun p => { p with drainUs := BitVec.ofNat 12 v })

/-- `0x3602` to `0x3803`. -/
def State.writePlatform (s : State) (idx sub v : Nat) : State × WRes :=
  if idx = 0x3602 then
    if 127 < v then (s, .refused 0)
    else
      let r := s.evacCmd (BitVec.ofNat 7 v) 255
      (r.1, if r.2 then .refused 2 else .later .evacuation)
  else if idx = 0x3603 then
    if sub = 1 then (s.modRas fun r => { r with corrLog := v == 1 }, .ok)
    else if sub = 2 then (s.modRas fun r => { r with autoSpare := v == 1 }, .ok)
    else if v = 255 then (s.modRas fun r => { r with rpqEn := false }, .ok)
    else s.okIf (decide (v ≤ 31)) (s.modRas fun r => { r with rpqEn := true, rpqSel := BitVec.ofNat 5 v })
  else if idx = 0x3701 then
    if sub = 1 then
      s.okIf (decide (50 ≤ v) && decide (v ≤ 4095)) (s.modSaf fun x => { x with probePeriod := BitVec.ofNat 16 v })
    else if sub = 2 then
      s.okIf (s.restoring && v % 8192 == 0 && decide (v < 2 ^ 52))
        (s.modSaf fun x => { x with probeRegion := BitVec.ofNat 64 v })
    else (s.modSaf fun x => { x with selfTest := v == 1 }, .ok)
  else (s.modHfn fun h => { h with bar0Ok := v == 1 }, .ok)

/-- A value in range by its type: a BOOL is 0 or 1 (R319). -/
def tyRange (ty v : Nat) : Bool := ty != 6 || decide (v ≤ 1)

/-- What the steward carries out (R325 step 3). -/
def State.stewardWrite (s : State) (idx sub ty : Nat) (b : List Byte) : State × WRes :=
  let v := leNat b
  if !tyRange ty v then (s, .refused 0)
  else if idx = 0x2310 ∨ idx = 0x2311 then s.writeProg (128 * (idx - 0x2310) + sub - 1) b
  else if idx < 0x2300 then s.writeHome idx sub v
  else if idx < 0x2500 then s.writeCache idx sub v
  else if idx < 0x3000 then s.writeRings idx sub v
  else if idx < 0x3500 then s.writeUnits idx sub v b
  else s.writePlatform idx sub v

/-- Carry out a WRITE that has passed the checks of access, level and type: the island serves the owner key and the
power entries, the boot ROM `0x3010`, the running steward the rest (R16, R325, R328, R329, R400). -/
def State.dictWrite (s : State) (idx sub ty : Nat) (b : List Byte) : State × WRes :=
  if idx = 0x1101 then s.ownerKeyPut b
  else if idx = 0x3501 ∨ idx = 0x3502 then s.writePower idx sub (leNat b)
  else if idx = 0x3010 then
    if s.rst.phase.toNat < 4 then (s, .busy) else discarded (s.stewardImage sub b) (.refused 0)
  else if s.stewardRuns then s.stewardWrite idx sub ty b
  else (s, .busy)

end Sys2Proof.Machine
end

