-- ==== Sys2Proof/Machine/Forgopo.lean ====
section
/-! DEFINITION. Forgopo messages: the gate, sessions and sequence numbers, the eight types, and the mailbox (R318 to
R330). -/

namespace Sys2Proof.Machine

/-- The island serves messages: it is out of reset and past phase 0, and SCLK runs (R400, Table 20.6). -/
def State.islandUp (s : State) : Bool := s.rst.released && s.rst.phase != 0 && s.sclk

/-! The header (Table 17.1) -/

/-- Byte `k` of a message; zero past its end. -/
def fgByte (b : List Byte) (k : Nat) : Byte := b.getD k 0
def fgHalf (b : List Byte) (k : Nat) : BitVec 16 := fgByte b (k + 1) ++ fgByte b k
def fgType (b : List Byte) : Byte := fgByte b 1
def fgSession (b : List Byte) : BitVec 16 := fgHalf b 2
def fgTx (b : List Byte) : BitVec 16 := fgHalf b 4
def fgRx (b : List Byte) : BitVec 16 := fgHalf b 6
def fgLen (b : List Byte) : Nat := (fgHalf b 8).toNat

/-! The gate (Table 17.5) -/

/-- LEN is a body length of the type (check 4). -/
def fgLenOk (ty : Byte) (n : Nat) : Bool :=
  if ty = 3 then n == 4
  else if ty = 4 then decide (4 ≤ n) && decide (n ≤ 1028)
  else if ty = 5 then n == 1
  else if ty = 6 then n == 32
  else n == 0

/-- The bytes that must be zero are, and a CHALLENGE names a key (check 5). -/
def fgZeros (b : List Byte) : Bool :=
  fgByte b 10 == 0 && fgByte b 11 == 0 && (fgType b != 3 || fgByte b 15 == 0)
    && (fgType b != 5 || decide (fgByte b 12 ≤ 1))

/-- The first check a message fails, 0 for none (Table 17.5). -/
def fgGate (b : List Byte) : Nat :=
  let ty := fgType b
  if b.length < 12 ∨ fgByte b 0 ≠ 1 then 1
  else if ty = 0 ∨ 8 < ty.toNat then 2
  else if 12 + fgLen b ≠ b.length then 3
  else if fgLenOk ty (fgLen b) = false then 4
  else if fgZeros b = false then 5
  else if (fgSession b = 0 ∧ ty ≠ 1 ∧ ty ≠ 7) ∨ (fgSession b ≠ 0 ∧ ty = 1) then 6
  else 0

/-- Discard a message without answer (R317, R320). -/
def State.fgDiscard (s : State) : State := s.modSvc fun v => { v with discarded := v.discarded + 1 }

/-- Answer outside a session's numbers: TXSEQ and RXSEQ zero (R320, R322; log 62). -/
def State.plainAnswer (s : State) (peer : Peer) (b : List Byte) (status detail : Byte) : State :=
  s.sendTo peer (fgAnswer (fgType b) (fgSession b) 0 0 status detail [])

/-- Answer MALFORMED, naming the check (R320). -/
def State.fgMalformed (s : State) (peer : Peer) (b : List Byte) (check : Nat) : State :=
  (s.modSvc fun v => { v with malformed := v.malformed + 1 }).plainAnswer peer b 7 (BitVec.ofNat 8 check)

/-! Arrival -/

/-- The first message in the inbox from an endpoint with these bytes, and the inbox without it. -/
def inboxTake (e : Byte) (b : List Byte) : List (Byte × BitVec 3 × List Byte) →
    Option (BitVec 3) × List (Byte × BitVec 3 × List Byte)
  | [] => (none, [])
  | m :: rest =>
    if m.1 = e ∧ m.2.2 = b then (some m.2.1, rest)
    else ((inboxTake e b rest).1, m :: (inboxTake e b rest).2)

/-- The message in the request buffer: 12 + LEN bytes (R330 step 2). -/
def Svc.mbxMsg (v : Svc) : List Byte :=
  let byte := fun (k : Nat) => byteAt (v.req.get zero32 (k / 4)) (k % 4)
  (List.range (12 + ((byte 9) ++ (byte 8)).toNat)).map byte

/-- A message that a command names: over the service port it has arrived, through the mailbox it stands in the request
buffer after GO. The answer carries its peer, none where no such message can be. -/
def State.fgTake (s : State) (rt : Route) (b : List Byte) : State × Option Peer :=
  if !s.islandUp then (s, none)
  else
    match rt with
    | .svc e =>
      let r := inboxTake e (s.vdmHead ++ b) s.svc.inbox
      (s.modSvc fun v => { v with inbox := r.2 }, some { rt, tag := r.1.getD 0 })
    | .mbx => (s, if s.svc.busy && s.svc.mbxMsg == b then some { rt } else none)

/-- Take a message of type `ty` through the gate and hand it on (R320). -/
def State.fgMsg (s : State) (rt : Route) (b : List Byte) (ty : Byte) (f : State → Peer → State) : State :=
  match s.fgTake rt b with
  | (_, none) => s
  | (t, some peer) =>
    let c := fgGate b
    if c = 1 then t.fgDiscard
    else if c ≠ 0 then t.fgMalformed peer b c
    else if fgType b = ty then f t peer
    else s

/-! Sequence numbers (R321) -/

/-- A WRITE of a session is still in progress. -/
def State.awaited (s : State) (n : BitVec 16) : Bool := s.svc.await.any fun a => a.n == n

/-- A request of an open session: a new one is carried out, a repeat gets the stored answer, any other SEQ_ERROR
(R321). One that comes while the session's WRITE is in progress is not taken (log 62). -/
def State.fgSeq (s : State) (peer : Peer) (b : List Byte) (f : State → Session → State) : State :=
  match s.session peer.rt (fgSession b) with
  | none => s.plainAnswer peer b 9 0
  | some x =>
    if s.awaited x.n then s
    else if fgTx b = x.lastRx then s.sendTo peer x.answer
    else if fgTx b ≠ nextSeq x.lastRx ∨ fgRx b ≠ x.lastTx then s.seqError peer x (fgType b)
    else f (s.modSession x.n fun x => { x with lastNew := s.time }) x

/-- The row of a request type: gate, session and sequence, then the request itself. -/
def State.fgRequest (s : State) (rt : Route) (b : List Byte) (ty : Byte) (f : State → Peer → Session → State) : State :=
  s.fgMsg rt b ty fun s peer => s.fgSeq peer b fun s x => f s peer x

/-- Answer the new request `b` of session `x`. -/
def State.reply (s : State) (peer : Peer) (x : Session) (b : List Byte) (status detail : Byte) (body : List Byte) :
    State :=
  s.answer peer x.n (fgTx b) (fgType b) status detail body

/-! OPEN and CLOSE (R322) -/

/-- The first number from `n` on that no session has, from 1 to 65,535. -/
def freeNumber (l : List Session) : Nat → BitVec 16 → BitVec 16
  | 0, n => n
  | fuel + 1, n => if l.any (fun x => x.n == n) then freeNumber l fuel (nextSeq n) else n

/-- Keep sessions in the order of their numbers. -/
def addSession (x : Session) : List Session → List Session
  | [] => [x]
  | y :: rest => if x.n.toNat < y.n.toNat then x :: y :: rest else y :: addSession x rest

/-- The route has a free session. -/
def State.sessionFree (s : State) (rt : Route) : Bool :=
  let mine := (s.svc.sessions.filter fun x => x.owner == ownerOf rt).length
  decide (mine < 4) && (rt == .mbx || decide ((s.svc.sessions.filter fun x => x.owner.isSome).length < 8))

/-- Open a session and answer with its number. -/
def State.openSession (s : State) (peer : Peer) (b : List Byte) : State :=
  let n := freeNumber s.svc.sessions 16 (nextSeq s.svc.lastN)
  let ans := fgAnswer 1 n 1 (fgTx b) 0 0 []
  (s.modSvc fun v => { v with
    lastN := n
    sessions := addSession
      { n, owner := ownerOf peer.rt, lastRx := fgTx b, lastTx := 1, answer := ans, lastType := 1, lastStatus := 0
        lastNew := s.time } v.sessions }).sendTo peer ans

/-- OPEN (R322): its TXSEQ is 1 and its RXSEQ 0 (log 62). -/
def execFgOpen (rt : Route) (b : List Byte) (s : State) : Out :=
  .next (s.fgMsg rt b 1 fun s peer =>
    if fgTx b ≠ 1 ∨ fgRx b ≠ 0 then s.plainAnswer peer b 8 0
    else if s.sessionFree rt then s.openSession peer b
    else s.plainAnswer peer b 1 0)

/-- Close a session. -/
def State.closeSession (s : State) (n : BitVec 16) : State :=
  s.modSvc fun v => { v with sessions := v.sessions.filter fun x => x.n != n }

/-- CLOSE (R322). -/
def execFgClose (rt : Route) (b : List Byte) (s : State) : Out :=
  .next (s.fgRequest rt b 2 fun s peer x => (s.reply peer x b 0 0 []).closeSession x.n)

/-- SESSION_IDLE_TIMEOUT: 30 minutes without a new request (R322). -/
def execSessionIdleTimeout (n : BitVec 16) (s : State) : Out :=
  .next (match s.svc.sessions.find? (fun x => x.n == n) with
    | some x => if x.lastNew + 1800000000 ≤ s.time then s.closeSession n else s
    | none => s)

/-! READ and WRITE (R324, R325) -/

/-- Index and sub-index of a READ or WRITE (Table 17.2). -/
def fgIndex (b : List Byte) : Nat := (fgHalf b 12).toNat
def fgSub (b : List Byte) : Nat := (fgByte b 14).toNat

/-- The answer to a READ: status, and body. -/
def State.readAnswer (s : State) (x : Session) (b : List Byte) : Byte × List Byte :=
  match dictRow (fgIndex b) (fgSub b) with
  | none => (3, [])
  | some r =>
    if r.acc = 2 then (4, [])
    else (0, [BitVec.ofNat 8 r.ty, BitVec.ofNat 8 r.acc, BitVec.ofNat 8 r.lvl, if r.rest then 1 else 0]
      ++ s.dictRead x.n.toNat x.level.toNat (fgIndex b) (fgSub b) r.ty)

/-- READ (R324). -/
def execFgRead (rt : Route) (b : List Byte) (s : State) : Out :=
  .next (s.fgRequest rt b 3 fun s peer x =>
    let r := s.readAnswer x b
    s.reply peer x b r.1 0 r.2)

/-- The island's own checks of a WRITE: a status other than OK, with its DETAIL, or none (R319, R325, R328, R386). -/
def State.writeCheck (s : State) (rt : Route) (x : Session) (b : List Byte) : Option (Byte × Byte) :=
  if s.inKickstand then some (1, 0)
  else
    match dictRow (fgIndex b) (fgSub b) with
    | none => some (3, 0)
    | some r =>
      if r.acc = 0 ∨ (fgIndex b = 0x1101 ∧ rt = .mbx) then some (4, 0)
      else if r.lvl = 1 ∧ x.level = 0 then some (5, 0)
      else if (fgByte b 15).toNat ≠ r.ty ∨ tyFits r.ty (b.length - 16) = false then some (6, BitVec.ofNat 8 r.ty)
      else none

/-- Carry out a WRITE and answer it, now or when its action completes (R325). -/
def State.writeRun (s : State) (peer : Peer) (x : Session) (b : List Byte) : State :=
  match s.dictWrite (fgIndex b) (fgSub b) (fgByte b 15).toNat (b.drop 16) with
  | (t, .ok) => t.reply peer x b 0 0 []
  | (t, .busy) => t.reply peer x b 1 0 []
  | (t, .refused d) => t.reply peer x b 2 d []
  | (t, .later kind) =>
    t.modSvc fun v => { v with await := some { peer, n := x.n, tx := fgTx b, kind, since := s.time } }

/-- The steward still carries out an earlier WRITE, so one that needs it waits (R325). -/
def State.writeWaits (s : State) (b : List Byte) : Bool :=
  s.svc.await.any (fun a => a.kind != .power) && fgIndex b != 0x1101 && fgIndex b != 0x3501 && fgIndex b != 0x3502

/-- WRITE (R325). While an earlier one is in progress the command is given again. -/
def execFgWrite (rt : Route) (b : List Byte) (s : State) : Out :=
  .next (if s.writeWaits b then s
    else s.fgRequest rt b 4 fun s peer x =>
      match s.writeCheck rt x b with
      | some (status, detail) => s.reply peer x b status detail []
      | none => s.writeRun peer x b)

/-- OWNER_KEY_WRITE: a write of `0x1101:01` over a route (R328). -/
def execOwnerKeyWrite (rt : Route) (key : List Byte) (s : State) : Out :=
  .next (if s.islandUp && !s.inKickstand && rt != .mbx then (s.ownerKeyPut key).1 else s)

/-! CHALLENGE, RESPONSE and DROP (R327, R328) -/

/-- The key that a CHALLENGE names; none when it is absent. -/
def Svc.key (v : Svc) (vendor : Bool) : Option (List Byte) :=
  if vendor then (if v.vdbgKey = 0 then none else some (leBytes 32 v.vdbgKey.toNat)) else v.ownerKey

/-- Seconds a lockout still lasts, a part counting as one; none when none is in force. -/
def State.lockLeft (s : State) : Option Nat :=
  match s.svc.lockout with
  | some t => if s.time < t + 60000000 then some ((t + 60000000 - s.time + 999999) / 1000000) else none
  | none => none

/-- CHALLENGE (R327 step 1); the nonce is the island's own (log 11). -/
def execFgChallenge (rt : Route) (b : List Byte) (s : State) : Out :=
  .next (s.fgRequest rt b 5 fun s peer x =>
    let vendor := fgByte b 12 == 1
    match s.lockLeft with
    | some t => s.reply peer x b 0x0C (BitVec.ofNat 8 t) []
    | none =>
      if (s.svc.key vendor).isNone then s.reply peer x b 0x0B 0 []
      else
        let nonce := Config.nonce s.svc.challenges
        let s := s.modSvc fun v => { v with challenges := v.challenges + 1 }
        let s := s.modSession x.n fun x => { x with nonce := some (vendor, nonce) }
        s.reply peer x b 0 0 (leBytes 16 nonce.toNat))

/-- The MAC that R327 step 2 defines. -/
def State.macOf (s : State) (key : List Byte) (nonce : BitVec 128) (n : BitVec 16) : List Byte :=
  hmac key (leBytes 16 nonce.toNat ++ leBytes 2 n.toNat ++ leBytes 16 s.straps.serial.toNat)

/-- A RESPONSE matches the outstanding nonce of its session; the answer is the level it gives. -/
def State.macMatch (s : State) (x : Session) (mac : List Byte) : Option Byte :=
  match x.nonce with
  | none => none
  | some (vendor, nonce) =>
    match s.svc.key vendor with
    | none => none
    | some key => if s.macOf key nonce x.n = mac then some (if vendor then 2 else 1) else none

/-- An unlock failure: from the fourth in a row on it begins a lockout (R327; log 66). -/
def Svc.failed (v : Svc) (now : Nat) : Svc :=
  { v with
    failures := v.failures + 1, authFails := v.authFails + 1
    lockout :=
      if v.failures + 1 < 4 || v.lockout.any (fun t => decide (now < t + 60000000)) then v.lockout else some now }

/-- RESPONSE (R327 steps 2 to 4). -/
def execFgResponse (rt : Route) (b : List Byte) (s : State) : Out :=
  .next (s.fgRequest rt b 6 fun s peer x =>
    let s := s.modSession x.n fun x => { x with nonce := none }
    match s.macMatch x (b.drop 12) with
    | some lvl =>
      let lvl := if x.level.toNat < lvl.toNat then lvl else x.level
      let s := (s.modSvc fun v => { v with failures := 0 }).modSession x.n fun x => { x with level := lvl }
      s.reply peer x b 0 0 [lvl]
    | none =>
      let s := s.modSvc fun v => v.failed s.time
      s.reply peer x b 0x0A (BitVec.ofNat 8 (min 255 s.svc.failures)) [])

/-- DROP: the session returns to basic level (R328). -/
def execFgDrop (rt : Route) (b : List Byte) (s : State) : Out :=
  .next (s.fgRequest rt b 8 fun s peer x =>
    (s.modSession x.n fun x => { x with level := 0 }).reply peer x b 0 0 [])

/-- LOCKOUT_EXPIRY: 60 s after a lockout began (R327). -/
def execLockoutExpiry (s : State) : Out :=
  .next (match s.svc.lockout with
    | some t => if t + 60000000 ≤ s.time then s.modSvc fun v => { v with lockout := none } else s
    | none => s)

/-! RESYNC (R323) -/

/-- Table 17.4 for one session. -/
def State.resyncEntry (s : State) (x : Session) : List Byte :=
  leBytes 2 x.n.toNat ++ leBytes 2 x.lastRx.toNat ++ leBytes 2 x.lastTx.toNat ++ [x.lastType, x.lastStatus, x.level, 0]
    ++ leBytes 2 ((s.time - x.lastNew) / 60000000)

/-- RESYNC: of one session it takes the island's next TXSEQ; of session 0 it lists the requester's (log 62). -/
def execFgResync (rt : Route) (b : List Byte) (s : State) : Out :=
  .next (s.fgMsg rt b 7 fun s peer =>
    if fgSession b = 0 then
      let mine := s.svc.sessions.filter fun x => x.owner == ownerOf rt
      s.sendTo peer (fgAnswer 7 0 0 0 0 0 (mine.flatMap s.resyncEntry))
    else
      match s.session rt (fgSession b) with
      | none => s.plainAnswer peer b 9 0
      | some x =>
        let out := nextSeq x.lastTx
        (s.modSession x.n fun x => { x with lastTx := out }).sendTo peer
          (fgAnswer 7 x.n out x.lastRx 0 0 (s.resyncEntry x)))

/-! The mailbox (R330) -/

/-- A write of GO: refused while BUSY or RSP_READY is set; a message that fails check 1 ends at once, and a request under
RSP_READY counts as one that does (R320, R330). -/
def State.mbxGo (s : State) : State :=
  if s.svc.rspReady then s.fgDiscard.modSvc fun v => { v with refused := true }
  else if s.svc.busy then s.modSvc fun v => { v with refused := true }
  else if fgGate s.svc.mbxMsg = 1 then (s.fgDiscard).modSvc fun v => { v with rsp := [], rspReady := true }
  else s.modSvc fun v => { v with busy := true }

/-! Accumulators (R324) -/

/-- Read one accumulator and add what it has counted since. -/
def Svc.poll (v : Svc) (p c : Nat) (now : BitVec 32) : Svc :=
  { v with
    sums := v.sums.set zero32 c (v.sums.get zero32 c + (now - v.polled.get zero32 (64 * p + c)))
    polled := v.polled.set zero32 (64 * p + c) now }

/-- Read the accumulators of one slice; there are 32 `Cnt` numbers. -/
def State.pollSlice (s : State) (p : Nat) : State :=
  let acc := (s.slice p).acc
  s.modSvc fun v => (List.range 32).foldl (fun v c => v.poll p c (acc.get zero32 c)) v

/-- Read the accumulators of the other units: the difference from the previous read makes the sum the value read. -/
def State.pollUnits (s : State) : State :=
  s.modSvc fun v => { v with
    unitSums := (List.range 7).foldl (fun d i => NMap.set zero32 d i (s.unitAccs.getD i 0)) v.unitSums }

/-- A WRITE whose action has run for 100 ms is answered now, OK: its action started (R325; log 65). -/
def State.awaitLong (s : State) : State :=
  match s.svc.await with
  | some a => if a.since + 100000 ≤ s.time then s.awaitEnd a.kind 0 0 else s
  | none => s

/-- ACCUMULATOR_POLL: every accumulator is read, at least once per 100 ms (R324). -/
def execAccumulatorPoll (s : State) : Out :=
  .next (if s.islandUp then ((List.range 132).foldl (fun s p => s.pollSlice p) s).pollUnits.awaitLong else s)

end Sys2Proof.Machine
end

