-- ==== Sys2Proof/Machine/Service.lean ====
section
/-! DEFINITION. The service port: I3C common command codes, MCTP packets and control messages (R316, R317). What the
DMTF documents R316 and R317 name say of byte layouts is PRESUMED (log 12). -/

namespace Sys2Proof.Machine

/-! Common command codes (R316) -/

/-- The bus returns these bytes; a target without a dynamic address does not answer a directed command. -/
def State.cccGet (s : State) (b : List Byte) : State :=
  if s.islandUp && s.svc.dynAddr.isSome then s.modSvc fun v => { v with ccc := b } else s

/-- Change what a command sets. -/
def State.cccSet (s : State) (f : Svc → Svc) : State := if s.islandUp then s.modSvc f else s

/-- ENTDAA: a target without a dynamic address takes the one it is given. -/
def execEntdaa (a : BitVec 7) (s : State) : Out :=
  .next (s.cccSet fun v => if v.dynAddr.isSome then v else { v with dynAddr := some a })

/-- SETDASA: the target whose strapped static address is named. -/
def execSetdasa (sa a : BitVec 7) (s : State) : Out :=
  .next (if sa = s.straps.i3cSa then
      s.cccSet fun v => if v.dynAddr.isSome then v else { v with dynAddr := some a }
    else s)

/-- RSTDAA. -/
def execRstdaa (s : State) : Out := .next (s.cccSet fun v => { v with dynAddr := none })

/-- GETPID: the strapped provisional ID, most significant byte first. -/
def execGetpid (s : State) : Out := .next (s.cccGet (beBytes 6 s.straps.i3cPid.toNat))

/-- GETBCR (log 12). -/
def execGetbcr (s : State) : Out := .next (s.cccGet [Config.bcr])

/-- GETDCR: the code of an MCTP endpoint (R316; log 12). -/
def execGetdcr (s : State) : Out := .next (s.cccGet [mctpDcr])

/-- GETSTATUS: the value may change with every in-band interrupt (log 12). -/
def execGetstatus (s : State) : Out := .next (s.cccGet (beBytes 2 (Config.status s.svc.ibis.length).toNat))

/-- ENEC and DISEC: the events of the mask are enabled or disabled. -/
def execEnec (b : Byte) (s : State) : Out := .next (s.cccSet fun v => { v with events := v.events ||| b })

/-- DISEC. -/
def execDisec (b : Byte) (s : State) : Out := .next (s.cccSet fun v => { v with events := v.events &&& ~~~b })

/-- GETMWL reports 69 bytes (R316). -/
def execGetmwl (s : State) : Out := .next (s.cccGet (beBytes 2 69))

/-- GETMRL reports 69 bytes (R316). -/
def execGetmrl (s : State) : Out := .next (s.cccGet (beBytes 2 69))

/-- SETMWL: below 69 the port sends nothing until 69 or more is set (R316). -/
def execSetmwl (v : BitVec 16) (s : State) : Out :=
  .next (if s.islandUp then (s.modSvc fun x => { x with mwl := v }).svcFlush else s)

/-- SETMRL. -/
def execSetmrl (v : BitVec 16) (s : State) : Out :=
  .next (if s.islandUp then (s.modSvc fun x => { x with mrl := v }).svcFlush else s)

/-! Control messages (R317) -/

/-- A control message waits in the inbox: the first from an endpoint with a tag and a command code, its second byte, and
the inbox without it. -/
def ctlTake (e : Byte) (tag : BitVec 3) (cmd : Byte) : List (Byte × BitVec 3 × List Byte) →
    Byte × List (Byte × BitVec 3 × List Byte)
  | [] => (0, [])
  | m :: rest =>
    if m.1 = e ∧ m.2.1 = tag ∧ fgByte m.2.2 0 = 0 ∧ fgByte m.2.2 2 = cmd then (fgByte m.2.2 1, rest)
    else ((ctlTake e tag cmd rest).1, m :: (ctlTake e tag cmd rest).2)

/-- Answer a control message: type, instance with the request bit clear, command, completion code and data. -/
def State.ctlAnswer (s : State) (e : Byte) (tag : BitVec 3) (cmd : Byte) (data : List Byte) : State :=
  let r := ctlTake e tag cmd s.svc.inbox
  (s.modSvc fun v => { v with inbox := r.2 }).mctpSend e tag ([0, r.1 &&& 0x3F, cmd] ++ data)

/-- A control message is served: the island is up. -/
def State.ctl (s : State) (e : Byte) (tag : BitVec 3) (cmd : Byte) (data : List Byte) (f : Svc → Svc) : State :=
  if s.islandUp then (s.modSvc f).ctlAnswer e tag cmd data else s

/-- SET_ENDPOINT_ID: Set and Force take a value that is neither 0 nor 255; there is no static value to reset to. -/
def execSetEndpointId (src : Byte) (tag : BitVec 3) (op eid : Byte) (s : State) : Out :=
  .next (if 1 < op.toNat ∨ eid = 0 ∨ eid = 0xFF then s.ctl src tag 1 [2] id
    else s.ctl src tag 1 [0, 0, eid, 0] fun v => { v with eid })

/-- GET_ENDPOINT_ID: a simple endpoint with a dynamic identifier. -/
def execGetEndpointId (src : Byte) (tag : BitVec 3) (s : State) : Out :=
  .next (s.ctl src tag 2 [0, s.svc.eid, 0, 0] id)

/-- GET_MCTP_VERSION_SUPPORT: one version for the base, for control messages and for type `0x7E` (log 12). -/
def execGetMctpVersionSupport (src : Byte) (tag : BitVec 3) (ty : Byte) (s : State) : Out :=
  .next (if ty = 0xFF ∨ ty = 0 ∨ ty = 0x7E then
      s.ctl src tag 4 ([0, 1] ++ beBytes 4 (Config.mctpVersion ty).toNat) id
    else s.ctl src tag 4 [0x80] id)

/-- GET_MESSAGE_TYPE_SUPPORT: one type beside control messages. -/
def execGetMessageTypeSupport (src : Byte) (tag : BitVec 3) (s : State) : Out := .next (s.ctl src tag 5 [0, 1, 0x7E] id)

/-- GET_VENDOR_DEFINED_MSG_SUPPORT: one set, of the strapped PCI vendor identifier (R317). -/
def execGetVendorDefinedMsgSupport (src : Byte) (tag : BitVec 3) (sel : Byte) (s : State) : Out :=
  .next (if sel = 0 then
      s.ctl src tag 6 ([0, 0xFF, 0] ++ beBytes 2 s.straps.hfnVid.toNat ++ beBytes 2 Config.vdmSet.toNat) id
    else s.ctl src tag 6 [2] id)

/-! Packets and reassembly (R317) -/

/-- A control command that the port supports. -/
def ctlKnown (cmd : Byte) : Bool := cmd == 1 || cmd == 2 || cmd == 4 || cmd == 5 || cmd == 6

/-- A message is complete: a Forgopo message or a supported control request waits for its row; any other control request
is answered ERROR_UNSUPPORTED_CMD; a message of another kind is dropped. -/
def State.mctpTake (s : State) (e : Byte) (tag : BitVec 3) (b : List Byte) : State :=
  let keep := s.modSvc fun v => { v with inbox := v.inbox ++ [(e, tag, b)] }
  if b.take 3 = s.vdmHead then keep
  else if fgByte b 0 = 0 ∧ 3 ≤ b.length ∧ (fgByte b 1).getLsbD 7 = true then
    if ctlKnown (fgByte b 2) then keep else s.mctpSend e tag [0, fgByte b 1 &&& 0x3F, fgByte b 2, 5]
  else s

/-- The reassembly of an endpoint and tag. -/
def Svc.reasmOf (v : Svc) (e : Byte) (tag : BitVec 3) : Option Reasm := v.reasm.find? fun r => r.src == e && r.tag == tag
def Svc.reasmDrop (v : Svc) (e : Byte) (tag : BitVec 3) : Svc :=
  { v with reasm := v.reasm.filter fun r => !(r.src == e && r.tag == tag) }

/-- The longest message that is reassembled. -/
def mctpMost : Nat := 1043

/-- A packet of a message in order: `b` are the bytes before it. -/
def State.mctpAdd (s : State) (k : MctpPkt) (b : List Byte) : State :=
  let all := b ++ k.payload
  let s := s.modSvc fun v => v.reasmDrop k.src k.tag
  if mctpMost < all.length then s.fgDiscard
  else if k.eom then s.mctpTake k.src k.tag all
  else s.modSvc fun v => { v with reasm := v.reasm ++ [{ src := k.src, tag := k.tag, seq := k.seq, bytes := all }] }

/-- The packet is one the port takes: its PEC is right, a requester owns its tag, since the port sends no request, and it
keeps to the transmission unit of 64 bytes, which only a last packet falls short of (R317; log 12). -/
def pktOk (k : MctpPkt) : Bool :=
  k.pecOk && k.owner && decide (k.payload.length ≤ 64) && (k.eom || k.payload.length == 64)

/-- MCTP_PACKET: a transfer whose PEC fails is discarded; a first packet begins a reassembly, ending one that was open;
a later one must be next in sequence (R317). -/
def execMctpPacket (k : MctpPkt) (s : State) : Out :=
  .next (
    if !s.islandUp || s.svc.dynAddr.isNone || !pktOk k then s
    else
      match s.svc.reasmOf k.src k.tag with
      | none => if k.som then s.mctpAdd k [] else s
      | some r =>
        if k.som then s.fgDiscard.mctpAdd k []
        else if k.seq = r.seq + 1 then s.mctpAdd k r.bytes
        else (s.modSvc fun v => v.reasmDrop k.src k.tag).fgDiscard)

end Sys2Proof.Machine
end

