-- ==== Sys2Proof/Machine/HostOps.lean ====
section
/-! DEFINITION. Writes of the host and the steward into BAR0, BAR2 and configuration space, descriptors, and the logical
slice windows (R5, R6, R332 to R338, R341 to R343, R355). -/

namespace Sys2Proof.Machine

/-! BAR2 (R334, R338) -/

/-- A 4-byte aligned access of 4 bytes, and one of 4 or 8. -/
def shape4 (off size : Nat) : Bool := size == 4 && off % 4 == 0

/-- A location of BAR2 (Table 18.5). -/
inductive Bar2Loc where
  | pop (q : Nat)
  | rpqCtrl (q : Nat)
  | rpqStat (q : Nat)
  | mbxCtrl
  | mbxStat
  | mbxReq (i : Nat)
  | mbxRsp (i : Nat)
  | shadow (user : Bool) (c : Nat)
  | msix (v : Nat)
  | pba
  | nothing
  deriving DecidableEq, Repr

/-- The location an offset names. -/
def bar2Loc (off : Nat) : Bar2Loc :=
  if off < 0x20000 then
    let q := off / 0x1000
    let o := off % 0x1000
    if o < 0x10 then .pop q
    else if o < 0x14 then .rpqCtrl q
    else if 0x18 ≤ o ∧ o < 0x20 then .rpqStat q
    else .nothing
  else if 0x100000 ≤ off ∧ off < 0x100004 then .mbxCtrl
  else if 0x100008 ≤ off ∧ off < 0x10000C then .mbxStat
  else if 0x101000 ≤ off ∧ off < 0x101410 then .mbxReq ((off - 0x101000) / 4)
  else if 0x102000 ≤ off ∧ off < 0x102410 then .mbxRsp ((off - 0x102000) / 4)
  else if 0x200000 ≤ off ∧ off < 0x203180 then .shadow false ((off - 0x200000) / 8)
  else if 0x210000 ≤ off ∧ off < 0x213180 then .shadow true ((off - 0x210000) / 8)
  else if 0x300000 ≤ off ∧ off < 0x302000 then .msix ((off - 0x300000) / 16)
  else if 0x304000 ≤ off ∧ off < 0x304040 then .pba
  else .nothing

/-- The shape of an access is one the location takes (R334). -/
def bar2Shape (off size : Nat) : Bar2Loc → Bool
  | .pop _ => size == 16 && off % 16 == 0
  | .rpqStat _ => bar0Shape off size
  | .shadow _ _ => bar0Shape off size
  | .msix _ => bar0Shape off size
  | .pba => bar0Shape off size
  | .nothing => true
  | .rpqCtrl _ => shape4 off size
  | .mbxCtrl => shape4 off size
  | .mbxStat => shape4 off size
  | .mbxReq _ => shape4 off size
  | .mbxRsp _ => shape4 off size

/-- Locations that answer in Coast and Freewheel (R355). -/
def bar2Awake : Bar2Loc → Bool
  | .pop _ => false
  | .rpqCtrl _ => false
  | .rpqStat _ => false
  | .shadow _ _ => false
  | .nothing => false
  | .mbxCtrl => true
  | .mbxStat => true
  | .mbxReq _ => true
  | .mbxRsp _ => true
  | .msix _ => true
  | .pba => true

/-- A write of `RPQ_CTRL_q`: above 1,024 it is discarded whole (Table 15.3). -/
def State.rpqCtrlWrite (s : State) (q : Nat) (v : BitVec 32) : State :=
  let s := s.noteRsvd (v.extractLsb' 11 20 != 0)
  let level := v.extractLsb' 0 11
  if 1024 < level.toNat then s
  else
    let s := s.modRpq q fun x => { x with level }
    if v.getLsbD 31 then s.rpqFlush q else s

/-- A write into `SVC_MBX_REQ_i`: refused while BUSY is set (R330). -/
def State.mbxReqWrite (s : State) (i : Nat) (v : BitVec 32) : State :=
  s.modSvc fun x => if x.busy then { x with refused := true } else { x with req := x.req.set zero32 i v }

/-- A write of `SVC_MBX_STAT` (Table 17.8). -/
def State.mbxStatWrite (s : State) (v : BitVec 32) : State :=
  (s.noteRsvd (v.extractLsb' 14 18 != 0)).modSvc fun x => { x with
    rspReady := x.rspReady && !v.getLsbD 1, refused := x.refused && !v.getLsbD 2 }

/-- An MSI-X table entry as 128 bits: address, data, and the vector control's mask bit (PCIe; log 40). -/
def MsixEnt.image (e : MsixEnt) : BitVec 128 :=
  (0 : BitVec 31) ++ BitVec.ofBool e.mask ++ e.data ++ e.addr
def msixOf (v : BitVec 128) : MsixEnt :=
  { addr := v.extractLsb' 0 64 &&& 0xFFFFFFFFFFFFFFFC, data := v.extractLsb' 64 32, mask := v.getLsbD 96 }

/-- Replace `size` bytes of a 128-bit image from byte `at_`. -/
def putBytes (old : BitVec 128) (at_ size : Nat) (v : Word) : BitVec 128 :=
  let m : BitVec 128 := BitVec.ofNat 128 ((2 ^ (8 * size) - 1) * 2 ^ (8 * at_))
  (old &&& ~~~m) ||| (((v.setWidth 128) <<< (8 * at_)) &&& m)

/-- A write into the MSI-X table; what a mask held may now go out (R290). -/
def State.msixTableWrite (s : State) (vec at_ size : Nat) (v : Word) : State :=
  (s.modHfn fun h => { h with
    msix := h.msix.set MsixEnt.dflt vec (msixOf (putBytes (h.vector vec).image at_ size v)) }).msixRelease

/-- The effect of a BAR2 write of an allowed shape. -/
def State.bar2Store (s : State) (off size : Nat) (v : Word) : Bar2Loc → State
  | .pop _ => s
  | .rpqCtrl q => s.rpqCtrlWrite q (v.setWidth 32)
  | .rpqStat _ => s.noteRsvd ((slotIn off size v &&& accMask off size &&& 0xF000) != 0)
  | .mbxCtrl =>
    let s := s.noteRsvd (v.extractLsb' 1 31 != 0)
    if v.getLsbD 0 && s.islandUp then s.mbxGo else s
  | .mbxStat => s.mbxStatWrite (v.setWidth 32)
  | .mbxReq i => s.mbxReqWrite i (v.setWidth 32)
  | .mbxRsp _ => s
  | .shadow _ _ => s.noteRsvd ((slotIn off size v &&& accMask off size &&& 0xFFFF000000000000) != 0)
  | .msix vec => s.msixTableWrite vec (off % 16) size v
  | .pba => s
  | .nothing => s.undefAccess

/-- A host BAR2 write: shape, R355, then the location (R334, R338). -/
def State.bar2Write (s : State) (off size : Nat) (v : Word) : State :=
  let l := bar2Loc off
  let asleep := s.pwr.state != 0 && !(bar2Awake l)
  if bar2Shape off size l = false then (s.gatedAccess asleep).badAccess
  else if asleep then s.gatedAccess true
  else s.bar2Store off size v l

/-- The word of the answer buffer at index `i` (Table 17.9). -/
def Svc.rspWord (v : Svc) (i : Nat) : Nat := leNat ((v.rsp.drop (4 * i)).take 4)

/-- The image of `SVC_MBX_STAT` (Table 17.8). -/
def Svc.mbxStat (v : Svc) : Nat :=
  bit01 v.busy 0 + bit01 v.rspReady 1 + bit01 v.refused 2 + 2 ^ 3 * v.rsp.length

/-- The pending-bit array from vector 64k on (PCIe). -/
def Hfn.pbaWord (h : Hfn) (k : Nat) : Nat := bitsIf 64 fun b => h.pba.get noBool (64 * k + b)

/-- The value of a 4-byte or 8-byte BAR2 slot (R303, R311, R330, R338). The user shadow page reads zero while HOST_USER
is clear. -/
def State.bar2Image (s : State) (off : Nat) : Bar2Loc → Nat
  | .pop _ => 0
  | .rpqCtrl q => (s.rpqOf q).ctrl
  | .rpqStat q => (s.rpqOf q).stat
  | .mbxCtrl => 0
  | .mbxStat => s.svc.mbxStat
  | .mbxReq i => (s.svc.req.get zero32 i).toNat
  | .mbxRsp i => s.svc.rspWord i
  | .shadow user c => if user && !s.pmc.hostUser then 0 else (s.pmc.shadow.get zero48 c).toNat
  | .msix vec => (s.hfn.vector vec).image.toNat / 2 ^ (64 * (off % 16 / 8)) % 2 ^ 64
  | .pba => s.hfn.pbaWord ((off - 0x304000) / 8)
  | .nothing => 0

/-- A read of `RPQ_STAT_q` clears the counts among the bits returned (Table 15.4, R334). -/
def Rpq.readClear (x : Rpq) (m : Word) : Rpq :=
  { x with
    drops := if m.getLsbD 32 then 0 else x.drops, flushes := if m.getLsbD 48 then 0 else x.flushes
    badReads := if m.getLsbD 56 then 0 else x.badReads }

/-- The effect of a BAR2 read of an allowed shape, and its data. -/
def State.bar2Load (s : State) (off size : Nat) (l : Bar2Loc) : State × BitVec 128 :=
  let v : BitVec 128 := (match l with
    | .rpqCtrl _ | .mbxCtrl | .mbxStat | .mbxReq _ | .mbxRsp _ => BitVec.ofNat 64 (s.bar2Image off l)
    | _ => slotOut off size (BitVec.ofNat 64 (s.bar2Image off l))).setWidth 128
  match l with
  | .pop q => s.rpqPop q
  | .rpqStat q => (s.modRpq q fun x => x.readClear (accMask off size), v)
  | .nothing => (s.undefAccess, 0)
  | _ => (s, v)

/-- A read of a shape that the location does not take counts in `HFN_STAT` (R334), a bad read of a queue that is awake in
`RPQ_STAT_q` too (R299). -/
def State.bar2Bad (s : State) (asleep : Bool) : Bar2Loc → State
  | .pop q => (if asleep then s
      else s.modRpq q fun x => { x with badReads := if x.badReads = 0xFF then 0xFF else x.badReads + 1 }).badAccess
  | _ => s.badAccess

/-- A host BAR2 read: shape, R355, then the location (R299, R311, R334, R338). -/
def State.bar2Read (s : State) (off size : Nat) : State × BitVec 128 :=
  let l := bar2Loc off
  let asleep := s.pwr.state != 0 && !(bar2Awake l)
  if bar2Shape off size l = false then ((s.gatedAccess asleep).bar2Bad asleep l, 0)
  else if asleep then (s.gatedAccess true, 0)
  else s.bar2Load off size l

/-! Configuration space (Table 18.1; its offsets are PRESUMED, log 40) -/

/-- The Type 0 header: identifiers, command and status, class code and revision, BARs, subsystem, capability pointer. -/
def State.cfgHeader (s : State) (d : Nat) : Nat :=
  if d = 0x00 then s.straps.hfnVid.toNat + 2 ^ 16 * s.straps.hfnDid.toNat
  else if d = 0x04 then bit01 s.hfn.bme 2 + 2 ^ 20
  else if d = 0x08 then 0x08800000 + Config.siliconRev.toNat % 256
  else if d = 0x10 then s.hfn.bar0.toNat % 2 ^ 32 + 4
  else if d = 0x14 then s.hfn.bar0.toNat / 2 ^ 32
  else if d = 0x18 then s.hfn.bar2.toNat % 2 ^ 32 + 4
  else if d = 0x1C then s.hfn.bar2.toNat / 2 ^ 32
  else if d = 0x2C then s.straps.hfnSvid.toNat + 2 ^ 16 * s.straps.hfnSsid.toNat
  else if d = 0x34 then 0x40
  else 0

/-- The capabilities: Power Management (No_Soft_Reset set, no PME), PCI Express (endpoint, payloads of 256 bytes, 8-bit tags,
function-level reset, completion-timeout range B), MSI-X (Table Size 511). -/
def Hfn.cfgCaps (h : Hfn) (d : Nat) : Nat :=
  if d = 0x40 then 0x00035001
  else if d = 0x44 then (if h.d3hot then 3 else 0) + 8
  else if d = 0x50 then 0x00029010
  else if d = 0x54 then 0x10008021
  else if d = 0x58 then 2 ^ 12 * h.mrrs.toNat
  else if d = 0x74 then 0x2
  else if d = 0x78 then h.ctoVal.toNat
  else if d = 0x90 then 0x01FF0011 + bit01 h.msixEn 31 + bit01 h.msixMask 30
  else if d = 0x94 then 0x300002
  else if d = 0x98 then 0x304002
  else 0

/-- The extended capabilities: AER and Device Serial Number. -/
def State.cfgExt (s : State) (d : Nat) : Nat :=
  if d = 0x100 then 0x14820001
  else if d = 0x104 then s.hfn.aer.toNat
  else if d = 0x148 then 0x00010003
  else if d = 0x14C then s.straps.serial.toNat % 2 ^ 32
  else if d = 0x150 then s.straps.serial.toNat / 2 ^ 32 % 2 ^ 32
  else 0

/-- A dword of configuration space (Table 18.1). -/
def State.cfgImage (s : State) (d : Nat) : BitVec 32 :=
  BitVec.ofNat 32 (if d < 0x40 then s.cfgHeader d else if d < 0x100 then s.hfn.cfgCaps d else s.cfgExt d)

/-- A write of the low or the high half of a BAR whose low half has the writable bits `mask`. -/
def barWrite (old : Word) (high : Bool) (mask v : BitVec 32) : Word :=
  if high then v ++ old.extractLsb' 0 32 else old.extractLsb' 32 32 ++ (v &&& mask)

/-- A write of a configuration dword: `new` after the write, `b` the written bits alone. -/
def State.cfgStore (s : State) (d : Nat) (new b : BitVec 32) : State :=
  if d = 0x04 then (if new.getLsbD 2 then s.bmeSet else s.bmeClear)
  else if d = 0x10 ∨ d = 0x14 then s.modHfn fun h => { h with bar0 := barWrite h.bar0 (d == 0x14) 0xF0000000 new }
  else if d = 0x18 ∨ d = 0x1C then s.modHfn fun h => { h with bar2 := barWrite h.bar2 (d == 0x1C) 0xFC000000 new }
  else if d = 0x44 then
    if new.extractLsb' 0 2 = 3 then s.modHfn fun h => { h with d3hot := true }
    else if new.extractLsb' 0 2 = 0 then s.hfnToD0 else s
  else if d = 0x58 then
    if b.getLsbD 15 then s.hostReset else s.modHfn fun h => { h with mrrs := new.extractLsb' 12 3 }
  else if d = 0x78 then s.modHfn fun h => { h with ctoVal := new.extractLsb' 0 4 }
  else if d = 0x90 then
    (s.modHfn fun h => { h with msixEn := new.getLsbD 31, msixMask := new.getLsbD 30 }).msixRelease
  else if d = 0x104 then s.modHfn fun h => { h with aer := h.aer &&& ~~~b }
  else s

/-- A configuration write of 1, 2 or 4 bytes within a dword. -/
def State.cfgWrite (s : State) (off size : Nat) (v : Word) : State :=
  let d := off / 4 * 4
  if (size = 1 ∨ size = 2 ∨ size = 4) ∧ off % 4 + size ≤ 4 then
    let m : BitVec 32 := BitVec.ofNat 32 ((2 ^ (8 * size) - 1) * 2 ^ (8 * (off % 4)))
    let b := ((v.setWidth 32) <<< (8 * (off % 4))) &&& m
    s.cfgStore d ((s.cfgImage d &&& ~~~m) ||| b) b
  else s

/-! REGISTER_WRITE -/

/-- AER status bit: Poisoned TLP Received (R334; PRESUMED PCIe, log 40). -/
def aerPoisoned : BitVec 32 := 0x1000

/-- The function answers a host read (R333). -/
def State.hostAnswer (s : State) (v : BitVec 128) : State :=
  s.modHfn fun h => { h with readData := v, up := h.up ++ [.completion v] }

/-- A configuration request: a write, or a read of one dword's bytes; before the function takes them it answers with Request
Retry Status (R346, R398). -/
def State.cfgReq (s : State) (off size : Nat) (wr : Option Word) : State :=
  if s.cfgTakes then
    match wr with
    | some v => s.cfgWrite off size v
    | none => s.hostAnswer (((s.cfgImage (off / 4 * 4)).setWidth 128) >>> (8 * (off % 4)))
  else if s.rst.released && !s.hfn.inReset then s.modHfn fun h => { h with up := h.up ++ [.retry] }
  else s

/-- AER status bit: Unsupported Request Error (PRESUMED PCIe, log 40). -/
def aerUnsupported : BitVec 32 := 0x100000

/-- A memory request that the function does not take: in D3hot it is answered Unsupported Request, a read by its completion, a
write, which has none, through AER (R332). -/
def State.notTaken (s : State) (write : Bool) : State :=
  if !(s.rst.released && s.rst.phase != 0 && !s.hfn.inReset && s.hfn.d3hot) then s
  else if write then s.modHfn fun h => { h with aer := h.aer ||| aerUnsupported }
  else s.modHfn fun h => { h with up := h.up ++ [.unsupported] }

/-- Finish one host request; none while HOLD makes it wait (R333 to R338, R355). A poisoned write is discarded and
reported (R334). -/
def State.hostDo (s : State) (q : HostReq) : Option State :=
  match q.bar, q.wr with
  | .config, _ => some (s.cfgReq q.off q.size q.wr)
  | .bar0, some v =>
    if !s.hfnTakes then some (s.notTaken true)
    else if q.poisoned then some (s.modHfn fun h => { h with aer := h.aer ||| aerPoisoned })
    else s.bar0Write q.off q.size v
  | .bar2, some v =>
    some (if !s.hfnTakes then s.notTaken true
      else if q.poisoned then s.modHfn fun h => { h with aer := h.aer ||| aerPoisoned }
      else s.bar2Write q.off q.size v)
  | .bar0, none =>
    if !s.hfnTakes then some (s.notTaken false)
    else (s.bar0Read q.off q.size).map fun r => r.1.hostAnswer (r.2.setWidth 128)
  | .bar2, none =>
    some (if !s.hfnTakes then s.notTaken false
      else match s.bar2Read q.off q.size with
        | (t, v) => t.hostAnswer v)

/-- Take a host request: it waits behind the ones that wait, or for a HOLD (R333, R336). -/
def State.hostReq (s : State) (q : HostReq) : State :=
  let wait := s.modHfn fun h => { h with waits := h.waits ++ [q] }
  if s.hfn.waits.isEmpty then (s.hostDo q).getD wait else wait

/-- Go on with the requests that wait, in their order, as far as HOLD allows. -/
def State.hostResume (s : State) : State :=
  s.hfn.waits.foldl State.hostReq (s.modHfn fun h => { h with waits := [] })

/-- An access of the running steward to a block register; its outputs stop at a lockstep mismatch (R250). -/
def State.stewardAccess (s : State) (off size : Nat) (wr : Option Word) : State :=
  if !s.stewardRuns || !(bar0Shape off size) then s
  else match wr with
    | some v => (s.bar0Store .steward off size v).getD s
    | none =>
      match s.bar0Load off size with
      | some (t, v) => t.modStw fun w => { w with readData := v }
      | none => s

/-- REGISTER_WRITE: a host or steward access to a register, a read where it brings no value (R5, R6, R333 to R338,
R355; log 4); the running steward reaches block registers past the function's gates. -/
def execRegisterWrite (who : Writer) (bar : Bar) (off size : Nat) (wr : Option Word) (poisoned : Bool) (s : State) :
    Out :=
  .next (match who with
    | .host => s.hostReq { bar, off, size, wr, poisoned }
    | .steward => if bar = .bar0 then s.stewardAccess off size wr else s)

/-- LSLICE_WINDOW_ACCESS: a host read or write of logical slice `sl`'s window; it waits while HOLD is set (R336). -/
def execLsliceWindowAccess (sl : Fin 128) (off : BitVec 16) (size : Nat) (wr : Option Word) (s : State) : Out :=
  .next (s.hostReq { bar := .bar0, off := 0x2000000 + 0x10000 * sl.val + off.toNat, size, wr })

/-- RPQ_POP: a host read in the page of `RPQ_POP_q`: 16 bytes at its start pop a unit, any other read there is a bad
read (R299, R300). -/
def execRpqPop (q : Fin 32) (off : Fin 16) (size : Nat) (s : State) : Out :=
  .next (s.hostReq { bar := .bar2, off := 0x1000 * q.val + off.val, size, wr := none })

/-- CMD_TAIL_WRITE: the host writes `HFN_CMD_TAIL` (R333, R342). -/
def execCmdTailWrite (v : BitVec 32) (s : State) : Out :=
  .next (s.hostReq { bar := .bar0, off := 0x60050, size := 4, wr := some (v.setWidth 64) })

/-- CMD_ABORT_CLEAR: the host writes 1 to `HFN_CMD_STAT.ABORTED` (R333, R343). -/
def execCmdAbortClear (s : State) : Out := .next (s.hostReq { bar := .bar0, off := 0x60060, size := 4, wr := some 1 })

/-- BUS_MASTER_DISABLE, BUS_MASTER_ENABLE, HFN_D3HOT, HFN_D0: configuration writes of Command and PMCSR (R332, R333, R345;
their offsets are PRESUMED, log 40). -/
def execBusMasterDisable (s : State) : Out := .next (s.hostReq { bar := .config, off := 0x04, size := 1, wr := some 0 })
def execBusMasterEnable (s : State) : Out := .next (s.hostReq { bar := .config, off := 0x04, size := 1, wr := some 4 })
def execHfnD3hot (s : State) : Out := .next (s.hostReq { bar := .config, off := 0x44, size := 1, wr := some 3 })
def execHfnD0 (s : State) : Out := .next (s.hostReq { bar := .config, off := 0x44, size := 1, wr := some 0 })

/-- MBX_GO: the host writes GO; the message it takes up is handled by the row of its type (R330 step 2). -/
def execMbxGo (s : State) : Out :=
  .next (s.hostReq { bar := .bar2, off := 0x100000, size := 4, wr := some 1 })

/-! Descriptors (R341 to R343) -/

/-- Fields of a descriptor (R341). -/
def descOff (d : BitVec 128) : Nat := (d.extractLsb' 0 32).toNat
def descSize (d : BitVec 128) : Nat := (d.extractLsb' 32 8).toNat
def descVal (d : BitVec 128) : Word := d.extractLsb' 64 64

/-- A bad descriptor (R341). -/
def descBad (d : BitVec 128) : Bool :=
  let off := descOff d
  let size := descSize d
  (size != 4 && size != 8) || off % size != 0 || decide (0x10000000 ≤ off)
    || (decide (0x60000 ≤ off) && decide (off < 0x70000)) || d.extractLsb' 40 24 != 0
    || (size == 4 && d.extractLsb' 96 32 != 0)

/-- DESCRIPTOR_APPLY: `d` is the descriptor at HEAD, exposed, whose bytes have arrived. A bad one aborts the fetch (R341 to
R343); under HOLD the command is given again. -/
def execDescriptorApply (d : BitVec 128) (s : State) : Out :=
  .next (
    if s.hfn.inReset || s.hfn.head == s.hfn.tail || !(s.hfn.arrived.any fun r => r.1 == s.hfn.head) then s
    else if descBad d then
      let s := s.modHfn fun h => { h with arrived := [] }
      if s.hfn.cause = 0 then s.hfnAbort 4 else s.abortDone
    else
      match s.bar0Write (descOff d) (descSize d) (descVal d) with
      | none => s
      | some s => (s.modHfn Hfn.advance).abortDone.hfnFetch)

/-! The rows that clear HOLD: host requests that waited for it go on (R30, R336, R373, R374) -/

/-- SMAP_HOLD_CLEAR (R30 step 4). -/
def execSmapHoldClear (s : State) : Out :=
  .next (match s.spare.run with
    | none => s
    | some v => if v.step = 3 ∧ s.stewardRuns = true then (s.evacClear v).hostResume else s)

/-- EVACUATION_ABANDON: not quiescent 60 µs after step 1 began; after eight attempts it is the end (R373). -/
def execEvacuationAbandon (s : State) : Out :=
  .next (match s.spare.run with
    | none => s
    | some v =>
      if v.step ≠ 1 || !s.stewardRuns || decide (s.time < v.since + 60) || s.evacQuiet v then s
      else
        let s := s.evacUndo v
        (if 8 ≤ v.attempts then s.evacGiveUp v else s).hostResume)

/-- The abandoned attempt is kept for the steward to retry (R374). -/
def State.evacKeep (s : State) (v : Evac) : State :=
  s.modSpare fun x => { x with abandoned := some { v with since := s.time } }

/-- REWRITE_TIMER_EXPIRY: at 115 µs the steward port's hardware abandons the attempt, or finishes it (R374). -/
def execRewriteTimerExpiry (s : State) : Out :=
  .next (match s.spare.run with
    | none => s
    | some v =>
      if v.step = 0 ∨ 4 ≤ v.step ∨ s.time < v.since + 115 then s
      else if v.step = 3 then ((s.evacClear v).evacDone v).hostResume
      else ((((s.evacUndo v).discardTarget v.target).evacGiveUp v).evacKeep v).hostResume)

end Sys2Proof.Machine
end

