-- ==== Sys2Proof/Machine/Dispatch.lean ====
section
/-! DEFINITION. The effect of every command: one arm per constructor, one call of its meaning. -/

namespace Sys2Proof.Machine

def exec (i : Instr) (s : State) : Host.Outcome State Fault Refusal :=
  match i with
  | .flitIngress n m => Sys2Proof.Machine.execFlitIngress n m s
  | .flitInject st c => Sys2Proof.Machine.execFlitInject st c s
  | .linkFlitReceive l x => Sys2Proof.Machine.execLinkFlitReceive l x s
  | .replayRequest l seq => Sys2Proof.Machine.execReplayRequest l seq s
  | .linkAcknowledge l seq => Sys2Proof.Machine.execLinkAcknowledge l seq s
  | .replayAckTimeout l => Sys2Proof.Machine.execReplayAckTimeout l s
  | .segmentOutOfService r k => Sys2Proof.Machine.execSegmentOutOfService r k s
  | .segmentOutDone r k => Sys2Proof.Machine.execSegmentOutDone r k s
  | .segmentOutTimeout r k => Sys2Proof.Machine.execSegmentOutTimeout r k s
  | .flitEject r pos d c => Sys2Proof.Machine.execFlitEject r pos d c s
  | .ringShiftOff r cause => Sys2Proof.Machine.execRingShiftOff r cause s
  | .ringShiftComplete r => Sys2Proof.Machine.execRingShiftComplete r s
  | .ringShiftOverrun r => Sys2Proof.Machine.execRingShiftOverrun r s
  | .crgShiftOffCmd r => Sys2Proof.Machine.execCrgShiftOffCmd r s
  | .crgReturnCmd r => Sys2Proof.Machine.execCrgReturnCmd r s
  | .ringReturnComplete r failed => Sys2Proof.Machine.execRingReturnComplete r failed s
  | .consWindowEnd q f0 f1 cycles => Sys2Proof.Machine.execConsWindowEnd q f0 f1 cycles s
  | .consEntry q => Sys2Proof.Machine.execConsEntry q s
  | .consDrainTimeout q => Sys2Proof.Machine.execConsDrainTimeout q s
  | .consGated q => Sys2Proof.Machine.execConsGated q s
  | .consWake q => Sys2Proof.Machine.execConsWake q s
  | .consWakeDone q => Sys2Proof.Machine.execConsWakeDone q s
  | .dieLinkControlSlot n init counts => Sys2Proof.Machine.execDieLinkControlSlot n init counts s
  | .linkActiveEntry n => Sys2Proof.Machine.execLinkActiveEntry n s
  | .linkActiveExit n => Sys2Proof.Machine.execLinkActiveExit n s
  | .linkActiveTimeout n => Sys2Proof.Machine.execLinkActiveTimeout n s
  | .linkDown n => Sys2Proof.Machine.execLinkDown n s
  | .deadAgentForward n m => Sys2Proof.Machine.execDeadAgentForward n m s
  | .readShared p m => Sys2Proof.Machine.execReadShared p m s
  | .readOwn p m => Sys2Proof.Machine.execReadOwn p m s
  | .upgrade p m => Sys2Proof.Machine.execUpgrade p m s
  | .readNc p m => Sys2Proof.Machine.execReadNc p m s
  | .writeNcFull p m => Sys2Proof.Machine.execWriteNcFull p m s
  | .writeNcPartial p m => Sys2Proof.Machine.execWriteNcPartial p m s
  | .atomicReq p m => Sys2Proof.Machine.execAtomicReq p m s
  | .farOp p m => Sys2Proof.Machine.execFarOp p m s
  | .writeback p m => Sys2Proof.Machine.execWriteback p m s
  | .evictClean p m => Sys2Proof.Machine.execEvictClean p m s
  | .invAck p m => Sys2Proof.Machine.execInvAck p m s
  | .fwdDone p m => Sys2Proof.Machine.execFwdDone p m s
  | .copyBack p m => Sys2Proof.Machine.execCopyBack p m s
  | .recallData p m => Sys2Proof.Machine.execRecallData p m s
  | .memData p m => Sys2Proof.Machine.execMemData p m s
  | .memAck p m => Sys2Proof.Machine.execMemAck p m s
  | .creditRequest p m => Sys2Proof.Machine.execCreditRequest p m s
  | .allocWaitRelease p t => Sys2Proof.Machine.execAllocWaitRelease p t s
  | .breakaway p t => Sys2Proof.Machine.execBreakaway p t s
  | .trackerWatchdogExpiry p t => Sys2Proof.Machine.execTrackerWatchdogExpiry p t s
  | .missRegisterOpen p => Sys2Proof.Machine.execMissRegisterOpen p s
  | .missRegisterSend p => Sys2Proof.Machine.execMissRegisterSend p s
  | .evictionWriteSend p a => Sys2Proof.Machine.execEvictionWriteSend p a s
  | .hlcMaintClean p m => Sys2Proof.Machine.execHlcMaintClean p m s
  | .hlcMaintInvalidate p m => Sys2Proof.Machine.execHlcMaintInvalidate p m s
  | .hlcMaintCleanInvalidate p m => Sys2Proof.Machine.execHlcMaintCleanInvalidate p m s
  | .hlcMaintResume p k => Sys2Proof.Machine.execHlcMaintResume p k s
  | .hlcWalkerVisit p => Sys2Proof.Machine.execHlcWalkerVisit p s
  | .svcReqRegisterRead p m => Sys2Proof.Machine.execSvcReqRegisterRead p m s
  | .svcReqRegisterWrite p m => Sys2Proof.Machine.execSvcReqRegisterWrite p m s
  | .svcReqDirectoryCopy p m => Sys2Proof.Machine.execSvcReqDirectoryCopy p m s
  | .svcReqLineCopy p m => Sys2Proof.Machine.execSvcReqLineCopy p m s
  | .stewardRelay m => Sys2Proof.Machine.execStewardRelay m s
  | .tlbInv m => Sys2Proof.Machine.execTlbInv m s
  | .tlbShoot p m => Sys2Proof.Machine.execTlbShoot p m s
  | .tlbShootAck m => Sys2Proof.Machine.execTlbShootAck m s
  | .tlbCollectionTimeout k => Sys2Proof.Machine.execTlbCollectionTimeout k s
  | .farServiceStart p t => Sys2Proof.Machine.execFarServiceStart p t s
  | .atomicAluExecute p => Sys2Proof.Machine.execAtomicAluExecute p s
  | .farProgramDispatch p => Sys2Proof.Machine.execFarProgramDispatch p s
  | .farProgramFault p code => Sys2Proof.Machine.execFarProgramFault p code s
  | .farWritebackDone p => Sys2Proof.Machine.execFarWritebackDone p s
  | .slotRecopy p k => Sys2Proof.Machine.execSlotRecopy p k s
  | .predictorRecentTick p => Sys2Proof.Machine.execPredictorRecentTick p s
  | .farPredClr p => Sys2Proof.Machine.execFarPredClr p s
  | .farLoadGo src => Sys2Proof.Machine.execFarLoadGo src s
  | .farLoadWrite => Sys2Proof.Machine.execFarLoadWrite s
  | .farLoadDone => Sys2Proof.Machine.execFarLoadDone s
  | .engineFarstoreCopy e => Sys2Proof.Machine.execEngineFarstoreCopy e s
  | .add e w => Sys2Proof.Machine.execAdd e w s
  | .sub e w => Sys2Proof.Machine.execSub e w s
  | .and e w => Sys2Proof.Machine.execAnd e w s
  | .or e w => Sys2Proof.Machine.execOr e w s
  | .xor e w => Sys2Proof.Machine.execXor e w s
  | .sll e w => Sys2Proof.Machine.execSll e w s
  | .srl e w => Sys2Proof.Machine.execSrl e w s
  | .sra e w => Sys2Proof.Machine.execSra e w s
  | .mul e w => Sys2Proof.Machine.execMul e w s
  | .slt e w => Sys2Proof.Machine.execSlt e w s
  | .sltu e w => Sys2Proof.Machine.execSltu e w s
  | .addi e w => Sys2Proof.Machine.execAddi e w s
  | .andi e w => Sys2Proof.Machine.execAndi e w s
  | .ori e w => Sys2Proof.Machine.execOri e w s
  | .xori e w => Sys2Proof.Machine.execXori e w s
  | .slli e w => Sys2Proof.Machine.execSlli e w s
  | .srli e w => Sys2Proof.Machine.execSrli e w s
  | .srai e w => Sys2Proof.Machine.execSrai e w s
  | .slti e w => Sys2Proof.Machine.execSlti e w s
  | .lui e w => Sys2Proof.Machine.execLui e w s
  | .beq e w => Sys2Proof.Machine.execBeq e w s
  | .bne e w => Sys2Proof.Machine.execBne e w s
  | .blt e w => Sys2Proof.Machine.execBlt e w s
  | .bge e w => Sys2Proof.Machine.execBge e w s
  | .bltu e w => Sys2Proof.Machine.execBltu e w s
  | .bgeu e w => Sys2Proof.Machine.execBgeu e w s
  | .jal e w => Sys2Proof.Machine.execJal e w s
  | .jalr e w => Sys2Proof.Machine.execJalr e w s
  | .lb e w => Sys2Proof.Machine.execLb e w s
  | .lh e w => Sys2Proof.Machine.execLh e w s
  | .lw e w => Sys2Proof.Machine.execLw e w s
  | .ld e w => Sys2Proof.Machine.execLd e w s
  | .sb e w => Sys2Proof.Machine.execSb e w s
  | .sh e w => Sys2Proof.Machine.execSh e w s
  | .sw e w => Sys2Proof.Machine.execSw e w s
  | .sd e w => Sys2Proof.Machine.execSd e w s
  | .lr e w => Sys2Proof.Machine.execLr e w s
  | .sc e w => Sys2Proof.Machine.execSc e w s
  | .lbar e w => Sys2Proof.Machine.execLbar e w s
  | .sbar e w => Sys2Proof.Machine.execSbar e w s
  | .fbar e w => Sys2Proof.Machine.execFbar e w s
  | .wait e w => Sys2Proof.Machine.execWait e w s
  | .iret e w => Sys2Proof.Machine.execIret e w s
  | .syscall e w => Sys2Proof.Machine.execSyscall e w s
  | .tlbi e w => Sys2Proof.Machine.execTlbi e w s
  | .csrr e w => Sys2Proof.Machine.execCsrr e w s
  | .csrw e w => Sys2Proof.Machine.execCsrw e w s
  | .fret e w => Sys2Proof.Machine.execFret e w s
  | .engineHaltReload e => Sys2Proof.Machine.execEngineHaltReload e s
  | .storeBufferSend e a => Sys2Proof.Machine.execStoreBufferSend e a s
  | .engineLoadReturn e m => Sys2Proof.Machine.execEngineLoadReturn e m s
  | .engineStoreComplete e m => Sys2Proof.Machine.execEngineStoreComplete e m s
  | .storeTimeout e txn => Sys2Proof.Machine.execStoreTimeout e txn s
  | .walkReadReturn e m => Sys2Proof.Machine.execWalkReadReturn e m s
  | .tlbiDone e m => Sys2Proof.Machine.execTlbiDone e m s
  | .engWarmRst e => Sys2Proof.Machine.execEngWarmRst e s
  | .engColdRst e => Sys2Proof.Machine.execEngColdRst e s
  | .engQuiesce e => Sys2Proof.Machine.execEngQuiesce e s
  | .engResume e => Sys2Proof.Machine.execEngResume e s
  | .engineQuiesced e => Sys2Proof.Machine.execEngineQuiesced e s
  | .fwCommitAll => Sys2Proof.Machine.execFwCommitAll s
  | .fwCommitRolling => Sys2Proof.Machine.execFwCommitRolling s
  | .engineLoad e readBackOk => Sys2Proof.Machine.execEngineLoad e readBackOk s
  | .stewardLockstepMismatch => Sys2Proof.Machine.execStewardLockstepMismatch s
  | .eventCapture n => Sys2Proof.Machine.execEventCapture n s
  | .windowExpiry g => Sys2Proof.Machine.execWindowExpiry g s
  | .sourceCommit n => Sys2Proof.Machine.execSourceCommit n s
  | .waitWake e => Sys2Proof.Machine.execWaitWake e s
  | .iagHostEoi v => Sys2Proof.Machine.execIagHostEoi v s
  | .iagDoorbell v => Sys2Proof.Machine.execIagDoorbell v s
  | .iagSrcWrite n v => Sys2Proof.Machine.execIagSrcWrite n v s
  | .rpqPop q off size => Sys2Proof.Machine.execRpqPop q off size s
  | .rpqFlush q => Sys2Proof.Machine.execRpqFlush q s
  | .pmcSelWrite c v => Sys2Proof.Machine.execPmcSelWrite c v s
  | .pmcCntWrite c v => Sys2Proof.Machine.execPmcCntWrite c v s
  | .pmcFreeze => Sys2Proof.Machine.execPmcFreeze s
  | .pmcUnfreeze => Sys2Proof.Machine.execPmcUnfreeze s
  | .pmcSnapshot => Sys2Proof.Machine.execPmcSnapshot s
  | .pmcSnapshotDone => Sys2Proof.Machine.execPmcSnapshotDone s
  | .entdaa a => Sys2Proof.Machine.execEntdaa a s
  | .setdasa sa a => Sys2Proof.Machine.execSetdasa sa a s
  | .rstdaa => Sys2Proof.Machine.execRstdaa s
  | .getpid => Sys2Proof.Machine.execGetpid s
  | .getbcr => Sys2Proof.Machine.execGetbcr s
  | .getdcr => Sys2Proof.Machine.execGetdcr s
  | .getstatus => Sys2Proof.Machine.execGetstatus s
  | .enec b => Sys2Proof.Machine.execEnec b s
  | .disec b => Sys2Proof.Machine.execDisec b s
  | .getmwl => Sys2Proof.Machine.execGetmwl s
  | .setmwl v => Sys2Proof.Machine.execSetmwl v s
  | .getmrl => Sys2Proof.Machine.execGetmrl s
  | .setmrl v => Sys2Proof.Machine.execSetmrl v s
  | .mctpPacket k => Sys2Proof.Machine.execMctpPacket k s
  | .setEndpointId src tag op eid => Sys2Proof.Machine.execSetEndpointId src tag op eid s
  | .getEndpointId src tag => Sys2Proof.Machine.execGetEndpointId src tag s
  | .getMctpVersionSupport src tag ty => Sys2Proof.Machine.execGetMctpVersionSupport src tag ty s
  | .getMessageTypeSupport src tag => Sys2Proof.Machine.execGetMessageTypeSupport src tag s
  | .getVendorDefinedMsgSupport src tag sel => Sys2Proof.Machine.execGetVendorDefinedMsgSupport src tag sel s
  | .fgOpen rt b => Sys2Proof.Machine.execFgOpen rt b s
  | .fgClose rt b => Sys2Proof.Machine.execFgClose rt b s
  | .fgRead rt b => Sys2Proof.Machine.execFgRead rt b s
  | .fgWrite rt b => Sys2Proof.Machine.execFgWrite rt b s
  | .fgChallenge rt b => Sys2Proof.Machine.execFgChallenge rt b s
  | .fgResponse rt b => Sys2Proof.Machine.execFgResponse rt b s
  | .fgResync rt b => Sys2Proof.Machine.execFgResync rt b s
  | .fgDrop rt b => Sys2Proof.Machine.execFgDrop rt b s
  | .sessionIdleTimeout n => Sys2Proof.Machine.execSessionIdleTimeout n s
  | .lockoutExpiry => Sys2Proof.Machine.execLockoutExpiry s
  | .mbxGo => Sys2Proof.Machine.execMbxGo s
  | .accumulatorPoll => Sys2Proof.Machine.execAccumulatorPoll s
  | .restoreWindowCloseCmd => Sys2Proof.Machine.execRestoreWindowCloseCmd s
  | .restoreWindowTimeout => Sys2Proof.Machine.execRestoreWindowTimeout s
  | .ownerKeyWrite rt key => Sys2Proof.Machine.execOwnerKeyWrite rt key s
  | .hlcDictCleanAll => Sys2Proof.Machine.execHlcDictCleanAll s
  | .hlcDictInvalidateAll => Sys2Proof.Machine.execHlcDictInvalidateAll s
  | .hlcDictCleanInvalidateAll => Sys2Proof.Machine.execHlcDictCleanInvalidateAll s
  | .hlcDisable p => Sys2Proof.Machine.execHlcDisable p s
  | .hlcEnable p => Sys2Proof.Machine.execHlcEnable p s
  | .hlcDrainDone p => Sys2Proof.Machine.execHlcDrainDone p s
  | .hlcInit p => Sys2Proof.Machine.execHlcInit p s
  | .hlcWayDisable p w => Sys2Proof.Machine.execHlcWayDisable p w s
  | .hlcWayEnable p w => Sys2Proof.Machine.execHlcWayEnable p w s
  | .hlcWayFlushDone p w => Sys2Proof.Machine.execHlcWayFlushDone p w s
  | .hlcLeakDecay p w => Sys2Proof.Machine.execHlcLeakDecay p w s
  | .sflInit p => Sys2Proof.Machine.execSflInit p s
  | .sflPassStart p => Sys2Proof.Machine.execSflPassStart p s
  | .sflPatrolCheck p => Sys2Proof.Machine.execSflPatrolCheck p s
  | .smapCopyCompare => Sys2Proof.Machine.execSmapCopyCompare s
  | .spareEvacuateCmd src => Sys2Proof.Machine.execSpareEvacuateCmd src s
  | .autoSpareTrigger p => Sys2Proof.Machine.execAutoSpareTrigger p s
  | .spareReady p => Sys2Proof.Machine.execSpareReady p s
  | .smapHoldSet => Sys2Proof.Machine.execSmapHoldSet s
  | .smapStateCopy => Sys2Proof.Machine.execSmapStateCopy s
  | .smapEntryWrite => Sys2Proof.Machine.execSmapEntryWrite s
  | .smapHoldClear => Sys2Proof.Machine.execSmapHoldClear s
  | .smapGenIncrement => Sys2Proof.Machine.execSmapGenIncrement s
  | .evacuationAbandon => Sys2Proof.Machine.execEvacuationAbandon s
  | .evacuationRetry => Sys2Proof.Machine.execEvacuationRetry s
  | .rewriteTimerExpiry => Sys2Proof.Machine.execRewriteTimerExpiry s
  | .coastEntry => Sys2Proof.Machine.execCoastEntry s
  | .coastExit => Sys2Proof.Machine.execCoastExit s
  | .freewheelEntry => Sys2Proof.Machine.execFreewheelEntry s
  | .freewheelExit => Sys2Proof.Machine.execFreewheelExit s
  | .powerDrainDone => Sys2Proof.Machine.execPowerDrainDone s
  | .powerDrainTimeout => Sys2Proof.Machine.execPowerDrainTimeout s
  | .bbOk => Sys2Proof.Machine.execBbOk s
  | .pwrStateAck => Sys2Proof.Machine.execPwrStateAck s
  | .powerHandshakeTimeout => Sys2Proof.Machine.execPowerHandshakeTimeout s
  | .railFault b => Sys2Proof.Machine.execRailFault b s
  | .vcoreCodeChange c => Sys2Proof.Machine.execVcoreCodeChange c s
  | .edgeRelease d => Sys2Proof.Machine.execEdgeRelease d s
  | .errorRecord => Sys2Proof.Machine.execErrorRecord s
  | .logSpillWrite => Sys2Proof.Machine.execLogSpillWrite s
  | .spillRdWrite v => Sys2Proof.Machine.execSpillRdWrite v s
  | .spillCtrlWrite v => Sys2Proof.Machine.execSpillCtrlWrite v s
  | .cmdTailWrite v => Sys2Proof.Machine.execCmdTailWrite v s
  | .descriptorApply d => Sys2Proof.Machine.execDescriptorApply d s
  | .cmdAbortClear => Sys2Proof.Machine.execCmdAbortClear s
  | .hfnCompletionTimeout tag => Sys2Proof.Machine.execHfnCompletionTimeout tag s
  | .hfnTagQuarantineEnd tag => Sys2Proof.Machine.execHfnTagQuarantineEnd tag s
  | .hfnCompletion tag st => Sys2Proof.Machine.execHfnCompletion tag st s
  | .busMasterDisable => Sys2Proof.Machine.execBusMasterDisable s
  | .hostReset => Sys2Proof.Machine.execHostReset s
  | .hfnD3hot => Sys2Proof.Machine.execHfnD3hot s
  | .hfnD0 => Sys2Proof.Machine.execHfnD0 s
  | .lsliceWindowAccess sl off size wr => Sys2Proof.Machine.execLsliceWindowAccess sl off size wr s
  | .registerWrite who bar off size v poisoned => Sys2Proof.Machine.execRegisterWrite who bar off size v poisoned s
  | .memRd m q => Sys2Proof.Machine.execMemRd m q s
  | .memWr m q => Sys2Proof.Machine.execMemWr m q s
  | .memReadResponse m tag data pois err => Sys2Proof.Machine.execMemReadResponse m tag data pois err s
  | .memWriteResponse m tag err => Sys2Proof.Machine.execMemWriteResponse m tag err s
  | .memoryCommandTimeout m tag => Sys2Proof.Machine.execMemoryCommandTimeout m tag s
  | .memTagQuarantineEnd m tag => Sys2Proof.Machine.execMemTagQuarantineEnd m tag s
  | .memReadyFall m => Sys2Proof.Machine.execMemReadyFall m s
  | .memReadyRise m => Sys2Proof.Machine.execMemReadyRise m s
  | .probeStart p => Sys2Proof.Machine.execProbeStart p s
  | .probeStep p m => Sys2Proof.Machine.execProbeStep p m s
  | .probeTimeout p => Sys2Proof.Machine.execProbeTimeout p s
  | .checkerSelfTest c flagsGood flagsBad => Sys2Proof.Machine.execCheckerSelfTest c flagsGood flagsBad s
  | .safKick who => Sys2Proof.Machine.execSafKick who s
  | .stewardWatchdogExpiry => Sys2Proof.Machine.execStewardWatchdogExpiry s
  | .clockLoss k => Sys2Proof.Machine.execClockLoss k s
  | .kickstandEntry => Sys2Proof.Machine.execKickstandEntry s
  | .kickstandWindowEnd => Sys2Proof.Machine.execKickstandWindowEnd s
  | .kickstandSafeAck cleaned => Sys2Proof.Machine.execKickstandSafeAck cleaned s
  | .coldReset => Sys2Proof.Machine.execColdReset s
  | .coldResetRelease => Sys2Proof.Machine.execColdResetRelease s
  | .pllLock => Sys2Proof.Machine.execPllLock s
  | .pllLockTimeout => Sys2Proof.Machine.execPllLockTimeout s
  | .timeBaseTick => Sys2Proof.Machine.execTimeBaseTick s
  | .arraySelfTestDone failed outside => Sys2Proof.Machine.execArraySelfTestDone failed outside s
  | .checkerTestAndClearDone failed => Sys2Proof.Machine.execCheckerTestAndClearDone failed s
  | .ringTrainingDone failed => Sys2Proof.Machine.execRingTrainingDone failed s
  | .stewardImageWrite sub b => Sys2Proof.Machine.execStewardImageWrite sub b s
  | .portUp n => Sys2Proof.Machine.execPortUp n s
  | .portDeadline n => Sys2Proof.Machine.execPortDeadline n s
  | .sliceEnable => Sys2Proof.Machine.execSliceEnable s
  | .coherentReady => Sys2Proof.Machine.execCoherentReady s
  | .clockReturn k => Sys2Proof.Machine.execClockReturn k s
  | .busMasterEnable => Sys2Proof.Machine.execBusMasterEnable s
  | .memCommandTransfer m lane tag => Sys2Proof.Machine.execMemCommandTransfer m lane tag s
  | .counterWrap c => Sys2Proof.Machine.execCounterWrap c s
  | .clockMeasWindowEnd khz => Sys2Proof.Machine.execClockMeasWindowEnd khz s
  | .relayEntryWatchdog host => Sys2Proof.Machine.execRelayEntryWatchdog host s
  | .tapInstruction k => Sys2Proof.Machine.execTapInstruction k s

end Sys2Proof.Machine
end

