-- ==== Sys2Proof/Machine/Tick.lean ====
section
/-! DEFINITION. What one FCLK does when no command waits: cycle and occupancy events of the performance counters
(R305, R306, R308, R314; log 5). -/

namespace Sys2Proof.Machine

/-! Owners (Table 16.1) -/

/-- Rising edges of a clock of nominal frequency in the FCLK after `fclk` of them, from the release of reset (log 5). -/
def edgesIn (khz fclk : Nat) : Nat := (fclk + 1) * khz / 2400000 - fclk * khz / 2400000

/-- Edges of a counter's clock in this FCLK; none while the counter is held (R308). -/
def State.pmcEdges (s : State) (c : Nat) : Nat :=
  if s.pmcHeld c then 0
  else edgesIn (nominalKhz (pmcClock c)) s.fclk

/-! Occupancies (Table 16.6) -/

/-- Occupancies of a slice. -/
def Slice.occupancy (x : Slice) (code : Nat) : Nat :=
  if code = 0x10 then x.used.length
  else if code = 0x11 then x.olt.length
  else if code = 0x12 then (x.olt.map fun e => e.2.queue.length).sum
  else if code = 0x13 then (x.used.filter fun e => e.2.phase == .allocWait).length
  else if code = 0x14 then x.hlc.mshrs.length
  else if code = 0x15 then x.hlc.evbs.length
  else if code = 0x16 then x.sharedFree
  else if code = 0x17 then x.crq.length
  else if code = 0x18 then x.far.queue.length
  else 0

/-- A flit's class is the one QUAL names. -/
def qualHas (q c : Nat) : Bool := q == 7 || q == c

/-- Flits of a stop that the derailleur would put on ring `r` now, of class QUAL. -/
def State.waitingFor (s : State) (r q : Nat) (st : Stop) : Nat :=
  ((s.stop st).outbox.filter fun f => qualHas q f.msg.cls.toNat &&
    (match s.derail st f f.msg.cls.toNat with
     | some h => h.1 == r
     | none => false)).length

/-- Every stop of the block. -/
def allStops : List Stop := (List.finRange 132).map Stop.slice ++ (List.finRange 50).map Stop.port

/-- Full ejection queues of one stop on ring `r`; a queue holds 8 flits (R37). -/
def State.fullAt (s : State) (r : Nat) (st : Stop) : Nat :=
  ((s.stop st).eject.filter fun e => e.1 / 8 == r && decide (8 ≤ e.2.length)).length

/-- Occupancies of a ring, of class QUAL where it applies. -/
def State.ringOccupancy (s : State) (r code q : Nat) : Nat :=
  if code = 0x10 then
    ((s.ring r).transit.map fun e => (e.2.filter fun f => qualHas q f.msg.cls.toNat).length).sum
  else if code = 0x11 then (allStops.map fun st => s.waitingFor r 7 st).sum
  else if code = 0x12 then (allStops.map fun st => s.fullAt r st).sum
  else 0

/-- Occupancies of a port. -/
def State.portOccupancy (s : State) (n code : Nat) : Nat :=
  let x := s.port n
  if code = 0x10 then x.ingress.length + x.held.length + x.ncWait.length + x.mntWait.length
  else if code = 0x11 ∧ 20 ≤ n ∧ n < 32 then ((s.mpt (n - 20)).cmds.filter fun c => !c.wr).length
  else 0

/-- The occupancy that a counter's event names, capped at 4,095. -/
def State.occupancy (s : State) (c code q : Nat) : Nat :=
  min 4095 (
    if c < 1056 then (s.slice (c / 8)).occupancy code
    else if c < 1152 then s.ringOccupancy ((c - 1056) / 16) code q
    else if c < 1552 then s.portOccupancy ((c - 1152) / 8) code
    else if code = 0x10 then s.stw.shoots.length
    else if code = 0x11 then s.stw.relays.length
    else 0)

/-! One cycle -/

/-- What a counter with selector `v` adds in one cycle of its clock, occurrences apart (R306, R314). -/
def State.pmcCycle (s : State) (c : Nat) (v : BitVec 32) : Nat :=
  let code := (v.extractLsb' 0 8).toNat
  let n := s.occupancy c code (v.extractLsb' 21 3).toNat
  if code = 0 then 1
  else if code < 0x10 then 0
  else if v.getLsbD 8 then (if (v.extractLsb' 9 12).toNat < n then 1 else 0)
  else n

/-- Every enabled counter adds its cycles. -/
def State.pmcTick (s : State) : State :=
  if s.pmc.freeze then s
  else s.modPmc fun m => s.pmc.sel.foldl (fun m e =>
    if e.2.getLsbD 24 then
      let amount := s.pmcEdges e.1 * s.pmcCycle e.1 e.2
      if amount = 0 then m else m.add e.1 amount
    else m) m

/-- One FCLK in which no further command comes: slices grant credits, counters add their cycles (R91). None
passes before the PLL locks, or while FCLK is lost (R417, R382). -/
def State.idleCycle (s : State) : State :=
  if !s.fclkRuns then s
  else { s.creditCycles.pmcTick with fclk := s.fclk + 1 }

end Sys2Proof.Machine
end

