-- ==== Sys2Proof/Safety.lean ====
section
/-! DEFINITION. The terms in which statements about the block are made: how a command ends, when a message is a new
request of a session, and the invariants of start-up and of sessions. -/

namespace Sys2Proof.Machine

/-- The command gives a next state of which `P` holds. -/
def Ends (i : Instr) (s : State) (P : State → Prop) : Prop := ∃ t, exec i s = .next t ∧ P t

/-- The command changes nothing. -/
def Idles (i : Instr) (s : State) : Prop := exec i s = .next s

/-- What the start-up registers, the enables and the owner key keep to: PHASE is a phase of Table 21.4, slices are
enabled from slice enable on, `coherent_ready` is high exactly in phase 7, nothing has begun under `kh_rst_n`, and the
owner key has 32 bytes (R328, R398, R399, R402, R403). -/
def State.startOk (s : State) : Prop :=
  s.rst.phase.toNat ≤ 8
    ∧ (s.glb.enabled = true → 6 ≤ s.rst.phase.toNat)
    ∧ (s.glb.coherentReady = true → s.glb.enabled = true)
    ∧ (s.glb.coherentReady = true ↔ s.rst.phase = 7)
    ∧ (s.rst.released = false → s.rst.phase = 0)
    ∧ (∀ k, s.svc.ownerKey = some k → k.length = 32)

/-- A session's level is one of Table 17.4, and the answer it keeps carries a sequence number that is not zero (R321,
R323). -/
def Session.ok (x : Session) : Prop := x.level.toNat ≤ 2 ∧ x.lastTx ≠ 0

/-- Sessions of one owner, and of the service port (R322). -/
def Svc.owned (v : Svc) (o : Option Byte) : Nat := (v.sessions.filter fun x => x.owner == o).length
def Svc.ported (v : Svc) : Nat := (v.sessions.filter fun x => x.owner.isSome).length

/-- At most 4 sessions of the mailbox and of each endpoint, at most 8 on the service port (R322). -/
def State.sessionsOk (s : State) : Prop :=
  (∀ x ∈ s.svc.sessions, x.ok) ∧ (∀ o, s.svc.owned o ≤ 4) ∧ s.svc.ported ≤ 8

/-- A message of type `ty` that a command names and the island takes: it is up, through the mailbox the message stands
behind GO, and the gate passes it (R320, R330). -/
def Taken (s : State) (rt : Route) (b : List Byte) (ty : Byte) : Prop :=
  s.islandUp = true ∧ (rt = .mbx → s.svc.busy = true ∧ s.svc.mbxMsg = b) ∧ fgGate b = 0 ∧ fgType b = ty

/-- A message as a new request of session `x`: it is taken, and its numbers are next (R321). -/
def NewRequest (s : State) (rt : Route) (b : List Byte) (ty : Byte) (x : Session) : Prop :=
  Taken s rt b ty ∧ s.session rt (fgSession b) = some x ∧ s.awaited x.n = false ∧ fgTx b = nextSeq x.lastRx
    ∧ fgTx b ≠ x.lastRx ∧ fgRx b = x.lastTx

/-- The state in which a new request is carried out: the message is taken, and its session is not idle. -/
def State.begun (s : State) (rt : Route) (b : List Byte) : State :=
  (s.fgTake rt b).1.modSession (fgSession b) fun x => { x with lastNew := s.time }

/-- `ans` has gone to its route: into the mailbox, or to the endpoint behind its vendor header (R317, R330). -/
def Delivered (t : State) (rt : Route) (ans : List Byte) : Prop :=
  match rt with
  | .mbx => t.svc.rsp = ans ∧ t.svc.rspReady = true ∧ t.svc.busy = false
  | .svc e => ∃ g, (e, g, t.vdmHead ++ ans) ∈ t.svc.sent ++ t.svc.outbox

/-- The session's stored answer is to request `b`, numbered after `x`'s last answer, and has gone out (R321). -/
def Answered (t : State) (rt : Route) (x : Session) (b : List Byte) (status detail : Byte) (body : List Byte) : Prop :=
  ∃ y, t.session rt x.n = some y ∧ y.lastRx = fgTx b ∧ y.lastTx = nextSeq x.lastTx
    ∧ y.answer = fgAnswer (fgType b) x.n (nextSeq x.lastTx) (fgTx b) status detail (if status = 0 then body else [])
    ∧ Delivered t rt y.answer

/-- A slice that holds nothing: no transaction, no line, no entry, and an enabled cache with every way on. -/
def Slice.fresh (x : Slice) : Prop :=
  x.trks = [] ∧ x.olt = [] ∧ x.crq = [] ∧ x.sfl.blocks = [] ∧ x.sfl.wait = [] ∧ x.sfl.lru = [] ∧ x.hlc.lines = []
    ∧ x.hlc.mshrs = [] ∧ x.hlc.writes = [] ∧ x.hlc.maint = [] ∧ x.hlc.walks = [] ∧ x.hlc.flushes = []
    ∧ x.hlc.streams = [] ∧ x.hlc.state = 1 ∧ x.hlc.wayEn = 0xFFFF ∧ x.hlc.hwDis = 0 ∧ x.far.queue = []
    ∧ x.watch = none ∧ x.local_ = [] ∧ x.wdogDone = []

/-- A request that is next at slice `p` and passes every check there: its HOME, its allowance, a free tracker, its values
and its region (R25, R27, R73, R92, R109). -/
def State.accepts (s : State) (p : Nat) (m : Msg) : Prop :=
  (s.slice p).mayTake p m = true ∧ homeMatches (s.slice p) m true = true ∧ (s.slice p).allowed p m = true ∧ (s.slice p).freeTrk.isSome = true
    ∧ malformed m = false ∧ (s.portOf m.addr).isSome = true

/-- A lookup of line `a` finds the way entry `q` alone, and reads nothing that fails a check; the cache holds and awaits no
line, and line `a` is closed or in a chain on that entry (R107, R175 to R177). -/
def Slice.finds (x : Slice) (a : LineAddr) (q : Nat) : Prop :=
  x.sfHits a = [q] ∧ isOvf q = false ∧ (∀ b ∈ x.sfl.blocks, lookupFails b.2 (List.range 8) = false)
    ∧ x.hlc.lines = [] ∧ x.hlc.writes = [] ∧ x.hlc.mshrs = []
    ∧ ((x.line a).mode = 0 ∨ ((x.line a).mode = 1 ∧ (x.line a).pos = some q))

/-- No trigger of Table 6.3 stops request `m` from being chained on line `m.addr`, whose entry `q` is `DIR_M` of a present
agent that is not the sender (R113). -/
def State.chains (s : State) (p : Nat) (m : Msg) (q : Nat) : Prop :=
  let x := s.slice p
  (x.ent q).st = 2 ∧ (x.ent q).poison = false ∧ (x.ent q).has m.src.toNat = false
    ∧ s.glb.agents.getLsbD (x.ent q).owner = true ∧ x.chainEn = true
    ∧ (x.line m.addr).depth < x.depthLim.toNat ∧ (x.line m.addr).pend = 0 ∧ (x.line m.addr).wbHeld = []
    ∧ m.age.toNat < x.brkUs.toNat ∧ s.underMaint p m.addr = false

/-- What slice `p` has sent is what it had sent in `s`, and then `m` (R9, R68). -/
def Sent (s t : State) (p : Nat) (m : Msg) : Prop :=
  (t.slice p).stop.outbox = ((s.emit p m).slice p).stop.outbox ∧ (t.slice p).local_ = ((s.emit p m).slice p).local_

/-- Slice `p` has sent nothing since `s`. -/
def SentNothing (s t : State) (p : Nat) : Prop :=
  (t.slice p).stop.outbox = (s.slice p).stop.outbox ∧ (t.slice p).local_ = (s.slice p).local_

/-- One error record has gone to the collector: its class, code and unit index (R364). -/
def Recorded (s t : State) (cls : BitVec 2) (code : BitVec 8) (index : Nat) : Prop :=
  ∃ e, t.ras.inflight = s.ras.inflight ++ [e] ∧ e.cls = cls ∧ e.code = code ∧ e.index = index ∧ e.time = s.time

/-- Only units of slices, counters, events and error records have changed, and the count of accesses that a power state
discards (R355). -/
def OnlySlices (s t : State) : Prop :=
  { t with
    slices := s.slices, pmc := s.pmc, iag := s.iag, ras := s.ras, saf := s.saf, spare := s.spare
    pwr := { t.pwr with gatedAcc := s.pwr.gatedAcc } } = s

/-- Who a session is: its number, its owner and its level (R322, R328). -/
def Session.who (x : Session) : BitVec 16 × Option Byte × Byte := (x.n, x.owner, x.level)

/-- The open sessions, by who they are. -/
def State.whos (s : State) : List (BitVec 16 × Option Byte × Byte) := s.svc.sessions.map Session.who

/-- The firmware word at engine `e`'s address reads without a parity error, in a steward engine without one to correct
(R239, R251). -/
def State.fetchGood (s : State) (e : Nat) : Bool :=
  let g := s.eng e
  if isSpoke e then !g.fwBad.contains (g.pc.toNat / 4)
  else !g.fwBad.contains (g.pc.toNat / 8) && !g.fwDead.contains (g.pc.toNat / 8)

/-- No source is about to be entered by engine `e`: none is committed to it, and the checker engine has no entry of the main
engine to follow (R250, R288). -/
def State.noEntry (s : State) (e : Nat) : Bool := (s.eng e).irq.isNone && (e != 133 || s.stw.entries.isEmpty)

/-- Engine `e` issues instruction word `w` of opcode `opc` from its firmware: it is running and nothing stalls it, no load
that it depends on is pending, its slice is not being evacuated, the word is good and its zero bits are zero, no interrupt
waits or is about to be entered, its domain is on, and the next address is in its memory (R170, R239, R243, R244, R288,
R350). -/
def State.fwIssues (s : State) (e : Nat) (w : BitVec 32) (opc : Nat) (zero : BitVec 32) : Prop :=
  wOpc w = BitVec.ofNat 6 opc ∧ w &&& zero = 0 ∧ (s.eng e).mode ≠ .farOp ∧ (s.eng e).issues = true
    ∧ (s.eng e).awaits w = false ∧ s.evacHeld e = false ∧ s.fetchGood e = true ∧ s.noEntry e = true
    ∧ s.engStopped e = false
    ∧ validPc e ((s.eng e).pc + 4) = true

/-- Engine `e` issues `w`, a word of its program, in far-op mode, within the program's budget (R207, R208, R210). -/
def State.farIssues (s : State) (e : Nat) (w : BitVec 32) (opc : Nat) (zero : BitVec 32) : Prop :=
  wOpc w = BitVec.ofNat 6 opc ∧ w &&& zero = 0 ∧ (s.eng e).mode = .farOp ∧ (s.eng e).farFault = none
    ∧ (s.eng e).farDone = false ∧ (s.eng e).farUsed < 37
    ∧ (s.eng e).farPc.toNat < 128 * (s.eng e).farSlot + 4 * (s.eng e).farLen

/-- Commands of start-up, safety, sessions and reset that may move PHASE, the enables, who the sessions are or the owner key;
the rows that clear HOLD let waiting host requests go on, a function-level reset among them (R346). -/
def startUpCommand : Instr → Bool
  | .coldReset | .coldResetRelease | .pllLock | .pllLockTimeout | .arraySelfTestDone _ _ | .checkerTestAndClearDone _
  | .checkerSelfTest _ _ _ | .ringTrainingDone _ | .stewardImageWrite _ _ | .restoreWindowCloseCmd
  | .restoreWindowTimeout | .portUp _ | .portDeadline _ | .sliceEnable | .coherentReady | .clockLoss _
  | .fgOpen _ _ | .fgClose _ _ | .fgWrite _ _ | .fgResponse _ _ | .fgDrop _ _ | .sessionIdleTimeout _
  | .ownerKeyWrite _ _ | .hostReset | .registerWrite _ _ _ _ _ _ | .smapHoldClear | .evacuationAbandon
  | .rewriteTimerExpiry => true
  | _ => false

/-- Commands that act on one slice: what it takes, sends and times (chapters 5, 6, 9, 10 and 11, and the probes). -/
def sliceCommand : Instr → Bool
  | .readShared _ _ | .readOwn _ _ | .upgrade _ _ | .readNc _ _ | .writeNcFull _ _ | .writeNcPartial _ _ | .farOp _ _
  | .atomicReq _ _ | .writeback _ _ | .evictClean _ _ | .invAck _ _ | .fwdDone _ _ | .copyBack _ _ | .recallData _ _
  | .memData _ _ | .memAck _ _ | .creditRequest _ _ | .allocWaitRelease _ _ | .breakaway _ _
  | .trackerWatchdogExpiry _ _ | .missRegisterOpen _ | .missRegisterSend _ | .evictionWriteSend _ _
  | .hlcMaintClean _ _ | .hlcMaintInvalidate _ _ | .hlcMaintCleanInvalidate _ _ | .hlcMaintResume _ _
  | .hlcWalkerVisit _ | .farServiceStart _ _ | .atomicAluExecute _ | .predictorRecentTick _ | .farPredClr _
  | .hlcDisable _ | .hlcEnable _ | .hlcInit _ | .hlcWayDisable _ _ | .hlcWayEnable _ _ | .hlcLeakDecay _ _ | .sflInit _ | .sflPassStart _ | .sflPatrolCheck _ | .slotRecopy _ _
  | .svcReqRegisterRead _ _ | .svcReqDirectoryCopy _ _ | .svcReqLineCopy _ _
  | .hlcDictCleanAll | .hlcDictInvalidateAll | .hlcDictCleanInvalidateAll | .probeStart _ | .probeStep _ _
  | .probeTimeout _ => true
  | _ => false

end Sys2Proof.Machine
end

