-- ==== Sys2Proof/WellFormed.lean ====
section
/-! DEFINITION. Well-formed commands: the operands a command's row can have. The meanings are total on every command;
these are the ones a sender can give. -/

namespace Sys2Proof

/-- A message with the opcode of its row (Table 4.6). -/
def isMsg (opc : Nat) (m : Msg) : Bool := m.opc == BitVec.ofNat 6 opc

/-- An instruction word with the opcode of its row (Table 12.6). -/
def isWord (opc : Nat) (w : BitVec 32) : Bool := w.extractLsb' 26 6 == BitVec.ofNat 6 opc

/-- A port with a link: a die port or an I/O agent port (R280). -/
def isLink (n : Fin 50) : Bool := decide (n.val < 20) || (decide (32 ≤ n.val) && decide (n.val < 48))

/-- A link direction that exists: of a ring segment, or into the block at a port with a link (R45, R47). -/
def linkOk : LinkId → Bool
  | .ring _ _ _ => true
  | .port n => isLink n

/-- What can arrive on a link: 256-byte transfers arrive on a die port's FDI (R77, R408). -/
def linkInOk (l : LinkId) : LinkIn → Bool
  | .slot _ => linkOk l
  | .fdi _ => match l with
    | .ring _ _ _ => false
    | .port n => decide (n.val < 20)

/-- A far-program image is at most 32 whole words (R206). -/
def srcOk : LoadSource → Bool
  | .reg _ => true
  | .dict _ image => image.length % 4 == 0 && decide (image.length ≤ 128)

/-- A Forgopo message that names the type of its row, or is too short to name one (Table 17.1). -/
def fgOk (ty : Byte) (b : List Byte) : Bool := decide (b.length ≤ 1040) && (decide (b.length < 12) || b.getD 1 0 == ty)

/-- The operands are ones a sender can give. -/
def Instr.wf : Instr → Bool
  | .flitIngress n _ => isLink n
  | .flitInject _ _ => true
  | .linkFlitReceive l x => linkInOk l x
  | .replayRequest l _ => linkOk l
  | .linkAcknowledge l _ => linkOk l
  | .replayAckTimeout l => linkOk l
  | .segmentOutOfService _ _ => true
  | .segmentOutDone _ _ => true
  | .segmentOutTimeout _ _ => true
  | .flitEject _ _ _ _ => true
  | .ringShiftOff _ _ => true
  | .ringShiftComplete _ => true
  | .ringShiftOverrun _ => true
  | .crgShiftOffCmd _ => true
  | .crgReturnCmd _ => true
  | .ringReturnComplete _ _ => true
  | .consWindowEnd _ _ _ _ => true
  | .consEntry _ => true
  | .consDrainTimeout _ => true
  | .consGated _ => true
  | .consWake _ => true
  | .consWakeDone _ => true
  | .dieLinkControlSlot n _ counts => isLink n && decide (counts.length = 6)
  | .linkActiveEntry n => isLink n
  | .linkActiveExit n => isLink n
  | .linkActiveTimeout n => isLink n
  | .linkDown n => isLink n
  | .deadAgentForward n _ => isLink n
  | .readShared _ m => isMsg 0x00 m
  | .readOwn _ m => isMsg 0x01 m
  | .upgrade _ m => isMsg 0x02 m
  | .readNc _ m => isMsg 0x03 m
  | .writeNcFull _ m => isMsg 0x04 m
  | .writeNcPartial _ m => isMsg 0x05 m
  | .atomicReq _ m => isMsg 0x06 m
  | .farOp _ m => isMsg 0x07 m
  | .writeback _ m => isMsg 0x10 m
  | .evictClean _ m => isMsg 0x11 m
  | .invAck _ m => isMsg 0x29 m
  | .fwdDone _ m => isMsg 0x2A m
  | .copyBack _ m => isMsg 0x3B m
  | .recallData _ m => isMsg 0x3C m
  | .memData _ m => isMsg 0x3E m
  | .memAck _ m => isMsg 0x35 m
  | .creditRequest _ m => isMsg 0x2D m
  | .allocWaitRelease _ _ => true
  | .breakaway _ _ => true
  | .trackerWatchdogExpiry _ _ => true
  | .missRegisterOpen _ => true
  | .missRegisterSend _ => true
  | .evictionWriteSend _ _ => true
  | .hlcMaintClean _ m => isMsg 0x1A m
  | .hlcMaintInvalidate _ m => isMsg 0x1A m
  | .hlcMaintCleanInvalidate _ m => isMsg 0x1A m
  | .hlcMaintResume _ _ => true
  | .hlcWalkerVisit _ => true
  | .svcReqRegisterRead _ m => isMsg 0x1B m
  | .svcReqRegisterWrite _ m => isMsg 0x1B m
  | .svcReqDirectoryCopy _ m => isMsg 0x1B m
  | .svcReqLineCopy _ m => isMsg 0x1B m
  | .stewardRelay _ => true
  | .tlbInv m => isMsg 0x18 m
  | .tlbShoot _ m => isMsg 0x19 m
  | .tlbShootAck m => isMsg 0x32 m
  | .tlbCollectionTimeout _ => true
  | .farServiceStart _ _ => true
  | .atomicAluExecute _ => true
  | .farProgramDispatch _ => true
  | .farProgramFault _ _ => true
  | .farWritebackDone _ => true
  | .slotRecopy _ _ => true
  | .predictorRecentTick _ => true
  | .farPredClr _ => true
  | .farLoadGo src => srcOk src
  | .farLoadWrite => true
  | .farLoadDone => true
  | .engineFarstoreCopy _ => true
  | .add _ w => isWord 0x00 w
  | .sub _ w => isWord 0x01 w
  | .and _ w => isWord 0x02 w
  | .or _ w => isWord 0x03 w
  | .xor _ w => isWord 0x04 w
  | .sll _ w => isWord 0x05 w
  | .srl _ w => isWord 0x06 w
  | .sra _ w => isWord 0x07 w
  | .mul _ w => isWord 0x08 w
  | .slt _ w => isWord 0x09 w
  | .sltu _ w => isWord 0x0A w
  | .addi _ w => isWord 0x10 w
  | .andi _ w => isWord 0x11 w
  | .ori _ w => isWord 0x12 w
  | .xori _ w => isWord 0x13 w
  | .slli _ w => isWord 0x14 w
  | .srli _ w => isWord 0x15 w
  | .srai _ w => isWord 0x16 w
  | .slti _ w => isWord 0x17 w
  | .lui _ w => isWord 0x18 w
  | .beq _ w => isWord 0x20 w
  | .bne _ w => isWord 0x21 w
  | .blt _ w => isWord 0x22 w
  | .bge _ w => isWord 0x23 w
  | .bltu _ w => isWord 0x24 w
  | .bgeu _ w => isWord 0x25 w
  | .jal _ w => isWord 0x26 w
  | .jalr _ w => isWord 0x27 w
  | .lb _ w => isWord 0x28 w
  | .lh _ w => isWord 0x29 w
  | .lw _ w => isWord 0x2A w
  | .ld _ w => isWord 0x2B w
  | .sb _ w => isWord 0x2C w
  | .sh _ w => isWord 0x2D w
  | .sw _ w => isWord 0x2E w
  | .sd _ w => isWord 0x2F w
  | .lr _ w => isWord 0x30 w
  | .sc _ w => isWord 0x31 w
  | .lbar _ w => isWord 0x32 w
  | .sbar _ w => isWord 0x33 w
  | .fbar _ w => isWord 0x34 w
  | .wait _ w => isWord 0x38 w
  | .iret _ w => isWord 0x39 w
  | .syscall _ w => isWord 0x3A w
  | .tlbi _ w => isWord 0x3B w
  | .csrr _ w => isWord 0x3C w
  | .csrw _ w => isWord 0x3D w
  | .fret _ w => isWord 0x3F w
  | .engineHaltReload _ => true
  | .storeBufferSend _ _ => true
  | .engineLoadReturn _ _ => true
  | .engineStoreComplete _ _ => true
  | .storeTimeout _ _ => true
  | .walkReadReturn _ _ => true
  | .tlbiDone _ _ => true
  | .engWarmRst _ => true
  | .engColdRst _ => true
  | .engQuiesce _ => true
  | .engResume _ => true
  | .engineQuiesced _ => true
  | .fwCommitAll => true
  | .fwCommitRolling => true
  | .engineLoad _ _ => true
  | .stewardLockstepMismatch => true
  | .eventCapture _ => true
  | .windowExpiry _ => true
  | .sourceCommit _ => true
  | .waitWake _ => true
  | .iagHostEoi _ => true
  | .iagDoorbell _ => true
  | .iagSrcWrite _ _ => true
  | .rpqPop _ _ size => decide (size ≤ 16)
  | .rpqFlush _ => true
  | .pmcSelWrite _ _ => true
  | .pmcCntWrite _ _ => true
  | .pmcFreeze => true
  | .pmcUnfreeze => true
  | .pmcSnapshot => true
  | .pmcSnapshotDone => true
  | .entdaa _ => true
  | .setdasa _ _ => true
  | .rstdaa => true
  | .getpid => true
  | .getbcr => true
  | .getdcr => true
  | .getstatus => true
  | .enec _ => true
  | .disec _ => true
  | .getmwl => true
  | .setmwl _ => true
  | .getmrl => true
  | .setmrl _ => true
  | .mctpPacket k => decide (k.payload.length ≤ 64)
  | .setEndpointId _ _ _ _ => true
  | .getEndpointId _ _ => true
  | .getMctpVersionSupport _ _ _ => true
  | .getMessageTypeSupport _ _ => true
  | .getVendorDefinedMsgSupport _ _ _ => true
  | .fgOpen _ b => fgOk 1 b
  | .fgClose _ b => fgOk 2 b
  | .fgRead _ b => fgOk 3 b
  | .fgWrite _ b => fgOk 4 b
  | .fgChallenge _ b => fgOk 5 b
  | .fgResponse _ b => fgOk 6 b
  | .fgResync _ b => fgOk 7 b
  | .fgDrop _ b => fgOk 8 b
  | .sessionIdleTimeout _ => true
  | .lockoutExpiry => true
  | .mbxGo => true
  | .accumulatorPoll => true
  | .restoreWindowCloseCmd => true
  | .restoreWindowTimeout => true
  | .ownerKeyWrite _ key => decide (key.length ≤ 1024)
  | .hlcDictCleanAll => true
  | .hlcDictInvalidateAll => true
  | .hlcDictCleanInvalidateAll => true
  | .hlcDisable _ => true
  | .hlcEnable _ => true
  | .hlcDrainDone _ => true
  | .hlcInit _ => true
  | .hlcWayDisable _ _ => true
  | .hlcWayEnable _ _ => true
  | .hlcWayFlushDone _ _ => true
  | .hlcLeakDecay _ _ => true
  | .sflInit _ => true
  | .sflPassStart _ => true
  | .sflPatrolCheck _ => true
  | .smapCopyCompare => true
  | .spareEvacuateCmd _ => true
  | .autoSpareTrigger _ => true
  | .spareReady _ => true
  | .smapHoldSet => true
  | .smapStateCopy => true
  | .smapEntryWrite => true
  | .smapHoldClear => true
  | .smapGenIncrement => true
  | .evacuationAbandon => true
  | .evacuationRetry => true
  | .rewriteTimerExpiry => true
  | .coastEntry => true
  | .coastExit => true
  | .freewheelEntry => true
  | .freewheelExit => true
  | .powerDrainDone => true
  | .powerDrainTimeout => true
  | .bbOk => true
  | .pwrStateAck => true
  | .powerHandshakeTimeout => true
  | .railFault _ => true
  | .vcoreCodeChange _ => true
  | .edgeRelease _ => true
  | .errorRecord => true
  | .logSpillWrite => true
  | .spillRdWrite _ => true
  | .spillCtrlWrite _ => true
  | .cmdTailWrite _ => true
  | .descriptorApply _ => true
  | .cmdAbortClear => true
  | .hfnCompletionTimeout _ => true
  | .hfnTagQuarantineEnd _ => true
  | .hfnCompletion _ _ => true
  | .busMasterDisable => true
  | .hostReset => true
  | .hfnD3hot => true
  | .hfnD0 => true
  | .lsliceWindowAccess _ _ size _ => size == 4 || size == 8
  | .registerWrite _ _ _ size _ _ => size == 1 || size == 2 || size == 4 || size == 8 || size == 16
  | .memRd _ _ => true
  | .memWr _ _ => true
  | .memReadResponse _ _ _ _ _ => true
  | .memWriteResponse _ _ _ => true
  | .memoryCommandTimeout _ _ => true
  | .memTagQuarantineEnd _ _ => true
  | .memReadyFall _ => true
  | .memReadyRise _ => true
  | .probeStart _ => true
  | .probeStep _ _ => true
  | .probeTimeout _ => true
  | .checkerSelfTest _ _ _ => true
  | .safKick _ => true
  | .stewardWatchdogExpiry => true
  | .clockLoss _ => true
  | .kickstandEntry => true
  | .kickstandWindowEnd => true
  | .kickstandSafeAck _ => true
  | .coldReset => true
  | .coldResetRelease => true
  | .pllLock => true
  | .pllLockTimeout => true
  | .timeBaseTick => true
  | .arraySelfTestDone _ _ => true
  | .checkerTestAndClearDone _ => true
  | .ringTrainingDone _ => true
  | .stewardImageWrite k b => decide (1 ≤ k) && decide (k ≤ 65) && decide (b.length ≤ 1024)
  | .portUp n => decide (n.val < 48)
  | .portDeadline n => decide (n.val < 48)
  | .sliceEnable => true
  | .coherentReady => true
  | .clockReturn _ => true
  | .busMasterEnable => true
  | .memCommandTransfer _ _ _ => true
  | .counterWrap _ => true
  | .clockMeasWindowEnd khz => decide (khz.length = 36)
  | .relayEntryWatchdog _ => true
  | .tapInstruction _ => true

end Sys2Proof
end

