-- ==== Sys2Proof/Certificates/Slice0/Obligations.lean ====
section
/-! DEFINITION. The statements about the block for the provers. -/

open Sys2Proof Sys2Proof.Machine

/-- The logical slice and the snoop-filter set are the hashes of R23 and R24, and slice, set and tag give back the line (R23, R24). -/
def Obligations.AddressHashesRecoverTheLine : Prop :=
  (∀ x : BitVec 52,
    let a : LineAddr := x.extractLsb' 6 46
    lsliceOf a = x.extractLsb' 6 7 ^^^ x.extractLsb' 13 7 ^^^ x.extractLsb' 20 7 ^^^ x.extractLsb' 27 7
        ^^^ x.extractLsb' 34 7 ^^^ x.extractLsb' 41 7 ^^^ (x.extractLsb' 48 4).setWidth 7
    ∧ sfSetOf a = x.extractLsb' 13 13 ^^^ x.extractLsb' 26 13 ^^^ x.extractLsb' 39 13
    ∧ sfTagOf a = x.extractLsb' 26 26
    ∧ sfRecover (lsliceOf a) (sfSetOf a) (sfTagOf a) = a)
  ∧ (∀ (l : BitVec 7) (set : BitVec 13) (tag : BitVec 26),
      lsliceOf (sfRecover l set tag) = l ∧ sfSetOf (sfRecover l set tag) = set ∧ sfTagOf (sfRecover l set tag) = tag)

/-- The home line cache set is the hash of R26, and logical slice, set and tag give back the line (R26). -/
def Obligations.HomeCacheHashesRecoverTheLine : Prop :=
  (∀ x : BitVec 52,
    let a : LineAddr := x.extractLsb' 6 46
    hsetOf a = x.extractLsb' 13 8 ^^^ x.extractLsb' 21 8 ^^^ x.extractLsb' 29 8 ^^^ x.extractLsb' 37 8
        ^^^ (x.extractLsb' 45 7).setWidth 8
    ∧ htagOf a = x.extractLsb' 21 31
    ∧ hRecover (lsliceOf a) (hsetOf a) (htagOf a) = a)
  ∧ (∀ (l : BitVec 7) (set : BitVec 8) (tag : BitVec 31),
      lsliceOf (hRecover l set tag) = l ∧ hsetOf (hRecover l set tag) = set ∧ htagOf (hRecover l set tag) = tag)

/-- FLIT_INGRESS discards what fails the source or form checks, counts and records it, and takes nothing while flits are not taken (R20, R72, R80, R355, R395, R417). -/
def Obligations.IngressDiscardsBadFlits : Prop :=
  ∀ (n : Fin 50) (m : Msg) (s : State),
    (s.takesFlits = false → Idles (.flitIngress n m) s)
    ∧ (s.takesFlits = true → (s.sourceOk n m = false ∨ malformedFlit m = true
          ∨ (s.glb.coherentReady = false ∧ isLinkPort n = true ∧ (m.cls = 0 ∨ m.cls = 1 ∨ m.cls = 2))) →
        Ends (.flitIngress n m) s fun t =>
          (t.port n).srcErr = (if (s.port n).srcErr = 0xFFFF then 0xFFFF else (s.port n).srcErr + 1)
          ∧ t.glb.srcErrs = s.glb.srcErrs + 1
          ∧ (∃ e, t.ras.inflight = s.ras.inflight ++ [e] ∧ e.cls = 1 ∧ e.unit = 2 ∧ e.index = n.val ∧ e.code = 0x29
              ∧ e.agent = some m.src ∧ e.time = s.time)
          ∧ (t.port n).ingress = takeFirst m (s.port n).ingress
          ∧ (t.port n).held = (s.port n).held ∧ (t.port n).stop = (s.port n).stop
          ∧ (∀ j, j ≠ n.val → t.port j = s.port j)
          ∧ { t with ports := s.ports, glb := s.glb, ras := s.ras, pmc := s.pmc, iag := s.iag } = s)

/-- FLIT_INGRESS of a good flit holds it at ingress under a hold, and else queues it at the port's stop with the slice its copy names (R29, R30, R85, R90, R172, R352, R407). -/
def Obligations.IngressHoldsOrPassesOn : Prop :=
  ∀ (n : Fin 50) (m : Msg) (s : State),
    s.takesFlits = true → s.sourceOk n m = true → malformedFlit m = false → s.glb.coherentReady = true →
    ((s.mustHold n m = true ∨ (heldByMap m = true ∧ ((s.port n).held ≠ [] ∨ s.ncStopped n ≠ []))) →
      Ends (.flitIngress n m) s fun t =>
        (t.port n).held = (s.port n).held ++ [m] ∧ (t.port n).stop = (s.port n).stop
        ∧ { t with ports := s.ports, pmc := s.pmc } = s)
    ∧ (s.mustHold n m = false → (s.port n).held = [] → (heldByMap m = false ∨ s.ncStopped n = []) →
        (m.dst ≠ 1023 → Ends (.flitIngress n m) s fun t =>
            (t.port n).stop.outbox = (s.port n).stop.outbox ++ [flitOf m 0]
            ∧ { t with ports := s.ports, pmc := s.pmc } = s)
        ∧ (m.dst = 1023 → (m.cls ≠ 0 ∨ isNCR m.src.toNat = false) →
            (m.opc ≠ 0x2D ∨ ((s.copy (copyOfPort n)).entry m.home.toNat).hold = false) →
            (spendsMaint n m = false ∨ isEngine m.src.toNat = true) →
            Ends (.flitIngress n m) s fun t =>
              (t.port n).stop.outbox = (s.port n).stop.outbox ++ [flitOf m
                (if m.opc = 0x1B then m.aux.toNat else ((s.copy (copyOfPort n)).entry m.home.toNat).phys)]
              ∧ t.relayed = s.relayed)
        ∧ (m.dst = 1023 → m.cls ≠ 0 → m.opc = 0x2D → ((s.copy (copyOfPort n)).entry m.home.toNat).hold = true →
            Ends (.flitIngress n m) s fun t =>
              t.relayed = s.relayed ++ [(n.val, m)] ∧ (t.port n).stop = (s.port n).stop)
        ∧ (m.dst = 1023 → m.cls = 0 → isNCR m.src.toNat = true → (s.port n).ncFirst m.home.toNat = none →
            (s.port n).ncCredit m.home.toNat = some false → (s.port n).ncCommitted m.home.toNat = 0 →
            Ends (.flitIngress n m) s fun t =>
              (t.port n).ncRes.get zeroNat m.home.toNat = (s.port n).ncRes.get zeroNat m.home.toNat + 1
              ∧ (t.port n).ncWait = (s.port n).ncWait
              ∧ (t.port n).stop.outbox = (s.port n).stop.outbox ++ [flitOf { m with txn := m.txn &&& 0x7FF }
                  ((s.copy (copyOfPort n)).entry m.home.toNat).phys])
        ∧ (m.dst = 1023 → m.cls = 0 → isNCR m.src.toNat = true → (s.port n).ncCredit m.home.toNat = none →
            Ends (.flitIngress n m) s fun t =>
              (t.port n).ncWait = (s.port n).ncWait ++ [(s.time, m)]
              ∧ (t.port n).ncAsked.get noBool m.home.toNat = ((s.port n).ncAsked.get noBool m.home.toNat
                  || decide ((s.port n).ncG.get zeroNat m.home.toNat < 6))
              ∧ (t.port n).ncRes = (s.port n).ncRes))

/-- FLIT_INJECT puts the next flit of a class on the ring the derailleur chooses, only where two slots are free (R38, R39, R42, R50, R417). -/
def Obligations.FlitInjectKeepsTwoSlots : Prop :=
  ∀ (st : Stop) (c : MClass) (s : State),
    ((s.fclkRuns = false ∨ s.nextFlit st (classCode c) = none) → Idles (.flitInject st c) s)
    ∧ (∀ f, s.nextFlit st (classCode c) = some f → s.derail st f (classCode c) = none → Idles (.flitInject st c) s)
    ∧ (∀ f r dec used, s.fclkRuns = true → s.nextFlit st (classCode c) = some f → s.derail st f (classCode c) = some (r, dec, used) →
        ((s.ring r).freeSlots (stopPos r st) (classCode c) dec < 2 →
          Ends (.flitInject st c) s fun t => { t with pmc := s.pmc } = s)
        ∧ (2 ≤ (s.ring r).freeSlots (stopPos r st) (classCode c) dec →
          (s.ring (partner r)).movesAt (stopPos r st) (classCode c) dec = true → Idles (.flitInject st c) s)
        ∧ (2 ≤ (s.ring r).freeSlots (stopPos r st) (classCode c) dec →
          (s.ring (partner r)).movesAt (stopPos r st) (classCode c) dec = false →
          Ends (.flitInject st c) s fun t =>
            (t.stop st).outbox = dropFlit f (s.stop st).outbox
            ∧ t.ring r = (s.ring r).place r (stopPos r st) (classCode c) dec
                { f with orig := BitVec.ofNat 7 (stopPos r st), dir1 := dec, rev := false, revpos := 0, dropped := false }
            ∧ ((s.ring r).segOut = 0 → (s.ring r).back = [] →
              (t.ring r).buf (stopPos r st) (classCode c) dec = (s.ring r).buf (stopPos r st) (classCode c) dec
                ++ [{ f with orig := BitVec.ofNat 7 (stopPos r st), dir1 := dec, rev := false, revpos := 0,
                             dropped := false }])
            ∧ { t with slices := s.slices, ports := s.ports, rings := s.rings, pmc := s.pmc } = s))

/-- Link receivers follow the three cases of the sequence number, and replays, acknowledgements and timeouts act on one link (R45, R46, R47, R67, R77, R78, R79, R417). -/
def Obligations.LinksNumberAndReplayFlits : Prop :=
  ((∀ (r : Fin 6) (k : Fin 94) (d : Dir) (raw : BitVec 768) (s : State),
    (Ends (.linkFlitReceive (.ring r k d) (.slot raw)) s fun t =>
        { t with rings := s.rings, pmc := s.pmc, iag := s.iag } = s ∧ ∀ j, j ≠ r.val → t.ring j = s.ring j)
    ∧ (∀ b, Idles (.linkFlitReceive (.ring r k d) (.fdi b)) s)
    ∧ (rawGood raw = true → (∀ f, (s.ring r).sends r k d ≠ some (rawSeq raw, f)) →
        ((((s.ring r).link k d).rx.waiting = false ∧ 1 ≤ (((s.ring r).link k d).rx.exp - rawSeq raw).toNat
            ∧ (((s.ring r).link k d).rx.exp - rawSeq raw).toNat ≤ 64)
          ∨ (((s.ring r).link k d).rx.waiting = true ∧ rawSeq raw ≠ ((s.ring r).link k d).rx.exp)) →
        Idles (.linkFlitReceive (.ring r k d) (.slot raw)) s)
    ∧ (s.fclkRuns = true → rawGood raw = false → Ends (.linkFlitReceive (.ring r k d) (.slot raw)) s fun t =>
        (t.ring r).crcFails = (if (s.ring r).crcFails = 0xFFFF then 0xFFFF else (s.ring r).crcFails + 1)
        ∧ (t.ring r).replays = (if (s.ring r).replays = 0xFFFF then 0xFFFF else (s.ring r).replays + 1)
        ∧ ((t.ring r).link k d).rx.waiting = true
        ∧ ((t.ring r).link k d).rx.exp = ((s.ring r).link k d).rx.exp
        ∧ t.iag.arrived = s.iag.arrived ++ [1256 + 8 * r.val])
    ∧ (s.fclkRuns = true → rawGood raw = true → rawSeq raw = ((s.ring r).link k d).rx.exp →
        (s.ring r).sends r k d = some (rawSeq raw, ringFlit raw) →
        Ends (.linkFlitReceive (.ring r k d) (.slot raw)) s fun t =>
          ((t.ring r).link k d).rx.exp = ((s.ring r).link k d).rx.exp + 1
          ∧ ((t.ring r).link k d).rx.waiting = false
          ∧ (((s.ring r).link k d).tx.resending = none →
              ((t.ring r).link k d).tx.replay
                = ((s.ring r).link k d).tx.replay ++ [(((s.ring r).link k d).tx.next, ringFlit raw)]
              ∧ ((t.ring r).link k d).tx.next = ((s.ring r).link k d).tx.next + 1)
          ∧ (((s.ring r).link k d).tx.resending.isSome = true →
              ((t.ring r).link k d).tx.replay = ((s.ring r).link k d).tx.replay
              ∧ ((t.ring r).link k d).tx.next = ((s.ring r).link k d).tx.next)
          ∧ t.iag = s.iag))
  ∧ ∀ (n : Fin 50) (raw : BitVec 768) (s : State),
    (((s.port n).active = false ∨ s.fclkRuns = false) → Idles (.linkFlitReceive (.port n) (.slot raw)) s
        ∧ ∀ b, Idles (.linkFlitReceive (.port n) (.fdi b)) s)
    ∧ (s.fclkRuns = true → (s.port n).active = true → (s.port n).down = false →
        (rawSlot raw = 0 → rawRchk raw = false → exec (.linkFlitReceive (.port n) (.slot raw)) s
          = .next (s.modPort n fun x => { x with crcFails := satInc16 x.crcFails }))
        ∧ (rawSlot raw ≠ 0 → rawGood raw = false → Ends (.linkFlitReceive (.port n) (.slot raw)) s fun t =>
            (t.port n).crcFails = satInc16 (s.port n).crcFails
            ∧ (t.port n).replays = satInc16 (s.port n).replays
            ∧ (t.port n).rx.waiting = true ∧ (t.port n).rx.exp = (s.port n).rx.exp
            ∧ (t.port n).ingress = (s.port n).ingress
            ∧ (t.port n).sent = (s.port n).sent ++ [(s.port n).idle true]
            ∧ t.iag.arrived = s.iag.arrived ++ [1056 + 4 * n.val])
        ∧ (rawSlot raw = 1 → rawGood raw = true → rawSeq raw = (s.port n).rx.exp →
            raw.getLsbD 44 = false → raw.getLsbD 45 = false →
            Ends (.linkFlitReceive (.port n) (.slot raw)) s fun t =>
              (t.port n).ingress = (s.port n).ingress ++ [msgOfBits (rawBody raw)]
              ∧ (t.port n).rx.exp = (s.port n).rx.exp + 1 ∧ (t.port n).rx.waiting = false
              ∧ (t.port n).tx = (s.port n).tx
              ∧ { t with ports := s.ports } = s)))
  ∧ ((∀ (r : Fin 6) (k : Fin 94) (d : Dir) (q : BitVec 12) (s : State),
    (q ∉ ((s.ring r).link k d).rx.requests → Idles (.replayRequest (.ring r k d) q) s)
    ∧ (q ∈ ((s.ring r).link k d).rx.requests →
      exec (.replayRequest (.ring r k d) q) s = .next (s.modRing r fun x => x.modLink k d fun l =>
        { l with
          rx := { l.rx with requests := takeFirst q l.rx.requests }
          tx := { l.tx with
            again := some q, named := some q, fails := if l.tx.named = some q then l.tx.fails + 1 else 0 } }))
    ∧ (Ends (.linkAcknowledge (.ring r k d) q) s fun t =>
        ((((s.ring r).link k d).rx.any = true ∧ (((s.ring r).link k d).rx.exp - 1 - q).toNat < 2048) →
          ((t.ring r).link k d).tx.replay
            = ((s.ring r).link k d).tx.replay.filter (fun e => decide (2048 ≤ (q - e.1).toNat)))
        ∧ ((((s.ring r).link k d).rx.any = false ∨ 2048 ≤ (((s.ring r).link k d).rx.exp - 1 - q).toNat) →
          (t.ring r).link k d = (s.ring r).link k d)
        ∧ ((t.ring r).link k d).tx.next = ((s.ring r).link k d).tx.next
        ∧ ((t.ring r).link k d).rx = ((s.ring r).link k d).rx ∧ (t.ring r).transit = (s.ring r).transit
        ∧ { t with rings := s.rings } = s)
    ∧ (((s.ring r).link k d).tx.replay = [] → Idles (.replayAckTimeout (.ring r k d)) s)
    ∧ (∀ e rest, ((s.ring r).link k d).tx.replay = e :: rest →
        exec (.replayAckTimeout (.ring r k d)) s = .next (s.modRing r fun x => x.modLink k d fun l =>
          { l with tx := { l.tx with
              again := some e.1, named := some e.1
              fails := if l.tx.named = some e.1 then l.tx.fails + 1 else 0 } })))
  ∧ ∀ (n : Fin 50) (q : BitVec 12) (s : State),
    (Ends (.replayRequest (.port n) q) s fun t =>
        (t.port n).tx = { (s.port n).tx with
          again := none, named := some q, fails := if (s.port n).tx.named = some q then (s.port n).tx.fails + 1 else 0 }
        ∧ (t.port n).sent = (s.port n).sent ++ (if (s.port n).active = true then
            ((s.port n).tx.replay.filter (fun e => decide ((e.1 - q).toNat < 2048))).map
              (fun e => (s.port n).slot e.1 e.2) else [])
        ∧ (t.port n).replays = satInc16 (s.port n).replays
        ∧ t.iag.arrived = s.iag.arrived ++ [1056 + 4 * n.val]
        ∧ { t with ports := s.ports, pmc := s.pmc, iag := s.iag } = s)
    ∧ ((s.port n).active = false → Ends (.linkAcknowledge (.port n) q) s fun t =>
        (t.port n).tx.replay = (s.port n).tx.replay.filter (fun e => decide (2048 ≤ (q - e.1).toNat))
        ∧ (t.port n).tx.next = (s.port n).tx.next ∧ (t.port n).rx = (s.port n).rx
        ∧ { t with ports := s.ports } = s)
    ∧ ((s.port n).tx.replay = [] → Idles (.replayAckTimeout (.port n)) s)
    ∧ (∀ e rest, (s.port n).tx.replay = e :: rest → Ends (.replayAckTimeout (.port n)) s fun t =>
        (t.port n).tx = { (s.port n).tx with
          again := none, named := some e.1, fails := if (s.port n).tx.named = some e.1 then (s.port n).tx.fails + 1 else 0 }
        ∧ { t with ports := s.ports } = s))

/-- A segment that loses its link leaves service in two steps, and an unanswered one shifts its ring off (R47, R48, R49, R50, R54, R56). -/
def Obligations.SegmentsLeaveService : Prop :=
  ∀ (r : Fin 6) (k : Fin 94) (s : State),
    (((s.ring r).out k = true ∨ (s.ring r).losing k = true ∨ (s.ring r).shifting.isSome = true
        ∨ (((s.ring r).link k .inc).tx.fails < 8 ∧ ((s.ring r).link k .dec).tx.fails < 8)) →
      Idles (.segmentOutOfService r k) s)
    ∧ ((s.ring r).out k = false → (s.ring r).losing k = false → (s.ring r).shifting = none →
        (8 ≤ ((s.ring r).link k .inc).tx.fails ∨ 8 ≤ ((s.ring r).link k .dec).tx.fails) →
        Ends (.segmentOutOfService r k) s fun t =>
          t.ring r = { s.ring r with segLosing := (s.ring r).segLosing ++ [(k.val, s.time)] }
          ∧ t.crg.qual.get zeroNat (r.val / 2) = 0
          ∧ (r.val % 2 = 0 → (s.ring (partner r)).mode = 1 → (t.ring (partner r)).mode = 3)
          ∧ { t with rings := s.rings, crg := s.crg, pwr := s.pwr } = s)
    ∧ ((s.ring r).losing k = false → Idles (.segmentOutDone r k) s ∧ Idles (.segmentOutTimeout r k) s)
    ∧ ((s.ring r).losing k = true →
        ({ s.ring r with segOut := (s.ring r).segOut ||| BitVec.ofNat 94 (2 ^ k.val) } : Ring).segsOut < 2 →
        Ends (.segmentOutDone r k) s fun t =>
        (t.ring r).segOut = (s.ring r).segOut ||| BitVec.ofNat 94 (2 ^ k.val)
        ∧ (t.ring r).segLosing = (s.ring r).segLosing.filter (fun e => e.1 != k.val)
        ∧ (s.ras.corrLog = true → ∃ e, t.ras.inflight = s.ras.inflight ++ [e] ∧ e.cls = 0 ∧ e.unit = 1 ∧ e.index = r.val
            ∧ e.code = 0x20 ∧ e.extra = BitVec.ofNat 16 k.val)
        ∧ (s.ras.corrLog = false → t.ras = s.ras)
        ∧ { t with rings := s.rings, ras := s.ras, iag := s.iag } = s
        ∧ t.iag = { s.iag with arrived := s.iag.arrived ++ [1257 + 8 * r.val] })
    ∧ ((s.ring r).losing k = true → (s.ring r).mode ≠ 2 → (s.ring r).shifting = none → s.partnerGone r = false →
        2 ≤ ({ s.ring r with segOut := (s.ring r).segOut ||| BitVec.ofNat 94 (2 ^ k.val) } : Ring).segsOut →
        Ends (.segmentOutDone r k) s fun t =>
          (t.ring r).shifting = some .secondSegment ∧ (t.ring r).draining = true)
    ∧ (∀ at_, (k.val, at_) ∈ (s.ring r).segLosing → at_ + 2 ≤ s.time → (s.ring r).mode ≠ 2 →
        (s.ring r).shifting = none → s.partnerGone r = false → Ends (.segmentOutTimeout r k) s fun t =>
          (t.ring r).shifting = some .controllerTimeout ∧ (t.ring r).draining = true ∧ (t.ring r).segLosing = []
          ∧ (t.ring r).shiftBy = s.time + 4
              + (if (s.ring (partner r)).mode = 1 ∨ (s.ring (partner r)).mode = 3 then 5 else 0))
    ∧ ((∀ e ∈ (s.ring r).segLosing, e.1 = k.val → s.time < e.2 + 2) → Idles (.segmentOutTimeout r k) s)

/-- FLIT_EJECT moves a flit that has reached its stop from the transit buffer to the stop's ejection queue (R40, R43, R44, R61, R82). -/
def Obligations.EjectDelivers : Prop :=
  ∀ (r : Fin 6) (pos : Fin 94) (d : Dir) (c : MClass) (s : State),
    (((s.ring r).buf pos (classCode c) (isDec d) = [] ∨ stopAt r pos = none) → Idles (.flitEject r pos d c) s)
    ∧ (∀ f rest, (s.ring r).buf pos (classCode c) (isDec d) = f :: rest → f.stopsHere r pos = false →
        Idles (.flitEject r pos d c) s)
    ∧ (∀ f rest p, (s.ring r).buf pos (classCode c) (isDec d) = f :: rest → f.stopsHere r pos = true →
        stopAt r pos = some (.slice p) → f.dkind ≠ 2 → f.dkind ≠ 3 →
        (8 ≤ ((s.slice p).stop.eject.get noEjected (eKey r (classCode c))).length → Idles (.flitEject r pos d c) s)
        ∧ (((s.slice p).stop.eject.get noEjected (eKey r (classCode c))).length < 8 →
            Ends (.flitEject r pos d c) s fun t =>
              ((s.ring r).segOut = 0 → (s.ring r).back = [] →
                (t.ring r).buf pos (classCode c) (isDec d) = rest)
              ∧ (t.slice p).stop.eject.get noEjected (eKey r (classCode c))
                  = (s.slice p).stop.eject.get noEjected (eKey r (classCode c)) ++ [{ dest := f.msg.dst, msg := f.msg }]
              ∧ { t with slices := s.slices, rings := s.rings, pmc := s.pmc } = s))
    ∧ (∀ f rest n, (s.ring r).buf pos (classCode c) (isDec d) = f :: rest → f.stopsHere r pos = true →
        stopAt r pos = some (.port n) → (s.port n).active = false → (s.port n).down = false →
        consumed n f.msg = false → isNCR f.msg.dst.toNat = false →
        ((s.port n).stop.eject.get noEjected (eKey r (classCode c))).length + (copiesAt (.port n) f).length ≤ 8 →
        Ends (.flitEject r pos d c) s fun t =>
          (t.port n).stop.eject.get noEjected (eKey r (classCode c))
            = (s.port n).stop.eject.get noEjected (eKey r (classCode c))
                ++ (if f.dkind = 2 ∨ f.dkind = 3 then
                      (agentsAt (vecOf f) n).map (fun g => { dest := BitVec.ofNat 10 g, msg := f.msg })
                    else [{ dest := f.msg.dst, msg := f.msg }])
          ∧ ((s.ring r).segOut = 0 → (s.ring r).back = [] →
              (t.ring r).buf pos (classCode c) (isDec d)
                = (if (f.dkind = 2 ∨ f.dkind = 3) ∧ f.goesOn r pos = true then { f with dropped := true } :: rest
                   else rest))
          ∧ { t with ports := s.ports, rings := s.rings, pmc := s.pmc } = s)

/-- Shifting a ring off, its completion and overrun, and the commands that shift off and return a ring (R48, R50, R51, R53, R58, R355, R359). -/
def Obligations.RingsShiftOffAndReturn : Prop :=
  ∀ (r : Fin 6) (s : State),
    (∀ cause, cause ≠ .command → s.shiftCause r cause = false → Idles (.ringShiftOff r cause) s)
    ∧ (∀ cause, cause ≠ .command → cause ≠ .chainFault → ((s.ring r).mode = 2 ∨ (s.ring r).shifting.isSome = true) →
        Idles (.ringShiftOff r cause) s)
    ∧ (((s.ring r).mode = 2 ∨ (s.ring r).shifting.isSome = true) →
        exec (.ringShiftOff r .chainFault) s = .next (s.fireRing r 7))
    ∧ (∀ cause, cause ≠ .command → s.shiftCause r cause = true → (s.ring r).mode ≠ 2 → (s.ring r).shifting = none →
        s.partnerGone r = false → Ends (.ringShiftOff r cause) s fun t =>
          (t.ring r).shifting = some cause ∧ (t.ring r).draining = true ∧ (t.ring r).segLosing = []
          ∧ (t.ring r).shiftBy = s.time + 4
              + (if (s.ring (partner r)).mode = 1 ∨ (s.ring (partner r)).mode = 3 then 5 else 0)
          ∧ (r.val % 2 = 0 → (s.ring (partner r)).mode = 1 → (t.ring (partner r)).mode = 3)
          ∧ t.crg.qual.get zeroNat (r.val / 2) = 0
          ∧ t.iag.arrived = s.iag.arrived ++ (if cause = .chainFault then [1256 + 8 * r.val + 7] else [])
          ∧ { t with rings := s.rings, crg := s.crg, pwr := s.pwr, iag := s.iag } = s)
    ∧ (∀ cause, s.shiftCause r cause = true → (s.ring r).mode ≠ 2 → (s.ring r).shifting = none → cause ≠ .command →
        s.partnerGone r = true →
        Ends (.ringShiftOff r cause) s fun t => t.rings = s.rings ∧ t.saf.fatal.isSome = true
          ∧ ∃ e, t.ras.inflight = s.ras.inflight ++ [e] ∧ e.cls = 2 ∧ e.code = 0x22 ∧ e.index = r.val)
    ∧ (s.pwr.state = 0 → exec (.ringShiftOff r .command) s = exec (.crgShiftOffCmd (BitVec.ofNat 3 r.val)) s)
    ∧ ((s.ring r).shifting = none → Idles (.ringShiftComplete r) s ∧ Idles (.ringShiftOverrun r) s)
    ∧ ((s.ring r).shifting.isSome = true → (s.ring r).empty = true → (s.ring (partner r)).mode ≠ 1 →
        (s.ring (partner r)).mode ≠ 3 → Ends (.ringShiftComplete r) s fun t =>
        t.ring r = { s.ring r with mode := 2, draining := false, shifting := none, returning := false, links := [] }
        ∧ (s.svc.await = none → t.iag.arrived = s.iag.arrived ++ [1258 + 8 * r.val]))
    ∧ ((s.ring r).shifting.isSome = true → s.time < (s.ring r).shiftBy → Idles (.ringShiftOverrun r) s)
    ∧ ((s.ring r).shifting.isSome = true → (s.ring r).shiftBy ≤ s.time → Ends (.ringShiftOverrun r) s fun t =>
        t.saf.fatal.isSome = true ∧ t.rings = s.rings
        ∧ ∃ e, t.ras.inflight = s.ras.inflight ++ [e] ∧ e.cls = 2 ∧ e.code = 0x22 ∧ e.index = r.val)
    ∧ (∀ v : BitVec 3, 5 < v.toNat → Idles (.crgShiftOffCmd v) s ∧ Idles (.crgReturnCmd v) s)
    ∧ (∀ v : BitVec 3, s.pwr.state = 0 → v.toNat ≤ 5 → s.crgShiftOk v.toNat = false →
        exec (.crgShiftOffCmd v) s
          = .next ((s.modRing v.toNat fun x => { x with cmdRefused := true }).fireRing v.toNat 6))
    ∧ (∀ v : BitVec 3, s.pwr.state = 0 → v.toNat ≤ 5 → s.crgShiftOk v.toNat = true → (s.ring v.toNat).shifting = none →
        Ends (.crgShiftOffCmd v) s fun t =>
        (t.ring v.toNat).cmdRefused = false ∧ (t.ring v.toNat).shifting = some .command
        ∧ (t.ring v.toNat).draining = true ∧ (t.ring v.toNat).segLosing = []
        ∧ t.crg.qual.get zeroNat (v.toNat / 2) = 0
        ∧ { t with rings := s.rings, crg := s.crg, pwr := s.pwr } = s)
    ∧ (∀ v : BitVec 3, s.pwr.state = 0 → v.toNat ≤ 5 → s.crgReturnOk v.toNat = false →
        exec (.crgReturnCmd v) s
          = .next ((s.modRing v.toNat fun x => { x with cmdRefused := true }).fireRing v.toNat 6))
    ∧ (∀ v : BitVec 3, s.pwr.state = 0 → v.toNat ≤ 5 → s.crgReturnOk v.toNat = true → Ends (.crgReturnCmd v) s fun t =>
        t.ring v.toNat = { s.ring v.toNat with mode := 3, returning := true, cmdRefused := false, links := [] }
        ∧ 264 + v.toNat ∉ t.pwr.off ∧ 264 + v.toNat ∉ t.pwr.held
        ∧ (s.pwr.edgeHold = false → { t with rings := s.rings, pwr := s.pwr, crg := s.crg } = s))
    ∧ (∀ failed, ((s.ring r).returning = false ∨ (s.ring r).shifting.isSome = true) →
        Idles (.ringReturnComplete r failed) s)
    ∧ (∀ failed, (s.ring r).returning = true → (s.ring r).shifting = none →
        Ends (.ringReturnComplete r failed) s fun t =>
        (t.ring r).segOut = segsOf failed ∧ (t.ring r).returning = false
        ∧ (({ s.ring r with segOut := segsOf failed } : Ring).segsOut ≤ 1 → (t.ring r).mode = 0
            ∧ (s.svc.await = none → t.iag.arrived = s.iag.arrived ++ [1259 + 8 * r.val]))
        ∧ (1 < ({ s.ring r with segOut := segsOf failed } : Ring).segsOut → (t.ring r).mode = 2
            ∧ (t.ring r).cmdRefused = true
            ∧ (s.svc.await = none → t.iag.arrived = s.iag.arrived ++ [1262 + 8 * r.val])))

/-- Consolidation counts qualifying windows, drains and gates the odd ring of a pair, and wakes it (R54, R55, R56, R350). -/
def Obligations.ConsolidationGatesOddRings : Prop :=
  ∀ (q : Fin 3) (s : State),
    (∀ f0 f1 cycles, (s.consLoad q ≠ (f0, f1, cycles) ∨ s.time < s.crg.winAt.get zeroNat q + s.crg.windowUs.toNat
        ∨ s.pwr.state ≠ 0) → Idles (.consWindowEnd q f0 f1 cycles) s)
    ∧ (s.crg.winAt.get zeroNat q + s.crg.windowUs.toNat ≤ s.time → s.pwr.state = 0 →
        Ends (.consWindowEnd q (s.ring (2 * q)).carried (s.ring (2 * q + 1)).carried
          (2400 * (s.time - s.crg.winAt.get zeroNat q))) s fun t =>
        t.crg.qual.get zeroNat q
          = (if s.consFits q = true ∧ ((s.ring (2 * q)).carried + (s.ring (2 * q + 1)).carried) * 100
                < s.crg.entryPct.toNat * (188 * (2400 * (s.time - s.crg.winAt.get zeroNat q))) then
              s.crg.qual.get zeroNat q + 1 else 0)
        ∧ t.crg.winAt.get zeroNat q = s.time ∧ (t.ring (2 * q)).carried = 0 ∧ (t.ring (2 * q + 1)).carried = 0
        ∧ ((s.ring (2 * q + 1)).mode = 1 →
            s.crg.exitPct.toNat * (188 * (2400 * (s.time - s.crg.winAt.get zeroNat q)))
              < (s.ring (2 * q)).carried * 100 → (t.ring (2 * q + 1)).mode = 3)
        ∧ (∀ j, j ≠ q.val → t.crg.qual.get zeroNat j = s.crg.qual.get zeroNat j)
        ∧ { t with crg := s.crg, rings := s.rings, pwr := s.pwr } = s)
    ∧ (s.consFits q = true → s.crg.entryWin.toNat ≤ s.crg.qual.get zeroNat q → s.pwr.state = 0 →
        exec (.consEntry q) s
          = .next (s.modRing (2 * q.val + 1) fun x => { x with draining := true, drainAt := s.time }))
    ∧ ((s.consFits q = false ∨ s.crg.qual.get zeroNat q < s.crg.entryWin.toNat ∨ s.pwr.state ≠ 0) →
        Idles (.consEntry q) s)
    ∧ ((s.ring (2 * q.val + 1)).gating = false → Idles (.consDrainTimeout q) s ∧ Idles (.consGated q) s)
    ∧ (s.time < (s.ring (2 * q.val + 1)).drainAt + 20 → Idles (.consDrainTimeout q) s)
    ∧ ((s.ring (2 * q.val + 1)).gating = true → (s.ring (2 * q.val + 1)).drainAt + 20 ≤ s.time →
        Ends (.consDrainTimeout q) s fun t =>
        { t with rings := s.rings, pmc := s.pmc } = s ∧ (t.ring (2 * q.val + 1)).gating = true
          ∧ (t.ring (2 * q.val + 1)).moving = true)
    ∧ ((s.ring (2 * q.val + 1)).empty = false → Idles (.consGated q) s)
    ∧ ((s.ring (2 * q.val + 1)).gating = true → (s.ring (2 * q.val + 1)).empty = true → s.wakeCause q = false →
        Ends (.consGated q) s fun t =>
          t.ring (2 * q.val + 1) = { s.ring (2 * q.val + 1) with mode := 1, draining := false, moving := false }
          ∧ 264 + (2 * q.val + 1) ∈ t.pwr.off ∧ 264 + (2 * q.val + 1) ∈ t.pwr.held
          ∧ t.iag.arrived = s.iag.arrived ++ [1256 + 8 * (2 * q.val + 1) + 4]
          ∧ { t with rings := s.rings, pwr := s.pwr, iag := s.iag } = s)
    ∧ ((s.ring (2 * q.val + 1)).gating = true → (s.ring (2 * q.val + 1)).empty = true → s.wakeCause q = true →
        Ends (.consGated q) s fun t => (t.ring (2 * q.val + 1)).mode = 3 ∧ 264 + (2 * q.val + 1) ∉ t.pwr.off)
    ∧ (((s.ring (2 * q.val + 1)).mode ≠ 1 ∨ s.wakeCause q = false) → Idles (.consWake q) s)
    ∧ ((s.ring (2 * q.val + 1)).mode = 1 →
        (s.crg.consEn = false ∨ s.agedFor q = true ∨ (s.ring (2 * q)).segLosing ≠ [] ∨ (s.ring (2 * q)).segOut ≠ 0
          ∨ (s.ring (2 * q)).shifting.isSome = true ∨ s.pwr.trans.isSome = true) → Ends (.consWake q) s fun t =>
        t.ring (2 * q.val + 1) = { s.ring (2 * q.val + 1) with mode := 3, returning := false }
        ∧ t.crg.qual.get zeroNat q = 0 ∧ 264 + (2 * q.val + 1) ∉ t.pwr.off
        ∧ { t with rings := s.rings, crg := s.crg, pwr := s.pwr } = s)
    ∧ (((s.ring (2 * q.val + 1)).mode ≠ 3 ∨ (s.ring (2 * q.val + 1)).returning = true
          ∨ (s.ring (2 * q.val + 1)).shifting.isSome = true) → Idles (.consWakeDone q) s)
    ∧ ((s.ring (2 * q.val + 1)).mode = 3 → (s.ring (2 * q.val + 1)).returning = false →
        (s.ring (2 * q.val + 1)).shifting = none → s.pwr.edgeHold = false → Ends (.consWakeDone q) s fun t =>
          t.ring (2 * q.val + 1) = { s.ring (2 * q.val + 1) with mode := 0, links := [] }
          ∧ 264 + (2 * q.val + 1) ∉ t.pwr.held
          ∧ t.iag.arrived = s.iag.arrived ++ [1256 + 8 * (2 * q.val + 1) + 5]
          ∧ { t with rings := s.rings, pwr := s.pwr, iag := s.iag } = s)

/-- Die links are Active by control slots and go down with their agents, whose snoops and forwards the port then answers (R47, R80, R81, R82, R370, R417, R70, R148). -/
def Obligations.DieLinksAndDeadAgents : Prop :=
  (∀ (n : Fin 50) (s : State),
    (∀ init counts, (isLinkPort n = false ∨ (s.port n).down = true ∨ (s.port n).active = false) →
        Idles (.dieLinkControlSlot n init counts) s)
    ∧ (∀ init counts, isLinkPort n = true → (s.port n).down = false → (s.port n).active = true →
        (Ends (.dieLinkControlSlot n init counts) s fun t =>
          (∀ j, j ≠ n.val → t.port j = s.port j) ∧ (t.port n).rx = (s.port n).rx
          ∧ { t with ports := s.ports, pmc := s.pmc } = s)
        ∧ ((s.port n).stop.eject = [] → Ends (.dieLinkControlSlot n init counts) s fun t =>
          (∀ c, c < 6 → (t.port n).creds.get zeroNat c
            = (if init = true then 0 else (s.port n).creds.get zeroNat c) + counts.getD c 0)
          ∧ (t.port n).stop = (s.port n).stop ∧ { t with ports := s.ports } = s)
        ∧ (∀ key e, (s.port n).stop.eject = [(key, [e])] → (s.port n).owed = [] → (s.port n).oweInit = false →
          (s.port n).tx.replay.length < 64 → e.msg.cls.toNat < 6 → isNCR e.msg.dst.toNat = false →
          0 < (if init = true then 0 else (s.port n).creds.get zeroNat e.msg.cls.toNat)
            + counts.getD e.msg.cls.toNat 0 →
          Ends (.dieLinkControlSlot n init counts) s fun t =>
            (t.port n).stop.eject.get noEjected key = []
            ∧ (t.port n).sent = (s.port n).sent ++ [(s.port n).slot (s.port n).tx.next (.message e.dest e.msg)]
            ∧ (t.port n).tx.replay = (s.port n).tx.replay ++ [((s.port n).tx.next, .message e.dest e.msg)]
            ∧ (t.port n).creds.get zeroNat e.msg.cls.toNat
              = (if init = true then 0 else (s.port n).creds.get zeroNat e.msg.cls.toNat)
                + counts.getD e.msg.cls.toNat 0 - 1))
    ∧ ((s.fclkRuns = false ∨ isLinkPort n = false ∨ (s.port n).down = true ∨ (s.port n).active = true) →
        Idles (.linkActiveEntry n) s)
    ∧ (s.fclkRuns = true → isLinkPort n = true → (s.port n).down = false → (s.port n).active = false →
        Ends (.linkActiveEntry n) s fun t =>
          (t.port n).active = true ∧ (t.port n).exitAt = none ∧ (t.port n).creds = [] ∧ (t.port n).fdi = []
          ∧ (t.port n).rx = (s.port n).rx ∧ (t.port n).stop = (s.port n).stop
          ∧ ((s.port n).tx.replay = [] →
              (t.port n).sent = [(s.port n).slot (s.port n).tx.next (.control true (List.replicate 6 16))])
          ∧ (∀ e rest, (s.port n).tx.replay = e :: rest → rest.length < 63 → (t.port n).sent
              = ((e :: rest).filter (fun f => decide ((f.1 - e.1).toNat < 2048))).map
                  (fun f => (s.port n).slot f.1 f.2)
                ++ [(s.port n).slot (s.port n).tx.next (.control true (List.replicate 6 16))])
          ∧ ((s.port n).tx.replay.length < 64 → ∀ c, c < 6 → (t.port n).given.get zeroNat c = 16)
          ∧ t.iag.arrived = s.iag.arrived ++ (if (s.port n).exitAt.isSome then [1056 + 4 * n.val + 3] else [])
          ∧ { t with ports := s.ports, iag := s.iag } = s)
    ∧ ((isLinkPort n = false ∨ (s.port n).active = false) → Idles (.linkActiveExit n) s)
    ∧ (isLinkPort n = true → (s.port n).active = true →
        exec (.linkActiveExit n) s
          = .next (s.modPort n fun x => { x with active := false, exitAt := some s.time }))
    ∧ (((s.port n).down = true ∨ isLinkPort n = false ∨ ((s.port n).tx.fails < 8 ∧ (s.port n).rx.fails < 8)) →
        Idles (.linkDown n) s)
    ∧ (∀ i, ((i = .linkDown n ∧ (8 ≤ (s.port n).tx.fails ∨ 8 ≤ (s.port n).rx.fails))
          ∨ (i = .linkActiveTimeout n ∧ s.pwr.state = 0 ∧ ∃ a, (s.port n).exitAt = some a ∧ a + 100 ≤ s.time)) →
        (s.port n).down = false → isLinkPort n = true → (∀ p, (s.slice p).used = []) →
        Ends i s fun t =>
          t.port n = { s.port n with
            down := true, active := false, exitAt := none
            stop := { (s.port n).stop with
              eject := NMap.mapv noEjected (fun _ l => l.filter forDead) (s.port n).stop.eject } }
          ∧ t.iag.arrived = s.iag.arrived ++ [1056 + 4 * n.val + 1]
          ∧ (∃ e, t.ras.inflight = s.ras.inflight ++ [e] ∧ e.cls = 1 ∧ e.unit = 2 ∧ e.index = n.val ∧ e.code = 0x28)
          ∧ t.slices = s.slices)
    ∧ (((s.port n).exitAt = none ∨ s.pwr.state ≠ 0 ∨ (s.port n).down = true ∨ isLinkPort n = false) →
        Idles (.linkActiveTimeout n) s)
    ∧ (∀ a, (s.port n).exitAt = some a → s.time < a + 100 → Idles (.linkActiveTimeout n) s))
  ∧ (∀ (n : Fin 50) (m : Msg) (s : State),
    ((s.port n).down = false → Idles (.deadAgentForward n m) s)
    ∧ ((∀ e ∈ (s.port n).stop.eject, ∀ x ∈ e.2, x.msg ≠ m) → Idles (.deadAgentForward n m) s)
    ∧ (∀ k l x, (s.port n).down = true → (s.port n).stop.eject = [(k, l)] →
        l.find? (fun e => e.msg == m) = some x →
        ((m.opc = 0x23 ∨ (m.opc = 0x24 ∧ m.dst = 1022)) → Ends (.deadAgentForward n m) s fun t =>
          (t.port n).stop.outbox = (s.port n).stop.outbox
            ++ [flitOf { mkMsg 0x29 x.dest 1023 with home := m.home, addr := m.addr, htag := m.htag }
                ((s.copy (copyOfPort n)).entry m.home.toNat).phys]
          ∧ (t.port n).stop.eject.get noEjected k = takeFirst x l
          ∧ { t with ports := s.ports } = s)
        ∧ ((m.opc = 0x25 ∨ (m.opc = 0x24 ∧ m.dst ≠ 1022)) → Ends (.deadAgentForward n m) s fun t =>
          (t.port n).stop.outbox = (s.port n).stop.outbox
            ++ [flitOf { mkMsg 0x3C x.dest 1023 with home := m.home, addr := m.addr, htag := m.htag, poison := 0xFF }
                ((s.copy (copyOfPort n)).entry m.home.toNat).phys]
          ∧ { t with ports := s.ports } = s)
        ∧ (m.opc = 0x21 → m.reqid ≠ 1023 → Ends (.deadAgentForward n m) s fun t =>
          (t.port n).stop.outbox = (s.port n).stop.outbox
            ++ [flitOf { mkMsg 0x39 x.dest m.reqid with txn := m.txn, home := m.home, addr := m.addr, poison := 0xFF } 0,
                flitOf { mkMsg 0x3B x.dest 1023 with home := m.home, addr := m.addr, htag := m.htag, poison := 0xFF }
                  ((s.copy (copyOfPort n)).entry m.home.toNat).phys]
          ∧ { t with ports := s.ports } = s)))

/-- Every REQ row of a slice discards a wrong home and a request beyond its allowance, and answers one that names no region with ErrComp (R25, R27, R92, R109). -/
def Obligations.RequestsAreChecked : Prop :=
  ∀ e ∈ ([(.readShared, 0x00), (.readOwn, 0x01), (.upgrade, 0x02), (.readNc, 0x03), (.writeNcFull, 0x04),
      (.writeNcPartial, 0x05), (.atomicReq, 0x06), (.farOp, 0x07)] : List ((Fin 132 → Msg → Instr) × Nat)),
    ∀ (p : Fin 132) (m : Msg) (s : State),
      ((s.slice p).mayTake p (asOpc m e.2) = false → Idles (e.1 p m) s)
      ∧ ((s.slice p).mayTake p (asOpc m e.2) = true →
          ((s.slice p).allowed p m = false ∨ (s.slice p).freeTrk = none) → Ends (e.1 p m) s fun t =>
            Recorded s t 1 0x12 p ∧ SentNothing (s.takeMsg p (asOpc m e.2)) t p
            ∧ (t.slice p).trks = (s.slice p).trks ∧ (t.slice p).olt = (s.slice p).olt
            ∧ (t.slice p).sfl = (s.slice p).sfl)
      ∧ ((s.slice p).mayTake p (asOpc m e.2) = true → (s.slice p).allowed p m = true →
          (s.slice p).freeTrk.isSome = true → homeMatches (s.slice p) m true = false → Ends (e.1 p m) s fun t =>
        Recorded s t 2 0x04 p ∧ t.saf.fatal.isSome = true ∧ SentNothing (s.takeMsg p (asOpc m e.2)) t p
        ∧ (t.slice p).trks = (s.slice p).trks ∧ (t.slice p).olt = (s.slice p).olt ∧ (t.slice p).sfl = (s.slice p).sfl)
      ∧ (∀ k, (s.slice p).mayTake p (asOpc m e.2) = true → homeMatches (s.slice p) m true = true →
          (s.slice p).allowed p m = true →
          (s.slice p).freeTrk = some k → malformed (asOpc m e.2) = false → s.portOf m.addr = none →
          Ends (e.1 p m) s fun t =>
            Recorded s t 1 0x19 p ∧ (t.slice p).trk k = none ∧ (t.slice p).olt = (s.slice p).olt
            ∧ Sent (s.takeMsg p (asOpc m e.2)) t p
                { (s.slice p).homeMsg 0x31 m.src m.addr with txn := m.txn, cret := true, stat := 5 })

/-- What each REQ row starts: at a slice that holds nothing, and by the directory state of its line where an entry stands (R106, R107, R118, R180, R197, R200, R223, R110, R112, R113, R116, R117). -/
def Obligations.RequestsAreServedOnAFreshSlice : Prop :=
  (∀ (p : Fin 132) (m : Msg) (s : State), (s.slice p).fresh →
    (∀ e ∈ ([(.readShared, 0x00), (.readOwn, 0x01), (.upgrade, 0x02), (.readNc, 0x03), (.writeNcPartial, 0x05)] :
        List ((Fin 132 → Msg → Instr) × Nat)),
      s.accepts p (asOpc m e.2) →
      (e.2 < 3 → m.src.toNat < 64 ∧ s.glb.agents.getLsbD m.src.toNat = true) → m.src ≠ BitVec.ofNat 10 (320 + p.val) →
      Ends (e.1 p m) s fun t =>
        (∃ k, (t.slice p).trk 0 = some k ∧ k.req = asOpc m e.2 ∧ k.phase = .gather ∧ k.needs = true ∧ k.have_ = false
          ∧ k.awaits = 0)
        ∧ ((t.slice p).line m.addr).mode = 2 ∧ ((t.slice p).line m.addr).serve = some 0
        ∧ (∃ r, (t.slice p).hlc.mshrs = [r] ∧ r.addr = m.addr ∧ r.demand = true ∧ r.waiters = [.tracker 0]
            ∧ r.sent = false)
        ∧ ((t.slice p).dir m.addr).st = (if e.2 = 0 then 1 else if e.2 < 3 then 2 else 0)
        ∧ ((t.slice p).dir m.addr).vec = (if e.2 < 3 then agentBit m.src.toNat else 0)
        ∧ SentNothing s t p ∧ OnlySlices s t)
    ∧ (s.accepts p (asOpc m 0x04) → m.src ≠ BitVec.ofNat 10 (320 + p.val) → Ends (.writeNcFull p m) s fun t =>
        (t.slice p).trk 0 = none ∧ (t.slice p).olt = []
        ∧ (∃ q, (t.slice p).hlc.find m.addr = some q ∧ ((t.slice p).hlc.line q).data = m.data
            ∧ ((t.slice p).hlc.line q).poison = m.poison)
        ∧ Sent (s.takeMsg p (asOpc m 0x04)) t p
            { (s.slice p).homeMsg 0x2F m.src m.addr with txn := m.txn, cret := true }
        ∧ OnlySlices s t)
    ∧ (s.accepts p (asOpc m 0x06) → (isCA m.src.toNat = false ∨ m.hint = 2) → Ends (.atomicReq p m) s fun t =>
        (t.slice p).far.queue = [0] ∧ (∃ k, (t.slice p).trk 0 = some k ∧ k.phase = .farStart ∧ k.kind = .farAtomic)
        ∧ SentNothing s t p ∧ OnlySlices s t)
    ∧ (s.accepts p (asOpc m 0x06) → isCA m.src.toNat = true → s.glb.agents.getLsbD m.src.toNat = true →
        m.hint = 1 → Ends (.atomicReq p m) s fun t =>
        (t.slice p).far.queue = [] ∧ (∃ k, (t.slice p).trk 0 = some k ∧ k.phase = .gather ∧ k.kind = .readOwn)
        ∧ ((t.slice p).dir m.addr).st = 2 ∧ ((t.slice p).dir m.addr).vec = agentBit m.src.toNat
        ∧ SentNothing s t p ∧ OnlySlices s t)
    ∧ (s.accepts p (asOpc m 0x07) → s.slotValid p m.aux.toNat = true → Ends (.farOp p m) s fun t =>
        (t.slice p).far.queue = [0] ∧ (∃ k, (t.slice p).trk 0 = some k ∧ k.phase = .farStart ∧ k.kind = .farProgram)
        ∧ SentNothing s t p ∧ OnlySlices s t)
    ∧ (s.accepts p (asOpc m 0x07) → s.slotValid p m.aux.toNat = false → Ends (.farOp p m) s fun t =>
        (t.slice p).trk 0 = none ∧ (t.slice p).far.queue = [] ∧ (t.slice p).olt = []
        ∧ Sent (s.takeMsg p (asOpc m 0x07)) t p
            { (s.slice p).homeMsg 0x30 m.src m.addr with txn := m.txn, cret := true, stat := 2 }
        ∧ OnlySlices s t))
  ∧ (∀ (p : Fin 132) (m : Msg) (s : State) (q k : Nat), (s.slice p).finds m.addr q → (s.slice p).freeTrk = some k →
    (∀ e ∈ ([(.readOwn, 0x01, 0x20), (.readShared, 0x00, 0x21), (.readNc, 0x03, 0x22)] :
        List ((Fin 132 → Msg → Instr) × Nat × Nat)),
      s.accepts p (asOpc m e.2.1) → s.chains p m q →
      (e.2.1 ≠ 3 → m.src.toNat < 64 ∧ s.glb.agents.getLsbD m.src.toNat = true) → Ends (e.1 p m) s fun t =>
        Sent (s.takeMsg p (asOpc m e.2.1)) t p
          { (s.slice p).homeMsg e.2.2 (BitVec.ofNat 10 ((s.slice p).ent q).owner) m.addr with
            htag := BitVec.ofNat 8 k, reqid := m.src, txn := m.txn }
        ∧ (t.slice p).line m.addr
          = (if e.2.1 = 1 then
              { (s.slice p).line m.addr with pos := some q, mode := 1, depth := ((s.slice p).line m.addr).depth + 1 }
            else { (s.slice p).line m.addr with
              pos := some q, mode := 2, serve := some k, pend := if e.2.1 = 0 then 1 else 2 })
        ∧ ((t.slice p).ent q).st = (if e.2.1 = 0 then 1 else 2)
        ∧ ((t.slice p).ent q).vec
          = (if e.2.1 = 1 then agentBit m.src.toNat
            else if e.2.1 = 0 then agentBit ((s.slice p).ent q).owner ||| agentBit m.src.toNat
            else ((s.slice p).ent q).vec)
        ∧ (∃ y, (t.slice p).trk k = some y ∧ y.awaits = agentBit ((s.slice p).ent q).owner ∧ y.ownerForm = true
            ∧ y.phase = (if e.2.1 = 1 then .chained else .forward)))
    ∧ ((s.slice p).line m.addr = {} → ((s.slice p).ent q).st = 1 → m.src.toNat < 64 →
        s.glb.agents.getLsbD m.src.toNat = true →
        let v := ((s.slice p).ent q).vec &&& ~~~(agentBit m.src.toNat) &&& s.glb.agents
        let own := fun (t : State) => ((t.slice p).ent q).st = 2 ∧ ((t.slice p).ent q).vec = agentBit m.src.toNat
        let asked := fun (opc : Nat) (t : State) =>
          own t ∧ ((t.slice p).line m.addr).mode = 2 ∧ ((t.slice p).line m.addr).serve = some k
          ∧ ((t.slice p).line m.addr).ackcnt = (bitsOf v).length
          ∧ Sent (s.takeMsg p (asOpc m opc)) t p { (s.slice p).homeMsg 0x23 1022 m.addr with
              htag := BitVec.ofNat 8 k, data := v.setWidth 512 }
        (∀ e ∈ ([(.readOwn, 0x01), (.upgrade, 0x02)] : List ((Fin 132 → Msg → Instr) × Nat)),
          s.accepts p (asOpc m e.2) → (e.2 = 2 → ((s.slice p).ent q).has m.src.toNat = false) → v ≠ 0 →
          Ends (e.1 p m) s fun t => asked e.2 t
            ∧ ∃ y, (t.slice p).trk k = some y ∧ y.kind = .readOwn ∧ y.awaits = v ∧ y.needs = true ∧ y.have_ = false)
        ∧ (s.accepts p (asOpc m 0x02) → ((s.slice p).ent q).has m.src.toNat = true →
            (v ≠ 0 → Ends (.upgrade p m) s fun t => asked 0x02 t
              ∧ ∃ y, (t.slice p).trk k = some y ∧ y.kind = .upgrade ∧ y.awaits = v ∧ y.needs = false)
            ∧ (v = 0 → Ends (.upgrade p m) s fun t => own t
              ∧ (t.slice p).trk k = none ∧ (t.slice p).line m.addr = {}
              ∧ Sent (s.takeMsg p (asOpc m 0x02)) t p
                { (s.slice p).homeMsg 0x28 m.src m.addr with txn := m.txn, cret := true }))
        ∧ (s.accepts p (asOpc m 0x00) → Ends (.readShared p m) s fun t =>
            ((t.slice p).ent q).st = 1
            ∧ ((t.slice p).ent q).vec = (((s.slice p).ent q).vec ||| agentBit m.src.toNat) &&& s.glb.agents
            ∧ ((t.slice p).line m.addr).mode = 2 ∧ ((t.slice p).line m.addr).serve = some k
            ∧ (∃ y, (t.slice p).trk k = some y ∧ y.phase = .gather ∧ y.needs = true ∧ y.have_ = false)
            ∧ SentNothing (s.takeMsg p (asOpc m 0x00)) t p)))

/-- Requests to an open line queue behind it, and writebacks and clean evictions are answered (R107, R114, R25, R106, R109, R121, R122, R124). -/
def Obligations.OpenLinesAndWritebacks : Prop :=
  (∀ e ∈ ([(.readShared, 0x00), (.readOwn, 0x01), (.upgrade, 0x02), (.readNc, 0x03), (.writeNcFull, 0x04),
      (.writeNcPartial, 0x05)] : List ((Fin 132 → Msg → Instr) × Nat)),
    ∀ (p : Fin 132) (m : Msg) (s : State) (k : Nat), s.accepts p (asOpc m e.2) → (s.slice p).freeTrk = some k →
      (((s.slice p).line m.addr).mode = 2 ∨ ((s.slice p).line m.addr).mode = 3) →
      m.age.toNat < (s.slice p).brkUs.toNat → k ∉ ((s.slice p).line m.addr).queue →
      Ends (e.1 p m) s fun t =>
        ((t.slice p).line m.addr).queue = ((s.slice p).line m.addr).queue ++ [k]
        ∧ ((t.slice p).line m.addr).mode = ((s.slice p).line m.addr).mode
        ∧ ((t.slice p).line m.addr).depth = ((s.slice p).line m.addr).depth
        ∧ ((t.slice p).line m.addr).serve = ((s.slice p).line m.addr).serve
        ∧ (∃ x, (t.slice p).trk k = some x ∧ x.req = asOpc m e.2 ∧ x.phase = .queued ∧ x.arr = s.time)
        ∧ SentNothing (s.takeMsg p (asOpc m e.2)) t p)
  ∧ (∀ (p : Fin 132) (m : Msg) (s : State),
    (∀ e ∈ ([(.writeback, 0x10), (.evictClean, 0x11)] : List ((Fin 132 → Msg → Instr) × Nat)),
      ((s.slice p).mayTake p (asOpc m e.2) = false → Idles (e.1 p m) s)
      ∧ ((s.slice p).mayTake p (asOpc m e.2) = true → homeMatches (s.slice p) m true = false → Ends (e.1 p m) s fun t =>
        Recorded s t 2 0x04 p ∧ t.saf.fatal.isSome = true ∧ SentNothing (s.takeMsg p (asOpc m e.2)) t p
        ∧ (t.slice p).hlc = (s.slice p).hlc ∧ (t.slice p).sfl = (s.slice p).sfl))
    ∧ ((s.slice p).mayTake p (asOpc m 0x10) = true → homeMatches (s.slice p) m true = true → (s.slice p).fresh →
        Ends (.writeback p m) s fun t =>
        Sent (s.takeMsg p (asOpc m 0x10)) t p
          { (s.slice p).homeMsg 0x2C m.src m.addr with txn := m.txn, cret := true }
        ∧ (t.slice p).cnt.get zeroNat Cnt.stale.ctorIdx
            = satAdd 0xFFFF ((s.slice p).cnt.get zeroNat Cnt.stale.ctorIdx) 1
        ∧ (t.slice p).hlc = (s.slice p).hlc ∧ (t.slice p).sfl = (s.slice p).sfl ∧ OnlySlices s t)
    ∧ ((s.slice p).mayTake p (asOpc m 0x11) = true → homeMatches (s.slice p) m true = true → (s.slice p).fresh →
        Ends (.evictClean p m) s fun t =>
        Sent (s.takeMsg p (asOpc m 0x11)) t p
          { (s.slice p).homeMsg 0x2B m.src m.addr with txn := m.txn, cret := true }
        ∧ (t.slice p).hlc = (s.slice p).hlc ∧ (t.slice p).sfl = (s.slice p).sfl ∧ OnlySlices s t)
    ∧ (∀ q, (s.slice p).finds m.addr q → homeMatches (s.slice p) m true = true →
        (s.slice p).forwardAwaits m.addr m.src.toNat = false →
        let e := (s.slice p).ent q
        let acked := fun (opc : Nat) (t : State) => Sent (s.takeMsg p (asOpc m opc)) t p
          { (s.slice p).homeMsg 0x2B m.src m.addr with txn := m.txn, cret := true }
        ((s.slice p).mayTake p (asOpc m 0x10) = true → e.st = 2 → e.has m.src.toNat = true →
          Ends (.writeback p m) s fun t =>
            (t.slice p).hlc = (((s.takeMsg p (asOpc m 0x10)).storeLine p m.addr m.data m.poison none).1.slice p).hlc
            ∧ ((t.slice p).ent q).st = 0 ∧ ((t.slice p).ent q).vec = 0 ∧ ((t.slice p).ent q).poison = e.poison
            ∧ acked 0x10 t)
        ∧ ((s.slice p).mayTake p (asOpc m 0x11) = true → e.st = 2 → e.has m.src.toNat = true →
          Ends (.evictClean p m) s fun t =>
            Recorded s t 1 0x10 p ∧ ((t.slice p).ent q).st = 0 ∧ ((t.slice p).ent q).vec = 0
            ∧ ((t.slice p).ent q).poison = true ∧ acked 0x11 t)
        ∧ ((s.slice p).mayTake p (asOpc m 0x11) = true → e.st ≠ 2 → e.st ≠ 3 → e.has m.src.toNat = true →
          Ends (.evictClean p m) s fun t =>
            ((t.slice p).ent q).vec = e.vec &&& ~~~(agentBit m.src.toNat)
            ∧ ((t.slice p).ent q).st = (if e.st = 1 ∧ e.vec &&& ~~~(agentBit m.src.toNat) = 0 then 0 else e.st)
            ∧ (t.slice p).hlc = (s.slice p).hlc ∧ acked 0x11 t))
    ∧ ((s.slice p).mayTake p (asOpc m 0x10) = true → homeMatches (s.slice p) m true = true →
        (s.slice p).forwardAwaits m.addr m.src.toNat = true → ((s.slice p).line m.addr).mode ≠ 0 →
        Ends (.writeback p m) s fun t =>
          ((t.slice p).line m.addr).wbHeld = ((s.slice p).line m.addr).wbHeld ++ [asOpc m 0x10] ∧ SentNothing (s.takeMsg p (asOpc m 0x10)) t p))

/-- InvAck, FwdDone, CopyBack, RecallData, MemData and MemAck: a stray answer is a protocol error, an awaited one counts (R25, R109, R111, R117, R124, R127). -/
def Obligations.AnswersCloseTransactions : Prop :=
  ∀ (p : Fin 132) (m : Msg) (s : State),
    (∀ e ∈ ([(.invAck, 0x29), (.fwdDone, 0x2A), (.copyBack, 0x3B), (.recallData, 0x3C), (.memData, 0x3E),
        (.memAck, 0x35)] : List ((Fin 132 → Msg → Instr) × Nat)),
      ((s.slice p).mayTake p (asOpc m e.2) = false → Idles (e.1 p m) s)
      ∧ ((s.slice p).mayTake p (asOpc m e.2) = true → homeMatches (s.slice p) m true = false → Ends (e.1 p m) s fun t =>
        Recorded s t 2 0x04 p ∧ t.saf.fatal.isSome = true ∧ SentNothing (s.takeMsg p (asOpc m e.2)) t p)
      ∧ ((s.slice p).mayTake p (asOpc m e.2) = true → homeMatches (s.slice p) m true = true → (s.slice p).fresh → m.stat ≠ 6 → Ends (e.1 p m) s fun t =>
        Recorded s t 1 0x10 p ∧ SentNothing s t p ∧ (t.slice p).trks = [] ∧ (t.slice p).olt = []
        ∧ (t.slice p).protoErrValid = true ∧ (t.slice p).hlc = (s.slice p).hlc ∧ OnlySlices s t))
    ∧ ((s.slice p).mayTake p (asOpc m 0x29) = true → homeMatches (s.slice p) m true = true →
        ((s.slice p).awaitsFrom m.htag.toNat m.addr m.src.toNat false = true) →
        ((s.slice p).line m.addr).mode = 2 → ((s.slice p).line m.addr).serve = some m.htag.toNat →
        2 ≤ ((s.slice p).line m.addr).ackcnt → ((s.slice p).line m.addr).wbHeld = [] →
        Ends (.invAck p m) s fun t =>
          (t.slice p).line m.addr = { (s.slice p).line m.addr with ackcnt := ((s.slice p).line m.addr).ackcnt - 1 }
          ∧ (∀ k, (s.slice p).trk m.htag.toNat = some k → ∃ k', (t.slice p).trk m.htag.toNat = some k'
              ∧ k'.awaits = k.awaits &&& ~~~(agentBit m.src.toNat))
          ∧ SentNothing (s.takeMsg p (asOpc m 0x29)) t p)
    ∧ (∀ k, (s.slice p).mayTake p (asOpc m 0x2A) = true → homeMatches (s.slice p) m true = true → (s.slice p).trk m.htag.toNat = some k →
        ((s.slice p).awaitsFrom m.htag.toNat m.addr m.src.toNat true = true) → k.phase = .chained →
        k.req.addr = m.addr → ((s.slice p).line m.addr).mode = 1 → 2 ≤ ((s.slice p).line m.addr).depth →
        ((s.slice p).line m.addr).wbHeld = [] → ((s.slice p).line m.addr).serve ≠ some m.htag.toNat →
        Ends (.fwdDone p m) s fun t =>
          (t.slice p).line m.addr = { (s.slice p).line m.addr with depth := ((s.slice p).line m.addr).depth - 1 }
          ∧ (t.slice p).trk m.htag.toNat = none
          ∧ Sent (s.takeMsg p (asOpc m 0x2A)) t p
              { (s.slice p).homeMsg 0x2F k.req.src k.req.addr with txn := k.req.txn, cret := true })
    ∧ (∀ k, (s.slice p).mayTake p (asOpc m 0x3B) = true → homeMatches (s.slice p) m true = true → (s.slice p).trk m.htag.toNat = some k →
        ((s.slice p).awaitsFrom m.htag.toNat m.addr m.src.toNat true = true) →
        ((s.slice p).line m.addr).mode = 2 → ((s.slice p).line m.addr).pend = 1 →
        ((s.slice p).line m.addr).serve = some m.htag.toNat → ((s.slice p).line m.addr).depth = 0 →
        ((s.slice p).line m.addr).queue = [] → ((s.slice p).line m.addr).wbHeld = [] →
        Ends (.copyBack p m) s fun t =>
          (t.slice p).line m.addr = {} ∧ (t.slice p).trk m.htag.toNat = none
          ∧ (t.slice p).hlc = (((s.takeMsg p (asOpc m 0x3B)).storeLine p m.addr m.data m.poison none).1.slice p).hlc)
    ∧ (∀ k, (s.slice p).mayTake p (asOpc m 0x3C) = true → homeMatches (s.slice p) m true = true → (s.slice p).trk m.htag.toNat = some k →
        ((s.slice p).awaitsFrom m.htag.toNat m.addr m.src.toNat true = true) →
        ((s.slice p).line m.addr).mode = 2 → ((s.slice p).line m.addr).pend = 0 →
        ((s.slice p).line m.addr).serve = some m.htag.toNat → 2 ≤ ((s.slice p).line m.addr).ackcnt →
        ((s.slice p).line m.addr).wbHeld = [] → Ends (.recallData p m) s fun t =>
          (t.slice p).line m.addr = { (s.slice p).line m.addr with ackcnt := ((s.slice p).line m.addr).ackcnt - 1 }
          ∧ SentNothing (s.takeMsg p (asOpc m 0x3C)) t p)
    ∧ (∀ r, (s.slice p).mayTake p (asOpc m 0x3E) = true → homeMatches (s.slice p) m true = true → m.stat ≠ 6 →
        (s.slice p).hlc.mshrs.find? (fun r => r.tag == m.htag.toNat && r.addr == m.addr && r.sent) = some r →
        r.waiters = [.prefetch] → (s.slice p).hlc.maint = [] → (s.slice p).line m.addr = {} →
        Ends (.memData p m) s fun t =>
          (t.slice p).hlc.mshrs = (s.slice p).hlc.mshrs.filter (fun n => n.idx != r.idx)
          ∧ SentNothing (s.takeMsg p (asOpc m 0x3E)) t p)
    ∧ (∀ w, (s.slice p).mayTake p (asOpc m 0x35) = true → homeMatches (s.slice p) m true = true → m.stat ≠ 6 →
        (s.slice p).hlc.writes.find? (fun w => w.idx == m.htag.toNat && w.addr == m.addr && w.sent) = some w →
        w.waiter = none → (s.slice p).hlc.maint = [] → Ends (.memAck p m) s fun t =>
          (t.slice p).hlc = (s.slice p).hlc.writeEnd w.ord ∧ (t.slice p).trks = (s.slice p).trks
          ∧ SentNothing (s.takeMsg p (asOpc m 0x35)) t p)

/-- Credit requests are granted as Table 5.3 says, and the steward relay keeps to its credits (R25, R90, R91, R109, R9, R29, R30). -/
def Obligations.CreditsAndRelays : Prop :=
  (∀ (p : Fin 132) (m : Msg) (s : State),
    ((s.slice p).mayTake p (asOpc m 0x2D) = false → Idles (.creditRequest p m) s)
    ∧ ((s.slice p).mayTake p (asOpc m 0x2D) = true → homeMatches (s.slice p) m false = false → Ends (.creditRequest p m) s fun t =>
        Recorded s t 2 0x04 p ∧ t.saf.fatal.isSome = true ∧ (t.slice p).g = (s.slice p).g
        ∧ (t.slice p).crq = (s.slice p).crq)
    ∧ ((s.slice p).mayTake p (asOpc m 0x2D) = true → homeMatches (s.slice p) m false = true → s.ras.corrLog = true →
        (holderOf m.src.toNat = none ∨ (∃ h, holderOf m.src.toNat = some h
          ∧ (8 - poolSize h - (s.slice p).held h = 0 ∨ (s.slice p).crq.any (fun c => c.holder == h) = true))) →
        Ends (.creditRequest p m) s fun t => Recorded s t 0 0x11 p ∧ (t.slice p).g = (s.slice p).g
          ∧ (t.slice p).crq = (s.slice p).crq ∧ SentNothing (s.takeMsg p (asOpc m 0x2D)) t p)
    ∧ (∀ h n, (s.slice p).mayTake p (asOpc m 0x2D) = true → homeMatches (s.slice p) m false = true →
        holderOf m.src.toNat = some h → (∀ c ∈ (s.slice p).crq, c.holder ≠ h) →
        n = min (if 1 ≤ m.aux.toNat ∧ m.aux.toNat ≤ 8 then m.aux.toNat else 1) (8 - poolSize h - (s.slice p).held h) →
        n ≠ 0 → Ends (.creditRequest p m) s fun t =>
          (∃ c, (t.slice p).crq = (s.slice p).crq ++ [c] ∧ c.holder = h ∧ c.want = n ∧ c.src = m.src ∧ c.arr = s.time)
          ∧ (t.slice p).g = (s.slice p).g ∧ SentNothing (s.takeMsg p (asOpc m 0x2D)) t p)
    ∧ (∀ c, s.pending = [] → s.fclkRuns = true → (s.slice p).crq = [c] → ∃ t, step s = .next t
        ∧ (0 < (s.slice p).sharedFree →
          (t.slice p).held c.holder = (s.slice p).held c.holder + min c.want (s.slice p).sharedFree
          ∧ (t.slice p).crq = []
          ∧ Sent s t p { mkMsg 0x2E 1023 c.src with
              home := (s.slice p).lslice, aux := BitVec.ofNat 8 (min c.want (s.slice p).sharedFree) })
        ∧ ((s.slice p).sharedFree = 0 →
          (t.slice p).crq = [{ c with fresh := false }] ∧ (t.slice p).g = (s.slice p).g ∧ SentNothing s t p)))
  ∧ (∀ (m : Msg) (s : State),
    (m.dst = 1023 → (if m.cls = 0 then 11 ≤ s.portHolds 132 m.home else 4 ≤ s.maintUsed 48 m.home.toNat) →
        Idles (.stewardRelay m) s)
    ∧ (m.dst ≠ 1023 → isEngine m.dst.toNat = false → Idles (.stewardRelay m) s)
    ∧ (m.dst = 1023 → (if m.cls = 0 then s.portHolds 132 m.home < 11 else s.maintUsed 48 m.home.toNat < 4) →
        Ends (.stewardRelay m) s fun t =>
          t.stw.relays = s.stw.relays ++ [{
            src := m.src, txn := m.txn, home := m.home, req := m.cls == 0, since := s.time }]
          ∧ ((s.portTake 48 m).mustWait 48 m = false →
              (t.port 48).stop.outbox = (s.port 48).stop.outbox ++ [flitOf m
                (if m.opc = 0x1B then m.aux.toNat else ((s.copy stewardCopy).entry m.home.toNat).phys)]
              ∧ (t.port 48).held = (s.port 48).held)
          ∧ ((s.portTake 48 m).mustWait 48 m = true →
              (t.port 48).held = (s.port 48).held ++ [m] ∧ (t.port 48).stop.outbox = (s.port 48).stop.outbox))
    ∧ (m.dst ≠ 1023 → isEngine m.dst.toNat = true → Ends (.stewardRelay m) s fun t =>
        t.stw.relays = (if m.cret = true ∨ m.opc = 0x34 then
          s.stw.relays.filter (fun r => !(r.src == m.dst && r.txn == m.txn)) else s.stw.relays)
        ∧ ((s.port 48).mntWait = [] → (t.port 48).stop.outbox = (s.port 48).stop.outbox ++ [flitOf m 0]
          ∧ { t with ports := s.ports, stw := s.stw, pmc := s.pmc } = s)))

/-- BREAKAWAY, TRACKER_WATCHDOG_EXPIRY and ALLOC_WAIT_RELEASE: when they act on a tracker, and what they do (R99, R100, R102, R181). -/
def Obligations.TrackersAgeAndWait : Prop :=
  ∀ (p : Fin 132) (n : Fin 256) (s : State),
    ((s.slice p).trk n = none →
        Idles (.breakaway p n) s ∧ Idles (.trackerWatchdogExpiry p n) s ∧ Idles (.allocWaitRelease p n) s)
    ∧ (∀ k, (s.slice p).trk n = some k →
        ((k.brk = true ∨ s.broke p k = false ∨ (k.phase ≠ .queued ∧ k.phase ≠ .allocWait)) → Idles (.breakaway p n) s)
        ∧ (k.brk = false → s.broke p k = true → k.phase = .allocWait → Ends (.breakaway p n) s fun t =>
            (t.slice p).trk n = some { k with brk := true, brkAt := s.fclk }
            ∧ (t.slice p).cnt.get zeroNat Cnt.brk.ctorIdx = satAdd 0xFFFF ((s.slice p).cnt.get zeroNat Cnt.brk.ctorIdx) 1
            ∧ (t.slice p).olt = (s.slice p).olt ∧ SentNothing s t p ∧ { t with slices := s.slices, pmc := s.pmc } = s)
        ∧ (k.brk = false → s.broke p k = true → k.phase = .queued → Ends (.breakaway p n) s fun t =>
            (t.slice p).trk n = some { k with brk := true, brkAt := s.fclk }
            ∧ n.val ∈ ((t.slice p).line k.req.addr).queue
            ∧ ((t.slice p).line k.req.addr).mode = ((s.slice p).line k.req.addr).mode ∧ SentNothing s t p
            ∧ { t with slices := s.slices, pmc := s.pmc } = s)
        ∧ ((n.val ∈ (s.slice p).wdogDone ∨ s.time - k.arr < (s.slice p).wdogUs.toNat) →
            Idles (.trackerWatchdogExpiry p n) s)
        ∧ (n.val ∉ (s.slice p).wdogDone → (s.slice p).wdogUs.toNat ≤ s.time - k.arr →
            Ends (.trackerWatchdogExpiry p n) s fun t =>
              Recorded s t 2 0x13 p ∧ t.saf.fatal.isSome = true ∧ t.iag.arrived = s.iag.arrived ++ [1453]
              ∧ (t.slice p).wdogDone = (s.slice p).wdogDone ++ [n.val] ∧ (t.slice p).trks = (s.slice p).trks)
        ∧ ((k.phase ≠ .allocWait
              ∨ ((s.slice p).sfl.wait.get noNats (sfSetOf k.req.addr).toNat).head? ≠ some n.val) →
            Idles (.allocWaitRelease p n) s)
        ∧ (∀ j l, k.phase = .allocWait → k.resv = none → k.victim = none →
            (s.slice p).sfl.wait.get noNats (sfSetOf k.req.addr).toNat = n.val :: l →
            (s.slice p).allocate (sfSetOf k.req.addr).toNat = .full → j = n.val →
            Idles (.allocWaitRelease p n) s))
    ∧ (∀ k, (s.slice p).trk n = some k → k.phase = .allocWait → k.brk = false → s.broke p k = false →
        (∀ q l, k.resv = none → k.victim = none → isOvf q = true → s.eldest p ≠ some n.val →
          (s.slice p).sfl.wait.get noNats (sfSetOf k.req.addr).toNat = n.val :: l →
          (s.slice p).allocate (sfSetOf k.req.addr).toNat = .victim q → Idles (.allocWaitRelease p n) s)
        ∧ (∀ q l, k.resv = none → k.victim = none → ((s.slice p).ent q).st = 2 →
          s.glb.agents.getLsbD ((s.slice p).ent q).owner = true → (isOvf q = false ∨ s.eldest p = some n.val) →
          (s.slice p).sfl.wait.get noNats (sfSetOf k.req.addr).toNat = n.val :: l →
          (s.slice p).allocate (sfSetOf k.req.addr).toNat = .victim q → Ends (.allocWaitRelease p n) s fun t =>
            (t.slice p).trk n = some { k with
              victim := some ((s.slice p).lineOf q)
              awaits := k.awaits ||| agentBit ((s.slice p).ent q).owner, ownerForm := true }
            ∧ (t.slice p).line ((s.slice p).lineOf q) = { (s.slice p).line ((s.slice p).lineOf q) with
                mode := 2, serve := some n.val, pos := some q, pend := 3 }
            ∧ (t.slice p).sfl = (s.slice p).sfl
            ∧ Sent s t p { (s.slice p).homeMsg 0x24 (BitVec.ofNat 10 ((s.slice p).ent q).owner) ((s.slice p).lineOf q) with
                htag := BitVec.ofNat 8 n.val })
        ∧ (∀ q, k.resv = some q → k.victim = none → (s.slice p).sfl.blocks = [] →
          (s.slice p).sfl.wait.get noNats (sfSetOf k.req.addr).toNat = [n.val] →
          (((s.slice p).line k.req.addr).mode = 2 ∨ ((s.slice p).line k.req.addr).mode = 3 →
            Ends (.allocWaitRelease p n) s fun t =>
              (t.slice p).sfl.wait.get noNats (sfSetOf k.req.addr).toNat = []
              ∧ (t.slice p).trk n = some { k with phase := .queued, resv := none }
              ∧ (t.slice p).line k.req.addr = { (s.slice p).line k.req.addr with
                  queue := ((s.slice p).line k.req.addr).queue.filter (· != n.val) ++ [n.val] }
              ∧ SentNothing s t p)
          ∧ ((s.slice p).line k.req.addr = {} → k.kind = .readShared → k.req.opc = 0 → (s.slice p).hlc.lines = [] →
              (s.slice p).hlc.mshrs = [] → (s.slice p).hlc.writes = [] → (s.slice p).hlc.streams = [] → k.have_ = false →
              s.glb.agents.getLsbD k.req.src.toNat = true →
              Ends (.allocWaitRelease p n) s fun t =>
              (t.slice p).sfl.wait.get noNats (sfSetOf k.req.addr).toNat = []
              ∧ (t.slice p).line k.req.addr = { mode := 2, serve := some n.val, pos := some q }
              ∧ (t.slice p).ent q = mkEnt k.req.addr q 1 (agentBit k.req.src.toNat) false
              ∧ (∃ r, (t.slice p).hlc.mshrs = [r] ∧ r.addr = k.req.addr ∧ r.waiters = [.tracker n.val])
              ∧ SentNothing s t p)))

/-- Memory reads and writes leave the slice as Chapter 11 says, miss registers oldest first (R27, R222, R223, R224). -/
def Obligations.MemoryAccessesAndMissesAreSent : Prop :=
  (∀ (p : Fin 132) (a : LineAddr) (s : State),
    ((∀ e ∈ (s.slice p).used, e.2.waitMiss = false) → Idles (.missRegisterOpen p) s)
    ∧ ((s.slice p).hlc.writes.find? (fun w => w.addr == a && !w.sent) = none → Idles (.evictionWriteSend p a) s)
    ∧ (∀ w, (s.slice p).hlc.writes.find? (fun w => w.addr == a && !w.sent) = some w →
        ((s.slice p).hlc.lineBusy a w.ord = true → Idles (.evictionWriteSend p a) s)
        ∧ (∀ n, (s.slice p).hlc.lineBusy a w.ord = false → s.portOf a = some n → 1 ≤ s.writesAt p n →
            Idles (.evictionWriteSend p a) s)
        ∧ (∀ n, (s.slice p).hlc.lineBusy a w.ord = false → s.portOf a = some n → s.writesAt p n = 0 → n < 12 →
            Ends (.evictionWriteSend p a) s fun t =>
              (t.slice p).hlc.writes = (s.slice p).hlc.writes.map (fun v =>
                if v.ord = w.ord then { v with sent := true } else v)
              ∧ Sent s t p { (s.slice p).homeMsg 0x12 (BitVec.ofNat 10 (1008 + n)) a with
                  htag := BitVec.ofNat 8 w.idx, data := w.data, poison := w.poison }
              ∧ { t with slices := s.slices } = s)
        ∧ ((s.slice p).hlc.lineBusy a w.ord = false → s.portOf a = none → w.waiter = none →
            (s.slice p).hlc.maint = [] → Ends (.evictionWriteSend p a) s fun t =>
              (t.slice p).hlc.writes = (s.slice p).hlc.writes.filter (fun v => v.ord != w.ord)
              ∧ Recorded s t 1 0x19 p ∧ SentNothing s t p)))
  ∧ (∀ (p : Fin 132) (s : State),
    (∀ n k, n < 256 → (s.slice p).trks = [(n, some k)] → k.waitMiss = true → k.pin = none → (s.slice p).hlc.lines = [] →
        (s.slice p).hlc.mshrs = [] → (s.slice p).hlc.writes = [] → Ends (.missRegisterOpen p) s fun t =>
          (∃ r, (t.slice p).hlc.mshrs = [r] ∧ r.addr = k.req.addr ∧ r.waiters = [.tracker n] ∧ r.demand = true
            ∧ r.sent = false)
          ∧ (t.slice p).trk n = some { k with waitMiss := false } ∧ SentNothing s t p)
    ∧ ((s.slice p).hlc.mshrs = [] → Idles (.missRegisterSend p) s)
    ∧ (∀ r n, (s.slice p).hlc.mshrs = [r] → r.sent = false → r.demand = true → (s.slice p).hlc.writes = [] →
        s.portOf r.addr = some n → Ends (.missRegisterSend p) s fun t =>
          (t.slice p).hlc.mshrs = [{ r with sent := true }]
          ∧ Sent s t p { (s.slice p).homeMsg 0x08 (BitVec.ofNat 10 (1008 + n)) r.addr with htag := BitVec.ofNat 8 r.tag }
          ∧ { t with slices := s.slices } = s))

/-- The three HLC_MAINT rows, HLC_MAINT_RESUME and HLC_WALKER_VISIT: acceptance, application and completion of cache maintenance (R25, R73, R109, R227, R228, R229, R230). -/
def Obligations.MaintenanceIsQueuedAndAnswered : Prop :=
  ∀ (p : Fin 132) (m : Msg) (s : State),
    (∀ e ∈ ([(.hlcMaintClean, 0), (.hlcMaintInvalidate, 1), (.hlcMaintCleanInvalidate, 2)] :
        List ((Fin 132 → Msg → Instr) × BitVec 4)), m.aop.toNat ≤ 2 →
      (((s.slice p).mayTake p { asOpc m 0x1A with aop := e.2 } = false ∨ (s.slice p).hlc.maintFull = true) →
          Idles (e.1 p m) s)
      ∧ ((s.slice p).mayTake p { asOpc m 0x1A with aop := e.2 } = true → (s.slice p).hlc.maintFull = false →
        (homeMatches (s.slice p) m (m.aux != 1 && m.aux != 2) = false → Ends (e.1 p m) s fun t =>
          Recorded s t 2 0x04 p ∧ (t.slice p).hlc = (s.slice p).hlc
          ∧ SentNothing (s.takeMsg p { asOpc m 0x1A with aop := e.2 }) t p)
        ∧ (homeMatches (s.slice p) m true = true → 2 < m.aux.toNat → Ends (e.1 p m) s fun t =>
          Sent (s.takeMsg p { asOpc m 0x1A with aop := e.2 }) t p
            { (s.slice p).homeMsg 0x34 m.src 0 with txn := m.txn, stat := 7 }
          ∧ (t.slice p).hlc = (s.slice p).hlc ∧ { t with slices := s.slices } = s)
        ∧ (homeMatches (s.slice p) m (m.aux == 0) = true → m.aux.toNat ≤ 2 →
          ((s.slice p).hlc.state = 0 ∨ (s.slice p).hlc.wayEn = 0) → Ends (e.1 p m) s fun t =>
          Sent (s.takeMsg p { asOpc m 0x1A with aop := e.2 }) t p
            { (s.slice p).homeMsg 0x34 m.src 0 with txn := m.txn, stat := 0 }
          ∧ (t.slice p).hlc.maint = (s.slice p).hlc.maint
          ∧ (m.aux ≠ 0 → (t.slice p).hlc = (s.slice p).hlc ∧ { t with slices := s.slices } = s))
        ∧ (homeMatches (s.slice p) m false = true → m.aux = 2 → (s.slice p).hlc.state ≠ 0 → (s.slice p).hlc.wayEn ≠ 0 →
          Ends (e.1 p m) s fun t =>
          (t.slice p).hlc.maint = (s.slice p).hlc.maint ++ [{
            idx := (s.slice p).hlc.maintNext, src := some { asOpc m 0x1A with aop := e.2 }, op := e.2, scope := 2,
            addr := m.addr }]
          ∧ (t.slice p).hlc.walks = (s.slice p).hlc.walks ++ [{ maint := some (s.slice p).hlc.maintNext }]
          ∧ SentNothing (s.takeMsg p { asOpc m 0x1A with aop := e.2 }) t p ∧ { t with slices := s.slices } = s)))
    ∧ (∀ i : Fin 8, ((s.slice p).hlc.maint.filter (fun m => m.waiting && decide (m.scope < 2))).length ≤ i.val →
        Idles (.hlcMaintResume p i) s)
    ∧ ((s.slice p).hlc.walks = [] → Idles (.hlcWalkerVisit p) s)
    ∧ (∀ (a : Maint) (q : Msg), (s.slice p).hlc.maint = [a] → a.waiting = true → a.src = some q → a.acks = [] →
        (s.slice p).hlc.mshrs = [] → (s.slice p).hlc.writes = [] → (s.slice p).hlc.walks = [] → a.scope = 0 →
        (∀ e ∈ (s.slice p).used, e.2.pin = none) →
        ((s.slice p).hlc.lines = [] → Ends (.hlcMaintResume p 0) s fun t =>
          (t.slice p).hlc = { (s.slice p).hlc with maint := [] }
          ∧ Sent s t p { (s.slice p).homeMsg 0x34 q.src 0 with txn := q.txn } ∧ { t with slices := s.slices } = s)
        ∧ (∀ r d po, (s.slice p).hlc.find a.addr = some r → (s.slice p).hlc.line r = mkLine a.addr d po true false →
          Ends (.hlcMaintResume p 0) s fun t =>
          (t.slice p).hlc.maint = [{ a with waiting := false, acks := [(s.slice p).hlc.ord] }]
          ∧ (t.slice p).hlc.line r = (if a.op = 0 then mkLine a.addr d po false false else {})
          ∧ (t.slice p).hlc.writes = [{
            evb := true, idx := 0, addr := (s.slice p).hAddr r, data := d, poison := po, ord := (s.slice p).hlc.ord }]
          ∧ SentNothing s t p))
    ∧ (∀ (w : Walk) (l : List Walk), (s.slice p).hlc.walks = w :: l → (s.slice p).hlc.lines = [] →
        (s.slice p).hPinned w.next = false →
        (w.next < 4095 → Ends (.hlcWalkerVisit p) s fun t =>
          t = s.modHlc p fun h => { h with walks := { w with next := w.next + 1 } :: l })
        ∧ (w.next = 4095 → w.again = [] →
          (w.maint = none → Ends (.hlcWalkerVisit p) s fun t => t = s.modHlc p fun h => { h with walks := l })
          ∧ (∀ (a : Maint) (q : Msg), w.maint = some a.idx → (s.slice p).hlc.maint = [a] → a.scope = 2 → a.acks = [] →
              a.src = some q → (∀ v ∈ l, v.maint ≠ some a.idx) → Ends (.hlcWalkerVisit p) s fun t =>
              (t.slice p).hlc = { (s.slice p).hlc with walks := l, maint := [] }
              ∧ Sent s t p { (s.slice p).homeMsg 0x34 q.src 0 with txn := q.txn } ∧ { t with slices := s.slices } = s)))
    ∧ (∀ (w : Walk) (a : Maint) v d po, (s.slice p).hlc.walks = [w] → w.next < 4095 → w.maint = some a.idx →
        (s.slice p).hlc.maint = [a] → (s.slice p).hlc.line w.next = mkLine v d po true false →
        (s.slice p).hlc.writes = [] → (s.slice p).hPinned w.next = false → Ends (.hlcWalkerVisit p) s fun t =>
          (t.slice p).hlc.walks = [{ w with next := w.next + 1 }]
          ∧ (t.slice p).hlc.maint = [{ a with acks := a.acks ++ [(s.slice p).hlc.ord] }]
          ∧ (t.slice p).hlc.line w.next = (if a.op = 0 then mkLine v d po false false else {})
          ∧ (t.slice p).hlc.writes = [{
            evb := true, idx := 0, addr := (s.slice p).hAddr w.next, data := d, poison := po, ord := (s.slice p).hlc.ord }]
          ∧ SentNothing s t p)

/-- Service requests read and write a slice by number and answer SvcRsp, and TLB broadcasts collect their acknowledgements (R6, R21, R68, R73, R109, R373, R74, R274, R275). -/
def Obligations.ServiceRequestsAndTlbBroadcasts : Prop :=
  (∀ (p : Fin 132) (m : Msg) (s : State),
    (∀ e ∈ ([.svcReqRegisterRead, .svcReqRegisterWrite, .svcReqDirectoryCopy, .svcReqLineCopy] :
        List (Fin 132 → Msg → Instr)),
      ((s.slice p).mayTake p (asOpc m 0x1B) = false → Idles (e p m) s)
      ∧ ((s.slice p).mayTake p (asOpc m 0x1B) = true → 3 < m.aop.toNat → exec (e p m) s
        = .next ((s.takeMsg p (asOpc m 0x1B)).svcRsp p (asOpc m 0x1B) 7 0 0)))
    ∧ ((s.slice p).mayTake p (asOpc m 0x1B) = true → m.aop.toNat ≤ 3 →
      (m.addr = 0 → exec (.svcReqRegisterRead p m) s
        = .next ((s.takeMsg p (asOpc m 0x1B)).svcRsp p (asOpc m 0x1B) 0 (svcSize (asOpc m 0x1B))
            ((s.slice p).logicalReg.setWidth 512)))
      ∧ (m.addr = 0 → m.data.extractLsb' 8 24 = 0 → exec (.svcReqRegisterWrite p m) s
        = .next (((s.takeMsg p (asOpc m 0x1B)).modSlice p fun x =>
            { x with lslice := m.data.extractLsb' 0 7, active := m.data.getLsbD 7 }).svcRsp p (asOpc m 0x1B) 0 0 0))
      ∧ (m.addr = 0 → m.data.extractLsb' 8 24 ≠ 0 → Ends (.svcReqRegisterWrite p m) s fun t =>
        (t.slice p).lslice = m.data.extractLsb' 0 7 ∧ (t.slice p).active = m.data.getLsbD 7
        ∧ t.glb.rsvdWr = (if s.glb.rsvdWr = 0xFFFF then 0xFFFF else s.glb.rsvdWr + 1))
      ∧ (∀ h : Fin 80, m.addr.toNat = 0x80 + h.val → Ends (.svcReqRegisterWrite p m) s fun t =>
        (t.slice p).held h = (m.data.extractLsb' 2 4).toNat ∧ (t.slice p).trks = (s.slice p).trks
        ∧ { t with slices := s.slices, glb := s.glb } = s)
      ∧ (Ends (.svcReqDirectoryCopy p m) s fun t =>
        (t.slice p).sfl = ((s.slice p).putEntries s.glb.agents (copyBlock m.addr) (copyHalf m.addr) m.data).sfl
        ∧ (t.slice p).hlc = (s.slice p).hlc ∧ { t with slices := s.slices } = s)
      ∧ (Ends (.svcReqLineCopy p m) s fun t =>
        (t.slice p).hlc = ((s.putLine p (16 * (m.addr.extractLsb' 0 8).toNat + (m.addr.extractLsb' 8 4).toNat)
          (m.addr.extractLsb' 12 31) m.data m.poison (m.addr.getLsbD 43)).slice p).hlc
        ∧ (t.slice p).sfl = (s.slice p).sfl ∧ { t with slices := s.slices } = s)))
  ∧ ((∀ (m : Msg) (s : State),
    ((isCA m.src.toNat && !tlbAll m && (decide (tlbSize m < 12) || decide (48 < tlbSize m))) = true →
      Ends (.tlbInv m) s fun t => t.stw.shoots = s.stw.shoots ∧ t.stw.shootsBad = s.stw.shootsBad + 1
        ∧ (t.port 48).stop.outbox = (s.port 48).stop.outbox
            ++ [flitOf { mkMsg 0x33 1020 m.src with txn := m.txn, stat := 7 } 0]
        ∧ { t with ports := s.ports, stw := s.stw, pmc := s.pmc } = s)
    ∧ ((isCA m.src.toNat && !tlbAll m && (decide (tlbSize m < 12) || decide (48 < tlbSize m))) = false →
      (197 ≤ s.stw.shoots.length → Ends (.tlbInv m) s fun t => t = s.portTake 48 m)
      ∧ (s.stw.shoots.length < 197 → Ends (.tlbInv m) s fun t =>
          (∃ e, t.stw.shoots = s.stw.shoots ++ [e] ∧ e.src = m.src ∧ e.txn = m.txn ∧ e.slices = 132
            ∧ e.agents = s.stw.shootMask &&& s.glb.agents ∧ e.since = s.time)
          ∧ t.eng 132 = (s.eng 132).invalidate m ∧ t.eng 133 = (s.eng 133).invalidate m
          ∧ (t.port 48).stop.outbox.length = (s.port 48).stop.outbox.length + 3
          ∧ { t with ports := s.ports, stw := s.stw, engines := s.engines, pmc := s.pmc } = s))
    ∧ ((∀ e ∈ s.stw.shoots, e.idx ≠ m.htag.toNat ∧ (e.slices ≠ 0 ∨ e.agents ≠ 0)) →
        Ends (.tlbShootAck m) s fun t => t.stw.shoots = s.stw.shoots ∧ t.stw.shootsDone = s.stw.shootsDone)
    ∧ (∀ e, s.stw.shoots = [e] → e.idx = m.htag.toNat → m.src = 1023 →
        (2 ≤ e.slices → Ends (.tlbShootAck m) s fun t => t.stw.shoots = [{ e with slices := e.slices - 1 }]
          ∧ t.stw.shootsDone = s.stw.shootsDone ∧ t = { s.portTake 48 m with stw := t.stw })
        ∧ (e.slices = 1 → e.agents = 0 → Ends (.tlbShootAck m) s fun t => t.stw.shoots = []
          ∧ t.stw.shootsDone = s.stw.shootsDone + 1
          ∧ (t.port 48).stop.outbox = (s.port 48).stop.outbox
              ++ [flitOf { mkMsg 0x33 1020 e.src with txn := e.txn, stat := 0 } 0])))
  ∧ (∀ (p : Fin 132) (m : Msg) (s : State), (s.slice p).mayTake p m = false → Idles (.tlbShoot p m) s)
  ∧ (∀ (p : Fin 132) (m : Msg) (s : State), (s.slice p).mayTake p m = true → Ends (.tlbShoot p m) s fun t =>
      t.eng p = (s.eng p).invalidate m ∧ Sent (s.takeMsg p m) t p { mkMsg 0x32 1023 1020 with htag := m.htag }
      ∧ { t with slices := s.slices, engines := s.engines } = s)
  ∧ (∀ (i : BitVec 8) (s : State),
      (s.stw.shoots.find? (fun e => e.idx == i.toNat && !e.reported) = none → Idles (.tlbCollectionTimeout i) s)
      ∧ (∀ e, s.stw.shoots.find? (fun e => e.idx == i.toNat && !e.reported) = some e →
          (s.time - e.since < s.wdog → Idles (.tlbCollectionTimeout i) s)
          ∧ (s.wdog ≤ s.time - e.since → Ends (.tlbCollectionTimeout i) s fun t =>
              Recorded s t 1 0x14 48 ∧ t.iag.arrived = s.iag.arrived ++ [1455]
              ∧ (∀ x ∈ t.stw.shoots, x.idx = e.idx → x.reported = true)
              ∧ { t with stw := s.stw, ras := s.ras, iag := s.iag } = s))))

/-- Rows of the far-operation unit: service start, the empty atomic queue, the predictor's rows, and the copies of program slots (R168, R198, R199, R201, R205, R206, R210, R355, R417). -/
def Obligations.FarOperationsStartAndEnd : Prop :=
  ∀ (p : Fin 132) (s : State),
    (∀ n : Fin 256, ((s.slice p).trk n = none ∨ (∃ k, (s.slice p).trk n = some k
        ∧ (k.phase ≠ .farStart ∨ ((s.slice p).line k.req.addr).serve ≠ some n.val))) → Idles (.farServiceStart p n) s)
    ∧ (∀ (n : Fin 256) k stat, (s.slice p).trk n = some k → k.phase = .farStart →
        ((s.slice p).line k.req.addr).serve = some n.val → ((s.slice p).line k.req.addr).mode = 2 →
        ((s.slice p).line k.req.addr).queue = [] → ((s.slice p).line k.req.addr).depth = 0 →
        ((s.slice p).dir k.req.addr).st ≠ 3 → s.farCheck p k.req ((s.slice p).dir k.req.addr) = some stat →
        Ends (.farServiceStart p n) s fun t =>
          (t.slice p).trk n = none ∧ n.val ∉ (t.slice p).far.queue ∧ (t.slice p).line k.req.addr = {}
          ∧ Sent s t p { (s.slice p).homeMsg 0x30 k.req.src k.req.addr with txn := k.req.txn, cret := true, stat })
    ∧ (∀ (n : Fin 256) k q, (s.slice p).trk n = some k → k.phase = .farStart →
        ((s.slice p).line k.req.addr).serve = some n.val → ((s.slice p).line k.req.addr).mode = 2 →
        s.farCheck p k.req ((s.slice p).dir k.req.addr) = none → (s.slice p).maintOn k.req.addr = false →
        s.farReserve p k.req.addr = (s, some q) →
        (((s.slice p).dir k.req.addr).st = 2 → s.glb.agents.getLsbD ((s.slice p).dir k.req.addr).owner = true →
          Ends (.farServiceStart p n) s fun t =>
          (t.slice p).trk n = some { k with
            pin := some q, phase := .gather, needs := true
            awaits := k.awaits ||| agentBit ((s.slice p).dir k.req.addr).owner, ownerForm := true }
          ∧ (t.slice p).line k.req.addr = { (s.slice p).line k.req.addr with pend := 3 }
          ∧ Sent s t p { (s.slice p).homeMsg 0x25 (BitVec.ofNat 10 ((s.slice p).dir k.req.addr).owner) k.req.addr with
              htag := BitVec.ofNat 8 n.val }
          ∧ (t.slice p).far = (s.slice p).far ∧ (t.slice p).hlc = (s.slice p).hlc)
        ∧ (((s.slice p).dir k.req.addr).st = 0 → k.have_ = false → k.victim = none →
          (s.slice p).hlc.lines = [] →
          (s.slice p).hlc.mshrs = [] → (s.slice p).hlc.writes = [] → Ends (.farServiceStart p n) s fun t =>
          (t.slice p).trk n = some { k with pin := some q, phase := .gather, needs := true }
          ∧ (∃ r, (t.slice p).hlc.mshrs = [r] ∧ r.addr = k.req.addr ∧ r.waiters = [.tracker n.val] ∧ r.demand = true
            ∧ r.sent = false)
          ∧ (t.slice p).line k.req.addr = (s.slice p).line k.req.addr ∧ SentNothing s t p))
    ∧ ((s.slice p).far.alu = [] → Idles (.atomicAluExecute p) s)
    ∧ (s.pwr.state = 0 → Ends (.farPredClr p) s fun t => t = s.modSlice p fun x => { x with far := { x.far with pred := [] } })
    ∧ (s.time ≤ (s.slice p).far.ticks → Idles (.predictorRecentTick p) s)
    ∧ ((NMap.rising (s.slice p).far.pred = true) → (s.slice p).far.ticks < s.time →
      Ends (.predictorRecentTick p) s fun t =>
        (∀ i, ((t.slice p).far.pred.get Pred.dflt i).count = ((s.slice p).far.pred.get Pred.dflt i).count
          ∧ ((t.slice p).far.pred.get Pred.dflt i).recent
              = (if ((s.slice p).far.pred.get Pred.dflt i).recent = 0 then 0
                  else ((s.slice p).far.pred.get Pred.dflt i).recent - 1))
        ∧ (t.slice p).far.ticks = (s.slice p).far.ticks + 1
        ∧ (t.slice p).far.queue = (s.slice p).far.queue ∧ { t with slices := s.slices } = s)
    ∧ (∀ k : Fin 256, Ends (.slotRecopy p k) s fun t => k.val ∉ (t.slice p).far.slotBad
        ∧ (∀ j, j ≠ k.val → (j ∈ (t.slice p).far.slotBad ↔ j ∈ (s.slice p).far.slotBad))
        ∧ (t.slice p).far.store = putSlot (s.slice p).far.store k (s.loader.master.get noProg k)
        ∧ { t with slices := s.slices } = s)
    ∧ (s.pwr.domOff p = true → Idles (.engineFarstoreCopy p) s)
    ∧ (s.pwr.domOff p = false → Ends (.engineFarstoreCopy p) s fun t =>
        (t.slice p).far = { (s.slice p).far with
            copyDone := true, slotBad := [], store := farWords s.loader.master }
        ∧ (s.loader.fwWait ≠ some p.val → { t with slices := s.slices } = s)
        ∧ t.loader.fwWait = (if s.loader.fwWait = some p.val then none else s.loader.fwWait))

/-- ATOMIC_ALU_EXECUTE writes the new value of Table 10.3 into the pinned line and answers the old one (R169, R204, R205, R212, R231). -/
def Obligations.AtomicsReturnTheOldValue : Prop :=
  ∀ (p : Fin 132) (s : State) (n q : Nat) (rest : List Nat) (k : Trk),
    (s.slice p).far.alu = n :: rest → (s.slice p).trk n = some k → k.pin = some q →
    ((s.slice p).line k.req.addr).mode = 2 → ((s.slice p).line k.req.addr).serve = some n →
    ((s.slice p).line k.req.addr).queue = [] → ((s.slice p).line k.req.addr).depth = 0 →
    ((s.slice p).hlc.line q).v = true → ((s.slice p).hlc.line q).dpar = dparOf ((s.slice p).hlc.line q).data →
    (s.slice p).hlc.maint = [] →
    (operandPoisoned k.req ((s.slice p).hlc.line q).poison = true → Ends (.atomicAluExecute p) s fun t =>
        (t.slice p).trk n = none ∧ n ∉ (t.slice p).far.alu ∧ n ∉ (t.slice p).far.queue
        ∧ (t.slice p).line k.req.addr = {} ∧ (t.slice p).hlc.line q = (s.slice p).hlc.line q
        ∧ Sent s t p { (s.slice p).homeMsg 0x30 k.req.src k.req.addr with txn := k.req.txn, cret := true, stat := 3 })
    ∧ ∀ v r, operandPoisoned k.req ((s.slice p).hlc.line q).poison = false → v = lineBytes ((s.slice p).hlc.line q).data k.req.offs.toNat k.req.len.toNat →
      r = atomicNew k.req.aop.toNat v (lineBytes k.req.data 0 k.req.len.toNat) (lineBytes k.req.data 8 k.req.len.toNat)
        k.req.len.toNat →
      Ends (.atomicAluExecute p) s fun t =>
        (t.slice p).trk n = none ∧ n ∉ (t.slice p).far.alu ∧ n ∉ (t.slice p).far.queue
        ∧ (t.slice p).line k.req.addr = {}
        ∧ ((t.slice p).hlc.line q).data = (match r with
            | some w => mergeBytes ((s.slice p).hlc.line q).data
                (BitVec.ofNat 512 (w * 2 ^ (8 * k.req.offs.toNat))) k.req.offs.toNat k.req.len.toNat
            | none => ((s.slice p).hlc.line q).data)
        ∧ Sent s t p { (s.slice p).homeMsg 0x3D k.req.src k.req.addr with
            txn := k.req.txn, cret := true, stat := 0, aux := (if r.isSome then 0 else 1), data := BitVec.ofNat 512 v }

/-- Far programs are dispatched, run and write back, and a fault answers their sender with its cause (R207, R209, R210, R212). -/
def Obligations.ProgramsRunOrFault : Prop :=
  (∀ (p : Fin 132) (s : State),
    (((s.slice p).far.run.isSome = true ∨ (s.slice p).far.prog = []) → Idles (.farProgramDispatch p) s)
    ∧ (∀ n l k, (s.slice p).far.run = none → (s.slice p).far.prog = n :: l → (s.slice p).trk n = some k →
        ((s.engineServes p = false ∨ (s.eng p).mode = .farOp) → Idles (.farProgramDispatch p) s)
        ∧ (s.engineServes p = true → (s.eng p).mode ≠ .farOp →
            ((s.slice p).hlc.line (k.pin.getD 0)).v = true →
            ((s.slice p).hlc.line (k.pin.getD 0)).dpar = dparOf ((s.slice p).hlc.line (k.pin.getD 0)).data →
            operandPoisoned k.req ((s.slice p).hlc.line (k.pin.getD 0)).poison = false →
            Ends (.farProgramDispatch p) s fun t =>
              (t.slice p).far.run = some n ∧ (t.slice p).far.prog = l ∧ (t.slice p).far.ended = none
              ∧ (t.eng p).mode = .farOp ∧ (t.eng p).fwMode = (s.eng p).mode
              ∧ (t.eng p).farPc = BitVec.ofNat 64 (128 * k.req.aux.toNat)
              ∧ (∀ j, j < 8 → (t.eng p).bank.get zero64 (8 + j) = lineWord ((s.slice p).hlc.line (k.pin.getD 0)).data j)
              ∧ (t.eng p).bank.get zero64 1 = lineWord k.req.data 0
              ∧ (t.eng p).bank.get zero64 2 = lineWord k.req.data 1
              ∧ (t.eng p).bank.get zero64 3 = k.req.reqid.setWidth 64
              ∧ { t with slices := s.slices, engines := s.engines } = s))
    ∧ (∀ code, ((s.slice p).far.run = none ∨ (s.slice p).far.ended.isSome = true) → Idles (.farProgramFault p code) s)
    ∧ (∀ code, (s.slice p).far.run.isSome = true → (s.slice p).far.ended = none →
        ((s.eng p).farFault = some code ∨ (code = 4 ∧ (s.eng p).farFault = none)) →
        Ends (.farProgramFault p code) s fun t =>
          (t.slice p).far.ended = some (false, code.setWidth 8) ∧ (s.eng p).farSlot ∈ (t.slice p).far.slotBad
          ∧ (t.slice p).far.faultValid = true
          ∧ ((s.slice p).far.faultValid = false → (t.slice p).far.faultCode = code
              ∧ (t.slice p).far.faultSlot = BitVec.ofNat 8 (s.eng p).farSlot)
          ∧ ((s.slice p).far.faultValid = true → (t.slice p).far.faultCode = (s.slice p).far.faultCode
              ∧ (t.slice p).far.faultSlot = (s.slice p).far.faultSlot)
          ∧ t.iag.arrived = s.iag.arrived ++ [8 * p.val + 3])
    ∧ (((s.slice p).far.run = none ∨ (s.slice p).far.ended = none) → Idles (.farWritebackDone p) s))
  ∧ (∀ (p : Fin 132) (s : State) (n : Nat) (k : Trk) (ok : Bool) (code : BitVec 8),
    (s.slice p).far.run = some n → (s.slice p).far.ended = some (ok, code) → (s.slice p).trk n = some k →
    ((s.slice p).line k.req.addr).mode = 2 → ((s.slice p).line k.req.addr).serve = some n →
    ((s.slice p).line k.req.addr).queue = [] → ((s.slice p).line k.req.addr).depth = 0 →
    (s.slice p).hlc.maint = [] → (s.eng p).state = 1 → (s.eng p).warm = false →
    (s.eng p).irq = none → (s.eng p).pendExc = none → (ok = true → (s.eng p).lnWritten = false) →
    Ends (.farWritebackDone p) s fun t =>
      (t.slice p).trk n = none ∧ (t.slice p).far.run = none ∧ (t.slice p).far.ended = none
      ∧ n ∉ (t.slice p).far.queue ∧ n ∉ (t.slice p).far.prog ∧ (t.slice p).line k.req.addr = {}
      ∧ (t.eng p).mode = (s.eng p).fwMode ∧ (t.eng p).bank = []
      ∧ Sent s t p { (s.slice p).homeMsg 0x3D k.req.src k.req.addr with
          txn := k.req.txn, cret := true, stat := (if ok = true then 0 else 8), aux := code
          data := if ok = true then ((s.eng p).bank.get zero64 1).setWidth 512
            ||| (((s.eng p).bank.get zero64 2).setWidth 512 <<< 64) else 0 })

/-- FAR_LOAD_GO validates before it loads, FAR_LOAD_WRITE waits for the slot's operations, FAR_LOAD_DONE makes the slot valid (R206, R208, R211, R355). -/
def Obligations.FarLoadsValidateFirst : Prop :=
  ∀ s : State,
    (∀ slot image, (s.stewardRuns = false ∨ s.loader.busy = true ∨ image.length % 4 ≠ 0 ∨ 128 < image.length) →
      Idles (.farLoadGo (.dict slot image)) s)
    ∧ (∀ v : BitVec 32, s.pwr.state = 0 → s.loader.busy = true → v.getLsbD 31 = true → v &&& 0x7FFFC000 = 0 →
        exec (.farLoadGo (.reg v)) s = .next { s with loader := { s.loader with refused := true } })
    ∧ (∀ v : BitVec 32, s.pwr.state = 0 → s.loader.busy = true → v.getLsbD 31 = false → v &&& 0x7FFFC000 = 0 → Idles (.farLoadGo (.reg v)) s)
    ∧ (∀ slot image, s.stewardRuns = true → s.loader.busy = false → image.length % 4 = 0 → image.length ≤ 128 → image ≠ [] →
        ((farValidate (wordsLe image)).1 = 0 → Ends (.farLoadGo (.dict slot image)) s fun t =>
          t.loader.busy = true ∧ t.loader.job = some (slot.val, wordsLe image)
          ∧ t.loader.blocked = s.loader.blocked ++ [slot.val] ∧ t.loader.master = s.loader.master
          ∧ { t with loader := s.loader } = s)
        ∧ ((farValidate (wordsLe image)).1 ≠ 0 → Ends (.farLoadGo (.dict slot image)) s fun t =>
          t.loader.busy = false ∧ t.loader.result = BitVec.ofNat 4 (farValidate (wordsLe image)).1
          ∧ t.loader.errIndex = BitVec.ofNat 5 (farValidate (wordsLe image)).2.1
          ∧ t.loader.master = s.loader.master ∧ t.iag.arrived = s.iag.arrived ++ [1440]
          ∧ { t with loader := s.loader, iag := s.iag } = s))
    ∧ ((s.loader.job = none ∨ s.loader.written = true
        ∨ (∃ j, s.loader.job = some j ∧ s.slotInUse j.1 = true)) → Idles .farLoadWrite s)
    ∧ (∀ k ws, s.loader.job = some (k, ws) → s.loader.written = false → s.slotInUse k = false →
        Ends .farLoadWrite s fun t => t.loader.written = true
          ∧ (ws ≠ [] → t.loader.master.get noProg k = ws) ∧ (ws = [] → t.loader.master = s.loader.master)
          ∧ { t with loader := s.loader, slices := s.slices } = s)
    ∧ ((s.loader.job = none ∨ s.loader.written = false) → Idles .farLoadDone s)
    ∧ (∀ k ws, s.loader.job = some (k, ws) → s.loader.written = true → s.svc.await = none →
        Ends .farLoadDone s fun t =>
          t.loader.busy = false ∧ t.loader.job = none ∧ t.loader.result = 0 ∧ t.loader.errIndex = 0
          ∧ k ∉ t.loader.blocked ∧ (ws = [] → t.loader.master.get noProg k = [])
          ∧ (ws ≠ [] → t.loader.master = s.loader.master)
          ∧ t.iag.arrived = s.iag.arrived ++ [1440] ∧ { t with loader := s.loader, iag := s.iag } = s)

/-- Reset, quiesce and resume commands of a held engine are refused, and quiesce ends at an idle boundary (R249, R254, R265, R355). -/
def Obligations.EngineCommandsAreGated : Prop :=
  ∀ (e : Fin 132) (s : State),
    (s.pwr.state ≠ 0 → ∀ c ∈ ([.engWarmRst e, .engColdRst e, .engQuiesce e, .engResume e] : List Instr),
      exec c s = .next (s.modPwr fun p => { p with gatedAcc := satInc16 p.gatedAcc }))
    ∧ (s.pwr.state = 0 → s.engResetOk e = false → exec (.engWarmRst e) s = .next (s.modEng e fun g => { g with refused := true })
      ∧ exec (.engColdRst e) s = .next (s.modEng e fun g => { g with refused := true }))
    ∧ (s.pwr.state = 0 → (s.eng e).held = true → exec (.engQuiesce e) s = .next (s.modEng e fun g => { g with refused := true })
      ∧ exec (.engResume e) s = .next (s.modEng e fun g => { g with refused := true }))
    ∧ (s.pwr.state = 0 → s.engResetOk e = true → (s.slice e).far.run = none → (s.slice e).far.prog = [] →
        (Ends (.engColdRst e) s fun t => (t.eng e).state = 1 ∧ (t.eng e).sb = [] ∧ (t.eng e).rsvValid = false
          ∧ (t.eng e).fw = (s.eng e).fw ∧ (t.eng e).mem = (s.eng e).mem ∧ (t.slice e).far.copyDone = false
          ∧ (t.eng e).out = [] ∧ (t.eng e).stale = (s.eng e).stale ++ (s.eng e).out.map (·.txn))
        ∧ ((s.eng e).sb = [] → Ends (.engWarmRst e) s fun t => (t.eng e).state = 1 ∧ (t.eng e).warm = false
          ∧ (t.eng e).sb = [] ∧ (t.eng e).rsvValid = false ∧ (t.eng e).fw = (s.eng e).fw ∧ (t.eng e).out = (s.eng e).out))
    ∧ (s.pwr.state = 0 → (s.eng e).held = false →
        (Ends (.engQuiesce e) s fun t => (t.eng e).quiesceReq = true ∧ (t.eng e).rsvValid = false)
        ∧ (Ends (.engResume e) s fun t => (t.eng e).quiesceReq = false ∧ (t.eng e).quiesced = false))
    ∧ ((s.eng e).state = 3 → (s.eng e).sb = [] → s.stewardRuns = true → (s.eng e).held = false →
        Ends (.engineHaltReload e) s fun t =>
        (t.eng e).state = (if s.glb.enabled && !(s.pwr.domOff e) && !(s.pwr.domGated e) then 1 else 0)
          ∧ (t.eng e).sb = [] ∧ (t.eng e).fwBad = [] ∧ (t.eng e).fw = fwMap s.loader.masterFw
          ∧ (t.eng e).pc = BitVec.ofNat 64 (0x8000 + 4 * s.loader.entry) ∧ (s.ras.corrLog = true → (s.eng e).haltTold = false → Recorded s t 0 0x30 e.val))
    ∧ ((s.eng e).state = 3 → (s.eng e).sb = [] → s.stewardRuns = true → (s.eng e).held = true →
        Ends (.engineHaltReload e) s fun t =>
          t.eng e = { s.eng e with haltTold := true }
          ∧ (s.ras.corrLog = true → (s.eng e).haltTold = false → Recorded s t 0 0x30 e.val)
          ∧ ((s.eng e).haltTold = true → t = s))
    ∧ ((s.eng e).quiesceReq = false → Idles (.engineQuiesced e) s)
    ∧ ((s.eng e).quiesceReq = true → (s.eng e).quiesced = false → ((s.eng e).state = 1 ∨ (s.eng e).state = 2) →
        (s.eng e).sb = [] → (s.eng e).stall = .none → (s.eng e).loads = [] → (s.eng e).mode ≠ .farOp →
        (s.slice e).far.run = none → (s.slice e).far.prog = [] → (s.eng e).walk = none → s.svc.await = none →
        Ends (.engineQuiesced e) s fun t => t.eng e = { s.eng e with quiesced := true }
          ∧ { t with engines := s.engines } = s)
    ∧ (((s.eng e).state ≠ 3 ∨ (s.eng e).sb ≠ [] ∨ s.stewardRuns = false) → Idles (.engineHaltReload e) s)

/-- Firmware commits validate the image and take up the engines; a load of another engine or of one not at rest changes nothing (R249, R250, R252, R253, R326). -/
def Obligations.FirmwareUpdatesWalkTheEngines : Prop :=
  ∀ s : State,
    ((s.loader.fwTodo ≠ [] ∨ s.loader.fwWait.isSome = true ∨ s.restoring = false ∨ s.stewardRuns = false) → Idles .fwCommitAll s)
    ∧ ((s.loader.fwTodo ≠ [] ∨ s.loader.fwWait.isSome = true ∨ s.stewardRuns = false) → Idles .fwCommitRolling s)
    ∧ (∀ c ∈ ([.fwCommitAll, .fwCommitRolling] : List Instr), s.loader.fwTodo = [] → s.loader.fwWait = none →
        (c = .fwCommitAll → s.restoring = true) → s.stewardRuns = true →
        ((fwValidate s.loader.image 8192).1 ≠ 0 → Ends c s fun t =>
          t.loader = { s.loader with fwResult := BitVec.ofNat 8 (fwValidate s.loader.image 8192).1 }
          ∧ t.iag.arrived = s.iag.arrived ++ [1441] ∧ { t with loader := s.loader, iag := s.iag } = s)
        ∧ ((fwValidate s.loader.image 8192).1 = 0 → (∀ e : Fin 132, (s.eng e).state = 0) → Ends c s fun t =>
          t.loader.fwTodo = List.range 132 ∧ t.loader.fwResult = 5 ∧ (t.eng 0).held = true
          ∧ (c = .fwCommitAll → ∀ e : Fin 132, (t.eng e).held = true)
          ∧ t.loader.masterFw = (fwValidate s.loader.image 8192).2.1
          ∧ { t with loader := s.loader, engines := s.engines } = s))
    ∧ (∀ (e : Fin 132) ok, (s.loads e = false ∨ (s.eng e).loadable = false ∨ s.stewardRuns = false) →
        Idles (.engineLoad e ok) s)
    ∧ (∀ e : Fin 132, s.loads e = true → (s.eng e).loadable = true → s.stewardRuns = true →
        (e.val ∉ s.loader.retried → Ends (.engineLoad e false) s fun t =>
          (t.eng e).held = true ∧ (t.eng e).state = 0 ∧ e.val ∈ t.loader.retried ∧ t.loader.fwTodo = s.loader.fwTodo
          ∧ t.loader.fwResult = s.loader.fwResult)
        ∧ (e.val ∈ s.loader.retried → Ends (.engineLoad e false) s fun t =>
          (t.eng e).fwOk = false ∧ (t.eng e).state = 0 ∧ e.val ∉ t.loader.retried ∧ t.loader.fwFailed = true
          ∧ ∃ r ∈ t.ras.inflight, r.cls = 1 ∧ r.code = 0x34 ∧ r.index = e.val))
    ∧ (∀ e : Fin 132, s.loader.fwTodo = [e.val] → (s.eng e).loadable = true → s.stewardRuns = true → s.loader.fwWait = none →
      (s.loader.fwRolling = false ∨ s.glb.enabled = false) →
        Ends (.engineLoad e true) s fun t => t.loader.fwTodo = []
          ∧ t.loader.fwResult = (if s.loader.fwFailed then 6 else 0) ∧ t.loader.version = s.loader.masterVer
          ∧ (t.eng e).fwOk = true ∧ (t.eng e).held = false)
    ∧ (∀ e : Fin 132, s.loader.fwTodo = [e.val] → (s.eng e).loadable = true → s.stewardRuns = true → s.loader.fwRolling = true →
        s.glb.enabled = true → s.pwr.domOff e = false → s.pwr.domGated e = false → s.loader.fwWait = none →
        s.svc.await = none → Ends (.engineLoad e true) s fun t => t.loader.fwTodo = [] ∧ t.loader.fwWait = some e.val
          ∧ t.loader.fwResult = s.loader.fwResult ∧ t.loader.version = s.loader.version ∧ t.iag.arrived = s.iag.arrived)
    ∧ (∀ e : Fin 132, s.loader.fwWait = some e.val → s.loader.fwTodo = [] → s.pwr.domOff e = false →
        Ends (.engineFarstoreCopy e) s fun t => t.loader.fwWait = none
          ∧ t.loader.fwResult = (if s.loader.fwFailed then 6 else 0) ∧ t.loader.version = s.loader.masterVer
          ∧ t.iag.arrived = s.iag.arrived ++ [1441])
    ∧ (Ends .stewardLockstepMismatch s fun t => t.stw = { s.stw with lsMismatch := true, outMain := [], outCheck := [] } ∧ Recorded s t 2 0x38 0
        ∧ t.saf.fatal.isSome = true ∧ { t with stw := s.stw, ras := s.ras, saf := s.saf } = s)

/-- Register, immediate, branch and jump instructions of an engine write rd, move the program counter and change nothing else (R207, R241, R243, R244, R208, R210). -/
def Obligations.EngineRegistersAndBranches : Prop :=
  (∀ (e : Fin 134) (w : BitVec 32) (s : State),
    (∀ o ∈ ([(.add, 0x00, fun a b => a + b), (.sub, 0x01, fun a b => a - b), (.and, 0x02, fun a b => a &&& b),
        (.or, 0x03, fun a b => a ||| b), (.xor, 0x04, fun a b => a ^^^ b), (.sll, 0x05, fun a b => a <<< (b.toNat % 64)),
        (.srl, 0x06, fun a b => a >>> (b.toNat % 64)), (.sra, 0x07, fun a b => a.sshiftRight (b.toNat % 64)),
        (.mul, 0x08, fun a b => a * b), (.slt, 0x09, fun a b => if a.slt b then 1 else 0),
        (.sltu, 0x0A, fun a b => if a.ult b then 1 else 0)] :
        List ((Fin 134 → BitVec 32 → Instr) × Nat × (Word → Word → Word))),
      (s.fwIssues e w o.2.1 0x3FFF → exec (o.1 e w) s = .next (s.modEng e fun g =>
        (g.setReg (wRd w) (o.2.2 (g.reg (wR1 w)) (g.reg (wR2 w)))).goto e (g.pc + 4)))
      ∧ (s.farIssues e w o.2.1 0x3FFF → exec (o.1 e w) s = .next (s.modEng e fun g =>
        { g.setReg (wRd w) (o.2.2 (g.reg (wR1 w)) (g.reg (wR2 w))) with
            farPc := g.farPc + 4, farUsed := g.farUsed + 1 })))
    ∧ (∀ o ∈ ([(.addi, 0x10, 0, fun a b => a + b), (.andi, 0x11, 0, fun a b => a &&& b),
        (.ori, 0x12, 0, fun a b => a ||| b), (.xori, 0x13, 0, fun a b => a ^^^ b),
        (.slli, 0x14, 0x3FFC0, fun a b => a <<< (b.toNat % 64)), (.srli, 0x15, 0x3FFC0, fun a b => a >>> (b.toNat % 64)),
        (.srai, 0x16, 0x3FFC0, fun a b => a.sshiftRight (b.toNat % 64)),
        (.slti, 0x17, 0, fun a b => if a.slt b then 1 else 0), (.lui, 0x18, 0x3C0000, fun _ b => b <<< 18)] :
        List ((Fin 134 → BitVec 32 → Instr) × Nat × BitVec 32 × (Word → Word → Word))),
      (s.fwIssues e w o.2.1 o.2.2.1 → exec (o.1 e w) s = .next (s.modEng e fun g =>
        (g.setReg (wRd w) (o.2.2.2 (g.reg (wR1 w)) (wImm w))).goto e (g.pc + 4)))
      ∧ (s.farIssues e w o.2.1 o.2.2.1 → exec (o.1 e w) s = .next (s.modEng e fun g =>
        { g.setReg (wRd w) (o.2.2.2 (g.reg (wR1 w)) (wImm w)) with
            farPc := g.farPc + 4, farUsed := g.farUsed + 1 }))))
  ∧ (∀ (e : Fin 134) (w : BitVec 32) (s : State),
    (∀ o ∈ ([(.beq, 0x20, fun a b => a == b), (.bne, 0x21, fun a b => a != b), (.blt, 0x22, fun a b => a.slt b),
        (.bge, 0x23, fun a b => !a.slt b), (.bltu, 0x24, fun a b => a.ult b), (.bgeu, 0x25, fun a b => !a.ult b)] :
        List ((Fin 134 → BitVec 32 → Instr) × Nat × (Word → Word → Bool))),
      (s.fwIssues e w o.2.1 0 →
        (o.2.2 ((s.eng e).reg (wRd w)) ((s.eng e).reg (wR1 w)) = false →
          exec (o.1 e w) s = .next (s.modEng e fun g => g.goto e (g.pc + 4)))
        ∧ (o.2.2 ((s.eng e).reg (wRd w)) ((s.eng e).reg (wR1 w)) = true →
            validPc e ((s.eng e).pc + 4 * wImm w) = true →
          exec (o.1 e w) s = .next (s.modEng e fun g => g.goto e (g.pc + 4 * wImm w))))
      ∧ (s.farIssues e w o.2.1 0 →
        (o.2.2 ((s.eng e).reg (wRd w)) ((s.eng e).reg (wR1 w)) = false →
          exec (o.1 e w) s = .next (s.modEng e fun g => { g with farPc := g.farPc + 4, farUsed := g.farUsed + 1 }))
        ∧ (o.2.2 ((s.eng e).reg (wRd w)) ((s.eng e).reg (wR1 w)) = true →
            (s.eng e).farPc.toNat < ((s.eng e).farPc + 4 * wImm w).toNat →
            ((s.eng e).farPc + 4 * wImm w).toNat < 128 * (s.eng e).farSlot + 4 * (s.eng e).farLen →
          exec (o.1 e w) s = .next (s.modEng e fun g =>
            { g with farPc := g.farPc + 4 * wImm w, farUsed := g.farUsed + 3 }))))
    ∧ (s.fwIssues e w 0x26 0 → validPc e ((s.eng e).pc + 4 * wOff22 w) = true →
        exec (.jal e w) s = .next (s.modEng e fun g =>
          (g.setReg (wRd w) (g.pc + 4)).goto e (g.pc + 4 * wOff22 w)))
    ∧ (s.farIssues e w 0x26 0 → (s.eng e).farPc.toNat < ((s.eng e).farPc + 4 * wOff22 w).toNat →
        ((s.eng e).farPc + 4 * wOff22 w).toNat < 128 * (s.eng e).farSlot + 4 * (s.eng e).farLen →
        exec (.jal e w) s = .next (s.modEng e fun g =>
          { g.setReg (wRd w) (g.farPc + 4) with farPc := g.farPc + 4 * wOff22 w, farUsed := g.farUsed + 3 }))
    ∧ (s.fwIssues e w 0x27 0 → validPc e ((s.eng e).reg (wR1 w) + wImm w) = true →
        exec (.jalr e w) s = .next (s.modEng e fun g =>
          (g.setReg (wRd w) (g.pc + 4)).goto e (g.reg (wR1 w) + wImm w)))
    ∧ (s.farIssues e w 0x27 0 → exec (.jalr e w) s = .next (s.modEng e fun g =>
        { g with farFault := some 3, farUsed := g.farUsed + 1 })))

/-- Loads and stores of an engine: its data memory byte by byte, coherent memory, prefetches and the report-queue window (R4, R240, R262, R63, R257, R263, R264, R269, R271, R273, R296, R297). -/
def Obligations.EngineLoadsAndStores : Prop :=
  (∀ (e : Fin 134) (w : BitVec 32) (s : State) (a : Word), a = (s.eng e).reg (wR1 w) + wImm w →
    a.toNat < dmemSize e → ((s.eng e).mode = .supervisor ∨ (s.eng e).status.getLsbD 5 = true) →
    (∀ o ∈ ([(.lb, 0x28, 1), (.lh, 0x29, 2), (.lw, 0x2A, 4), (.ld, 0x2B, 8)] :
        List ((Fin 134 → BitVec 32 → Instr) × Nat × Nat)),
      s.fwIssues e w o.2.1 0 → a.toNat % o.2.2 = 0 → wRd w ≠ 0 → a.toNat / 8 ∉ (s.eng e).memBad → a.toNat / 8 ∉ (s.eng e).memDead →
      Ends (o.1 e w) s fun t =>
        (t.eng e).reg (wRd w) = BitVec.ofNat 64 (leNat ((List.range o.2.2).map fun i => (s.eng e).mem.get zero8 (a.toNat + i)))
        ∧ (t.eng e).pc = (s.eng e).pc + 4 ∧ (t.eng e).mem = (s.eng e).mem
        ∧ (∀ r, r ≠ wRd w → (t.eng e).reg r = (s.eng e).reg r) ∧ (∀ j, j ≠ e.val → t.eng j = s.eng j)
        ∧ { t with engines := s.engines } = s)
    ∧ (∀ o ∈ ([(.sb, 0x2C, 1), (.sh, 0x2D, 2), (.sw, 0x2E, 4), (.sd, 0x2F, 8)] :
        List ((Fin 134 → BitVec 32 → Instr) × Nat × Nat)),
      s.fwIssues e w o.2.1 0 → a.toNat % o.2.2 = 0 →
      Ends (o.1 e w) s fun t =>
        (∀ i, i < o.2.2 → (t.eng e).mem.get zero8 (a.toNat + i) = ((s.eng e).reg (wRd w)).extractLsb' (8 * i) 8)
        ∧ (∀ b, (b < a.toNat ∨ a.toNat + o.2.2 ≤ b) → (t.eng e).mem.get zero8 b = (s.eng e).mem.get zero8 b)
        ∧ (NMap.wf zero8 (s.eng e).mem = true → NMap.wf zero8 (t.eng e).mem = true)
        ∧ (t.eng e).pc = (s.eng e).pc + 4 ∧ (∀ r, (t.eng e).reg r = (s.eng e).reg r)
        ∧ (∀ j, j ≠ e.val → t.eng j = s.eng j) ∧ { t with engines := s.engines } = s))
  ∧ (∀ (e : Fin 134) (w : BitVec 32) (s : State) (a pa : Word), a = (s.eng e).reg (wR1 w) + wImm w →
    (∀ o ∈ ([(.sb, 0x2C, 1), (.sh, 0x2D, 2), (.sw, 0x2E, 4), (.sd, 0x2F, 8)] :
        List ((Fin 134 → BitVec 32 → Instr) × Nat × Nat)), ∀ se,
      s.fwIssues e w o.2.1 0 → s.resolve e a o.2.2 true = .coh pa se →
      (∀ b mask data, (s.eng e).sb = [b] → b.addr = pa.extractLsb' 6 46 → b.sending = false →
        mask = b.mask ||| BitVec.ofNat 64 ((2 ^ o.2.2 - 1) * 2 ^ (pa.toNat % 64)) → mask ≠ BitVec.allOnes 64 →
        data = mergeBytes b.data (((s.eng e).reg (wRd w)).setWidth 512 <<< (8 * (pa.toNat % 64))) (pa.toNat % 64) o.2.2 →
        exec (o.1 e w) s = .next (s.modEng e fun g => { (g.touchTlb a).goto e (g.pc + 4) with
          tryAt := none, sb := [{ b with mask, data }] }))
      ∧ (∀ b' : SbEnt, (∀ b ∈ (s.eng e).sb, b.addr ≠ pa.extractLsb' 6 46 ∨ b.sending = true) → (s.eng e).sb.length < 8 →
        b' = { id := (s.eng e).sbNext, since := s.eclk, addr := pa.extractLsb' 6 46
               mask := BitVec.ofNat 64 ((2 ^ o.2.2 - 1) * 2 ^ (pa.toNat % 64))
               data := mergeBytes 0 (((s.eng e).reg (wRd w)).setWidth 512 <<< (8 * (pa.toNat % 64))) (pa.toNat % 64) o.2.2 } →
        exec (o.1 e w) s = .next (s.modEng e fun g => { (g.touchTlb a).goto e (g.pc + 4) with
          tryAt := none, sbNext := g.sbNext + 1, sb := g.sb ++ [b'] }))
      ∧ ((∀ b ∈ (s.eng e).sb, b.addr ≠ pa.extractLsb' 6 46 ∨ b.sending = true) → 8 ≤ (s.eng e).sb.length →
        ((s.eng e).tryAt.isSome = true → exec (o.1 e w) s = .next (s.modEng e fun g => g.touchTlb a))
        ∧ ((s.eng e).tryAt = none → Ends (o.1 e w) s fun t =>
          (t.eng e).tryAt = some s.time ∧ (t.eng e).pc = (s.eng e).pc ∧ (t.eng e).sb.length = (s.eng e).sb.length
          ∧ (t.eng e).sb.map (·.sending) = (s.eng e).sb.map fun b =>
              b.sending || decide ((s.eng e).sb.find? (fun c => !c.sending) = some b))))
    ∧ (∀ o ∈ ([(.lb, 0x28, 1), (.lh, 0x29, 2), (.lw, 0x2A, 4), (.ld, 0x2B, 8)] :
        List ((Fin 134 → BitVec 32 → Instr) × Nat × Nat)),
      s.fwIssues e w o.2.1 0 →
      (∀ se bytes, s.resolve e a o.2.2 false = .coh pa se → (wRd w ≠ 0 ∨ se = false) →
        ((s.eng e).sbLoad pa o.2.2 = (some bytes, true) → exec (o.1 e w) s = .next (s.modEng e fun g =>
          ((g.touchTlb a).setReg (wRd w) (BitVec.ofNat 64 (leNat bytes))).goto e (g.pc + 4)))
        ∧ ((s.eng e).sbLoad pa o.2.2 = (none, true) → Ends (o.1 e w) s fun t =>
          (t.eng e).pc = (s.eng e).pc ∧ (t.eng e).regs = (s.eng e).regs ∧ (t.eng e).loads = (s.eng e).loads
          ∧ (t.eng e).sb.length = (s.eng e).sb.length
          ∧ (t.eng e).sb.map (·.sending) = (s.eng e).sb.map fun b => b.sending || (b.addr == pa.extractLsb' 6 46
              && (List.range o.2.2).any fun i => b.mask.getLsbD (pa.toNat % 64 + i)))
        ∧ ((s.eng e).sbLoad pa o.2.2 = (none, false) → (s.eng e).loading pa o.2.2 = false →
          (s.engCredit e (pa.extractLsb' 6 46) = false → exec (o.1 e w) s = .next (s.modEng e fun g =>
            { g.touchTlb a with tryAt := some (g.tryAt.getD s.time) }))
          ∧ (s.engCredit e (pa.extractLsb' 6 46) = true → isSpoke e = true → Ends (o.1 e w) s fun t =>
            (t.eng e).pc = (s.eng e).pc + 4 ∧ (t.eng e).regs = (s.eng e).regs ∧ (t.eng e).tryAt = none
            ∧ (t.eng e).loads = (s.eng e).loads ++ (if wRd w = 0 then [] else
                [{ rd := wRd w, size := o.2.2, addr := a, pa, txn := (s.eng e).freeTxn, pc := (s.eng e).pc }])
            ∧ (∃ x, (t.eng e).out = (s.eng e).out ++ [x] ∧ x.txn = (s.eng e).freeTxn
                ∧ x.kind = (if wRd w = 0 then .prefetch else .load) ∧ x.addr = pa ∧ x.sentAt = s.time)
            ∧ (∃ m, m.opc = 0x03 ∧ m.src = engAgent e ∧ m.reqid = engAgent e ∧ m.txn = (s.eng e).freeTxn
                ∧ m.addr = pa.extractLsb' 6 46 ∧ m.home = lsliceOf (pa.extractLsb' 6 46)
                ∧ m.age = s.ageSince ((s.eng e).tryAt.getD s.time)
                ∧ (s.ownLine e (pa.extractLsb' 6 46) = true → (t.slice e).local_ = (s.slice e).local_ ++ [m])
                ∧ (s.ownLine e (pa.extractLsb' 6 46) = false → (t.slice e).stop.outbox
                    = (s.slice e).stop.outbox ++ [{ flitOf m 0 with dkind := 1, dest := 1020 }])))))
      ∧ (∀ se, wRd w = 0 → s.resolve e a o.2.2 false = .coh pa se → se = true →
          exec (o.1 e w) s = .next (s.modEng e fun g => (g.touchTlb a).goto e (g.pc + 4)))
      ∧ (∀ c, wRd w = 0 → s.resolve e a o.2.2 false = .exc c →
          exec (o.1 e w) s = .next (s.modEng e fun g => (g.touchTlb a).goto e (g.pc + 4)))
      ∧ (s.resolve e a o.2.2 false = .walk → (s.eng e).wcFind a = none → (wRd w ≠ 0 ∨ (s.eng e).specFill = true) →
          (s.eng e).sb = [] → ∀ rp, rp = (s.eng e).ptbase + 8 * ((a >>> 39) &&& 0x1FF) →
          inWindow rp = false → (s.eng e).inSereg rp = false → Ends (o.1 e w) s fun t =>
            (t.eng e).pc = (s.eng e).pc ∧ (t.eng e).regs = (s.eng e).regs
            ∧ (t.eng e).walk = some {
                va := a, level := 0, table := (s.eng e).ptbase, since := s.time, fillOnly := wRd w == 0
                txn := if s.engCredit e (rp.extractLsb' 6 46) = true then some (s.eng e).freeTxn else none }
            ∧ (s.engCredit e (rp.extractLsb' 6 46) = true → ∃ x, (t.eng e).out = (s.eng e).out ++ [x]
                ∧ x.txn = (s.eng e).freeTxn ∧ x.kind = .walk ∧ x.addr = rp)))
    ∧ (∀ size st, (size = 1 ∨ size = 2 ∨ size = 4 ∨ size = 8) → a.toNat % size = 0 → 0x10000 ≤ a.toNat →
      ((s.eng e).mode = .supervisor → (s.eng e).status.getLsbD 4 = false → a.extractLsb' 52 12 = 0 →
        s.resolve e a size st = if inWindow a = true then .win (a.toNat % 512) else .coh a ((s.eng e).inSereg a))
      ∧ (∀ tl, ((s.eng e).mode = .user ∨ (s.eng e).status.getLsbD 4 = true) → a.extractLsb' 48 16 = 0 →
        ((s.eng e).tlbFind a = none → s.resolve e a size st = .walk)
        ∧ ((s.eng e).tlbFind a = some tl → pa = tl.pa + BitVec.ofNat 64 (a.toNat % 2 ^ tl.size) → inWindow pa = false →
          (tl.forbids st ((s.eng e).mode == .user) = true → s.resolve e a size st = .exc 8)
          ∧ (tl.forbids st ((s.eng e).mode == .user) = false →
            s.resolve e a size st = .coh pa (tl.se || (s.eng e).inSereg pa)))))
    ∧ (∀ off, s.resolve e a 4 true = .win off → off % 16 = 0 → s.fwIssues e w 0x2E 0 →
      (s.eng e).mode = .supervisor → (s.eng e).status.getLsbD 4 = false →
      (isSpoke e = true → exec (.sw e w) s = .next ((s.rpqPush (off / 16) (((s.eng e).reg (wRd w)).setWidth 32) 4).modEng e
        fun g => g.goto e (g.pc + 4)))
      ∧ (e.val = 132 → s.stw.lsMismatch = false → s.stw.outCheck = [] → exec (.sw e w) s = .next ((s.modEng e fun g =>
          g.goto e (g.pc + 4)).modStw fun x => { x with
            outMain := x.outMain ++ [.push (off / 16) (((s.eng e).reg (wRd w)).setWidth 32) 4] })))
    ∧ (∀ off v n, s.resolve e a 8 true = .win off → off % 16 = 8 → s.fwIssues e w 0x2F 0 →
      (s.eng e).mode = .supervisor → (s.eng e).status.getLsbD 4 = false → isSpoke e = true →
      v = (s.eng e).reg (wRd w) → n = (v.extractLsb' 24 2).toNat →
      (1 ≤ n → v.extractLsb' 26 38 = 0 → exec (.sd e w) s = .next ((s.rpqPush (off / 16)
          ((v.extractLsb' 0 24).setWidth 32 &&& BitVec.ofNat 32 (2 ^ (8 * n) - 1)) (Fin.ofNat 5 n)).modEng e
        fun g => g.goto e (g.pc + 4)))
      ∧ ((n = 0 ∨ v.extractLsb' 26 38 ≠ 0) → Ends (.sd e w) s fun t =>
        (t.eng e).pc = (s.eng e).pc + 4 ∧ (t.eng e).serrPending = true ∧ (t.eng e).serrAddr = a
        ∧ (t.eng e).serrErrors = (if (s.eng e).serrErrors = 0xFFFF then 0xFFFF else (s.eng e).serrErrors + 1)
        ∧ t.rpq = s.rpq ∧ (t.eng e).regs = (s.eng e).regs))
    ∧ (∀ (q n : Nat) (v : BitVec 32), n < 5 → 
      ((s.rpqOf q).ents.length < 1024 → ((s.rpqPush q v (Fin.ofNat 5 n)).rpqOf q).ents
          = (s.rpqOf q).ents ++ [{ val := v, n := Fin.ofNat 5 n, loss := (s.rpqOf q).loss }]
        ∧ ((s.rpqPush q v (Fin.ofNat 5 n)).rpqOf q).loss = false)
      ∧ (1024 ≤ (s.rpqOf q).ents.length → ((s.rpqPush q v (Fin.ofNat 5 n)).rpqOf q).ents = (s.rpqOf q).ents
        ∧ ((s.rpqPush q v (Fin.ofNat 5 n)).rpqOf q).loss = true)))

/-- LR and SC of data memory, and LBAR, SBAR and FBAR with and without work outstanding (R250, R260, R261, R263, R266, R268, R297). -/
def Obligations.EngineBarriersAndReservations : Prop :=
  ∀ (e : Fin 134) (w : BitVec 32) (s : State) (a : Word), a = (s.eng e).reg (wR1 w) →
    (s.fwIssues e w 0x30 0x3FFFF → (s.eng e).mode = .supervisor → a.toNat < dmemSize e → a.toNat % 8 = 0 →
      a.toNat / 8 ∉ (s.eng e).memBad → a.toNat / 8 ∉ (s.eng e).memDead → wRd w ≠ 0 → Ends (.lr e w) s fun t =>
        (t.eng e).reg (wRd w) = BitVec.ofNat 64 (leNat ((List.range 8).map fun i => (s.eng e).mem.get zero8 (a.toNat + i)))
        ∧ (t.eng e).rsvValid = true ∧ (t.eng e).rsvRemote = true ∧ (t.eng e).rsvLine = a.extractLsb' 6 46
        ∧ (t.eng e).pc = (s.eng e).pc + 4 ∧ (t.eng e).mem = (s.eng e).mem
        ∧ { t with engines := s.engines, slices := s.slices } = s)
    ∧ (s.fwIssues e w 0x31 0x3FFF → (s.eng e).mode = .supervisor → a.toNat < dmemSize e → a.toNat % 8 = 0 →
      wRd w ≠ 0 → Ends (.sc e w) s fun t =>
        (t.eng e).reg (wRd w) = 1 ∧ (t.eng e).rsvValid = false ∧ (t.eng e).pc = (s.eng e).pc + 4
        ∧ (t.eng e).mem = (s.eng e).mem ∧ { t with engines := s.engines, slices := s.slices } = s)
    ∧ (s.fwIssues e w 0x32 0x3FFFFFF →
        ((s.eng e).loadsDone = true → exec (.lbar e w) s = .next (s.modEng e fun g => g.goto e (g.pc + 4)))
        ∧ ((s.eng e).loadsDone = false → Idles (.lbar e w) s))
    ∧ (s.fwIssues e w 0x33 0x3FFFFFF →
        ((s.eng e).sb = [] → s.pushWaits e = false → (s.eng e).serrPending = false →
          exec (.sbar e w) s = .next (s.modEng e fun g => g.goto e (g.pc + 4)))
        ∧ ((s.eng e).sb = [] → s.pushWaits e = true → Idles (.sbar e w) s)
        ∧ ((s.eng e).sb ≠ [] → Ends (.sbar e w) s fun t => (t.eng e).pc = (s.eng e).pc
            ∧ (∀ b ∈ (t.eng e).sb, b.sending = true) ∧ (t.eng e).sb.length = (s.eng e).sb.length))
    ∧ (s.fwIssues e w 0x34 0x3FFFFFF →
        ((s.eng e).sb = [] → (s.eng e).loadsDone = true → s.pushWaits e = false → (s.eng e).serrPending = false →
          exec (.fbar e w) s = .next (s.modEng e fun g => g.goto e (g.pc + 4)))
        ∧ ((s.eng e).sb = [] → ((s.eng e).loadsDone = false ∨ s.pushWaits e = true) → Idles (.fbar e w) s)
        ∧ ((s.eng e).sb ≠ [] → Ends (.fbar e w) s fun t => (t.eng e).pc = (s.eng e).pc
            ∧ (∀ b ∈ (t.eng e).sb, b.sending = true) ∧ (t.eng e).sb.length = (s.eng e).sb.length))

/-- System instructions act by mode and CSR, and illegal instructions take the exception (R6, R207, R242, R246, R247, R250, R274, R277, R288, R289, R210, R243). -/
def Obligations.EngineSystemAndIllegalInstructions : Prop :=
  (∀ (e : Fin 134) (w : BitVec 32) (s : State),
    (s.fwIssues e w 0x38 0x3FFFFFF → (s.eng e).mode = .supervisor →
        (e.val = 133 ∨ (s.modEng e fun g => { g.goto e (g.pc + 4) with state := 2 }).wakeSrc e = none) →
        exec (.wait e w) s = .next (s.modEng e fun g => { g.goto e (g.pc + 4) with state := 2 }))
    ∧ (s.fwIssues e w 0x39 0x3FFFFFF → (s.eng e).mode = .supervisor →
        ((s.eng e).slots = [] ∨ (s.eng e).slots.head? = some none) → validPc e (s.eng e).epc = true →
        exec (.iret e w) s = .next (s.modEng e fun g => { g.goto e g.epc with
          slots := g.slots.drop 1, mode := (if g.status.getLsbD 0 then .user else .supervisor)
          status := (g.status &&& 0x75) ||| (if g.status.getLsbD 2 then 2 else 0) }))
    ∧ (s.fwIssues e w 0x3A 0x3FC0000 → (s.eng e).status.getLsbD 3 = false → (s.eng e).sb = [] → (s.eng e).loads = [] →
        (s.eng e).slots = [] → validPc e ((s.eng e).evbase + 256) = true → Ends (.syscall e w) s fun t =>
          t.eng e = { s.eng e with
            slots := [none], tryAt := none, rsvValid := false, rsvRemote := false, rsvLine := 0
            epc := (s.eng e).pc + 4, ecause := 4, eaddr := (w.extractLsb' 0 18).setWidth 64, mode := .supervisor
            pc := (s.eng e).evbase + 256
            status := ((s.eng e).status &&& 0x70) ||| (if (s.eng e).mode = .user then 1 else 0)
              ||| (if (s.eng e).status.getLsbD 1 then 4 else 0) ||| 8 }
          ∧ { t with engines := s.engines, slices := s.slices } = s)
    ∧ (s.fwIssues e w 0x3B 0x3C03FFF → (s.eng e).mode = .supervisor → (s.eng e).sb = [] →
        (s.pushWaits e = true ∨ (s.eng e).tlbTxn ≠ none) → Idles (.tlbi e w) s)
    ∧ (s.fwIssues e w 0x3B 0x3C03FFF → (s.eng e).mode = .supervisor → (s.eng e).sb = [] → s.pushWaits e = false →
        (s.eng e).tlbTxn = none → Ends (.tlbi e w) s fun t =>
        (t.eng e).stall = .tlbi (s.eng e).freeTxn ∧ (t.eng e).tlbTxn = some (s.eng e).freeTxn ∧ (t.eng e).pc = (s.eng e).pc ∧ (t.eng e).tlb = (s.eng e).tlb
        ∧ (isSpoke e = true → { t with engines := s.engines, slices := s.slices } = s
            ∧ ∃ f, (t.slice e).stop.outbox = (s.slice e).stop.outbox ++ [f] ∧ f.dest = 1020 ∧ f.msg.opc = 0x18
              ∧ f.msg.src = engAgent e ∧ f.msg.dst = 1020 ∧ f.msg.txn = (s.eng e).freeTxn
              ∧ f.msg.data.extractLsb' 64 64 = (s.eng e).reg (wR1 w))
        ∧ (isSpoke e = false → s.stw.lsMismatch = false → s.stw.outMain = [] → s.stw.outCheck = [] →
            { t with engines := s.engines, stw := s.stw } = s
            ∧ (if e.val = 132 then t.stw.outMain else t.stw.outCheck).length = 1
            ∧ (if e.val = 132 then t.stw.outCheck else t.stw.outMain) = []))
    ∧ (∀ t m since, e.val = 132 → s.fwIssues e w 0x3B 0x3C03FFF → (s.eng e).mode = .supervisor → (s.eng e).sb = [] →
        (s.eng e).tlbTxn = none → s.stw.lsMismatch = false → s.stw.outMain = [] → s.stw.outCheck = [.msg m since] →
        exec (.tlbi e w) { s with stw := { s.stw with outCheck := [] } } = .next t →
        (t.stw.outMain = [.msg m s.time] → Ends (.tlbi e w) s fun u => u.stw.outMain = [] ∧ u.stw.outCheck = []
            ∧ u.stw.lsMismatch = false ∧ (u.port 48).ingress = (s.port 48).ingress ++ [m])
        ∧ (t.stw.outMain ≠ [.msg m s.time] → Ends (.tlbi e w) s fun u => u.stw.outMain = [] ∧ u.stw.outCheck = []
            ∧ u.stw.lsMismatch = true ∧ u.ports = s.ports ∧ Recorded s u 2 0x38 0))
    ∧ (∀ v, s.fwIssues e w 0x3C 0x3FF000 → (s.eng e).mode = .supervisor →
        s.csrRead e (w.extractLsb' 0 12).toNat = some v → exec (.csrr e w) s = .next (s.modEng e fun g =>
          (g.setReg (wRd w) v).goto e (g.pc + 4)))
    ∧ (∀ g', s.fwIssues e w 0x3D 0x3C00000 → (s.eng e).mode = .supervisor →
        (s.eng e).csrWrite (w.extractLsb' 0 12).toNat ((s.eng e).reg (wR1 w)) = some g' →
        ((s.eng e).loads = [] ∨ w.extractLsb' 0 12 ≠ 0) →
        ((s.eng e).reg (wR1 w) &&& csrRsvd (w.extractLsb' 0 12).toNat = 0 →
          exec (.csrw e w) s = .next (s.modEng e fun g => g'.goto e (g.pc + 4)))
        ∧ ((s.eng e).reg (wR1 w) &&& csrRsvd (w.extractLsb' 0 12).toNat ≠ 0 → e.val ≠ 133 → Ends (.csrw e w) s fun t =>
          t.eng e = g'.goto e ((s.eng e).pc + 4) ∧ { t with engines := s.engines, glb := s.glb } = s
          ∧ t.glb = { s.glb with rsvdWr := if s.glb.rsvdWr = 0xFFFF then 0xFFFF else s.glb.rsvdWr + 1 }))
    ∧ (s.farIssues e w 0x3F 0x3FFFF00 → Ends (.fret e w) s fun t =>
        t.eng e = { s.eng e with farDone := true, farUsed := (s.eng e).farUsed + 1 }
        ∧ (t.slice e).far.ended = some (true, w.extractLsb' 0 8)
        ∧ { t with engines := s.engines, slices := s.slices } = s))
  ∧ (∀ o ∈ ([(.add, 0x00, 0x3FFF, true), (.sub, 0x01, 0x3FFF, true), (.and, 0x02, 0x3FFF, true), (.or, 0x03, 0x3FFF, true),
      (.xor, 0x04, 0x3FFF, true), (.sll, 0x05, 0x3FFF, true), (.srl, 0x06, 0x3FFF, true), (.sra, 0x07, 0x3FFF, true),
      (.mul, 0x08, 0x3FFF, true), (.slt, 0x09, 0x3FFF, true), (.sltu, 0x0A, 0x3FFF, true), (.addi, 0x10, 0, true),
      (.andi, 0x11, 0, true), (.ori, 0x12, 0, true), (.xori, 0x13, 0, true), (.slli, 0x14, 0x3FFC0, true),
      (.srli, 0x15, 0x3FFC0, true), (.srai, 0x16, 0x3FFC0, true), (.slti, 0x17, 0, true), (.lui, 0x18, 0x3C0000, true),
      (.beq, 0x20, 0, true), (.bne, 0x21, 0, true), (.blt, 0x22, 0, true), (.bge, 0x23, 0, true), (.bltu, 0x24, 0, true),
      (.bgeu, 0x25, 0, true), (.jal, 0x26, 0, true), (.jalr, 0x27, 0, true), (.lb, 0x28, 0, true), (.lh, 0x29, 0, true),
      (.lw, 0x2A, 0, true), (.ld, 0x2B, 0, true), (.sb, 0x2C, 0, true), (.sh, 0x2D, 0, true), (.sw, 0x2E, 0, true),
      (.sd, 0x2F, 0, true), (.lr, 0x30, 0x3FFFF, true), (.sc, 0x31, 0x3FFF, true), (.lbar, 0x32, 0x3FFFFFF, true),
      (.sbar, 0x33, 0x3FFFFFF, true), (.fbar, 0x34, 0x3FFFFFF, true), (.wait, 0x38, 0x3FFFFFF, false),
      (.iret, 0x39, 0x3FFFFFF, false), (.syscall, 0x3A, 0x3FC0000, true), (.tlbi, 0x3B, 0x3C03FFF, false),
      (.csrr, 0x3C, 0x3FF000, true), (.csrw, 0x3D, 0x3C00000, false), (.fret, 0x3F, 0x3FFFF00, true)] :
      List ((Fin 134 → BitVec 32 → Instr) × Nat × BitVec 32 × Bool)),
    ∀ (e : Fin 134) (w : BitVec 32) (s : State),
      (wOpc w ≠ BitVec.ofNat 6 o.2.1 → definedOpc (wOpc w).toNat = true → Idles (o.1 e w) s)
      ∧ ((definedOpc (wOpc w).toNat = false ∨ (wOpc w = BitVec.ofNat 6 o.2.1 ∧ w &&& o.2.2.1 ≠ 0)) →
          (s.eng e).mode = .farOp → (s.eng e).farFault = none → (s.eng e).farDone = false →
          exec (o.1 e w) s = .next (s.modEng e fun g => { g with farFault := some 2 }))
      ∧ ((definedOpc (wOpc w).toNat = false ∨ (wOpc w = BitVec.ofNat 6 o.2.1 ∧
            (w &&& o.2.2.1 ≠ 0 ∨ o.2.1 = 0x3F ∨ ((s.eng e).mode = .user ∧ o.2.2.2 = false)))) →
          (s.eng e).mode ≠ .farOp → (s.eng e).issues = true → (s.eng e).loads = [] → s.evacHeld e = false →
          s.engStopped e = false → s.noEntry e = true → s.fetchGood e = true →
          (s.eng e).status.getLsbD 3 = false → (s.eng e).sb = [] → (s.eng e).slots = [] →
          validPc e ((s.eng e).evbase + 192) = true → Ends (o.1 e w) s fun t =>
            (t.eng e).mode = .supervisor ∧ (t.eng e).pc = (s.eng e).evbase + 192 ∧ (t.eng e).ecause = 3
            ∧ (t.eng e).epc = (s.eng e).pc ∧ (t.eng e).eaddr = w.setWidth 64 ∧ (t.eng e).regs = (s.eng e).regs
            ∧ (t.eng e).mem = (s.eng e).mem ∧ { t with engines := s.engines, slices := s.slices } = s))

/-- Load returns, store completions, timeouts, walk reads, TlbInvDone and store-buffer sends of an engine (R71, R83, R88, R250, R257, R258, R262, R263, R265, R268, R270, R274). -/
def Obligations.EngineAnswersEndTransactions : Prop :=
  ∀ (e : Fin 134) (m : Msg) (s : State),
    (m.txn ∈ (s.eng e).stale → ∀ c ∈ ([.engineLoadReturn e m, .engineStoreComplete e m, .walkReadReturn e m] : List Instr),
      Ends c s fun t => { t with engines := s.engines, slices := s.slices }
          = { s.engTake e m with engines := s.engines, slices := s.slices }
        ∧ t.eng e = { s.eng e with
            stale := if m.cret = true then (s.eng e).stale.filter (fun x => x != m.txn) else (s.eng e).stale
            staleSc := if m.cret = true then (s.eng e).staleSc.filter (fun x => x != m.txn) else (s.eng e).staleSc }
        ∧ (∀ j, t.slice j = { (s.engTake e m).slice j with
            scFailed := if m.cret = true ∧ isSpoke e = true ∧ j = e.val then (s.slice j).scFailed.filter (· != m.txn)
              else (s.slice j).scFailed }))
    ∧ (m.txn ∉ (s.eng e).stale → (∀ o ∈ (s.eng e).out, o.txn ≠ m.txn) →
        (∀ p ∈ (s.eng e).loads, p.txn ≠ m.txn ∧ p.fault = none) →
        (s.eng e).sb = [] → (s.eng e).walk = none → s.noEntry e = true →
        ∀ c ∈ ([.engineLoadReturn e m, .engineStoreComplete e m, .walkReadReturn e m] : List Instr),
        Ends c s fun t => { t with engines := s.engines } = { s.engTake e m with engines := s.engines } ∧ t.eng e = s.eng e)
    ∧ (∀ o p, m.txn ∉ (s.eng e).stale → (s.eng e).out = [o] → o.txn = m.txn → o.kind = .load →
        (s.eng e).loads = [p] → p.txn = m.txn → m.opc ≠ 0x2F → (s.eng e).sb = [] → (s.eng e).walk = none →
        (m.opc ≠ 0x31 → m.poison = 0 → p.rd ≠ 0 → s.noEntry e = true → Ends (.engineLoadReturn e m) s fun t =>
          t.eng e = { s.eng e with
            regs := (s.eng e).regs.set zero64 p.rd (BitVec.ofNat 64 (lineBytes m.data (p.pa.toNat % 64) p.size))
            loads := [], out := if m.cret = true then [] else [o] })
        ∧ (m.opc = 0x31 → (s.eng e).mode ≠ .farOp → (s.eng e).status.getLsbD 3 = false → (s.eng e).slots = [] →
          (e.val = 133 → s.stw.entries = []) →
          validPc e ((s.eng e).evbase + 704) = true → Ends (.engineLoadReturn e m) s fun t =>
          (t.eng e).pc = (s.eng e).evbase + 704 ∧ (t.eng e).ecause = 0x0B ∧ (t.eng e).epc = p.pc
          ∧ (t.eng e).eaddr = p.addr ∧ (t.eng e).loads = [] ∧ (t.eng e).regs = (s.eng e).regs
          ∧ (t.eng e).out = if m.cret = true then [] else [o]))
    ∧ (∀ o, m.txn ∉ (s.eng e).stale → (s.eng e).out = [o] → o.txn = m.txn → (s.eng e).walk = none → (s.eng e).warm = false →
        ((o.kind = .store ∨ o.kind = .sc) → o.got = true → (s.eng e).sb = [] → Ends (.engineStoreComplete e m) s fun t =>
          t.eng e = { s.eng e with out := if m.cret = true then [] else [o] })
        ∧ (o.kind = .store → o.got = false → o.timedOut = true → (s.eng e).sb = [] → Ends (.engineStoreComplete e m) s fun t =>
          (t.eng e).out = (if m.cret = true then [] else [{ o with got := true }])
          ∧ (t.eng e).serrLate = (if (s.eng e).serrLate = 0xFFFF then 0xFFFF else (s.eng e).serrLate + 1)
          ∧ (t.eng e).pc = (s.eng e).pc ∧ (t.eng e).regs = (s.eng e).regs)
        ∧ (∀ b, o.kind = .store → o.got = false → o.timedOut = false → m.opc ≠ 0x31 → (s.eng e).stall = .none → (s.eng e).sb = [b] →
          b.sending = true → b.unsent = [] → b.inflight = [m.txn] → Ends (.engineStoreComplete e m) s fun t =>
          t.eng e = { s.eng e with out := if m.cret = true then [] else [{ o with got := true }], sb := [] })
        ∧ (∀ rd, o.kind = .sc → o.got = false → o.timedOut = false → m.opc ≠ 0x31 → m.txn ∉ (s.slice e).scFailed → (s.eng e).sb = [] →
          (s.eng e).stall = .sc rd m.txn → rd ≠ 0 → s.noEntry e = true → validPc e ((s.eng e).pc + 4) = true →
          Ends (.engineStoreComplete e m) s fun t =>
          t.eng e = { (s.eng e).goto e ((s.eng e).pc + 4) with
            out := if m.cret = true then [] else [{ o with got := true }]
            stall := .none, rsvValid := false, rsvRemote := false, rsvLine := 0
            regs := (s.eng e).regs.set zero64 rd 0 }))
    ∧ (∀ txn, ((s.eng e).out.find? (fun o => o.txn == txn && (o.kind == .store || o.kind == .sc) && !o.timedOut && !o.got) = none
          ∨ (∃ o, (s.eng e).out.find? (fun o => o.txn == txn && (o.kind == .store || o.kind == .sc) && !o.timedOut && !o.got) = some o
            ∧ s.time - o.sentAt < (s.eng e).storeTo.toNat)) → Idles (.storeTimeout e txn) s)
    ∧ (∀ txn o, (s.eng e).out = [o] → o.txn = txn → o.kind = .store → o.timedOut = false → o.got = false →
        (s.eng e).storeTo.toNat ≤ s.time - o.sentAt → (s.eng e).stall = .none → (s.eng e).sb = [] →
        (s.eng e).walk = none → (s.eng e).warm = false → (s.eng e).state ≠ 3 → Ends (.storeTimeout e txn) s fun t =>
          (t.eng e).out = [{ o with timedOut := true }] ∧ (t.eng e).serrPending = true ∧ (t.eng e).serrTimeout = true
          ∧ (t.eng e).serrAddr = o.addr
          ∧ (t.eng e).serrErrors = (if (s.eng e).serrErrors = 0xFFFF then 0xFFFF else (s.eng e).serrErrors + 1)
          ∧ (t.eng e).pc = (s.eng e).pc)
    ∧ (∀ o, m.txn ∉ (s.eng e).stale → (s.eng e).out = [o] → o.txn = m.txn → o.kind = .walk → (s.eng e).sb = [] →
        s.noEntry e = true →
        ((s.eng e).walk = none → Ends (.walkReadReturn e m) s fun t =>
          t.eng e = { s.eng e with out := if m.cret = true then [] else [o] })
        ∧ (∀ k v, (s.eng e).walk = some k → k.txn = some m.txn → k.again = false → m.opc ≠ 0x2F → m.opc ≠ 0x31 →
          m.poison = 0 →
          v = (BitVec.ofNat 64 (lineBytes m.data
            ((k.table + 8 * ((k.va >>> (39 - 9 * k.level)) &&& 0x1FF)).toNat % 64) 8) : Word) →
          pteFault v k.level = false → v.getLsbD 1 = true → Ends (.walkReadReturn e m) s fun t =>
          t.eng e = { (s.eng e).fillTlb k.va v with walk := none, out := if m.cret = true then [] else [o] }))
    ∧ ((s.eng e).stall = .tlbi m.txn → (s.eng e).tlbTxn = some m.txn → s.noEntry e = true →
        validPc e ((s.eng e).pc + 4) = true → Ends (.tlbiDone e m) s fun t =>
          t.eng e = { (s.eng e).goto e ((s.eng e).pc + 4) with stall := .none, tlbTxn := none })
    ∧ ((s.eng e).stall = .none → (s.eng e).tlbTxn = some m.txn → Ends (.tlbiDone e m) s fun t =>
          t.eng e = { s.eng e with tlbTxn := none })
    ∧ (∀ a, (∀ b ∈ (s.eng e).sb, b.sending = false ∧ (b.addr ≠ a ∨ s.eclk < b.since + 64) ∧ b.unsent = []) →
        (s.eng e).walk = none →
        Ends (.storeBufferSend e a) s fun t => t.eng e = s.eng e ∧ { t with engines := s.engines } = s)
    ∧ (∀ b, (s.eng e).sb = [b] → b.sending = false → b.since + 64 ≤ s.eclk → (s.eng e).walk = none →
        (s.engCredit e b.addr = false → Ends (.storeBufferSend e b.addr) s fun t =>
          (t.eng e).sb = [{ b with sending := true, sendAt := s.time, unsent := maskRuns b.mask }]
          ∧ { t with engines := s.engines } = s)
        ∧ (∀ w, s.engCredit e b.addr = true → s.evacHeld e = false → isSpoke e = true → b.mask = BitVec.allOnes 64 →
          (s.eng e).loads = [] → (∀ o ∈ (s.eng e).out, o.timedOut = false) →
          w = { mkMsg 0x04 (engAgent e) 1023 with
            reqid := engAgent e, txn := (s.eng e).freeTxn, home := lsliceOf b.addr, addr := b.addr, data := b.data } →
          Ends (.storeBufferSend e b.addr) s fun t =>
          (t.eng e).sb = [{ b with
              sending := true, sendAt := s.time, unsent := [], inflight := b.inflight ++ [(s.eng e).freeTxn] }]
          ∧ (∃ o, (t.eng e).out = (s.eng e).out ++ [o] ∧ o.txn = (s.eng e).freeTxn ∧ o.kind = .store ∧ o.sentAt = s.time)
          ∧ (s.ownLine e b.addr = true → (t.slice e).local_ = (s.slice e).local_ ++ [w]
              ∧ (t.slice e).stop = (s.slice e).stop)
          ∧ (s.ownLine e b.addr = false → (t.slice e).local_ = (s.slice e).local_
              ∧ (t.slice e).stop.outbox = (s.slice e).stop.outbox ++ [{ flitOf w 0 with dkind := 1, dest := 1020 }])))

/-- EVENT_CAPTURE, WINDOW_EXPIRY and SOURCE_COMMIT move a source from arrival to pending, ready and active (R281, R282, R284, R285, R286, R287, R288, R290, R292). -/
def Obligations.EventsAreCapturedAndCommitted : Prop :=
  ∀ s : State,
    (∀ n : Fin 1536, (s.iagStopped = true ∨ n.val ∉ s.iag.arrived) → Idles (.eventCapture n) s)
    ∧ (∀ n : Fin 1536, s.iagStopped = false → n.val ∈ s.iag.arrived → Ends (.eventCapture n) s fun t =>
        t.src n = { s.src n with pend := true, ready := (s.src n).ready && !((s.src n).act && (s.src n).en) }
        ∧ (∀ j, j ≠ n.val → t.src j = s.src j)
        ∧ t.iag.arrived = dropOne n s.iag.arrived
        ∧ ((s.src n).en = true → (t.grp (s.src n).group).isOpen = true)
        ∧ ((s.src n).en = false → t.iag.grps = s.iag.grps) ∧ { t with iag := s.iag } = s)
    ∧ (∀ g : Fin 64, (s.iagStopped = true ∨ (s.grp g).expired = false) → Idles (.windowExpiry g) s)
    ∧ (∀ g : Fin 64, s.iagStopped = false → (s.grp g).expired = true →
        Ends (.windowExpiry g) s fun t =>
          t.grp g = { s.grp g with isOpen := false, caught := 0, ticks := 0 }
          ∧ (∀ j, j ≠ g.val → t.grp j = s.grp j)
          ∧ (∀ n, t.src n = if (s.src n).pend = true ∧ (s.src n).en = true ∧ (s.src n).group = g.val then
              { s.src n with ready := true } else s.src n)
          ∧ { t with iag := s.iag } = s)
    ∧ (∀ n : Fin 1536, (s.iagStopped = true
        ∨ (s.readySrcs (s.src n).host (s.src n).target).head? ≠ some n.val
        ∨ ((s.src n).host = true ∧ s.hfn.inReset = true)
        ∨ ((s.src n).host = false ∧ (132 < (s.src n).target ∨ s.canTake (s.src n).target = false))) →
        Idles (.sourceCommit n) s)
    ∧ (∀ n : Fin 1536, s.iagStopped = false → (s.readySrcs (s.src n).host (s.src n).target).head? = some n.val →
        (s.src n).host = true → s.hfn.inReset = false → Ends (.sourceCommit n) s fun t =>
          t.src n = { s.src n with pend := false, ready := false, act := true }
          ∧ t.iag.toHost = s.iag.toHost + 1
          ∧ (s.hfn.msixOpen (s.src n).target = true → t.hfn.up = s.hfn.up
              ++ [.msix (s.hfn.vector (s.src n).target).addr (s.hfn.vector (s.src n).target).data])
          ∧ (s.hfn.msixOpen (s.src n).target = false → t.hfn.up = s.hfn.up
              ∧ t.hfn.pba.get noBool (s.src n).target = true)
          ∧ { t with iag := s.iag, hfn := s.hfn, pmc := s.pmc } = s)
    ∧ (∀ n : Fin 1536, s.iagStopped = false → (s.readySrcs (s.src n).host (s.src n).target).head? = some n.val →
        (s.src n).host = false → (s.src n).target < 132 → s.canTake (s.src n).target = true →
        (s.eng (s.src n).target).slots = [] → validPc (s.src n).target (BitVec.ofNat 64 (4 * (s.src n).handler)) = true →
        Ends (.sourceCommit n) s fun t => (t.src n).act = true ∧ (t.src n).pend = false
          ∧ t.iag.toEngines = s.iag.toEngines + 1)

/-- End-of-interrupt, doorbell, source configuration and the waking of waiting engines (R250, R282, R283, R286, R289, R291, R293, R355). -/
def Obligations.AggregatorRegistersAndWakes : Prop :=
  ∀ s : State,
    (∀ v : BitVec 11, s.pwr.state = 0 → ((s.src v.toNat).host = true → (s.src v.toNat).act = true →
        Ends (.iagHostEoi v) s fun t => t.src v.toNat = { s.src v.toNat with act := false }
          ∧ (∀ j, j ≠ v.toNat → t.src j = s.src j) ∧ { t with iag := s.iag } = s)
      ∧ (((s.src v.toNat).host = false ∨ (s.src v.toNat).act = false) → Idles (.iagHostEoi v) s))
    ∧ (∀ v : BitVec 8, s.pwr.state = 0 → (v.toNat ≤ 133 → exec (.iagDoorbell v) s
          = .next { s with iag := { s.iag with arrived := s.iag.arrived ++ [1304 + v.toNat] } })
      ∧ (133 < v.toNat → Idles (.iagDoorbell v) s))
    ∧ (∀ (n : Fin 1536) (v : Word), s.pwr.state = 0 → v.extractLsb' 34 30 = 0 →
        (v.extractLsb' 0 32 ||| 1 ≠ (s.src n).cfg ||| 1 → s.srcCfgOk n (v.extractLsb' 0 32) = false →
          exec (.iagSrcWrite n v) s = .next { s with iag := { s.iag with cfgRefused := true } })
        ∧ ((v.extractLsb' 0 32 ||| 1 = (s.src n).cfg ||| 1 ∨ s.srcCfgOk n (v.extractLsb' 0 32) = true) →
          Ends (.iagSrcWrite n v) s fun t =>
            (t.src n).cfg = v.extractLsb' 0 32
            ∧ (t.src n).pend = ((s.src n).pend && !v.getLsbD 32)
            ∧ (t.src n).act = ((s.src n).act && !(v.getLsbD 32 && (s.src n).host))
            ∧ ((t.src n).ready = true → (s.src n).ready = true ∧ v.getLsbD 32 = false
                ∧ ((s.src n).en = true ∨ v.getLsbD 0 = false ∨ (s.src n).act = false ∨ (s.src n).pend = false))
            ∧ (∀ j, j ≠ n.val → t.src j = s.src j) ∧ t.iag.arrived = s.iag.arrived
            ∧ { t with iag := s.iag } = s))
    ∧ (∀ e : Fin 134, ((s.eng e).state ≠ 2 ∨ s.iagStopped = true ∨ (e.val ≠ 133 ∧ s.wakeSrc e = none)
        ∨ (e.val = 133 ∧ s.checkDue = false)) → Idles (.waitWake e) s)
    ∧ (∀ (e : Fin 134) n, isSpoke e = true → (s.eng e).state = 2 → s.iagStopped = false → s.wakeSrc e = some n →
        (s.eng e).status.getLsbD 1 = false →
        exec (.waitWake e) s = .next (s.modEng e fun g => { g with state := 1 }))
    ∧ (∀ n, (s.eng 132).state = 2 → s.iagStopped = false → s.wakeSrc 132 = some n →
        (s.eng 132).status.getLsbD 1 = false → s.stw.entries = [] → (s.eng 133).steps < (s.eng 132).steps →
        exec (.waitWake 132) s = .next ((s.modEng 132 fun g => { g with state := 1 }).modStw fun x =>
          { x with entries := [((s.eng 132).steps, none)] }))
    ∧ (∀ k, s.stw.entries = [(k, none)] → k ≤ (s.eng 133).steps → (s.eng 133).state = 2 → s.iagStopped = false →
        (s.eng 133).atBoundary = true →
        exec (.waitWake 133) s = .next ((s.modEng 133 fun g => { g with state := 1 }).modStw fun x =>
          { x with entries := [] }))
    ∧ (s.pwr.state ≠ 0 → ∀ c ∈ ([.iagHostEoi 0, .iagDoorbell 0, .iagSrcWrite 0 0] : List Instr), exec c s = .next { s with
        pwr := { s.pwr with gatedAcc := if s.pwr.gatedAcc = 0xFFFF then 0xFFFF else s.pwr.gatedAcc + 1 } })

/-- RPQ_POP takes a unit with its sequence number or counts a bad read, and RPQ_FLUSH discards the queue (R299, R300, R301, R332, R333, R334, R336, R355). -/
def Obligations.ReportQueuesPopUnits : Prop :=
  ∀ (q : Fin 32) (s : State),
    (s.hfnTakes = true → s.hfn.waits = [] → s.pwr.state = 0 → exec (.rpqPop q 0 16) s = .next { s with
        rpq := s.rpq.set Rpq.dflt q { s.rpqOf q with
          ents := (s.rpqOf q).ents.drop (unitOf 3 true (s.rpqOf q).ents).length
          seq := if unitOf 3 true (s.rpqOf q).ents = [] then (s.rpqOf q).seq else (s.rpqOf q).seq + 1 }
        hfn := { s.hfn with
          readData := unitImage (unitOf 3 true (s.rpqOf q).ents) (s.rpqOf q).seq
          up := s.hfn.up ++ [.completion (unitImage (unitOf 3 true (s.rpqOf q).ents) (s.rpqOf q).seq)] } })
    ∧ (∀ off size, s.hfnTakes = true → s.hfn.waits = [] → s.pwr.state = 0 → (off ≠ 0 ∨ size ≠ 16) →
        exec (.rpqPop q off size) s = .next { s with
        rpq := s.rpq.set Rpq.dflt q { s.rpqOf q with
          badReads := if (s.rpqOf q).badReads = 0xFF then 0xFF else (s.rpqOf q).badReads + 1 }
        hfn := { s.hfn with
          readData := 0, up := s.hfn.up ++ [.completion 0]
          badAcc := if s.hfn.badAcc = 0xFFFF then 0xFFFF else s.hfn.badAcc + 1 } })
    ∧ (∀ off size, s.hfnTakes = false → s.hfn.waits = [] →
        (s.rst.released = true ∧ s.rst.phase ≠ 0 ∧ s.hfn.inReset = false ∧ s.hfn.d3hot = true → exec (.rpqPop q off size) s
          = .next { s with hfn := { s.hfn with up := s.hfn.up ++ [.unsupported] } })
        ∧ (s.hfn.d3hot = false ∨ s.hfn.inReset = true → Idles (.rpqPop q off size) s))
    ∧ (∀ off size, s.hfn.waits ≠ [] → exec (.rpqPop q off size) s = .next { s with
        hfn := { s.hfn with waits := s.hfn.waits ++
          [{ bar := .bar2, off := 0x1000 * q.val + off.val, size, wr := none }] } })
    ∧ (∀ off size, s.hfnTakes = true → s.hfn.waits = [] → s.pwr.state ≠ 0 → exec (.rpqPop q off size) s = .next { s with
        pwr := { s.pwr with gatedAcc := if s.pwr.gatedAcc = 0xFFFF then 0xFFFF else s.pwr.gatedAcc + 1 }
        hfn := { s.hfn with
          readData := 0, up := s.hfn.up ++ [.completion 0]
          badAcc := if (off.val = 0 ∧ size = 16) ∨ s.hfn.badAcc = 0xFFFF then s.hfn.badAcc else s.hfn.badAcc + 1 } })
    ∧ (s.pwr.state = 0 → exec (.rpqFlush q) s = .next { s with
        rpq := s.rpq.set Rpq.dflt q { s.rpqOf q with
          ents := [], loss := false
          flushes := if (s.rpqOf q).flushes = 0xFF then 0xFF else (s.rpqOf q).flushes + 1 } })
    ∧ ((s.rpqOf q).ents ≠ [] → unitOf 3 true (s.rpqOf q).ents ≠ []
        ∧ (unitImage (unitOf 3 true (s.rpqOf q).ents) (s.rpqOf q).seq).getLsbD 96 = true)
    ∧ (s.hfnTakes = true → s.hfn.waits = [] → s.pwr.state = 0 → (s.rpqOf q).ents = [] → Ends (.rpqPop q 0 16) s fun t =>
        t.hfn.readData.extractLsb' 0 112 = 0 ∧ (t.rpqOf q).seq = (s.rpqOf q).seq)
    ∧ (s.pwr.state ≠ 0 → exec (.rpqFlush q) s = .next { s with
        pwr := { s.pwr with gatedAcc := if s.pwr.gatedAcc = 0xFFFF then 0xFFFF else s.pwr.gatedAcc + 1 } })
    ∧ (s.pwr.state = 0 → Ends (.rpqFlush q) s fun t => (t.rpqOf q).seq = (s.rpqOf q).seq ∧ (t.rpqOf q).ents = [])

/-- The counter rows: selectors are taken or refused, counts written, frozen, copied to the shadow, and a wrap noted (R306, R307, R308, R309, R355). -/
def Obligations.CountersAreSelectedFrozenAndCopied : Prop :=
  ∀ s : State,
    (∀ (c : Fin 1584) (v : BitVec 32), v.extractLsb' 26 6 = 0 → s.pwr.state = 0 →
      (pmcSelOk c v = true → exec (.pmcSelWrite c v) s
        = .next { s with pmc := { s.pmc with sel := s.pmc.sel.set pmcSelReset c (v &&& 0x3FFFFFF) } })
      ∧ (pmcSelOk c v = false → exec (.pmcSelWrite c v) s = .next { s with pmc := { s.pmc with selRefused := true } }))
    ∧ (∀ (c : Fin 1584) (v : Word), s.pwr.state = 0 → Ends (.pmcCntWrite c v) s fun t =>
        t.pmc.cnt.get zero48 c = v.extractLsb' 0 48 ∧ (∀ j, j ≠ c.val → t.pmc.cnt.get zero48 j = s.pmc.cnt.get zero48 j)
        ∧ t.glb.rsvdWr = (if v.extractLsb' 48 16 = 0 ∨ s.glb.rsvdWr = 0xFFFF then s.glb.rsvdWr else s.glb.rsvdWr + 1)
        ∧ { t with pmc := s.pmc, glb := s.glb } = s)
    ∧ (s.pwr.state = 0 → exec .pmcFreeze s = .next { s with pmc := { s.pmc with freeze := true } })
    ∧ (s.pwr.state = 0 → exec .pmcUnfreeze s = .next { s with pmc := { s.pmc with freeze := false } })
    ∧ (s.pwr.state ≠ 0 → ∀ c ∈ ([.pmcFreeze, .pmcUnfreeze, .pmcSnapshot, .pmcSelWrite 0 0, .pmcCntWrite 0 0] : List Instr),
        exec c s = .next { s with
          pwr := { s.pwr with gatedAcc := if s.pwr.gatedAcc = 0xFFFF then 0xFFFF else s.pwr.gatedAcc + 1 } })
    ∧ (s.pwr.state = 0 → s.pmc.snapBusy = false → exec .pmcSnapshot s
        = .next { s with pmc := { s.pmc with shadow := s.pmc.cnt, snapBusy := true } })
    ∧ (s.pwr.state = 0 → s.pmc.snapBusy = true → exec .pmcSnapshot s = .next { s with pmc := { s.pmc with snapRefused := true } })
    ∧ (s.pmc.snapBusy = true → s.svc.await = none → exec .pmcSnapshotDone s = .next { s with
        pmc := { s.pmc with snapBusy := false }, iag := { s.iag with arrived := s.iag.arrived ++ [1445] } })
    ∧ (s.pmc.snapBusy = false → Idles .pmcSnapshotDone s)
    ∧ (∀ c : Fin 1584, c.val ∉ s.pmc.wrapped → Idles (.counterWrap c) s)
    ∧ (∀ c : Fin 1584, c.val ∈ s.pmc.wrapped → Ends (.counterWrap c) s fun t =>
        t.pmc.ovf.get noBool c = true ∧ t.pmc.wrapped = dropOne c s.pmc.wrapped ∧ t.pmc.cnt = s.pmc.cnt
        ∧ t.iag.arrived = s.iag.arrived ++ (if (s.pmc.sel.get pmcSelReset c).getLsbD 25 then [1446] else [])
        ∧ { t with pmc := s.pmc, iag := s.iag } = s)

/-- HLC_DISABLE, HLC_ENABLE, HLC_DRAIN_DONE, HLC_INIT and the way rows act in the states their rules name (R230, R232, R233, R355). -/
def Obligations.CachesAreDisabledEnabledAndInitialized : Prop :=
  ∀ (p : Fin 132) (s : State),
    (s.pwr.state = 0 → (s.slice p).hlc.state = 1 → exec (.hlcDisable p) s = .next (s.modSlice p fun x => { x with hlc := {
        x.hlc with en := false, state := 2, walks := x.hlc.walks ++ [{ maint := none }] } }))
    ∧ (s.pwr.state = 0 → (s.slice p).hlc.state ≠ 1 → Idles (.hlcDisable p) s)
    ∧ (s.pwr.state = 0 → (s.slice p).hlc.state = 0 → exec (.hlcEnable p) s
        = .next (s.modSlice p fun x => { x with hlc := { x.hlc with en := true, state := 1, lines := [] } }))
    ∧ (s.pwr.state = 0 → (s.slice p).hlc.state = 2 → exec (.hlcEnable p) s
        = .next (s.modSlice p fun x => { x with hlc := { x.hlc with ctrlRefused := true } }))
    ∧ (s.pwr.state = 0 → (s.slice p).hlc.state = 1 → Idles (.hlcEnable p) s)
    ∧ (s.pwr.state ≠ 0 → ∀ w : Fin 16, ∀ c ∈ ([.hlcDisable p, .hlcEnable p, .hlcInit p, .hlcWayDisable p w, .hlcWayEnable p w] :
        List Instr), exec c s = .next { s with
          pwr := { s.pwr with gatedAcc := if s.pwr.gatedAcc = 0xFFFF then 0xFFFF else s.pwr.gatedAcc + 1 } })
    ∧ (((s.slice p).hlc.state ≠ 2 ∨ (∃ k ∈ (s.slice p).hlc.walks, k.maint = none) ∨ (s.slice p).hlc.evbs ≠ []
        ∨ (∃ e ∈ (s.slice p).used, e.2.pin.isSome = true)) → Idles (.hlcDrainDone p) s)
    ∧ ((s.slice p).hlc.state = 2 → (∀ k ∈ (s.slice p).hlc.walks, k.maint ≠ none) → (s.slice p).hlc.evbs = [] →
        (∀ e ∈ (s.slice p).used, e.2.pin = none) → s.svc.await = none → Ends (.hlcDrainDone p) s fun t =>
          (t.slice p).hlc.state = 0 ∧ (t.slice p).hlc.drainDone = true ∧ (t.slice p).hlc.walks = []
          ∧ (∀ m ∈ (t.slice p).hlc.maint, m.waiting = false)
          ∧ ((s.slice p).hlc.maint = [] → (t.slice p).hlc
              = { (s.slice p).hlc with state := 0, drainDone := true, walks := [] })
          ∧ t.iag.arrived = s.iag.arrived ++ [8 * p.val + 6] ∧ { t with slices := s.slices, iag := s.iag } = s)
    ∧ (s.pwr.state = 0 → (s.slice p).active = true → exec (.hlcInit p) s
        = .next (s.modSlice p fun x => { x with hlc := { x.hlc with initRefused := true } }))
    ∧ (s.pwr.state = 0 → (s.slice p).active = false → (s.slice p).quiet = true → (s.slice p).sfl.pass = none →
        (s.slice p).hlc.evbs = [] →
        exec (.hlcInit p) s
          = .next (s.modSlice p fun x => { x with hlc := { x.hlc with lines := [], lru := [], streams := [] } }))
    ∧ (∀ w : Fin 16, s.pwr.state = 0 → (s.slice p).hlc.flushes = [] →
        ((s.slice p).hlc.wayOn w = true → Idles (.hlcWayEnable p w) s)
        ∧ ((s.slice p).hlc.wayOn w = false → Idles (.hlcWayDisable p w) s
          ∧ Ends (.hlcWayEnable p w) s fun t =>
            (t.slice p).hlc.wayEn = (s.slice p).hlc.wayEn ||| BitVec.ofNat 16 (2 ^ w.val)
            ∧ (t.slice p).hlc.leak.get zeroNat w = 0 ∧ (∀ e ∈ (t.slice p).hlc.lines, e.1 % 16 ≠ w.val)
            ∧ { t with slices := s.slices } = s))
    ∧ (∀ (w : Fin 16) f, s.pwr.state = 0 → (s.slice p).hlc.flushes = [f] → f.way = w.val →
        (Ends (.hlcWayEnable p w) s fun t => (t.slice p).hlc = { (s.slice p).hlc with
            flushes := [{ f with pendEnable := true }] })
        ∧ (Ends (.hlcWayDisable p w) s fun t => (t.slice p).hlc = { (s.slice p).hlc with
            flushes := [{ f with pendEnable := false }] }))
    ∧ (∀ w : Fin 16, ((s.slice p).hlc.leak.get zeroNat w = 0
        ∨ (s.time - (s.slice p).hlc.leakAt.get zeroNat w) / 60000000 < (s.slice p).hlc.leakH.toNat * 60) →
        Idles (.hlcLeakDecay p w) s)
    ∧ (∀ w : Fin 16, (s.slice p).hlc.leak.get zeroNat w ≠ 0 →
        (s.slice p).hlc.leakH.toNat * 60 ≤ (s.time - (s.slice p).hlc.leakAt.get zeroNat w) / 60000000 →
        Ends (.hlcLeakDecay p w) s fun t =>
          (t.slice p).hlc.leak.get zeroNat w = (s.slice p).hlc.leak.get zeroNat w - 1
          ∧ (t.slice p).hlc.leakAt.get zeroNat w = s.time ∧ { t with slices := s.slices } = s)

/-- Flushing a way, whole-cache operations of the dictionary, snoop-filter initialization, and the patrol pass (R16, R186, R187, R188, R192, R193, R227, R230, R232, R237, R350, R355). -/
def Obligations.WaysFlushAndFiltersArePatrolled : Prop :=
  ∀ (p : Fin 132) (s : State),
    (∀ w : Fin 16, s.pwr.state = 0 → (s.slice p).hlc.flushes = [] → (s.slice p).hlc.wayOn w = true → (s.slice p).hlc.lines = [] →
        Ends (.hlcWayDisable p w) s fun t => (t.slice p).hlc = (s.slice p).hlc.startFlush w false
          ∧ { t with slices := s.slices } = s)
    ∧ (∀ w : Fin 16, (∀ f ∈ (s.slice p).hlc.flushes, f.way ≠ w.val) → Idles (.hlcWayFlushDone p w) s)
    ∧ (∀ (w : Fin 16) f, (s.slice p).hlc.flushes = [f] → f.way = w.val → f.hw = false → (s.slice p).hlc.lines = [] →
        s.svc.await = none →
        ((s.slice p).wayPinned w = true → Idles (.hlcWayFlushDone p w) s)
        ∧ ((s.slice p).wayPinned w = false → Ends (.hlcWayFlushDone p w) s fun t => (t.slice p).hlc.flushes = []
          ∧ (f.pendEnable = false → (t.slice p).hlc.wayEn = (s.slice p).hlc.wayEn)
          ∧ (f.pendEnable = true → (t.slice p).hlc.wayEn = (s.slice p).hlc.wayEn ||| BitVec.ofNat 16 (2 ^ w.val))
          ∧ { t with slices := s.slices } = s))
    ∧ (∀ c ∈ ([.hlcDictCleanAll, .hlcDictInvalidateAll, .hlcDictCleanInvalidateAll] : List Instr),
        (s.slices = [] ∨ s.stewardRuns = false) → Idles c s)
    ∧ (∀ o ∈ ([(.hlcDictCleanAll, 0), (.hlcDictInvalidateAll, 1), (.hlcDictCleanInvalidateAll, 2)] :
          List (Instr × BitVec 4)),
        s.stewardRuns = true → s.dictMaintBusy = false → Ends o.1 s fun t => { t with slices := s.slices } = s
          ∧ (((s.slice p).active = false ∨ (s.slice p).hlc.isOff = true) → t.slice p = s.slice p)
          ∧ ((s.slice p).active = true → (s.slice p).hlc.isOff = false → ∃ m, (t.slice p).hlc.maint = (s.slice p).hlc.maint ++ [m] ∧ m.src = none ∧ m.op = o.2
            ∧ (t.slice p).hlc.walks = (s.slice p).hlc.walks ++ [{ maint := some m.idx }]))
    ∧ (s.pwr.state = 0 → (s.slice p).active = true → Ends (.sflInit p) s fun t =>
        (t.slice p).sfl = { (s.slice p).sfl with initRefused := true } ∧ { t with slices := s.slices } = s)
    ∧ (s.pwr.state = 0 → (s.slice p).active = false → (s.slice p).quiet = true → (s.slice p).sfl.pass = none →
        Ends (.sflInit p) s fun t =>
          (t.slice p).sfl = { (s.slice p).sfl with blocks := [], lru := [], wait := [], ovfOrder := [] }
          ∧ { t with slices := s.slices } = s)
    ∧ (s.pwr.state ≠ 0 → ∀ c ∈ ([.sflInit p, .sflPassStart p] : List Instr), exec c s = .next { s with
          pwr := { s.pwr with gatedAcc := if s.pwr.gatedAcc = 0xFFFF then 0xFFFF else s.pwr.gatedAcc + 1 } })
    ∧ (s.pwr.state = 0 → Ends (.sflPassStart p) s fun t =>
        (t.slice p).sfl.pass = (if (s.slice p).sfl.pass.isSome then (s.slice p).sfl.pass else some 0)
        ∧ { t with slices := s.slices } = s)
    ∧ (((s.slice p).sfl.pass = none ∨ s.sliceStopped p = true) → Idles (.sflPatrolCheck p) s)
    ∧ (∀ k e, (s.slice p).sfl.pass = some k → s.sliceStopped p = false →
        (s.slice p).sfl.blocks.find? (fun x => decide (k ≤ x.1) && x.2.written) = some e → (s.slice p).sfBlock e.1 = e.2 →
        (Ends (.sflPatrolCheck p) s fun t =>
          (∀ j, j ≠ e.1 → (t.slice p).sfBlock j = (s.slice p).sfBlock j)
          ∧ ((∃ x ∈ (s.slice p).sfl.blocks, e.1 < x.1 ∧ x.2.written = true) → (t.slice p).sfl.pass = some (e.1 + 1))
          ∧ ((∀ x ∈ (s.slice p).sfl.blocks, x.1 ≤ e.1 ∨ x.2.written = false) →
              (t.slice p).sfl.pass = none ∧ (t.slice p).sfl.passDone = true)
          ∧ (t.slice p).hlc = (s.slice p).hlc ∧ (t.slice p).trks = (s.slice p).trks ∧ (t.slice p).olt = (s.slice p).olt
          ∧ t.engines = s.engines ∧ t.ports = s.ports
          ∧ (e.2.syndrome = .clean → (t.slice p).sfBlock e.1 = { e.2 with w0 := true, w1 := true } ∧ t.ras = s.ras)
          ∧ (∀ kind row, e.2.syndrome = .corrected kind row →
              (t.slice p).sfBlock e.1 = SfBlock.rebuild (e.2.mended kind row)
              ∧ ((s.slice p).sfl.capValid = false → (t.slice p).sfl.capValid = true ∧ (t.slice p).sfl.cap
                  = capWord e.1 row kind (((colsOf e.2.badCols).head?).getD 127) true)
              ∧ (s.ras.corrLog = true → Recorded s t 0 0x01 p)
              ∧ 8 * p.val ∈ t.iag.arrived)
          ∧ (∀ r, e.2.syndrome = .uncorrectable → e.2.badRows = [r] →
              (∀ d, rowFate e.1 (if e.2.badCols = 0 then blockMask e.1 else e.2.badCols) (e.2.row r).data s.glb.agents = .marked d →
                (t.slice p).sfBlock e.1 = SfBlock.rebuild (e.2.datas.set r d)
                ∧ Recorded s t 1 0x02 p ∧ 8 * p.val + 1 ∈ t.iag.arrived)
              ∧ (rowFate e.1 (if e.2.badCols = 0 then blockMask e.1 else e.2.badCols) (e.2.row r).data s.glb.agents = .zeroed →
                (t.slice p).sfBlock e.1 = SfBlock.rebuild (e.2.datas.set r 0) ∧ t.ras = s.ras)
              ∧ (rowFate e.1 (if e.2.badCols = 0 then blockMask e.1 else e.2.badCols) (e.2.row r).data s.glb.agents = .tagSuspect →
                (t.slice p).sfBlock e.1 = SfBlock.rebuild e.2.datas ∧ Recorded s t 2 0x03 p))))
    ∧ (∀ k, (s.slice p).sfl.pass = some k → s.sliceStopped p = false → (∀ e ∈ (s.slice p).sfl.blocks, e.1 < k) →
        Ends (.sflPatrolCheck p) s fun t => (t.slice p).sfl.pass = none ∧ (t.slice p).sfl.passDone = true
          ∧ (t.slice p).sfl.blocks = (s.slice p).sfl.blocks ∧ t.iag.arrived = s.iag.arrived ++ [8 * p.val + 2]
          ∧ { t with slices := s.slices, iag := s.iag } = s)

/-- The evacuation of a slice runs through the five steps of R30 in order, each row acting only after the step before it (R28, R30, R171, R371, R373, R374, R375). -/
def Obligations.EvacuationsFollowTheFiveSteps : Prop :=
  ∀ s : State,
    (s.spare.run = none → s.spare.abandoned = none → ∀ c ∈ ([.smapHoldSet, .smapStateCopy, .smapEntryWrite, .smapHoldClear, .smapGenIncrement,
        .evacuationAbandon, .evacuationRetry, .rewriteTimerExpiry] : List Instr), Idles c s)
    ∧ (∀ v p, s.spare.run = none → s.spare.abandoned = some v → s.stewardRuns = true → s.inRun = true → v.attempts < 8 →
        v.since + 1000 ≤ s.time → s.chooseSpare v.old = some p → exec .evacuationRetry s = .next { s with
          spare := { s.spare with
            abandoned := none, run := some { v with target := p, step := 0, due := true, asked := false } }
          iag := { s.iag with arrived := s.iag.arrived ++ [1451] } })
    ∧ (∀ v, s.spare.run = some v →
        (∀ c ∈ ([(.smapHoldSet, 0), (.smapStateCopy, 1), (.smapEntryWrite, 2), (.smapHoldClear, 3),
            (.smapGenIncrement, 4), (.evacuationAbandon, 1), (.evacuationRetry, 0)] : List (Instr × Nat)),
          (v.step ≠ c.2 ∨ s.stewardRuns = false) → Idles c.1 s)
        ∧ (v.step = 0 → s.stewardRuns = true → v.due = true → s.inRun = true → s.evacReady v = true →
            Ends .smapHoldSet s fun t =>
              (∀ c, c < 52 → ((t.copy c).entry v.lslice.toNat).hold = true
                ∧ ((t.copy c).entry v.lslice.toNat).phys = ((s.copy c).entry v.lslice.toNat).phys)
              ∧ t.spare.run = some { v with step := 1, since := s.time, attempts := v.attempts + 1 })
        ∧ (v.step = 0 → s.stewardRuns = true → v.due = true → s.inRun = true → s.evacReady v = false →
            (v.asked = true ∨ (s.eng v.old).quiesceReq = true) → Idles .smapHoldSet s)
        ∧ (v.step = 1 → s.stewardRuns = true → s.evacQuiet v = true → v.old ≠ v.target →
            Ends .smapStateCopy s fun t => t.spare.run = some { v with step := 2 }
              ∧ (t.slice v.target).active = true ∧ (t.slice v.target).lslice = v.lslice
              ∧ (t.slice v.target).g = (s.slice v.old).g ∧ (t.slice v.target).brkUs = (s.slice v.old).brkUs)
        ∧ (v.step = 1 → s.evacQuiet v = false → Idles .smapStateCopy s)
        ∧ (v.step = 2 → s.stewardRuns = true → Ends .smapEntryWrite s fun t =>
            (∀ c, c < 52 → (t.copy c).entry v.lslice.toNat = { phys := v.target, hold := true }
              ∧ (t.copy c).sentFor.get zero32 v.lslice.toNat = 0)
            ∧ t.spare.run = some { v with step := 3 } ∧ t.slices = s.slices)
        ∧ (v.step = 3 → s.stewardRuns = true → s.hfn.waits = [] → Ends .smapHoldClear s fun t =>
            (∀ c, c < 52 → ((t.copy c).entry v.lslice.toNat).hold = false
              ∧ ((t.copy c).entry v.lslice.toNat).phys = ((s.copy c).entry v.lslice.toNat).phys)
            ∧ t.spare.run = some { v with step := 4 }
            ∧ ((∀ x ∈ s.relayed, x.2.home ≠ v.lslice) → t.slices = s.slices)
            ∧ (∀ x ∈ t.relayed, x.2.home ≠ v.lslice))
        ∧ (v.step = 4 → s.stewardRuns = true → Ends .smapGenIncrement s fun t =>
            t.glb.smapGen.get zero8 v.lslice.toNat = s.glb.smapGen.get zero8 v.lslice.toNat + 1
            ∧ (t.slice v.old).active = false ∧ t.spare.run = none ∧ t.spare.result = 0
            ∧ t.spare.retired = s.spare.retired ++ [v.old] ∧ v.target ∉ t.spare.ready
            ∧ (t.eng v.old).state = 0 ∧ 1452 ∈ t.iag.arrived)
        ∧ ((s.time < v.since + 60 ∨ s.evacQuiet v = true) → Idles .evacuationAbandon s)
        ∧ (v.step = 1 → s.stewardRuns = true → v.since + 60 ≤ s.time → s.evacQuiet v = false → v.attempts < 8 →
            s.hfn.waits = [] →
            Ends .evacuationAbandon s fun t =>
              (∀ c, c < 52 → ((t.copy c).entry v.lslice.toNat).hold = false)
              ∧ ∃ x, t.spare.run = some x ∧ x.step = 0 ∧ x.due = false ∧ x.asked = false ∧ x.since = s.time
                ∧ x.attempts = v.attempts)
        ∧ (v.step = 1 → s.stewardRuns = true → v.since + 60 ≤ s.time → s.evacQuiet v = false → 8 ≤ v.attempts →
            s.hfn.waits = [] → Ends .evacuationAbandon s fun t =>
              (∀ c, c < 52 → ((t.copy c).entry v.lslice.toNat).hold = false)
              ∧ t.spare.run = none ∧ t.spare.result = 1 ∧ 1452 ∈ t.iag.arrived)
        ∧ ((v.due = true ∨ s.time < v.since + 1000) → Idles .evacuationRetry s)
        ∧ (v.step = 0 → v.due = false → s.stewardRuns = true → v.since + 1000 ≤ s.time →
            Ends .evacuationRetry s fun t => t.spare.run = some { v with due := true } ∧ { t with spare := s.spare } = s)
        ∧ ((v.step = 0 ∨ 4 ≤ v.step ∨ s.time < v.since + 115) → Idles .rewriteTimerExpiry s)
        ∧ (v.step = 3 → v.since + 115 ≤ s.time → s.hfn.waits = [] → Ends .rewriteTimerExpiry s fun t =>
            t.spare.run = none ∧ t.spare.result = 0 ∧ t.spare.retired = s.spare.retired ++ [v.old]
            ∧ (t.slice v.old).active = false)
        ∧ ((v.step = 1 ∨ v.step = 2) → v.since + 115 ≤ s.time → v.asked = false →
            s.hfn.waits = [] → Ends .rewriteTimerExpiry s fun t =>
            t.spare.run = none ∧ t.spare.result = 1 ∧ t.spare.abandoned = some { v with since := s.time }
            ∧ v.target ∉ t.spare.ready ∧ (t.slice v.target).active = false
            ∧ (t.slice v.target).lslice = 0))

/-- Commands and automatic sparing begin an evacuation of an active slice to a ready spare, and a differing copy is block-fatal (R6, R16, R31, R355, R371, R372). -/
def Obligations.EvacuationsAreCommandedAndCopiesCompared : Prop :=
  ∀ s : State,
    (∀ v : BitVec 32, s.pwr.state = 0 → v.getLsbD 31 = false → (v &&& 0x7FFF0080 = 0 → Idles (.spareEvacuateCmd (.reg v)) s)
      ∧ (v &&& 0x7FFF0080 ≠ 0 → exec (.spareEvacuateCmd (.reg v)) s = .next { s with
          glb := { s.glb with rsvdWr := if s.glb.rsvdWr = 0xFFFF then 0xFFFF else s.glb.rsvdWr + 1 } }))
    ∧ (∀ v : BitVec 32, s.pwr.state ≠ 0 → exec (.spareEvacuateCmd (.reg v)) s = .next { s with
          pwr := { s.pwr with gatedAcc := if s.pwr.gatedAcc = 0xFFFF then 0xFFFF else s.pwr.gatedAcc + 1 } })
    ∧ (∀ (v : BitVec 32) p, s.pwr.state = 0 → v.getLsbD 31 = true → v &&& 0x7FFF0080 = 0 → s.spare.run = none → s.inRun = true →
        (if (v.extractLsb' 8 8).toNat < 132 ∧ (v.extractLsb' 8 8).toNat ∈ s.readySpares then p = (v.extractLsb' 8 8).toNat
          else s.chooseSpare (s.stwCopy.entry (v.extractLsb' 0 7).toNat).phys = some p) →
        Ends (.spareEvacuateCmd (.reg v)) s fun t =>
          (∃ x, t.spare.run = some x ∧ x.lslice = v.extractLsb' 0 7 ∧ x.target = p ∧ x.step = 0 ∧ x.due = true)
          ∧ t.iag.arrived = s.iag.arrived ++ [1451] ∧ { t with spare := s.spare, iag := s.iag } = s)
    ∧ (∀ v : BitVec 32, s.pwr.state = 0 → v.getLsbD 31 = true → v &&& 0x7FFF0080 = 0 → (s.spare.run.isSome = true ∨ s.inRun = false) →
        exec (.spareEvacuateCmd (.reg v)) s = .next { s with spare := { s.spare with result := 2 } })
    ∧ (∀ v : Byte, (128 ≤ v.toNat ∨ s.stewardRuns = false) → Idles (.spareEvacuateCmd (.dict v)) s)
    ∧ (∀ (v : Byte) p, v.toNat < 128 → s.stewardRuns = true → s.chooseSpare (s.stwCopy.entry v.toNat).phys = some p → s.spare.run = none →
        s.inRun = true →
        Ends (.spareEvacuateCmd (.dict v)) s fun t =>
          (∃ x, t.spare.run = some x ∧ x.lslice.toNat = v.toNat ∧ x.old = (s.stwCopy.entry v.toNat).phys ∧ x.target = p
            ∧ x.step = 0 ∧ x.due = true ∧ x.attempts = 0)
          ∧ t.iag.arrived = s.iag.arrived ++ [1451] ∧ { t with spare := s.spare, iag := s.iag } = s)
    ∧ (∀ v : Byte, v.toNat < 128 → s.stewardRuns = true → (s.readySpares = [] ∨ s.spare.run.isSome = true ∨ s.inRun = false) →
        exec (.spareEvacuateCmd (.dict v)) s = .next { s with spare := { s.spare with result := 2 } })
    ∧ (∀ p : Fin 132, (s.ras.autoSpare = false ∨ s.sparesItself p = false ∨ s.stewardRuns = false ∨ s.inRun = false
        ∨ s.spare.run.isSome = true ∨ (s.slice p).active = false ∨ s.readySpares = []) → Idles (.autoSpareTrigger p) s)
    ∧ (∀ (p : Fin 132) q, s.ras.autoSpare = true → s.sparesItself p = true → s.stewardRuns = true → s.inRun = true →
        s.spare.run = none → (s.slice p).active = true → s.chooseSpare p = some q →
        Ends (.autoSpareTrigger p) s fun t =>
          (∃ x, t.spare.run = some x ∧ x.lslice = (s.slice p).lslice ∧ x.target = q)
          ∧ t.iag.arrived = s.iag.arrived ++ [1451] ∧ { t with spare := s.spare, iag := s.iag } = s)
    ∧ (∀ p : Fin 132, (s.glb.enabled = false ∨ s.isSpare p = false ∨ s.stewardRuns = false ∨ p.val ∈ s.readySpares
        ∨ (s.eng p).held = true) → Idles (.spareReady p) s)
    ∧ (∀ p : Fin 132, s.glb.enabled = true → s.isSpare p = true → s.stewardRuns = true → p.val ∉ s.readySpares →
        (s.eng p).held = false →
        (s.loader.masterFw ≠ [] → Ends (.spareReady p) s fun t =>
          t.spare.ready = s.spare.ready.filter (fun q => q != p.val) ++ [p.val] ∧ (t.eng p).fwOk = true
          ∧ (t.slice p).far.copyDone = true ∧ p.val ∉ t.pwr.gated ∧ p.val ∈ t.readySpares)
        ∧ (s.loader.masterFw = [] → Ends (.spareReady p) s fun t => t.spare = s.spare ∧ p.val ∉ t.pwr.gated
          ∧ t.engines = s.engines))
    ∧ ((∀ c, c < 52 → s.copy c = s.stwCopy) → Idles .smapCopyCompare s)
    ∧ (∀ (c l : Nat), c < 52 → l < 128 → (s.stwCopy.entry l).hold = false →
        (s.copy c).entry l ≠ s.stwCopy.entry l → Ends .smapCopyCompare s fun t =>
        Recorded s t 2 0x23 48 ∧ t.saf.fatal.isSome = true ∧ { t with ras := s.ras, saf := s.saf, iag := s.iag } = s)

/-- Power commands refuse with the causes of Table 19.3, entries drain behind the ingress hold, and the drain ends or times out (R351, R352, R353, R354, R356). -/
def Obligations.PowerCommandsAreCheckedAndDrained : Prop :=
  ∀ s : State,
    (∀ c ∈ ([.coastEntry, .coastExit, .freewheelEntry, .freewheelExit] : List Instr),
      (s.pwr.trans.isSome = true ∨ s.saf.kick ≠ .none ∨ s.rst.released = false) → Idles c s)
    ∧ (s.pwr.state = 2 → Idles .coastExit s) ∧ (s.pwr.state = 1 → Idles .freewheelExit s)
    ∧ (s.pwr.trans = none → s.saf.kick = .none → s.rst.released = true →
        let refused := fun (cause : BitVec 3) (t : State) =>
          t.pwr = { s.pwr with lastRefuse := cause, refuseCnt := satInc16 s.pwr.refuseCnt,
                               refusals := s.pwr.refusals + 1 }
          ∧ 1444 ∈ t.iag.arrived ∧ t.glb = s.glb
        (s.pwr.state ≠ 0 → Ends .coastEntry s (refused 1) ∧ Ends .freewheelEntry s (refused 1))
        ∧ (s.pwr.state = 0 → Ends .coastExit s (refused 1) ∧ Ends .freewheelExit s (refused 1))
        ∧ (s.pwr.state = 0 → (s.spare.run.isSome = true ∨ ∃ r, r < 6 ∧ (s.ring r).busy = true) →
            Ends .coastEntry s (refused 3)
            ∧ ((∀ e, e < 132 → (s.eng e).unquiesced = false) → Ends .freewheelEntry s (refused 3)))
        ∧ (s.pwr.state = 0 → s.spare.run = none → (∀ r, r < 6 → (s.ring r).busy = false) →
            (s.loader.busy = true ∨ s.loader.fwTodo ≠ [] ∨ s.loader.fwWait.isSome = true) →
            Ends .coastEntry s (refused 4)
            ∧ ((∀ e, e < 132 → (s.eng e).unquiesced = false) → Ends .freewheelEntry s (refused 4)))
        ∧ (s.pwr.state = 0 → (∃ e, e < 132 ∧ (s.eng e).unquiesced = true) → Ends .freewheelEntry s (refused 2))
        ∧ (s.pwr.state = 0 → s.spare.run = none → (∀ r, r < 6 → (s.ring r).busy = false) →
            s.loader.busy = false → s.loader.fwTodo = [] → s.loader.fwWait = none →
            let draining := fun (goal : BitVec 2) (t : State) =>
              t.pwr.trans = some { goal, origin := 0, phase := .drain, since := s.time } ∧ t.pwr.state = 0
              ∧ t.glb.ingressHold = true ∧ t.pwr.stwStopped = true ∧ ∀ n, (t.saf.probes.get Probe.dflt n).step = 0
            Ends .coastEntry s (draining 1)
            ∧ ((∀ e, e < 132 → (s.eng e).unquiesced = false) →
                Ends .freewheelEntry s fun t => draining 2 t ∧ t.pwr.quiesced = []))
        ∧ (s.pwr.state = 1 → exec .coastExit s = .next { s with pwr := { s.pwr with
            bias := 0, stateReq := 0,
            trans := some { goal := 0, origin := 1, phase := .exitBias, since := s.time } } })
        ∧ (s.pwr.state = 2 → exec .freewheelExit s = .next { s with pwr := { s.pwr with
            bias := 0, stateReq := 0,
            trans := some { goal := 0, origin := 2, phase := .exitBias, since := s.time } } }))
    ∧ ((∀ x, s.pwr.trans = some x → x.phase ≠ .drain) →
        Idles .powerDrainDone s ∧ Idles .powerDrainTimeout s)
    ∧ (s.drained = false → Idles .powerDrainDone s)
    ∧ (∀ x, s.pwr.trans = some x → x.phase = .drain →
        (s.drained = true → exec .powerDrainDone s = .next { s with pwr := { s.pwr with
          bias := x.goal, stateReq := x.goal, assist := false, retBias := x.goal == 2,
          trans := some { x with phase := .entryBias, since := s.time } } })
        ∧ (s.time - x.since < s.pwr.drainUs.toNat → Idles .powerDrainTimeout s)
        ∧ (s.pwr.drainUs.toNat ≤ s.time - x.since → Ends .powerDrainTimeout s fun t =>
            t.pwr.trans = none ∧ t.pwr.lastRefuse = 5 ∧ t.pwr.state = s.pwr.state ∧ t.pwr.bias = 0
            ∧ t.pwr.retBias = false ∧ t.pwr.stateReq = 0 ∧ t.pwr.refusals = s.pwr.refusals + 1 ∧ t.pwr.stwStopped = false
            ∧ 1444 ∈ t.iag.arrived))

/-- BB_OK and PWR_STATE_ACK complete transitions, a wait that runs out refuses an entry and is fatal on exit, rails and edges follow (R56, R353, R354, R356, R357, R358, R359). -/
def Obligations.PowerHandshakesCompleteOrFail : Prop :=
  ∀ s : State,
    (s.pwr.trans = none → Idles .bbOk s ∧ Idles .pwrStateAck s ∧ Idles .powerHandshakeTimeout s)
    ∧ (∀ x, s.pwr.trans = some x →
        let entered := fun (t : State) => t.pwr.state = x.goal ∧ t.pwr.trans = none ∧ 1443 ∈ t.iag.arrived
          ∧ t.pwr.coasts = (if x.goal = 1 then s.pwr.coasts + 1 else s.pwr.coasts)
          ∧ t.pwr.freewheels = (if x.goal = 1 then s.pwr.freewheels else s.pwr.freewheels + 1)
          ∧ (x.goal = 2 → ∀ d, d < 322 → d ≠ 319 → s.pwr.domOff d = false → d ∈ t.pwr.held)
          ∧ t.glb = s.glb ∧ t.slices = s.slices ∧ t.engines = s.engines
        let left := fun (t : State) => t.pwr.state = 0 ∧ t.pwr.trans = none
          ∧ (s.saf.kick = .none → 1443 ∈ t.iag.arrived) ∧ (s.saf.kick = .waking → t.saf.kick = .window)
          ∧ (x.origin = 2 → s.pwr.relEdges = true → ∀ d ∈ t.pwr.held, t.pwr.domOff d = true)
          ∧ (s.saf.kick = .none → x.origin ≠ 2 → t.glb.ingressHold = false)
          ∧ t.pwr.stwStopped = false ∧ t.pwr.assist = decide (s.pwr.vcore.toNat ≤ 11)
        (x.phase = .drain → Idles .bbOk s ∧ Idles .pwrStateAck s ∧ Idles .powerHandshakeTimeout s)
        ∧ (x.phase = .entryBias → (x.goal = 1 ∨ x.acked = true) → Ends .bbOk s entered)
        ∧ (x.phase = .entryBias → x.goal ≠ 1 → x.acked = false →
            exec .bbOk s = .next { s with pwr := { s.pwr with
              trans := some { x with phase := .entryAck, since := s.time } } })
        ∧ (x.phase = .exitBias → (x.origin = 1 ∨ x.acked = true) → Ends .bbOk s left)
        ∧ (x.phase = .exitBias → x.origin ≠ 1 → x.acked = false →
            exec .bbOk s = .next { s with pwr := { s.pwr with
              retBias := false, trans := some { x with phase := .exitAck, since := s.time } } })
        ∧ (x.phase = .entryBias →
            exec .pwrStateAck s = .next { s with pwr := { s.pwr with trans := some { x with acked := true } } })
        ∧ (x.phase = .exitBias → exec .pwrStateAck s = .next { s with pwr := { s.pwr with
            railOk := 0xF, trans := some { x with acked := true } } })
        ∧ (x.phase = .entryAck → Ends .pwrStateAck s entered) ∧ (x.phase = .exitAck → Ends .pwrStateAck s left)
        ∧ (s.time - x.since < x.bound → Idles .powerHandshakeTimeout s)
        ∧ (x.bound ≤ s.time - x.since → (x.phase = .entryBias ∨ x.phase = .entryAck) →
            Ends .powerHandshakeTimeout s fun t => t.pwr.trans = none ∧ t.pwr.lastRefuse = 6
              ∧ t.pwr.state = s.pwr.state ∧ t.pwr.bias = 0 ∧ 1444 ∈ t.iag.arrived)
        ∧ (x.bound ≤ s.time - x.since → (x.phase = .exitBias ∨ x.phase = .exitAck) →
            Ends .powerHandshakeTimeout s fun t => Recorded s t 2 0x50 0 ∧ t.saf.fatal.isSome = true ∧ t.pwr = s.pwr))
    ∧ (∀ b : Fin 4,
        (Ends (.railFault b) s fun t =>
            t.pwr = { s.pwr with railOk := s.pwr.railOk &&& ~~~(BitVec.ofNat 4 (2 ^ b.val)) }
            ∧ ((s.pwr.state ≠ 2 ∨ b = 2) → Recorded s t 2 0x50 0 ∧ t.saf.fatal.isSome = true)
            ∧ (s.pwr.state = 2 → b ≠ 2 → { t with pwr := s.pwr } = s)))
    ∧ (∀ c : BitVec 4, exec (.vcoreCodeChange c) s = .next { s with pwr := { s.pwr with
        vcore := c, assistAck := false
        assist := s.pwr.state == 0 && s.pwr.trans.all (fun x => x.phase == .drain) && decide (c.toNat ≤ 11) } })
    ∧ (∀ d : BitVec 16,
        ((323 < d.toNat ∨ s.wakes d.toNat = true ∨ s.pwr.domOff d.toNat = true) → Idles (.edgeRelease d) s)
        ∧ (d.toNat ≤ 323 → s.wakes d.toNat = false → s.pwr.domOff d.toNat = false → s.pwr.edgeHold = false →
            exec (.edgeRelease d) s = .next { s with pwr := { s.pwr with
              held := s.pwr.held.filter fun x => x != d.toNat } })
        ∧ (d.toNat ≤ 323 → s.wakes d.toNat = false → s.pwr.domOff d.toNat = false → Ends (.edgeRelease d) s fun t =>
            d.toNat ∉ t.pwr.held ∧ t.pwr.state = s.pwr.state
            ∧ (s.pwr.edgeHold = true → (∀ x ∈ s.pwr.held, x = d.toNat ∨ (x < 264 ∧ x % 132 ∈ s.spare.retired)) →
                s.saf.kick = .none → t.pwr.edgeHold = false ∧ t.glb.ingressHold = false)
            ∧ (s.pwr.edgeHold = true → (∃ x ∈ s.pwr.held, x ≠ d.toNat ∧ 264 ≤ x) →
                t.pwr.edgeHold = true ∧ t.glb.ingressHold = s.glb.ingressHold)))

/-- Memory ports translate with tags, answer responses and timeouts, quarantine late tags, and go down and up with ready (R280, R393, R401, R409, R410, R411, R412). -/
def Obligations.MemoryPortsAnswerEveryMessage : Prop :=
  ∀ (m : Fin 12) (s : State),
    let x := s.mpt m
    (∀ (q : Msg) (c : Instr) (opc : BitVec 6), (c = .memRd m q ∧ opc = 0x08) ∨ (c = .memWr m q ∧ opc = 0x12) →
        s.mptSilent m = false →
        (x.down = false → x.waiting = [] → x.offered.length < 16 → ∀ tag, x.freeTag = some tag → Ends c s fun t =>
            t.mpt m = Mpt.fill { x with cmds := x.cmds ++ [{ tag, wr := opc == 0x12, msg := { q with opc } }] }
            ∧ (x.offered = [] → t.mpt m
                = { x with cmds := x.cmds ++ [{ tag, wr := opc == 0x12, msg := { q with opc }, lane := some 0 }] }))
        ∧ (x.down = false → (x.freeTag = none ∨ x.waiting ≠ [] ∨ 16 ≤ x.offered.length) → Ends c s fun t =>
            t.mpt m = { x with waiting := x.waiting ++ [{ q with opc }] })
        ∧ (x.down = true → Ends c s fun t => t.mpt m = x ∧ 1056 + 4 * (20 + m.val) ∈ t.iag.arrived
            ∧ ∃ f, (t.port (20 + m.val)).stop.outbox = (s.port (20 + m.val)).stop.outbox ++ [f]
              ∧ f.msg.stat = 6 ∧ f.msg.opc = (if opc = 0x12 then 0x35 else 0x3E) ∧ f.msg.addr = q.addr
              ∧ f.msg.home = q.home ∧ f.msg.htag = q.htag))
    ∧ (∀ (l : Fin 2) (tag : BitVec 10),
        ((s.mptSilent m = true ∨ ∀ c ∈ x.offered, c.lane ≠ some l.val ∨ c.tag ≠ tag) → Idles (.memCommandTransfer m l tag) s)
        ∧ (∀ c, s.mptSilent m = false → x.waiting = [] →
            x.offered.find? (fun c => c.lane == some l.val && c.tag == tag) = some c →
            exec (.memCommandTransfer m l tag) s = .next { s with mpts := s.mpts.set Mpt.dflt m.val (Mpt.fill { x with
              cmds := x.taken ++ { c with xfer := some s.fclk } :: takeFirst c x.offered }) }))
    ∧ (∀ (tag : BitVec 10) (err wr : Bool) (d : LineData) (p : Byte) (c : Instr),
        c = (if wr then .memWriteResponse m tag err else .memReadResponse m tag d p err) →
        (x.cmds.find? (fun k => k.tag == tag && k.xfer.isSome && k.wr == wr) = none →
          (x.quar.any (fun q => q.1 == tag) = true →
            exec c s = .next { s with mpts := s.mpts.set Mpt.dflt m.val { x with timeouts := satInc16 x.timeouts } })
          ∧ (x.quar.any (fun q => q.1 == tag) = false → exec c s = .next { s with
              mpts := s.mpts.set Mpt.dflt m.val { x with protoErrs := satInc16 x.protoErrs },
              iag := { s.iag with arrived := s.iag.arrived ++ [1056 + 4 * (20 + m.val) + 2] } }))
        ∧ (∀ k, x.cmds.find? (fun k => k.tag == tag && k.xfer.isSome && k.wr == wr) = some k → x.waiting = [] →
            Ends c s fun t =>
              t.mpt m = { x with cmds := x.cmds.filter fun e => e.tag != tag }
              ∧ ∃ f, (t.port (20 + m.val)).stop.outbox = (s.port (20 + m.val)).stop.outbox ++ [f]
                ∧ f.msg.opc = (if wr then 0x35 else 0x3E) ∧ f.msg.stat = (if err then 6 else 0)
                ∧ f.msg.addr = k.msg.addr ∧ f.msg.home = k.msg.home ∧ f.msg.htag = k.msg.htag
                ∧ (wr = false → err = false → f.msg.data = d ∧ f.msg.poison = p)
                ∧ (wr = false → err = true → f.msg.poison = 0xFF)))
    ∧ (∀ tag : BitVec 10,
        ((∀ k ∈ x.cmds, k.tag ≠ tag ∨ (∀ at_, k.xfer = some at_ → s.fclk < at_ + 96000)) → Idles (.memoryCommandTimeout m tag) s)
        ∧ (∀ k, x.cmds.find? (fun k => k.tag == tag && k.late s.fclk) = some k →
            Ends (.memoryCommandTimeout m tag) s fun t =>
              t.mpt m = { x with cmds := x.cmds.filter fun e => e.tag != tag,
                                 quar := x.quar ++ [(tag, s.time, false)], timeouts := satInc16 x.timeouts }
              ∧ Recorded s t 1 0x1A (20 + m.val) ∧ 1056 + 4 * (20 + m.val) + 1 ∈ t.iag.arrived
              ∧ ∃ f, (t.port (20 + m.val)).stop.outbox = (s.port (20 + m.val)).stop.outbox ++ [f]
                ∧ f.msg.stat = 6 ∧ f.msg.addr = k.msg.addr)
        ∧ ((∀ q ∈ x.quar, q.1 = tag → s.time < q.2.1 + 1000 ∨ q.2.2 = true) → Idles (.memTagQuarantineEnd m tag) s)
        ∧ (x.waiting = [] → (∃ q ∈ x.quar, q.1 = tag ∧ q.2.1 + 1000 ≤ s.time ∧ q.2.2 = false) →
            Ends (.memTagQuarantineEnd m tag) s fun t => (t.mpt m).cmds = x.cmds
              ∧ ∀ q, q ∈ (t.mpt m).quar ↔ q ∈ x.quar ∧ ¬(q.1 = tag ∧ q.2.1 + 1000 ≤ s.time ∧ q.2.2 = false)))
    ∧ (x.ready = false → Idles (.memReadyFall m) s)
    ∧ (x.ready = true → (s.port (20 + m.val)).up = false → exec (.memReadyFall m) s = .next { s with
        mpts := s.mpts.set Mpt.dflt m.val { x with ready := false },
        iag := { s.iag with arrived := s.iag.arrived ++ [1056 + 4 * (20 + m.val) + 3] } })
    ∧ (x.ready = true → (s.port (20 + m.val)).up = true → Ends (.memReadyFall m) s fun t =>
        (t.mpt m).cmds = [] ∧ (t.mpt m).waiting = [] ∧ (t.mpt m).ready = false ∧ (t.mpt m).down = true
        ∧ (t.mpt m).quar.length = x.quar.length + x.cmds.length
        ∧ (∃ fs, (t.port (20 + m.val)).stop.outbox = (s.port (20 + m.val)).stop.outbox ++ fs
            ∧ fs.map (·.msg.htag) = (x.taken ++ x.offered).map (·.msg.htag) ++ x.waiting.map (·.htag)
            ∧ ∀ f ∈ fs, f.msg.stat = 6)
        ∧ Recorded s t 1 0x1A (20 + m.val) ∧ t.iag.arrived.getLast? = some (1056 + 4 * (20 + m.val) + 3))
    ∧ (x.ready = true → Idles (.memReadyRise m) s)
    ∧ (x.ready = false → exec (.memReadyRise m) s = .next { s with
        mpts := s.mpts.set Mpt.dflt m.val { x with
          ready := true, down := s.rst.portDown.getLsbD (20 + m.val),
          quar := x.quar.map fun q => (q.1, q.2.1, false) },
        iag := { s.iag with arrived := s.iag.arrived ++ [1056 + 4 * (20 + m.val) + 3] } })

/-- A cadence probe runs its four steps on the right answers and fails block-fatally otherwise; checkers and the watchdog report (R379, R380, R381). -/
def Obligations.ProbesRunTheirScript : Prop :=
  ∀ s : State,
    (∀ p : Fin 132,
      let x := s.probe p
      (s.probeDue p = false → Idles (.probeStart p) s)
      ∧ (s.probeDue p = true → Ends (.probeStart p) s fun t =>
          t.probe p = { x with n := x.n + 1, since := s.time, step := 1 }
          ∧ (∃ m, (t.slice p).local_ = (s.slice p).local_ ++ [m] ∧ m.opc = 4 ∧ m.addr = s.probeLine p
              ∧ m.home = (s.slice p).lslice ∧ m.data = probePattern x.n (s.slice p).lslice)
          ∧ ∀ j, j ≠ p.val → t.slice j = s.slice j ∧ t.probe j = s.probe j)
      ∧ (∀ m : Msg,
          (((s.slice p).local_.contains m = false ∨ m.dst ≠ BitVec.ofNat 10 (460 + p.val)) → Idles (.probeStep p m) s)
          ∧ ((s.slice p).local_.contains m = true → m.dst = BitVec.ofNat 10 (460 + p.val) → x.step ≠ 0 → x.step ≤ 4 →
              m.txn = BitVec.ofNat 12 x.step →
              (s.probeGood p x.step m = true → x.step ≠ 4 → Ends (.probeStep p m) s fun t =>
                t.probe p = { x with step := x.step + 1 } ∧ t.saf.fatal = s.saf.fatal ∧ t.ras = s.ras)
              ∧ (s.probeGood p x.step m = true → x.step = 4 → Ends (.probeStep p m) s fun t =>
                t.probe p = { x with step := 0 } ∧ t.saf.passes = s.saf.passes + 1 ∧ t.ras = s.ras)
              ∧ (s.probeGood p x.step m = false → Ends (.probeStep p m) s fun t =>
                t.probe p = { x with step := 0 } ∧ t.saf.failSlice = BitVec.ofNat 8 p.val
                ∧ t.saf.failStep = BitVec.ofNat 3 x.step ∧ Recorded s t 2 0x48 p.val ∧ t.saf.fatal.isSome = true)))
      ∧ ((x.step = 0 ∨ s.time < x.since + 100) → Idles (.probeTimeout p) s)
      ∧ (x.step ≠ 0 → x.since + 100 ≤ s.time → Ends (.probeTimeout p) s fun t =>
          t.probe p = { x with step := 0 } ∧ t.saf.failStep = 5 ∧ Recorded s t 2 0x48 p.val
          ∧ t.saf.fatal.isSome = true))
    ∧ (∀ (c : BitVec 16) (good bad : Bool),
        ((s.saf.selfTest = false ∨ s.pwr.state ≠ 0 ∨ s.rst.phase.toNat < 3 ∨ s.rst.phase = 8 ∨ 878 ≤ c.toNat
            ∨ s.time < s.saf.testDue.get zeroNat c.toNat) → Idles (.checkerSelfTest c good bad) s)
        ∧ (s.saf.selfTest = true → s.pwr.state = 0 → c.toNat < 878 → s.saf.testDue.get zeroNat c.toNat ≤ s.time →
            good = false → bad = true → 3 ≤ s.rst.phase.toNat → s.rst.phase.toNat ≤ 7 →
            exec (.checkerSelfTest c good bad) s = .next { s with saf := { s.saf with
              testDue := s.saf.testDue.set zeroNat c.toNat (s.time + 500) } })
        ∧ (s.saf.selfTest = true → s.pwr.state = 0 → c.toNat < 878 → s.saf.testDue.get zeroNat c.toNat ≤ s.time →
            (good = true ∨ bad = false) →
            (s.rst.phase = 7 → Ends (.checkerSelfTest c good bad) s fun t =>
              Recorded s t 2 0x49 0 ∧ t.saf.fatal.isSome = true ∧ t.rst = s.rst)
            ∧ (3 ≤ s.rst.phase.toNat → s.rst.phase.toNat ≤ 6 → Ends (.checkerSelfTest c good bad) s fun t =>
              Recorded s t 2 0x49 0 ∧ t.rst = { s.rst with phase := 8, failCause := 4 } ∧ t.saf.fatalPin = true
              ∧ t.saf.safeAck = true)))
    ∧ Idles (.safKick .host) s
    ∧ (s.stewardRuns = false → Idles (.safKick .steward) s ∧ Idles .stewardWatchdogExpiry s)
    ∧ (s.stewardRuns = true →
        exec (.safKick .steward) s = .next { s with saf := { s.saf with kickedAt := s.time } })
    ∧ (s.time < s.saf.kickedAt + 200 → Idles .stewardWatchdogExpiry s)
    ∧ (s.stewardRuns = true → s.saf.kickedAt + 200 ≤ s.time → Ends .stewardWatchdogExpiry s fun t =>
        t.stw.running = false ∧ t.stw.outMain = [] ∧ t.stw.outCheck = [] ∧ t.saf.stwWdog = true ∧ t.loader.stwImage = []
        ∧ t.iag.arrived.getLast? = some 1439
        ∧ ∃ e, t.ras.inflight.getLast? = some e ∧ e.cls = 1 ∧ e.code = 0x39 ∧ e.agent = some 452)

/-- A lost clock is listed and reacted to as Table 20.6 says for its INDEX, and its return and the measuring window are noted (R310, R346, R370, R382, R383, R394, R399, R411). -/
def Obligations.LostClocksAreReactedTo : Prop :=
  ∀ s : State,
    (∀ i : Fin 36,
      ((s.rst.released = false ∨ i.val ∈ s.clk.lost) → Idles (.clockLoss i) s)
      ∧ (s.rst.released = true → i.val ∉ s.clk.lost →
          let told := fun (t : State) => ∃ e rest, t.ras.inflight = s.ras.inflight ++ e :: rest ∧ e.cls = 1 ∧ e.code = 0x41
            ∧ e.index = i.val ∧ e.time = s.time
          (Ends (.clockLoss i) s fun t => t.clk = { s.clk with
              lost := s.clk.lost ++ [i.val], present := s.clk.present &&& ~~~(BitVec.ofNat 36 (2 ^ i.val)), lossSeen := true
              lossClock := if s.clk.lossSeen = true then s.clk.lossClock else BitVec.ofNat 6 i }
            ∧ 1450 ∈ t.iag.arrived)
          ∧ (i.val < 2 → s.glb.coherentReady = true → s.rst.phase ≠ 8 → Ends (.clockLoss i) s fun t =>
              t.saf.kick = .safe ∧ t.saf.fatalPin = true ∧ t.saf.safeAck = true ∧ t.saf.fatal.isSome = true
              ∧ (s.saf.fatal = none → ∃ f, t.saf.fatal = some f ∧ f.code = 0x40 ∧ f.index = i.val)
              ∧ t.glb.ingressHold = true ∧ t.rst = s.rst ∧ (s.saf.kick = .none → t.pmc.freeze = true))
          ∧ (i.val < 2 → s.glb.coherentReady = false → s.rst.phase ≠ 8 → Ends (.clockLoss i) s fun t =>
              t.rst = { s.rst with phase := 8, failCause := 6 } ∧ t.saf.fatalPin = true)
          ∧ (i.val < 2 → s.glb.coherentReady = false → s.rst.phase = 8 → Ends (.clockLoss i) s fun t =>
              t.rst = s.rst ∧ t.saf = s.saf)
          ∧ (2 ≤ i.val → i.val < 22 → Ends (.clockLoss i) s fun t => told t ∧ (t.port (i.val - 2)).down = true
              ∧ ((s.port (i.val - 2)).down = false → (t.port (i.val - 2)).active = false))
          ∧ (22 ≤ i.val → i.val < 34 → Ends (.clockLoss i) s fun t => told t
              ∧ t.mpt (i.val - 22) = { s.mpt (i.val - 22) with
                  cmds := [], waiting := []
                  quar := (s.mpt (i.val - 22)).quar ++ (s.mpt (i.val - 22)).cmds.map fun c => (c.tag, s.time, true) }
              ∧ ((s.mpt (i.val - 22)).cmds = [] → (s.mpt (i.val - 22)).waiting = [] → t.slices = s.slices)
              ∧ (∀ c, (s.mpt (i.val - 22)).cmds = [c] → (s.mpt (i.val - 22)).waiting = [] → c.wr = false →
                  ∃ (a : Msg) (u : State), a.opc = 0x3E ∧ a.stat = 6 ∧ a.poison = 0xFF ∧ a.addr = c.msg.addr ∧ a.htag = c.msg.htag
                    ∧ u.slices = s.slices
                    ∧ t.slices = (u.memData (s.stwCopy.entry c.msg.home.toNat).phys a).slices))
          ∧ (i.val = 34 → Ends (.clockLoss i) s fun t => told t ∧ t.hfn = { s.hfn.resetBy s.time with inReset := true }
              ∧ t.rpq = [] ∧ (∀ x ∈ t.svc.sessions, x.owner.isSome = true))
          ∧ (i.val = 35 → Ends (.clockLoss i) s fun t => Recorded s t 1 0x41 35 ∧ t.saf = s.saf))
      ∧ (i.val ∉ s.clk.lost → Idles (.clockReturn i) s)
      ∧ (i.val ∈ s.clk.lost → Ends (.clockReturn i) s fun t => i.val ∉ t.clk.lost ∧ t.clk.present.getLsbD i = true
          ∧ (i.val = 34 → t.hfn = { s.hfn with inReset := false, cfgAt := s.time + 1000 })
          ∧ (∀ m, m < 12 → i.val = 22 + m → (t.mpt m).quar
              = (s.mpt m).quar.map fun q => if q.2.2 = true then (q.1, s.time, false) else q)
          ∧ (i.val < 22 → { t with clk := s.clk } = s)))
    ∧ (∀ khz : List Nat, Ends (.clockMeasWindowEnd khz) s fun t =>
        (∀ i, i < 36 → t.clk.khz.get zeroNat i = khz.getD i 0 ∧ t.clk.present.getLsbD i = clockOk i (khz.getD i 0))
        ∧ { t with clk := s.clk } = s)

/-- A captured block-fatal error leads through the window and the flush to the safe state, from Run, Coast and Freewheel (R310, R329, R358, R385, R386, R387). -/
def Obligations.KickstandReachesTheSafeState : Prop :=
  ∀ s : State,
    ((s.saf.fatal = none ∨ (s.saf.kick ≠ .none ∧ s.saf.kick ≠ .waking) ∨ (s.saf.kick = .waking ∧ s.wakeLate = false)
        ∨ (s.saf.kick = .none ∧ (s.rst.phase = 8 ∨ s.rst.released = false))) → Idles .kickstandEntry s)
    ∧ (∀ f, s.saf.fatal = some f →
        let direct := fun (t : State) => t.saf.kick = .safe ∧ t.saf.fatalPin = true ∧ t.saf.safeAck = true
          ∧ t.saf.flushIncomplete = true ∧ t.pwr.trans = none ∧ t.pmc.freeze = true ∧ 1449 ∈ t.iag.arrived
          ∧ t.slices = s.slices
        (s.saf.kick = .waking → s.wakeLate = true → Ends .kickstandEntry s direct)
        ∧ (s.saf.kick = .none → s.rst.phase ≠ 8 → s.rst.released = true →
          (s.pwr.state = 0 → s.pwr.trans = none → exec .kickstandEntry s = .next { s with
              glb := { s.glb with ingressHold := true },
              saf := { s.saf with kick := .window, kickAt := s.time } })
          ∧ (∀ x, s.pwr.state = 0 → s.pwr.trans = some x → Ends .kickstandEntry s fun t =>
              t.saf.kick = .window ∧ t.saf.kickAt = s.time ∧ t.glb.ingressHold = true ∧ t.pwr.trans = none
              ∧ t.pwr.bias = 0 ∧ t.pwr.stateReq = 0 ∧ t.pwr.retBias = false ∧ t.pwr.stwStopped = false)
          ∧ (s.pwr.state = 1 → s.pwr.trans = none → exec .kickstandEntry s = .next { s with
              glb := { s.glb with ingressHold := true }
              saf := { s.saf with kick := .waking, kickAt := s.time }
              pwr := { s.pwr with
                bias := 0, stateReq := 0
                trans := some { goal := 0, origin := 1, phase := .exitBias, since := s.time } } })
          ∧ (s.pwr.state = 1 → s.pwr.trans.isSome = true → f.code ≠ 0x50 → Ends .kickstandEntry s fun t =>
              t.saf.kick = .waking ∧ t.saf.kickAt = s.time ∧ t.glb.ingressHold = true ∧ t.pwr = s.pwr)
          ∧ (s.pwr.state = 1 → s.pwr.trans.isSome = true → f.code = 0x50 → Ends .kickstandEntry s direct)
          ∧ (s.pwr.state = 2 → Ends .kickstandEntry s direct)))
    ∧ ((s.saf.kick ≠ .window ∨ (s.workOpen = true ∧ s.time < s.saf.kickAt + 150)) → Idles .kickstandWindowEnd s)
    ∧ (s.saf.kick = .window → (s.workOpen = false ∨ s.saf.kickAt + 150 ≤ s.time) → Ends .kickstandWindowEnd s fun t =>
        t.saf.kick = .flushing ∧ t.saf.fatalPin = true ∧ t.ras.frozen = true ∧ t.pmc.freeze = true
        ∧ 1449 ∈ t.iag.arrived ∧ t.workOpen = false)
    ∧ (∀ cleaned : Bool,
        (s.saf.kick ≠ .flushing → Idles (.kickstandSafeAck cleaned) s)
        ∧ (s.time < s.saf.kickAt + 10000 → (cleaned = false ∨ s.slices.all (fun e => e.2.flushed) = false) →
            Idles (.kickstandSafeAck cleaned) s)
        ∧ (s.saf.kick = .flushing →
            (s.saf.kickAt + 10000 ≤ s.time ∨ (cleaned = true ∧ s.slices.all (fun e => e.2.flushed) = true)) →
            exec (.kickstandSafeAck cleaned) s = .next { s with saf := { s.saf with
              kick := .safe, safeAck := true, flushDone := s.slices.all (fun e => e.2.flushed),
              flushIncomplete := !s.slices.all (fun e => e.2.flushed) } }))

/-- Each start-up command acts in its own phase of Table 21.4 and moves to the next, or ends start-up in PHASE 8 with its cause (R392, R395, R397, R398, R399, R400, R401, R402, R403, R417). -/
def Obligations.StartUpRunsThroughItsPhases : Prop :=
  ∀ s : State,
    let fails := fun (cause : BitVec 4) (t : State) => t.rst.phase = 8 ∧ t.rst.failCause = cause
      ∧ t.saf.fatalPin = true ∧ t.saf.safeAck = true ∧ t.saf.flushIncomplete = true
    (Ends .coldReset s fun t => t.rst = State.reset.rst ∧ t.glb = State.reset.glb ∧ t.svc = State.reset.svc
      ∧ t.saf = State.reset.saf ∧ t.slices = [] ∧ t.ports = [] ∧ t.rings = [] ∧ t.engines = State.reset.engines
      ∧ t.time = 0 ∧ t.pending = s.pending ∧ t.straps = s.straps
      ∧ t.pwr = { State.reset.pwr with railOk := s.pwr.railOk })
    ∧ (s.rst.released = true → Idles .coldResetRelease s)
    ∧ (s.rst.released = false → Ends .coldResetRelease s fun t => t.rst.released = true ∧ t.rst.phase = s.rst.phase
        ∧ t.svc = { s.svc with vdbgKey := s.straps.vdbgKey } ∧ t.glb = s.glb)
    ∧ ((s.rst.released = false ∨ s.rst.phase ≠ 0) → Idles .pllLock s ∧ Idles .pllLockTimeout s)
    ∧ (s.rst.released = true → s.rst.phase = 0 →
        (Ends .pllLock s fun t => t.rst = { s.rst with phase := 1 } ∧ t.clk.pllLock = true
          ∧ { t with rst := s.rst, clk := s.clk } = s)
        ∧ (s.time < 200 → Idles .pllLockTimeout s) ∧ (200 ≤ s.time → Ends .pllLockTimeout s (fails 1)))
    ∧ (∀ (l : List (Fin 132)) (o : Bool),
        (s.rst.phase ≠ 1 → Idles (.arraySelfTestDone l o) s)
        ∧ (s.rst.phase = 1 → o = true → Ends (.arraySelfTestDone l o) s (fails 2))
        ∧ (s.rst.phase = 1 → o = false → l.length ≤ 4 → Ends (.arraySelfTestDone l o) s fun t =>
            t.rst = { s.rst with phase := 2, bistFail := bistBits l } ∧ { t with rst := s.rst } = s)
        ∧ (s.rst.phase = 1 → o = false → 4 < l.length → l.Nodup → Ends (.arraySelfTestDone l o) s (fails 3)))
    ∧ (∀ c, (s.rst.phase ≠ 2 → Idles (.checkerTestAndClearDone c) s))
    ∧ (∀ c, s.rst.phase = 2 → Ends (.checkerTestAndClearDone (some c)) s (fails 4))
    ∧ (s.rst.phase = 2 → Ends (.checkerTestAndClearDone none) s fun t => t.rst = { s.rst with phase := 3 })
    ∧ (∀ l, s.rst.phase ≠ 3 → Idles (.ringTrainingDone l) s)
    ∧ (∀ l : List (Fin 6 × Fin 94), s.rst.phase = 3 → (∀ r, r < 6 → (s.ring r).mode ≠ 2) →
        (∀ k, k < 3 → ∃ r : Fin 6, r.val / 2 = k ∧ ∀ a b, (r, a) ∈ l → (r, b) ∈ l → a = b) →
        Ends (.ringTrainingDone l) s fun t => t.rst.phase = 4 ∧ t.rst.phase4At = s.time
          ∧ (t.eng 132).state = 1 ∧ (t.eng 132).pc = 0x10000 ∧ (t.eng 133).state = 1
          ∧ ∀ r : Fin 6, (∀ a : Fin 94, (t.ring r).segOut.getLsbD a = decide ((r, a) ∈ l))
            ∧ ((∃ a b, a ≠ b ∧ (r, a) ∈ l ∧ (r, b) ∈ l) → (t.ring r).mode = 2)
            ∧ ((∀ a b, (r, a) ∈ l → (r, b) ∈ l → a = b) → (t.ring r).mode = (s.ring r).mode))
    ∧ (∀ l : List (Fin 6 × Fin 94), s.rst.phase = 3 →
        (∃ k, k < 3 ∧ ∀ r : Fin 6, r.val / 2 = k → ∃ a b, a ≠ b ∧ (r, a) ∈ l ∧ (r, b) ∈ l) →
        Ends (.ringTrainingDone l) s (fails 5))
    ∧ (∀ n : Fin 50,
        (s.bringUp n = false → Idles (.portUp n) s ∧ Idles (.portDeadline n) s)
        ∧ (s.linkReady n = false → Idles (.portUp n) s)
        ∧ (s.bringUp n = true → s.linkReady n = true → Ends (.portUp n) s fun t =>
            t.port n = { s.port n with up := true } ∧ (t.rst.phase = s.rst.phase ∨ t.rst.phase = 6))
        ∧ (s.time < s.rst.phase4At + 30000 → Idles (.portDeadline n) s)
        ∧ (s.bringUp n = true → s.rst.phase4At + 30000 ≤ s.time → Ends (.portDeadline n) s fun t =>
            t.rst.portDown.getLsbD n = true ∧ (t.port n).up = false))
    ∧ ((s.rst.phase ≠ 6 ∨ s.glb.enabled = true) → Idles .sliceEnable s)
    ∧ (s.rst.phase = 6 → s.glb.enabled = false → Ends .sliceEnable s fun t =>
        t.glb.enabled = true ∧ t.rst = s.rst
        ∧ (∀ p, p < 132 → (t.slice p).active = s.startSlices.contains p
            ∧ (p ∈ t.pwr.gated ↔ s.startSlices.contains p = false)
            ∧ ((s.eng p).fwOk = true → (t.eng p).state = 1)))
    ∧ ((s.rst.phase ≠ 6 ∨ s.glb.enabled = false ∨ ∃ e, e < 132 ∧ (s.eng e).state ≠ 0 ∧ (s.slice e).far.copyDone = false) →
        Idles .coherentReady s)
    ∧ (s.rst.phase = 6 → s.glb.enabled = true →
        (∀ e, e < 132 → (s.eng e).state = 0 ∨ (s.slice e).far.copyDone = true) → Ends .coherentReady s fun t =>
        t.rst = { s.rst with phase := 7, readyUs := BitVec.ofNat 32 s.time } ∧ t.glb.coherentReady = true)
    ∧ (s.rst.released = false → Idles .timeBaseTick s)
    ∧ (s.rst.released = true → Ends .timeBaseTick s fun t => t.time = s.time + 1 ∧ t.fclk = s.fclk ∧ t.rst = s.rst
        ∧ t.slices = s.slices)

/-- The restore window closes by command or after 8 ms, steward images are taken only by a waiting ROM, and the test port stays locked (R16, R28, R102, R280, R326, R328, R399, R400, R415). -/
def Obligations.RestoreRelayAndTestPort : Prop :=
  ∀ s : State,
    ((s.rst.restoreAt = none ∨ s.rst.restoreClosed = true) →
      Idles .restoreWindowCloseCmd s ∧ Idles .restoreWindowTimeout s)
    ∧ (∀ a, s.rst.restoreAt = some a → s.rst.restoreClosed = false →
        let closed := fun (t : State) => t.rst.restoreClosed = true
          ∧ (t.rst.phase = s.rst.phase ∨ (s.rst.phase = 5 ∧ t.rst.phase = 6))
          ∧ (∀ l, l < 128 → ∃ p, s.mendedMap[l]? = some p ∧ t.glb.startMap.get resetMap l = p
              ∧ (s.rst.bistFail.getLsbD (s.glb.startMap.get resetMap l) = false → p = s.glb.startMap.get resetMap l)
              ∧ ∀ c, c < 52 → (t.copy c).entry l = { phys := p })
          ∧ (∀ p, (t.slice p).active = (s.slice p).active)
          ∧ { t with
              rst := s.rst, glb := s.glb, slices := s.slices, ports := s.ports, stwCopy := s.stwCopy, hfnCopy := s.hfnCopy } = s
        (s.stewardRuns = true → Ends .restoreWindowCloseCmd s closed)
        ∧ (s.stewardRuns = false → Idles .restoreWindowCloseCmd s)
        ∧ (s.time < a + 8000 → Idles .restoreWindowTimeout s)
        ∧ (a + 8000 ≤ s.time → Ends .restoreWindowTimeout s closed))
    ∧ (∀ (k : Nat) (b : List Byte),
        ((s.rst.phase.toNat < 4 ∨ s.inKickstand = true ∨ s.stw.running = true ∨ k = 0 ∨ 65 < k ∨ b = []
            ∨ 1024 < b.length ∨ (k ≠ 1 ∧ (s.loader.stwImage.get noBytes (k - 1)).length ≠ 1024)) →
          Idles (.stewardImageWrite k b) s)
        ∧ (k = 1 → 4 ≤ s.rst.phase.toNat → s.inKickstand = false → s.stw.running = false → b ≠ [] →
            b.length ≤ 1024 → imageDue b = false → (∀ e ∈ s.loader.stwImage, 1 ≤ e.1) → Ends (.stewardImageWrite k b) s fun t =>
              t.loader.stwImage = [(1, b)] ∧ { t with loader := s.loader } = s))
    ∧ Idles (.relayEntryWatchdog true) s
    ∧ ((∀ r ∈ s.stw.relays, r.reported = true ∨ s.time - r.since < s.wdog) → Idles (.relayEntryWatchdog false) s)
    ∧ ((∃ r ∈ s.stw.relays, r.reported = false ∧ s.wdog ≤ s.time - r.since) →
        Ends (.relayEntryWatchdog false) s fun t =>
          t.iag.arrived = s.iag.arrived ++ [1249] ∧ t.stw.relays.length = s.stw.relays.length
          ∧ (∃ r ∈ t.stw.relays, r.reported = true ∧ s.wdog ≤ s.time - r.since)
          ∧ { t with stw := s.stw, iag := s.iag } = s)
    ∧ exec (.tapInstruction .idcode) s = .next { s with rst := { s.rst with
        tap := .idcode, taps := s.rst.taps + 1, tdr := s.straps.idcode ++ (1 : BitVec 1) } }
    ∧ exec (.tapInstruction .bypass) s = .next { s with rst := { s.rst with
        tap := .bypass, taps := s.rst.taps + 1, tdr := 0 } }
    ∧ exec (.tapInstruction .samplePreload) s = .next { s with rst := { s.rst with
        tap := .samplePreload, taps := s.rst.taps + 1, tdr := Config.boundary s.rst.taps } }
    ∧ exec (.tapInstruction .extest) s = .next { s with rst := { s.rst with
        tap := if s.rst.released then .bypass else .extest, taps := s.rst.taps + 1
        tdr := if s.rst.released then 0 else Config.boundary s.rst.taps } }
    ∧ (s.debugOpen = false → exec (.tapInstruction .other) s = exec (.tapInstruction .bypass) s)
    ∧ (s.debugOpen = true → exec (.tapInstruction .other) s = .refused .debugInstrument)

/-- Common command codes set and report what R316 gives, control messages are answered, and packets are reassembled in sequence (R316, R317). -/
def Obligations.ServicePortCommandsTakeEffect : Prop :=
  (∀ s : State, s.islandUp = false → ∀ c, (c ∈ ([.rstdaa, .getpid, .getbcr, .getdcr, .getstatus, .getmwl, .getmrl] : List Instr)
      ∨ (∃ a, c = .entdaa a) ∨ (∃ a b, c = .setdasa a b) ∨ (∃ b, c = .enec b ∨ c = .disec b)
      ∨ (∃ v, c = .setmwl v ∨ c = .setmrl v) ∨ (∃ k, c = .mctpPacket k) ∨ (∃ e g a b, c = .setEndpointId e g a b)
      ∨ (∃ e g, c = .getEndpointId e g ∨ c = .getMessageTypeSupport e g)
      ∨ ∃ e g b, c = .getMctpVersionSupport e g b ∨ c = .getVendorDefinedMsgSupport e g b) → Idles c s)
  ∧ ∀ s : State, s.islandUp = true →
    let set := fun (v : Svc) => Host.Outcome.next (ρ := Refusal) (φ := Fault) { s with svc := v }
    (∀ c ∈ ([(.getpid, beBytes 6 s.straps.i3cPid.toNat), (.getbcr, [Config.bcr]), (.getdcr, [mctpDcr]),
        (.getstatus, beBytes 2 (Config.status s.svc.ibis.length).toNat), (.getmwl, [0, 69]), (.getmrl, [0, 69])] :
        List (Instr × List Byte)),
      (s.svc.dynAddr = none → Idles c.1 s)
      ∧ (s.svc.dynAddr.isSome = true → exec c.1 s = set { s.svc with ccc := c.2 }))
    ∧ exec .rstdaa s = set { s.svc with dynAddr := none }
    ∧ (∀ a, (s.svc.dynAddr.isSome = true → Idles (.entdaa a) s ∧ ∀ sa, Idles (.setdasa sa a) s)
        ∧ (s.svc.dynAddr = none → exec (.entdaa a) s = set { s.svc with dynAddr := some a }
            ∧ exec (.setdasa s.straps.i3cSa a) s = set { s.svc with dynAddr := some a })
        ∧ ∀ sa, sa ≠ s.straps.i3cSa → Idles (.setdasa sa a) s)
    ∧ (∀ b, exec (.enec b) s = set { s.svc with events := s.svc.events ||| b }
        ∧ exec (.disec b) s = set { s.svc with events := s.svc.events &&& ~~~b })
    ∧ (∀ v : BitVec 16, (Ends (.setmwl v) s fun t => t.svc.mwl = v ∧ t.svc.mrl = s.svc.mrl ∧ { t with svc := s.svc } = s
          ∧ (t.svc.outbox = if v.toNat < 69 ∨ s.svc.mrl.toNat < 69 then s.svc.outbox else [])
          ∧ (∀ m, s.svc.outbox = [m] → 69 ≤ v.toNat → 69 ≤ s.svc.mrl.toNat → ∃ ps, t.svc.packets = s.svc.packets ++ ps
              ∧ ps.length = (m.2.2.length + 63) / 64 ∧ ps.flatMap (·.payload) = m.2.2
              ∧ (∀ k ∈ ps, k.dst = m.1 ∧ k.tag = m.2.1 ∧ k.payload.length ≤ 64 ∧ (k.eom = false → k.payload.length = 64))
              ∧ (∀ k, ps.head? = some k → k.som = true) ∧ (∀ k, ps.getLast? = some k → k.eom = true)
              ∧ t.svc.ibis = s.svc.ibis ++ (if s.svc.events.getLsbD 0 then [0xAE] else []))
          ∧ t.svc.sent ++ t.svc.outbox = s.svc.sent ++ s.svc.outbox)
        ∧ (Ends (.setmrl v) s fun t => t.svc.mrl = v ∧ t.svc.mwl = s.svc.mwl ∧ { t with svc := s.svc } = s
          ∧ (t.svc.outbox = if s.svc.mwl.toNat < 69 ∨ v.toNat < 69 then s.svc.outbox else [])
          ∧ t.svc.sent ++ t.svc.outbox = s.svc.sent ++ s.svc.outbox))
    ∧ (∀ (e : Byte) (g : BitVec 3),
        (∀ op eid : Byte, op.toNat ≤ 1 → eid ≠ 0 → eid ≠ 0xFF → Ends (.setEndpointId e g op eid) s fun t =>
          t.svc.eid = eid ∧ t.svc.sessions = s.svc.sessions
          ∧ ∃ i, (e, g, [0, i, 1, 0, 0, eid, 0]) ∈ t.svc.sent ++ t.svc.outbox)
        ∧ (∀ op eid : Byte, (1 < op.toNat ∨ eid = 0 ∨ eid = 0xFF) → Ends (.setEndpointId e g op eid) s fun t =>
          t.svc.eid = s.svc.eid ∧ ∃ i, (e, g, [0, i, 1, 2]) ∈ t.svc.sent ++ t.svc.outbox)
        ∧ (Ends (.getEndpointId e g) s fun t => t.svc.eid = s.svc.eid ∧ t.svc.sessions = s.svc.sessions
          ∧ ∃ i, (e, g, [0, i, 2, 0, s.svc.eid, 0, 0]) ∈ t.svc.sent ++ t.svc.outbox)
        ∧ (Ends (.getMessageTypeSupport e g) s fun t =>
          ∃ i, (e, g, [0, i, 5, 0, 1, 0x7E]) ∈ t.svc.sent ++ t.svc.outbox)
        ∧ (∀ ty : Byte, Ends (.getMctpVersionSupport e g ty) s fun t => t.svc.sessions = s.svc.sessions
          ∧ ((ty = 0 ∨ ty = 0x7E ∨ ty = 0xFF) → ∃ i, (e, g, [0, i, 4, 0, 1] ++ beBytes 4 (Config.mctpVersion ty).toNat)
              ∈ t.svc.sent ++ t.svc.outbox)
          ∧ (ty ≠ 0 → ty ≠ 0x7E → ty ≠ 0xFF → ∃ i, (e, g, [0, i, 4, 0x80]) ∈ t.svc.sent ++ t.svc.outbox))
        ∧ (Ends (.getVendorDefinedMsgSupport e g 0) s fun t => ∃ i, (e, g, [0, i, 6, 0, 0xFF, 0]
            ++ beBytes 2 s.straps.hfnVid.toNat ++ beBytes 2 Config.vdmSet.toNat) ∈ t.svc.sent ++ t.svc.outbox)
        ∧ (∀ sel : Byte, sel ≠ 0 → Ends (.getVendorDefinedMsgSupport e g sel) s fun t =>
            ∃ i, (e, g, [0, i, 6, 2]) ∈ t.svc.sent ++ t.svc.outbox))
    ∧ (∀ k : MctpPkt,
        ((s.svc.dynAddr = none ∨ k.pecOk = false ∨ k.owner = false ∨ 64 < k.payload.length
            ∨ (k.eom = false ∧ k.payload.length ≠ 64)) → Idles (.mctpPacket k) s)
        ∧ (s.svc.dynAddr.isSome = true → k.pecOk = true → k.owner = true → k.payload.length ≤ 64 →
            (k.eom = true ∨ k.payload.length = 64) →
            (s.svc.reasmOf k.src k.tag = none → k.som = false → Idles (.mctpPacket k) s)
            ∧ (s.svc.reasmOf k.src k.tag = none → k.som = true → k.eom = false →
                Ends (.mctpPacket k) s fun t => t.svc.reasmOf k.src k.tag
                  = some { src := k.src, tag := k.tag, seq := k.seq, bytes := k.payload } ∧ t.svc.inbox = s.svc.inbox)
            ∧ (∀ r, s.svc.reasmOf k.src k.tag = some r → k.som = false →
                (k.seq ≠ r.seq + 1 → Ends (.mctpPacket k) s fun t => t.svc.reasmOf k.src k.tag = none
                  ∧ t.svc.discarded = s.svc.discarded + 1 ∧ t.svc.inbox = s.svc.inbox)
                ∧ (k.seq = r.seq + 1 → k.eom = false → r.bytes.length + k.payload.length ≤ 1043 →
                    Ends (.mctpPacket k) s fun t => t.svc.reasmOf k.src k.tag
                      = some { src := k.src, tag := k.tag, seq := k.seq, bytes := r.bytes ++ k.payload }))
            ∧ (s.svc.reasmOf k.src k.tag = none → k.som = true → k.eom = true →
                k.payload.take 3 = s.vdmHead → Ends (.mctpPacket k) s fun t =>
                  t.svc.inbox = s.svc.inbox ++ [(k.src, k.tag, k.payload)] ∧ t.svc.sessions = s.svc.sessions)))

/-- A new request of a session is carried out and answered with the next sequence number, and its answer is kept and sent (R319, R321, R322, R324, R325, R327, R328, R386). -/
def Obligations.NewRequestsAreCarriedOutAndAnswered : Prop :=
  ∀ (rt : Route) (b : List Byte) (s : State) (x : Session),
    (NewRequest s rt b 3 x →
      (dictRow (fgIndex b) (fgSub b) = none → Ends (.fgRead rt b) s fun t => Answered t rt x b 3 0 [])
      ∧ (∀ r, dictRow (fgIndex b) (fgSub b) = some r →
          (r.acc = 2 → Ends (.fgRead rt b) s fun t => Answered t rt x b 4 0 [])
          ∧ (r.acc ≠ 2 → Ends (.fgRead rt b) s fun t => Answered t rt x b 0 0
              ([BitVec.ofNat 8 r.ty, BitVec.ofNat 8 r.acc, BitVec.ofNat 8 r.lvl, if r.rest then 1 else 0]
                ++ (s.begun rt b).dictRead x.n.toNat x.level.toNat (fgIndex b) (fgSub b) r.ty))))
    ∧ (NewRequest s rt b 4 x → s.writeWaits b = false →
        (s.inKickstand = true → Ends (.fgWrite rt b) s fun t => Answered t rt x b 1 0 [])
        ∧ (s.inKickstand = false →
            (dictRow (fgIndex b) (fgSub b) = none → Ends (.fgWrite rt b) s fun t => Answered t rt x b 3 0 [])
            ∧ (∀ r, dictRow (fgIndex b) (fgSub b) = some r →
                ((r.acc = 0 ∨ (fgIndex b = 0x1101 ∧ rt = .mbx)) →
                  Ends (.fgWrite rt b) s fun t => Answered t rt x b 4 0 [])
                ∧ (r.acc ≠ 0 → fgIndex b ≠ 0x1101 → r.lvl = 1 → x.level = 0 →
                  Ends (.fgWrite rt b) s fun t => Answered t rt x b 5 0 [])
                ∧ (r.acc ≠ 0 → fgIndex b ≠ 0x1101 → (r.lvl ≠ 1 ∨ x.level ≠ 0) →
                    ((fgByte b 15).toNat ≠ r.ty ∨ tyFits r.ty (b.length - 16) = false) →
                    Ends (.fgWrite rt b) s fun t => Answered t rt x b 6 (BitVec.ofNat 8 r.ty) [])
                ∧ (r.acc ≠ 0 → (fgIndex b ≠ 0x1101 ∨ rt ≠ .mbx) → (r.lvl ≠ 1 ∨ x.level ≠ 0) →
                    (fgByte b 15).toNat = r.ty → tyFits r.ty (b.length - 16) = true → ∀ u,
                    (s.begun rt b).dictWrite (fgIndex b) (fgSub b) (fgByte b 15).toNat (b.drop 16) = (u, .ok) →
                    ∃ peer : Peer, peer.rt = rt ∧ exec (.fgWrite rt b) s = .next (u.answer peer x.n (fgTx b) 4 0 0 []))
                ∧ (r.acc ≠ 0 → (fgIndex b ≠ 0x1101 ∨ rt ≠ .mbx) → (r.lvl ≠ 1 ∨ x.level ≠ 0) →
                    (fgByte b 15).toNat = r.ty → tyFits r.ty (b.length - 16) = true → ∀ u kind,
                    (s.begun rt b).dictWrite (fgIndex b) (fgSub b) (fgByte b 15).toNat (b.drop 16) = (u, .later kind) →
                    ∃ peer : Peer, peer.rt = rt ∧ exec (.fgWrite rt b) s = .next { u with svc := { u.svc with
                      await := some { peer, n := x.n, tx := fgTx b, kind, since := s.time } } })
                ∧ (r.acc ≠ 0 → (fgIndex b ≠ 0x1101 ∨ rt ≠ .mbx) → (r.lvl ≠ 1 ∨ x.level ≠ 0) →
                    (fgByte b 15).toNat = r.ty → tyFits r.ty (b.length - 16) = true → ∀ u d,
                    (s.begun rt b).dictWrite (fgIndex b) (fgSub b) (fgByte b 15).toNat (b.drop 16) = (u, .refused d) →
                    ∃ peer : Peer, peer.rt = rt ∧ exec (.fgWrite rt b) s = .next (u.answer peer x.n (fgTx b) 4 2 d [])))))
    ∧ (NewRequest s rt b 5 x →
        (∀ v, s.lockLeft = some v → Ends (.fgChallenge rt b) s fun t => Answered t rt x b 0x0C (BitVec.ofNat 8 v) [])
        ∧ (s.lockLeft = none → s.svc.key (fgByte b 12 == 1) = none →
            Ends (.fgChallenge rt b) s fun t => Answered t rt x b 0x0B 0 [])
        ∧ (s.lockLeft = none → (s.svc.key (fgByte b 12 == 1)).isSome = true → Ends (.fgChallenge rt b) s fun t =>
            Answered t rt x b 0 0 (leBytes 16 (Config.nonce s.svc.challenges).toNat)
            ∧ t.svc.challenges = s.svc.challenges + 1
            ∧ ∃ y, t.session rt x.n = some y ∧ y.nonce = some (fgByte b 12 == 1, Config.nonce s.svc.challenges)))
    ∧ (NewRequest s rt b 6 x →
        (∀ lvl, s.macMatch x (b.drop 12) = some lvl → Ends (.fgResponse rt b) s fun t =>
          Answered t rt x b 0 0 [if x.level.toNat < lvl.toNat then lvl else x.level] ∧ t.svc.failures = 0
          ∧ ∃ y, t.session rt x.n = some y ∧ y.nonce = none
            ∧ y.level = (if x.level.toNat < lvl.toNat then lvl else x.level))
        ∧ (s.macMatch x (b.drop 12) = none → Ends (.fgResponse rt b) s fun t =>
          Answered t rt x b 0x0A (BitVec.ofNat 8 (min 255 (s.svc.failures + 1))) []
          ∧ t.svc.failures = s.svc.failures + 1 ∧ t.svc.authFails = s.svc.authFails + 1
          ∧ (s.svc.failures < 3 → t.svc.lockout = s.svc.lockout)
          ∧ (3 ≤ s.svc.failures → s.svc.lockout = none → t.svc.lockout = some s.time)
          ∧ ∃ y, t.session rt x.n = some y ∧ y.nonce = none ∧ y.level = x.level))
    ∧ (NewRequest s rt b 8 x → Ends (.fgDrop rt b) s fun t =>
        Answered t rt x b 0 0 [] ∧ ∃ y, t.session rt x.n = some y ∧ y.level = 0)
    ∧ (NewRequest s rt b 2 x → Ends (.fgClose rt b) s fun t =>
        t.svc.sessions = s.svc.sessions.filter (fun y => y.n != x.n)
        ∧ Delivered t rt (fgAnswer 2 x.n (nextSeq x.lastTx) (fgTx b) 0 0 []))

/-- The gate discards or refuses bad messages, repeats get the stored answer, and sessions open, resynchronise and end (R317, R320, R321, R322, R323, R324, R325, R327, R328, R330, R332). -/
def Obligations.SessionsAreOpenedNumberedAndEnded : Prop :=
  (∀ (s : State) (rt : Route) (b : List Byte), s.islandUp = false →
    ∀ c ∈ ([.fgOpen rt b, .fgClose rt b, .fgRead rt b, .fgWrite rt b, .fgChallenge rt b, .fgResponse rt b,
      .fgResync rt b, .fgDrop rt b, .accumulatorPoll, .ownerKeyWrite rt b] : List Instr), Idles c s)
  ∧ (∀ (s : State) (rt : Route) (b : List Byte), s.islandUp = true → s.writeWaits b = false →
      ∀ c ∈ ([.fgOpen rt b, .fgClose rt b, .fgRead rt b, .fgWrite rt b, .fgChallenge rt b, .fgResponse rt b,
        .fgResync rt b, .fgDrop rt b] : List Instr),
        ((rt = .mbx ∧ (s.svc.busy = false ∨ s.svc.mbxMsg ≠ b)) → Idles c s)
        ∧ (rt ≠ .mbx → fgGate b = 1 → Ends c s fun t => t.svc.discarded = s.svc.discarded + 1
            ∧ t.svc.sessions = s.svc.sessions ∧ t.svc.sent = s.svc.sent ∧ t.svc.outbox = s.svc.outbox)
        ∧ (rt ≠ .mbx → 1 < fgGate b → Ends c s fun t => t.svc.malformed = s.svc.malformed + 1
            ∧ t.svc.sessions = s.svc.sessions
            ∧ Delivered t rt (fgAnswer (fgType b) (fgSession b) 0 0 7 (BitVec.ofNat 8 (fgGate b)) [])))
  ∧ (∀ (s : State) (rt : Route) (b : List Byte), s.writeWaits b = false →
      ∀ c ∈ ([(.fgClose rt b, 2), (.fgRead rt b, 3), (.fgWrite rt b, 4), (.fgChallenge rt b, 5), (.fgResponse rt b, 6),
        (.fgDrop rt b, 8)] : List (Instr × Byte)), Taken s rt b c.2 →
        (s.session rt (fgSession b) = none → Ends c.1 s fun t => t.svc.sessions = s.svc.sessions
            ∧ Delivered t rt (fgAnswer c.2 (fgSession b) 0 0 9 0 []))
        ∧ ∀ x, s.session rt (fgSession b) = some x → s.awaited x.n = false →
            (fgTx b = x.lastRx → Ends c.1 s fun t => t.svc.sessions = s.svc.sessions ∧ Delivered t rt x.answer)
            ∧ (fgTx b ≠ x.lastRx → (fgTx b ≠ nextSeq x.lastRx ∨ fgRx b ≠ x.lastTx) → Ends c.1 s fun t =>
                t.session rt x.n = some { x with lastTx := nextSeq x.lastTx }
                ∧ Delivered t rt (fgAnswer c.2 x.n (nextSeq x.lastTx) x.lastRx 8 0 [])))
  ∧ (∀ (s : State) (rt : Route) (b : List Byte),
      (Taken s rt b 1 → fgTx b = 1 → fgRx b = 0 → s.sessionFree rt = true → s.svc.sessions.length ≤ 12 →
        Ends (.fgOpen rt b) s fun t => ∃ x, t.session rt x.n = some x ∧ x.level = 0 ∧ x.lastRx = 1 ∧ x.lastTx = 1
          ∧ x.nonce = none ∧ x.n ≠ 0 ∧ (∀ y ∈ s.svc.sessions, y.n ≠ x.n)
          ∧ t.svc.sessions.length = s.svc.sessions.length + 1 ∧ Delivered t rt (fgAnswer 1 x.n 1 1 0 0 []))
      ∧ (Taken s rt b 1 → fgTx b = 1 → fgRx b = 0 → s.sessionFree rt = false → Ends (.fgOpen rt b) s fun t =>
          t.svc.sessions = s.svc.sessions ∧ Delivered t rt (fgAnswer 1 0 0 0 1 0 []))
      ∧ (∀ x, Taken s rt b 7 → fgSession b ≠ 0 → s.session rt (fgSession b) = some x → Ends (.fgResync rt b) s fun t =>
          t.session rt x.n = some { x with lastTx := nextSeq x.lastTx }
          ∧ Delivered t rt (fgAnswer 7 x.n (nextSeq x.lastTx) x.lastRx 0 0 (s.resyncEntry x))))
  ∧ ∀ s : State,
    (∀ n : BitVec 16,
      ((∀ x ∈ s.svc.sessions, x.n = n → s.time < x.lastNew + 1800000000) → Idles (.sessionIdleTimeout n) s)
      ∧ (∀ x, s.svc.sessions.find? (fun x => x.n == n) = some x → x.lastNew + 1800000000 ≤ s.time →
          exec (.sessionIdleTimeout n) s = .next { s with svc := { s.svc with
            sessions := s.svc.sessions.filter fun x => x.n != n } }))
    ∧ (s.svc.lockout = none → Idles .lockoutExpiry s)
    ∧ (∀ a, s.svc.lockout = some a →
        (s.time < a + 60000000 → Idles .lockoutExpiry s)
        ∧ (a + 60000000 ≤ s.time → exec .lockoutExpiry s = .next { s with svc := { s.svc with lockout := none } }))
    ∧ (∀ (rt : Route) (k : List Byte),
        ((rt = .mbx ∨ s.inKickstand = true ∨ s.svc.ownerKey.isSome = true ∨ k.length ≠ 32) →
          Idles (.ownerKeyWrite rt k) s)
        ∧ (s.islandUp = true → s.inKickstand = false → rt ≠ .mbx → s.svc.ownerKey = none → k.length = 32 →
            exec (.ownerKeyWrite rt k) s = .next { s with svc := { s.svc with ownerKey := some k } }))
    ∧ (s.islandUp = true → s.hfnTakes = true → s.hfn.waits = [] →
        (s.svc.rspReady = true →
          exec .mbxGo s = .next { s with svc := { s.svc with refused := true, discarded := s.svc.discarded + 1 } })
        ∧ (s.svc.busy = true → s.svc.rspReady = false →
          exec .mbxGo s = .next { s with svc := { s.svc with refused := true } })
        ∧ (s.svc.busy = false → s.svc.rspReady = false → fgGate s.svc.mbxMsg ≠ 1 →
          exec .mbxGo s = .next { s with svc := { s.svc with busy := true } }))
    ∧ (((s.hfnTakes = false ∧ s.hfn.d3hot = false) ∨ (s.hfnTakes = true ∧ s.islandUp = false)) → s.hfn.waits = [] →
        Idles .mbxGo s)
    ∧ (s.rst.released = true → s.rst.phase ≠ 0 → s.hfn.inReset = false → s.hfn.d3hot = true → s.hfn.waits = [] →
        exec .mbxGo s = .next { s with hfn := { s.hfn with aer := s.hfn.aer ||| 0x100000 } })
    ∧ (s.hfn.waits ≠ [] → exec .mbxGo s = .next { s with hfn := { s.hfn with waits := s.hfn.waits ++
        [{ bar := .bar2, off := 0x100000, size := 4, wr := some 1 }] } })
    ∧ (∀ a x, s.islandUp = true → s.svc.await = some a → a.since + 100000 ≤ s.time → s.session a.peer.rt a.n = some x →
        Ends .accumulatorPoll s fun t => t.svc.await = none
          ∧ ∃ y, t.session a.peer.rt a.n = some y ∧ y.lastRx = a.tx ∧ y.lastStatus = 0 ∧ y.lastTx = nextSeq x.lastTx)
    ∧ (s.islandUp = true → (∀ a, s.svc.await = some a → s.time < a.since + 100000) → Ends .accumulatorPoll s fun t =>
        (∀ i, i < 7 → t.svc.unitSums.get zero32 i = s.unitAccs.getD i 0) ∧
        (∀ p c, p < 132 → c < 32 → t.svc.polled.get zero32 (64 * p + c) = (s.slice p).acc.get zero32 c)
        ∧ (∀ c, c < 32 → t.svc.sums.get zero32 c = (List.range 132).foldl (fun v p =>
            v + ((s.slice p).acc.get zero32 c - s.svc.polled.get zero32 (64 * p + c))) (s.svc.sums.get zero32 c))
        ∧ { t with svc := s.svc } = s)

/-- Error records take their numbers in order, are logged and spilled, and the registers of the spill ring are guarded (R339, R362, R364, R365, R366, R367, R386, R333, R340). -/
def Obligations.RecordsAreNumberedLoggedAndSpilled : Prop :=
  (∀ s : State,
    (s.ras.inflight = [] → Idles .errorRecord s)
    ∧ (s.ras.inflight ≠ [] → ∃ (e : ErrRec) (rest : List ErrRec), recNext s.ras.inflight = some (e, rest) ∧ e ∈ s.ras.inflight
        ∧ rest.length + 1 = s.ras.inflight.length
        ∧ ∀ x ∈ rest, e.eclk < x.eclk ∨ (e.eclk = x.eclk ∧ (e.unit.toNat < x.unit.toNat
            ∨ (e.unit = x.unit ∧ e.index ≤ x.index))))
    ∧ (∀ e rest, recNext s.ras.inflight = some (e, rest) →
        let k := logOf e
        let size := if k = 132 then 64 else 16
        let numbered := { e with seq := BitVec.ofNat 32 s.ras.next, lost := (s.log k).lost }
        (s.ras.frozen = true → exec .errorRecord s = .next { s with ras := { s.ras with
          inflight := rest, lost := satInc16 s.ras.lost } })
        ∧ (s.ras.frozen = false → Ends .errorRecord s fun t =>
            t.ras.inflight = rest ∧ t.ras.next = s.ras.next + 1
            ∧ (∀ j, j ≠ k → t.log j = s.log j)
            ∧ ((s.log k).recs.length < size →
                (t.log k).recs = numbered :: (s.log k).recs ∧ (t.log k).lost = false ∧ t.ras.lost = s.ras.lost)
            ∧ (size ≤ (s.log k).recs.length → (t.log k).lost = true ∧ t.ras.lost = satInc16 s.ras.lost
                ∧ (∀ r ∈ (s.log k).recs, r.cls = 2 → r ∈ (t.log k).recs)
                ∧ ((∀ r ∈ (s.log k).recs, r.cls = 2) → (t.log k).recs = (s.log k).recs)
                ∧ ((∃ r ∈ (s.log k).recs, r.cls ≠ 2) → (t.log k).recs.head? = some numbered
                    ∧ (t.log k).recs.length = (s.log k).recs.length))
            ∧ t.ras.corrected = (if e.cls = 0 then s.ras.corrected + 1 else s.ras.corrected)
            ∧ t.ras.contained = (if e.cls = 1 then s.ras.contained + 1 else s.ras.contained)
            ∧ (e.cls = 0 → 1447 ∈ t.iag.arrived) ∧ (e.cls = 1 → 1448 ∈ t.iag.arrived)
            ∧ t.slices = s.slices ∧ t.engines = s.engines ∧ t.glb = s.glb))
    ∧ (s.stewardRuns = false →
        ((s.hfn.spillBuf = [] ∨ s.hfn.spillEn = false ∨ s.hfn.sends = false ∨ s.hfn.spillN ≤ s.hfn.spillFill) →
          Idles .logSpillWrite s)
        ∧ (∀ e rest, s.hfn.spillBuf = e :: rest → s.hfn.spillEn = true → s.hfn.sends = true →
            s.hfn.spillFill < s.hfn.spillN → Ends .logSpillWrite s fun t =>
              t.hfn = { s.hfn with
                up := s.hfn.up ++ [.spill (BitVec.ofNat 64
                  (s.hfn.spillBase.toNat * 4096 + 64 * (s.hfn.spillWr.toNat % s.hfn.spillN))) (recLine e)],
                spillBuf := rest, spillWr := s.hfn.spillWr + 1 }
              ∧ (s.hfn.spillFill < s.hfn.spillLevel.toNat → s.hfn.spillLevel.toNat ≤ (s.hfn.spillWr + 1 - s.hfn.spillRd).toNat →
                  t.iag.arrived = s.iag.arrived ++ [1458])
              ∧ ((s.hfn.spillLevel.toNat ≤ s.hfn.spillFill ∨ (s.hfn.spillWr + 1 - s.hfn.spillRd).toNat < s.hfn.spillLevel.toNat) →
                  t.iag = s.iag)
              ∧ { t with hfn := s.hfn, iag := s.iag } = s)))
  ∧ (∀ (v : BitVec 32) (s : State),
    (s.hfn.spillN < (s.hfn.spillWr - v).toNat → Idles (.spillRdWrite v) s)
    ∧ ((s.hfn.spillWr - v).toNat ≤ s.hfn.spillN →
        ((s.hfn.spillLevel.toNat ≤ s.hfn.spillFill ∨ (s.hfn.spillWr - v).toNat < s.hfn.spillLevel.toNat) →
          exec (.spillRdWrite v) s = .next { s with hfn := { s.hfn with spillRd := v } })
        ∧ (s.hfn.spillFill < s.hfn.spillLevel.toNat → s.hfn.spillLevel.toNat ≤ (s.hfn.spillWr - v).toNat →
          Ends (.spillRdWrite v) s fun t => t.hfn = { s.hfn with spillRd := v }
            ∧ t.iag.arrived = s.iag.arrived ++ [1458] ∧ { t with hfn := s.hfn, iag := s.iag } = s))
    ∧ (v.extractLsb' 22 10 = 0 → s.hfn.spillEn = true → v.extractLsb' 1 5 ≠ s.hfn.spillSize →
        Idles (.spillCtrlWrite v) s)
    ∧ (∀ (size : Nat) (w : Word), (size = 4 ∨ size = 8) → w &&& 0xFFF = 0 → s.hfnTakes = true → s.hfn.waits = [] →
        s.hfn.spillEn = true → Idles (.registerWrite .host .bar0 0x60010 size (some w) false) s)
    ∧ (∀ w : Word, w &&& 0xFFF = 0 → s.hfnTakes = true → s.hfn.waits = [] → s.hfn.spillEn = false →
        exec (.registerWrite .host .bar0 0x60010 8 (some w) false) s
          = .next { s with hfn := { s.hfn with spillBase := w.extractLsb' 12 52 } })
    ∧ (v.extractLsb' 22 10 = 0 → s.hfn.spillEn = false → 6 ≤ (v.extractLsb' 1 5).toNat →
        (v.extractLsb' 1 5).toNat ≤ 16 → Ends (.spillCtrlWrite v) s fun t =>
          t.hfn.spillEn = v.getLsbD 0 ∧ t.hfn.spillSize = v.extractLsb' 1 5 ∧ t.hfn.spillLevel = v.extractLsb' 6 16
          ∧ (v.getLsbD 0 = true → s.hfn.sends = true → s.hfn.spillWr = s.hfn.spillRd → s.hfn.spillBuf.length ≤ 64 →
              t.hfn.spillBuf = [] ∧ t.hfn.spillWr = s.hfn.spillWr + BitVec.ofNat 32 s.hfn.spillBuf.length
              ∧ t.hfn.up = s.hfn.up ++ ((List.range s.hfn.spillBuf.length).zip s.hfn.spillBuf).map fun e =>
                  .spill (BitVec.ofNat 64 (s.hfn.spillBase.toNat * 4096 + 64 *
                    ((s.hfn.spillWr + BitVec.ofNat 32 e.1).toNat % 2 ^ (v.extractLsb' 1 5).toNat))) (recLine e.2))
          ∧ (v.getLsbD 0 = false → t.hfn.spillBuf = s.hfn.spillBuf ∧ t.hfn.spillWr = s.hfn.spillWr)))

/-- The host function fetches descriptors, aborts on the causes of R343, quarantines tags, and takes D3hot, bus mastering and resets (R291, R302, R322, R330, R332, R341, R342, R343, R344, R345, R346). -/
def Obligations.HostFunctionFetchesAbortsAndResets : Prop :=
  ∀ s : State,
    (s.hfnTakes = false → s.hfn.waits = [] →
        ((s.rst.released = false ∨ s.rst.phase = 0 ∨ s.hfn.inReset = true ∨ s.hfn.d3hot = false) →
          (∀ v, Idles (.cmdTailWrite v) s) ∧ Idles .cmdAbortClear s)
        ∧ (s.rst.released = true → s.rst.phase ≠ 0 → s.hfn.inReset = false → s.hfn.d3hot = true →
            (∀ v, exec (.cmdTailWrite v) s = .next { s with hfn := { s.hfn with aer := s.hfn.aer ||| 0x100000 } })
            ∧ exec .cmdAbortClear s = .next { s with hfn := { s.hfn with aer := s.hfn.aer ||| 0x100000 } }))
    ∧ (s.hfn.waits ≠ [] →
        (∀ v : BitVec 32, exec (.cmdTailWrite v) s = .next { s with hfn := { s.hfn with
          waits := s.hfn.waits ++ [{ bar := .bar0, off := 0x60050, size := 4, wr := some (v.setWidth 64) }] } })
        ∧ exec .cmdAbortClear s = .next { s with hfn := { s.hfn with
          waits := s.hfn.waits ++ [{ bar := .bar0, off := 0x60060, size := 4, wr := some 1 }] } })
    ∧ (s.hfnTakes = true → s.hfn.waits = [] →
        (∀ v : BitVec 32, v.extractLsb' 16 16 = 0 →
          (s.hfn.cmdN < (v.extractLsb' 0 16 - s.hfn.head).toNat →
            exec (.cmdTailWrite v) s = .next { s with hfn := { s.hfn with tailRefused := true } })
          ∧ ((v.extractLsb' 0 16 - s.hfn.head).toNat ≤ s.hfn.cmdN → Ends (.cmdTailWrite v) s fun t =>
              t.hfn.tail = v.extractLsb' 0 16 ∧ t.hfn.head = s.hfn.head ∧ { t with hfn := s.hfn } = s
              ∧ (s.hfn.fetches = false → t.hfn = { s.hfn with tail := v.extractLsb' 0 16 })
              ∧ (s.hfn.fetches = true → s.hfn.reads = [] → s.hfn.quar = [] →
                  (s.hfn.fetch - s.hfn.head).toNat < (v.extractLsb' 0 16 - s.hfn.head).toNat →
                  ∃ r, t.hfn.reads.head? = some r ∧ r.tag = 0 ∧ r.first = s.hfn.fetch ∧ r.sentAt = s.time
                    ∧ r.n = min (min s.hfn.chunk ((v.extractLsb' 0 16 - s.hfn.head).toNat - (s.hfn.fetch - s.hfn.head).toNat))
                      (s.hfn.cmdN - s.hfn.fetch.toNat % s.hfn.cmdN))))
        ∧ (s.hfn.aborted = false → Idles .cmdAbortClear s)
        ∧ (s.hfn.aborted = true → Ends .cmdAbortClear s fun t =>
            t.hfn.aborted = false ∧ t.hfn.cause = 0 ∧ t.hfn.head = s.hfn.head ∧ t.hfn.tail = s.hfn.tail))
    ∧ (∀ d : BitVec 128,
        ((s.hfn.inReset = true ∨ s.hfn.head = s.hfn.tail ∨ ∀ r ∈ s.hfn.arrived, r.1 ≠ s.hfn.head) →
          Idles (.descriptorApply d) s)
        ∧ (s.hfn.inReset = false → s.hfn.head ≠ s.hfn.tail → (∃ r ∈ s.hfn.arrived, r.1 = s.hfn.head) →
            descBad d = true → s.hfn.cause = 0 → s.hfn.aborted = false →
            Ends (.descriptorApply d) s fun t => t.hfn.arrived = [] ∧ t.hfn.cause = 4 ∧ t.hfn.head = s.hfn.head
              ∧ t.hfn.reads = s.hfn.reads.map (fun r => { r with drop := true })
              ∧ (s.hfn.reads = [] → t.hfn.aborted = true ∧ t.iag.arrived = s.iag.arrived ++ [1457])
              ∧ (s.hfn.reads ≠ [] → t.hfn.aborted = false ∧ t.iag.arrived = s.iag.arrived))
        ∧ (s.hfn.inReset = false → s.hfn.head ≠ s.hfn.tail → (∃ r ∈ s.hfn.arrived, r.1 = s.hfn.head) →
            descBad d = false → s.pwr.state = 0 → s.hfn.bar0Ok = true → 0x1840000 ≤ descOff d → descOff d < 0x2000000 →
            Ends (.descriptorApply d) s fun t => t.hfn.head = s.hfn.head + 1
              ∧ t.glb.undefAcc = satInc16 s.glb.undefAcc))
    ∧ (∀ tag : BitVec 8,
        (s.hfn.reads.find? (fun r => r.tag == tag) = none → Idles (.hfnCompletionTimeout tag) s
          ∧ ∀ st, (s.hfn.quar.any (fun q => q.1 == tag) = true → exec (.hfnCompletion tag st) s
                = .next { s with hfn := { s.hfn with late := satInc16 s.hfn.late, lates := s.hfn.lates + 1 } })
            ∧ (s.hfn.quar.any (fun q => q.1 == tag) = false → exec (.hfnCompletion tag st) s
                = .next { s with hfn := { s.hfn with aer := s.hfn.aer ||| 0x10000 } }))
        ∧ (∀ r, s.hfn.reads.find? (fun r => r.tag == tag) = some r →
            (s.time < r.sentAt + s.hfn.timeout → Idles (.hfnCompletionTimeout tag) s)
            ∧ (r.sentAt + s.hfn.timeout ≤ s.time → Ends (.hfnCompletionTimeout tag) s fun t =>
                (∀ q ∈ t.hfn.reads, q.tag ≠ tag) ∧ (tag, s.time + 4 * s.hfn.timeout) ∈ t.hfn.quar
                ∧ t.hfn.cto = satInc16 s.hfn.cto ∧ (s.hfn.cause = 0 → t.hfn.cause = 2) ∧ 1456 ∈ t.iag.arrived)
            ∧ (r.drop = true → ∀ st, (st = .ok ∨ st = .bad) → Ends (.hfnCompletion tag st) s fun t =>
                t.hfn.reads = s.hfn.reads.filter (fun q => q.tag != tag) ∧ t.hfn.arrived = s.hfn.arrived
                ∧ ((s.hfn.cause ≠ 0 ∧ s.hfn.aborted = false ∧ s.hfn.arrived = [] ∧ t.hfn.reads = []) →
                    t.hfn.aborted = true ∧ t.iag.arrived = s.iag.arrived ++ [1457])
                ∧ ((s.hfn.cause = 0 ∨ s.hfn.aborted = true ∨ s.hfn.arrived ≠ [] ∨ t.hfn.reads ≠ []) →
                    t.hfn.aborted = s.hfn.aborted ∧ t.iag = s.iag))
            ∧ (r.drop = false → s.hfn.cause = 0 → Ends (.hfnCompletion tag .bad) s fun t =>
                t.hfn.cause = 3 ∧ ∀ q ∈ t.hfn.reads, q.drop = true)
            ∧ (r.drop = false → s.hfn.fetches = false → r.got = 0 → 0 < r.n →
                exec (.hfnCompletion tag .ok) s = .next { s with hfn := {
                  s.hfn with reads := s.hfn.reads.filter (fun q => q.tag != tag),
                             arrived := s.hfn.arrived ++ [(r.first, r.n)] } })
            ∧ (r.drop = false → ∀ b, 0 < b → r.got + b < 16 * r.n →
                Ends (.hfnCompletion tag (.part b)) s fun t =>
                  (∀ q ∈ s.hfn.reads, q.tag = tag → { q with got := r.got + b } ∈ t.hfn.reads)
                  ∧ (r.got / 16 < (r.got + b) / 16 → t.hfn.arrived = s.hfn.arrived
                      ++ [(r.first + BitVec.ofNat 16 (r.got / 16), (r.got + b) / 16 - r.got / 16)])
                  ∧ ((r.got + b) / 16 = r.got / 16 → t.hfn.arrived = s.hfn.arrived)
                  ∧ t.hfn.head = s.hfn.head ∧ { t with hfn := s.hfn } = s))
        ∧ Ends (.hfnTagQuarantineEnd tag) s fun t =>
            t.hfn.quar = s.hfn.quar.filter (fun q => !(q.1 == tag && decide (q.2 ≤ s.time))) ∧ t.hfn.head = s.hfn.head)
    ∧ (s.cfgTakes = false → s.hfn.waits = [] →
        ∀ c ∈ ([.busMasterDisable, .busMasterEnable, .hfnD3hot, .hfnD0] : List Instr),
          ((s.rst.released = false ∨ s.hfn.inReset = true) → Idles c s)
          ∧ (s.rst.released = true → s.hfn.inReset = false →
              exec c s = .next { s with hfn := { s.hfn with up := s.hfn.up ++ [.retry] } }))
    ∧ (s.cfgTakes = true → s.hfn.waits = [] →
        (s.hfn.bme = false → Idles .busMasterDisable s)
        ∧ (s.hfn.bme = true → ((s.hfn.cmdEn = true ∧ s.hfn.head ≠ s.hfn.tail) ∨ s.hfn.reads ≠ [] ∨ s.hfn.arrived ≠ []) →
            s.hfn.cause = 0 →
            Ends .busMasterDisable s fun t => t.hfn.bme = false ∧ t.hfn.cause = 1 ∧ ∀ q ∈ t.hfn.reads, q.drop = true)
        ∧ (s.hfn.bme = true → (s.hfn.cmdEn = false ∨ s.hfn.head = s.hfn.tail) → s.hfn.reads = [] → s.hfn.arrived = [] →
            exec .busMasterDisable s = .next { s with hfn := { s.hfn with bme := false } })
        ∧ (Ends .busMasterEnable s fun t => t.hfn.bme = true ∧ t.hfn.d3hot = s.hfn.d3hot)
        ∧ exec .hfnD3hot s = .next { s with hfn := { s.hfn with d3hot := true } }
        ∧ (Ends .hfnD0 s fun t => t.hfn.d3hot = false ∧ t.hfn.bme = s.hfn.bme))
    ∧ (Ends .hostReset s fun t => t.rpq = [] ∧ t.svc.req = [] ∧ t.svc.busy = false ∧ t.svc.rspReady = false
        ∧ t.svc.sessions = s.svc.sessions.filter (fun x => x.owner.isSome) ∧ t.hfn.aer = s.hfn.aer
        ∧ t.hfn.cfgAt = s.time + 1000
        ∧ t.hfn.bme = false ∧ t.hfn.reads = [] ∧ t.hfn.cmdEn = false ∧ t.hfn.spillEn = false ∧ t.hfn.msix = []
        ∧ t.ras = s.ras ∧ t.glb = s.glb ∧ t.slices = s.slices
        ∧ ∀ n, (s.src n).host = true → (t.src n).en = false ∧ (t.src n).pend = false ∧ (t.src n).act = false)

/-- Host register accesses pass shape, poison, closing and power gates in that order and then reach the register their window gives (R5, R250, R330, R333, R334, R335, R336, R337, R338, R344, R355). -/
def Obligations.RegisterAccessesReachTheirRegisters : Prop :=
  ∀ (off size : Nat) (v : Word) (s : State),
    (s.hfnTakes = false → s.hfn.waits = [] →
        ((s.rst.released = false ∨ s.rst.phase = 0 ∨ s.hfn.inReset = true ∨ s.hfn.d3hot = false) →
          ∀ p wr, Idles (.registerWrite .host .bar0 off size wr p) s
            ∧ Idles (.registerWrite .host .bar2 off size wr p) s ∧ ∀ l o, Idles (.lsliceWindowAccess l o size wr) s)
        ∧ (s.rst.released = true → s.rst.phase ≠ 0 → s.hfn.inReset = false → s.hfn.d3hot = true →
            ∀ b, b ≠ .config → ∀ p,
              exec (.registerWrite .host b off size (some v) p) s = .next { s with hfn := { s.hfn with
                aer := s.hfn.aer ||| 0x100000 } }
              ∧ exec (.registerWrite .host b off size none p) s = .next { s with hfn := { s.hfn with
                up := s.hfn.up ++ [.unsupported] } }))
    ∧ (∀ b p wr, s.hfn.waits ≠ [] → exec (.registerWrite .host b off size wr p) s = .next { s with
        hfn := { s.hfn with waits := s.hfn.waits ++ [{ bar := b, off, size, wr, poisoned := p }] } })
    ∧ (∀ b p wr, (s.stewardRuns = false ∨ b ≠ .bar0 ∨ bar0Shape off size = false) →
        Idles (.registerWrite .steward b off size wr p) s)
    ∧ (∀ p, s.stewardRuns = true → Ends (.registerWrite .steward .bar0 0x90010 4 none p) s fun t =>
        t.stw.readData.extractLsb' 0 8 = s.ras.logSel ∧ t.stw.readData.extractLsb' 8 6 = s.ras.logPos
        ∧ { t with stw := s.stw } = s)
    ∧ (s.hfnTakes = true → s.hfn.waits = [] →
        (∀ b, b ≠ .config → exec (.registerWrite .host b off size (some v) true) s
          = .next { s with hfn := { s.hfn with aer := s.hfn.aer ||| 0x1000 } })
        ∧ (bar0Shape off size = false → s.pwr.state ≠ 0 → bar0Awake off = false →
            exec (.registerWrite .host .bar0 off size (some v) false) s = .next { s with
              hfn := { s.hfn with badAcc := satInc16 s.hfn.badAcc }
              pwr := { s.pwr with gatedAcc := satInc16 s.pwr.gatedAcc } })
        ∧ (bar0Shape off size = false → (s.pwr.state = 0 ∨ bar0Awake off = true) →
            exec (.registerWrite .host .bar0 off size (some v) false) s
              = .next { s with hfn := { s.hfn with badAcc := satInc16 s.hfn.badAcc } }
            ∧ exec (.registerWrite .host .bar0 off size none false) s = .next { s with hfn := { s.hfn with
                badAcc := satInc16 s.hfn.badAcc, readData := 0, up := s.hfn.up ++ [.completion 0] } })
        ∧ (bar2Shape off size (bar2Loc off) = false → (s.pwr.state = 0 ∨ bar2Awake (bar2Loc off) = true) → exec (.registerWrite .host .bar2 off size (some v) false) s
            = .next { s with hfn := { s.hfn with badAcc := satInc16 s.hfn.badAcc } })
        ∧ (bar0Shape off size = true →
            (s.hfn.bar0Ok = false → bar0Open off = false → (s.pwr.state = 0 ∨ bar0Awake off = true) →
              exec (.registerWrite .host .bar0 off size (some v) false) s
                = .next { s with hfn := { s.hfn with gated := satInc16 s.hfn.gated } })
            ∧ ((s.hfn.bar0Ok = true ∨ bar0Open off = true) → s.pwr.state ≠ 0 → bar0Awake off = false →
              exec (.registerWrite .host .bar0 off size (some v) false) s
                = .next { s with pwr := { s.pwr with gatedAcc := satInc16 s.pwr.gatedAcc } })
            ∧ (s.hfn.bar0Ok = false → bar0Open off = false → s.pwr.state ≠ 0 → bar0Awake off = false →
              exec (.registerWrite .host .bar0 off size (some v) false) s = .next { s with
                hfn := { s.hfn with gated := satInc16 s.hfn.gated }
                pwr := { s.pwr with gatedAcc := satInc16 s.pwr.gatedAcc } })
            ∧ (s.pwr.state = 0 → ((0x1840000 ≤ off ∧ off < 0x2000000) ∨ 0x2800000 ≤ off) →
                (s.hfn.bar0Ok = true → exec (.registerWrite .host .bar0 off size (some v) false) s
                  = .next { s with glb := { s.glb with undefAcc := satInc16 s.glb.undefAcc } })
                ∧ exec (.registerWrite .host .bar0 off size none false) s
                  = .next { s with
                    glb := { s.glb with undefAcc := satInc16 s.glb.undefAcc }
                    hfn := { s.hfn with readData := 0, up := s.hfn.up ++ [.completion 0] } }))
        ∧ (s.hfn.bar0Ok = true → s.pwr.state = 0 → v &&& 0xFFFFC000 = 0 →
            exec (.registerWrite .host .bar0 0x90010 4 (some v) false) s = .next { s with ras := { s.ras with
              logSel := v.extractLsb' 0 8, logPos := v.extractLsb' 8 6 } })
        ∧ (Ends (.registerWrite .host .bar0 0x60008 8 none false) s fun t =>
            t.hfn.readData.extractLsb' 0 16 = s.hfn.cto ∧ t.hfn.readData.extractLsb' 16 16 = s.hfn.late
            ∧ t.hfn.readData.extractLsb' 32 16 = s.hfn.gated ∧ t.hfn.up = s.hfn.up ++ [.completion t.hfn.readData]
            ∧ t.hfn.cto = 0 ∧ t.hfn.late = 0 ∧ t.hfn.gated = 0 ∧ t.hfn.badAcc = s.hfn.badAcc
            ∧ { t with hfn := s.hfn } = s)
        ∧ (∀ i, i < 260 → exec (.registerWrite .host .bar2 (0x101000 + 4 * i) 4 (some v) false) s
            = .next { s with svc := (if s.svc.busy then { s.svc with refused := true }
                else { s.svc with req := s.svc.req.set zero32 i (v.setWidth 32) }) })
        ∧ (∀ (l : Fin 128) (o : BitVec 16),
            (bar0Shape o.toNat size = true → s.pwr.state = 0 → (s.hfnCopy.entry l).hold = true →
                exec (.lsliceWindowAccess l o size none) s = .next { s with hfn := { s.hfn with
                  waits := [{ bar := .bar0, off := 0x2000000 + 0x10000 * l.val + o.toNat, size, wr := none }] } })
            ∧ (bar0Shape o.toNat size = true → s.pwr.state ≠ 0 →
                exec (.lsliceWindowAccess l o size none) s = .next { s with
                  pwr := { s.pwr with gatedAcc := satInc16 s.pwr.gatedAcc }
                  hfn := { s.hfn with readData := 0, up := s.hfn.up ++ [.completion 0] } })))
    ∧ (∀ (l : Fin 128) (o : BitVec 16) wr, exec (.lsliceWindowAccess l o size wr) s
        = exec (.registerWrite .host .bar0 (0x2000000 + 0x10000 * l.val + o.toNat) size wr false) s)
    ∧ (s.hfn.waits = [] →
        (v.getLsbD 2 = true → exec (.registerWrite .host .config 0x04 4 (some v) false) s = exec .busMasterEnable s)
        ∧ (v.getLsbD 2 = false → exec (.registerWrite .host .config 0x04 4 (some v) false) s = exec .busMasterDisable s))

/-- A step is exec of the front command on the state with the queue's rest; on an empty queue one FCLK passes (log 5) (R1, R91, R333, R417). -/
def Obligations.StepTakesTheFrontCommand : Prop :=
  (∀ (c : Instr) (rest : List Instr) (s : State),
    step { s with pending := c :: rest } = exec c { s with pending := rest })
  ∧ ∀ s : State, s.pending = [] → ∃ t, step s = .next t
    ∧ (s.fclkRuns = false → t = s)
    ∧ (s.fclkRuns = true → t.fclk = s.fclk + 1)
    ∧ (∀ p, (s.slice p).crq = [] → t.slice p = s.slice p)
    ∧ { t with slices := s.slices, pmc := s.pmc, fclk := s.fclk } = s

/-- The reset state has an empty queue and the reset values of the registers, and meets the invariants of start-up and of sessions (R5, R28, R298, R319, R328, R351, R364, R378, R395, R398). -/
def Obligations.ResetLeavesTheBlockUnderReset : Prop :=
  let s := State.reset
  s.pending = [] ∧ s.rst.released = false ∧ s.rst.phase = 0 ∧ s.rst.failCause = 0 ∧ s.glb.enabled = false
    ∧ s.glb.coherentReady = false ∧ s.glb.undefAcc = 0 ∧ s.svc.sessions = [] ∧ s.svc.ownerKey = none
    ∧ s.svc.lockout = none ∧ s.pwr.state = 0 ∧ s.pwr.lastRefuse = 0 ∧ s.saf.kick = .none ∧ s.saf.fatal = none
    ∧ s.ras.corrLog = true ∧ s.ras.inflight = [] ∧ s.ras.next = 0
    ∧ (∀ c l, (s.copy c).entry l = { phys := resetMap l, hold := false })
    ∧ (∀ n, (s.src n).en = false ∧ (s.src n).pend = false ∧ (s.src n).act = false)
    ∧ (∀ q, (s.rpqOf q).ents = []) ∧ (∀ k, (s.log k).recs = [])
    ∧ s.startOk ∧ s.sessionsOk

/-- Every step keeps the order of start-up: no phase beyond 8, slices enabled only from phase 6, coherent_ready exactly in phase 7 (R328, R398, R399, R402, R403). -/
def Obligations.StartUpOrderIsAlwaysKept : Prop :=
  ∀ s t : State, s.startOk → step s = .next t → t.startOk

/-- Every step keeps the bounds of sessions: four of the mailbox and of each endpoint, eight of the port, legal levels, numbered answers (R321, R322, R328). -/
def Obligations.SessionsAreAlwaysBounded : Prop :=
  ∀ s t : State, s.sessionsOk → step s = .next t → t.sessionsOk

/-- No command touches the queue or the straps, and no command outside start-up, safety and sessions moves PHASE, an enable, the owner key or who the sessions are (R322, R326, R328, R395, R398, R399, R402, R403). -/
def Obligations.CommandsLeaveQueueAndStraps : Prop :=
  ∀ (c : Instr) (s t : State), exec c s = .next t →
    t.pending = s.pending ∧ t.straps = s.straps
    ∧ (startUpCommand c = false →
        t.rst.phase = s.rst.phase ∧ t.rst.released = s.rst.released ∧ t.glb.enabled = s.glb.enabled
        ∧ t.glb.coherentReady = s.glb.coherentReady ∧ t.whos = s.whos
        ∧ t.svc.ownerKey = s.svc.ownerKey)

/-- A command of a slice changes slices, counters, events and error records only: no ring, port, engine, register of the block or pin (R9, R25, R68, R109, R197, R213, R364, R379). -/
def Obligations.SliceCommandsChangeOnlySlices : Prop :=
  ∀ (c : Instr) (s t : State), sliceCommand c = true → exec c s = .next t → OnlySlices s t

/-- Every message read back from the bits of its flit is the message, and every ring flit packed with its checks passes them and unpacks (R60, R64, R65, R66, R67). -/
def Obligations.FlitsSurviveTheirEncoding : Prop :=
  (∀ m : Msg, msgOfBits (msgBits m) = m)
  ∧ ∀ (f : Flit) (q : BitVec 12),
    rawGood (packFlit (ringRouting f q) (msgBits f.msg)) = true
    ∧ rawSeq (packFlit (ringRouting f q) (msgBits f.msg)) = q
    ∧ ringFlit (packFlit (ringRouting f q) (msgBits f.msg)) = { f with dropped := false }
end

