-- ==== Sys2Proof/Laws/NMap.lean ====
section
/-! SUPPORT. The laws of the sparse table: reading after writing, and that writing keeps the canonical form. -/

namespace Sys2Proof

variable {α : Type}

@[simp] theorem NMap.get_nil (d : Nat → α) (k : Nat) : NMap.get d [] k = d k := rfl

theorem NMap.get_erase (d : Nat → α) (m : NMap α) (k j : Nat) :
    NMap.get d (NMap.erase m k) j = if k = j then d k else NMap.get d m j := by
  induction m with
  | nil => by_cases h : k = j <;> simp [NMap.erase, NMap.get, h]
  | cons e rest ih =>
    obtain ⟨i, v⟩ := e
    simp only [NMap.erase]
    split
    · subst_vars
      rw [ih]
      by_cases h : i = j
      · simp [h]
      · simp [NMap.get, h]
    · simp only [NMap.get, ih]
      split
      · subst_vars; rw [if_neg]; tauto
      · rfl

theorem NMap.get_insert (d : Nat → α) (m : NMap α) (k j : Nat) (v : α) :
    NMap.get d (NMap.insert m k v) j = if k = j then v else NMap.get d m j := by
  induction m with
  | nil => simp [NMap.insert, NMap.get]
  | cons e rest ih =>
    obtain ⟨i, w⟩ := e
    simp only [NMap.insert]
    split
    · simp [NMap.get]
    · split
      · rename_i hk; subst hk; by_cases h : i = j <;> simp [NMap.get, h]
      · simp only [NMap.get, ih]
        split
        · subst_vars; rw [if_neg]; tauto
        · rfl

/-- Reading after writing. -/
theorem NMap.get_set [DecidableEq α] (d : Nat → α) (m : NMap α) (k j : Nat) (v : α) :
    NMap.get d (NMap.set d m k v) j = if k = j then v else NMap.get d m j := by
  unfold NMap.set
  split
  · rw [NMap.get_erase]; simp_all
  · rw [NMap.get_insert, NMap.get_erase]
    split <;> simp_all

@[simp] theorem NMap.get_set_self [DecidableEq α] (d : Nat → α) (m : NMap α) (k : Nat) (v : α) :
    NMap.get d (NMap.set d m k v) k = v := by
  simp [NMap.get_set]

theorem NMap.get_set_ne [DecidableEq α] (d : Nat → α) (m : NMap α) {k j : Nat} (v : α) (h : k ≠ j) :
    NMap.get d (NMap.set d m k v) j = NMap.get d m j := by
  simp [NMap.get_set, h]

/-- Every entry of an erased or inserted table is an old one or the new one. -/
theorem NMap.mem_erase {m : NMap α} {k : Nat} {e : Nat × α} (h : e ∈ NMap.erase m k) : e ∈ m := by
  induction m with
  | nil => simp [NMap.erase] at h
  | cons f rest ih =>
    simp only [NMap.erase] at h
    split at h
    · exact List.mem_cons_of_mem _ (ih h)
    · rcases List.mem_cons.mp h with h | h
      · simp [h]
      · exact List.mem_cons_of_mem _ (ih h)

theorem NMap.mem_insert {m : NMap α} {k : Nat} {v : α} {e : Nat × α} (h : e ∈ NMap.insert m k v) :
    e = (k, v) ∨ e ∈ m := by
  induction m with
  | nil => simpa [NMap.insert] using h
  | cons f rest ih =>
    obtain ⟨i, w⟩ := f
    simp only [NMap.insert] at h
    split at h
    · simpa using h
    · split at h
      · rcases List.mem_cons.mp h with h | h
        · exact .inl h
        · exact .inr (List.mem_cons_of_mem _ h)
      · rcases List.mem_cons.mp h with h | h
        · simp [h]
        · rcases ih h with h | h
          · exact .inl h
          · exact .inr (List.mem_cons_of_mem _ h)

/-- The keys of a rising table rise from any entry on. -/
theorem NMap.rising_iff (m : NMap α) : NMap.rising m = true ↔ m.Pairwise fun a b => a.1 < b.1 := by
  induction m with
  | nil => simp [NMap.rising]
  | cons e rest ih =>
    cases rest with
    | nil => simp [NMap.rising]
    | cons f rest =>
      obtain ⟨i, v⟩ := e
      obtain ⟨j, w⟩ := f
      simp only [NMap.rising, Bool.and_eq_true, decide_eq_true_eq, ih, List.pairwise_cons]
      constructor
      · rintro ⟨h, hw, hr⟩
        refine ⟨?_, hw, hr⟩
        intro b hb
        rcases List.mem_cons.mp hb with rfl | hb
        · exact h
        · exact lt_trans h (hw b hb)
      · rintro ⟨h, hw, hr⟩
        exact ⟨h (j, w) (by simp), hw, hr⟩

theorem NMap.rising_erase {m : NMap α} (k : Nat) (h : NMap.rising m = true) :
    NMap.rising (NMap.erase m k) = true := by
  rw [NMap.rising_iff] at h ⊢
  induction m with
  | nil => simp [NMap.erase]
  | cons e rest ih =>
    simp only [NMap.erase]
    rw [List.pairwise_cons] at h
    split
    · exact ih h.2
    · exact List.pairwise_cons.mpr ⟨fun b hb => h.1 b (NMap.mem_erase hb), ih h.2⟩

theorem NMap.rising_insert {m : NMap α} (k : Nat) (v : α) (h : NMap.rising m = true) :
    NMap.rising (NMap.insert m k v) = true := by
  rw [NMap.rising_iff] at h ⊢
  induction m with
  | nil => simp [NMap.insert]
  | cons e rest ih =>
    obtain ⟨i, w⟩ := e
    have h' := List.pairwise_cons.mp h
    simp only [NMap.insert]
    split
    · rename_i hk
      refine List.pairwise_cons.mpr ⟨?_, h⟩
      intro b hb
      rcases List.mem_cons.mp hb with rfl | hb
      · exact hk
      · exact lt_trans hk (h'.1 b hb)
    · split
      · rename_i hk
        subst hk
        exact List.pairwise_cons.mpr ⟨h'.1, h'.2⟩
      · rename_i hk hne
        refine List.pairwise_cons.mpr ⟨?_, ih h'.2⟩
        intro b hb
        rcases NMap.mem_insert hb with rfl | hb
        · simp only; omega
        · exact h'.1 b hb

/-- Writing keeps the canonical form. -/
theorem NMap.wf_set [DecidableEq α] (d : Nat → α) {m : NMap α} (k : Nat) (v : α) (h : NMap.wf d m = true) :
    NMap.wf d (NMap.set d m k v) = true := by
  simp only [NMap.wf, Bool.and_eq_true, List.all_eq_true, decide_eq_true_eq] at h ⊢
  unfold NMap.set
  split
  · exact ⟨NMap.rising_erase k h.1, fun e he => h.2 e (NMap.mem_erase he)⟩
  · rename_i hv
    refine ⟨NMap.rising_insert k v (NMap.rising_erase k h.1), ?_⟩
    intro e he
    rcases NMap.mem_insert he with rfl | he
    · exact hv
    · exact h.2 e (NMap.mem_erase he)

theorem NMap.erase_erase (m : NMap α) (k : Nat) : NMap.erase (NMap.erase m k) k = NMap.erase m k := by
  induction m with
  | nil => rfl
  | cons e rest ih =>
    obtain ⟨i, v⟩ := e
    by_cases h : i = k <;> simp [NMap.erase, h, ih]

theorem NMap.erase_insert (m : NMap α) (k : Nat) (v : α) : NMap.erase (NMap.insert m k v) k = NMap.erase m k := by
  induction m with
  | nil => simp [NMap.insert, NMap.erase]
  | cons e rest ih =>
    obtain ⟨i, w⟩ := e
    simp only [NMap.insert]
    split
    · simp [NMap.erase]
    · split
      · rename_i h; simp [NMap.erase, h]
      · rename_i h; simp [NMap.erase, h, ih]

/-- Of two writes to one key the second stands. -/
@[simp] theorem NMap.set_set [DecidableEq α] (d : Nat → α) (m : NMap α) (k : Nat) (v w : α) :
    NMap.set d (NMap.set d m k v) k w = NMap.set d m k w := by
  have h : NMap.erase (NMap.set d m k v) k = NMap.erase m k := by
    unfold NMap.set
    split
    · exact NMap.erase_erase m k
    · rw [NMap.erase_insert, NMap.erase_erase]
  unfold NMap.set at h ⊢
  rw [h]

/-- Mapping the values keeps the canonical form. -/
theorem NMap.wf_mapv [DecidableEq α] (d : Nat → α) (f : Nat → α → α) {m : NMap α} (h : NMap.wf d m = true) :
    NMap.wf d (NMap.mapv d f m) = true := by
  simp only [NMap.wf, Bool.and_eq_true, List.all_eq_true, decide_eq_true_eq, NMap.rising_iff] at h ⊢
  unfold NMap.mapv
  refine ⟨?_, ?_⟩
  · exact (List.Pairwise.map (fun e : Nat × α => (e.1, f e.1 e.2)) (fun a b hab => hab) h.1).filter _
  · intro e he
    simpa using (List.mem_filter.mp he).2

/-- Reading a table whose values are changed under their keys. -/
theorem NMap.get_map (d : Nat → α) (f : Nat → α → α) (m : NMap α) (j : Nat) (h : f j (d j) = d j) :
    NMap.get d (m.map fun e => (e.1, f e.1 e.2)) j = f j (NMap.get d m j) := by
  induction m with
  | nil => simp [h]
  | cons e rest ih =>
    obtain ⟨i, v⟩ := e
    simp only [List.map_cons, NMap.get, ih]
    split
    · subst_vars; rfl
    · rfl

end Sys2Proof
end

