-- ==== Sys2Proof/Laws/State.lean ====
section
/-! SUPPORT. Reading a unit of the state after changing one. -/

namespace Sys2Proof.Machine

open Sys2Proof

/-- A fold whose steps keep what `π` reads keeps it. -/
theorem foldl_keeps {β α : Type} (π : State → β) (f : State → α → State) (h : ∀ s a, π (f s a) = π s)
    (l : List α) (s : State) : π (l.foldl f s) = π s := by
  induction l generalizing s with
  | nil => rfl
  | cons a l ih => rw [List.foldl_cons, ih, h]

/-- A fold whose steps keep an invariant keeps it. -/
theorem foldl_inv {α : Type} (P : State → Prop) (f : State → α → State) (h : ∀ s a, P s → P (f s a))
    (l : List α) (s : State) (hs : P s) : P (l.foldl f s) := by
  induction l generalizing s with
  | nil => exact hs
  | cons a l ih => exact ih _ (h s a hs)

theorem ends_next {i : Instr} {s t : State} {P : State → Prop} (h : exec i s = .next t) (hp : P t) : Ends i s P :=
  ⟨t, h, hp⟩

@[simp] theorem slice_setSlice (s : State) (p q : Nat) (x : Slice) :
    (s.setSlice p x).slice q = if p = q then x else s.slice q := NMap.get_set ..
@[simp] theorem slice_modSlice (s : State) (p q : Nat) (f : Slice → Slice) :
    (s.modSlice p f).slice q = if p = q then f (s.slice p) else s.slice q := NMap.get_set ..
@[simp] theorem eng_modEng (s : State) (p q : Nat) (f : Eng → Eng) :
    (s.modEng p f).eng q = if p = q then f (s.eng p) else s.eng q := NMap.get_set ..
@[simp] theorem ring_modRing (s : State) (p q : Nat) (f : Ring → Ring) :
    (s.modRing p f).ring q = if p = q then f (s.ring p) else s.ring q := NMap.get_set ..
@[simp] theorem port_modPort (s : State) (p q : Nat) (f : Port → Port) :
    (s.modPort p f).port q = if p = q then f (s.port p) else s.port q := NMap.get_set ..

@[simp] theorem slice_modEng (s : State) (e q : Nat) (f : Eng → Eng) : (s.modEng e f).slice q = s.slice q := rfl
@[simp] theorem slice_modRing (s : State) (r q : Nat) (f : Ring → Ring) : (s.modRing r f).slice q = s.slice q := rfl
@[simp] theorem slice_modPort (s : State) (n q : Nat) (f : Port → Port) : (s.modPort n f).slice q = s.slice q := rfl
@[simp] theorem eng_modSlice (s : State) (p q : Nat) (f : Slice → Slice) : (s.modSlice p f).eng q = s.eng q := rfl
@[simp] theorem eng_modRing (s : State) (r q : Nat) (f : Ring → Ring) : (s.modRing r f).eng q = s.eng q := rfl
@[simp] theorem eng_modPort (s : State) (n q : Nat) (f : Port → Port) : (s.modPort n f).eng q = s.eng q := rfl
@[simp] theorem ring_modSlice (s : State) (p q : Nat) (f : Slice → Slice) : (s.modSlice p f).ring q = s.ring q := rfl
@[simp] theorem ring_modEng (s : State) (e q : Nat) (f : Eng → Eng) : (s.modEng e f).ring q = s.ring q := rfl
@[simp] theorem ring_modPort (s : State) (n q : Nat) (f : Port → Port) : (s.modPort n f).ring q = s.ring q := rfl
@[simp] theorem port_modSlice (s : State) (p q : Nat) (f : Slice → Slice) : (s.modSlice p f).port q = s.port q := rfl
@[simp] theorem port_modEng (s : State) (e q : Nat) (f : Eng → Eng) : (s.modEng e f).port q = s.port q := rfl
@[simp] theorem port_modRing (s : State) (r q : Nat) (f : Ring → Ring) : (s.modRing r f).port q = s.port q := rfl

@[simp] theorem slice_fire (s : State) (n p : Nat) : (s.fire n).slice p = s.slice p := rfl
@[simp] theorem eng_fire (s : State) (n e : Nat) : (s.fire n).eng e = s.eng e := rfl
@[simp] theorem ring_fire (s : State) (n r : Nat) : (s.fire n).ring r = s.ring r := rfl
@[simp] theorem port_fire (s : State) (n q : Nat) : (s.fire n).port q = s.port q := rfl
@[simp] theorem ring_fireRing (s : State) (n k r : Nat) : (s.fireRing n k).ring r = s.ring r := rfl
@[simp] theorem port_firePort (s : State) (n k q : Nat) : (s.firePort n k).port q = s.port q := rfl
@[simp] theorem slice_fireSlice (s : State) (n k q : Nat) : (s.fireSlice n k).slice q = s.slice q := rfl
@[simp] theorem slice_slcEvent (s : State) (n c a q : Nat) : (s.slcEvent n c a).slice q = s.slice q := by
  simp only [State.slice, State.slcEvent, State.pmcEvent]
@[simp] theorem ring_ringEvent (s : State) (n c k a q : Nat) : (s.ringEvent n c k a).ring q = s.ring q := by
  simp only [State.ring, State.ringEvent, State.pmcEvent]
@[simp] theorem port_portEvent (s : State) (n c a q : Nat) : (s.portEvent n c a).port q = s.port q := by
  simp only [State.port, State.portEvent, State.pmcEvent]

@[simp] theorem arrived_fire (s : State) (n : Nat) : (s.fire n).iag.arrived = s.iag.arrived ++ [n] := rfl

/-- What noting a block-fatal detection changes. -/
theorem noteFatal_eq (s : State) (e : ErrRec) :
    s.noteFatal e = { s with saf := { s.saf with fatal := (s.noteFatal e).saf.fatal } } := by
  unfold State.noteFatal; split <;> rfl

/-- After a block-fatal detection one has been captured (R385). -/
theorem noteFatal_some (s : State) (e : ErrRec) : (s.noteFatal e).saf.fatal.isSome = true := by
  unfold State.noteFatal; split
  · rfl
  · rename_i h
    cases hf : s.saf.fatal with
    | some f => rfl
    | none => exact absurd (by simp [State.fatalFirst, hf]) h

/-- Everything recording an error can do: the record is on its way with the present time and ECLK, a block-fatal one is
captured and a marked row is noted (R364, R371, R385). -/
theorem record_eq (s : State) (e : ErrRec) (h : e.cls ≠ 0 ∨ s.ras.corrLog = true) :
    s.record e = { s with
      ras := { s.ras with inflight := s.ras.inflight ++ [{ e with time := s.time, eclk := s.eclk }] }
      saf := (s.record e).saf, spare := (s.record e).spare } := by
  unfold State.record
  rw [if_neg (by rcases h with h | h <;> simp_all)]
  split <;> split <;> first | rfl | (rw [noteFatal_eq]; rfl)

/-- A corrected error makes no record while `CORR_LOG` is clear (R364). -/
theorem record_skip (s : State) (e : ErrRec) (h : e.cls = 0) (h' : s.ras.corrLog = false) : s.record e = s := by
  simp [State.record, h, h']

theorem record_fatal (s : State) (e : ErrRec) (h : e.cls = 2) : (s.record e).saf.fatal.isSome = true := by
  unfold State.record
  rw [if_neg (by simp [h])]
  simp only [h, if_true]
  split <;> exact noteFatal_some s e

end Sys2Proof.Machine
end

