-- ==== Sys2Proof/Laws/Views.lean ====
section
/-! SUPPORT. Two views of the state and what keeps them: the fields start-up and sessions rest on with the queue and
the straps, and everything but slices, counters, events and records. -/

namespace Sys2Proof.Machine

/-- What the invariant of start-up reads, who the open sessions are, the straps and the queue. -/
structure Boot where
  phase : BitVec 4
  released : Bool
  enabled : Bool
  coherentReady : Bool
  whos : List (BitVec 16 × Option Byte × Byte)
  ownerKey : Option (List Byte)
  straps : Straps
  pending : List Instr

def State.boot (s : State) : Boot :=
  { phase := s.rst.phase, released := s.rst.released, enabled := s.glb.enabled, coherentReady := s.glb.coherentReady
    whos := s.whos, ownerKey := s.svc.ownerKey
    straps := s.straps, pending := s.pending }

/-- Everything but slices, counters, events, error records, what a record can set, and the count of accesses that a power
state discards. -/
def State.rest (s : State) : State :=
  { s with slices := [], pmc := {}, iag := {}, ras := {}, saf := {}, spare := {}, pwr := { s.pwr with gatedAcc := 0 } }

/-- What `State.boot` does not read. -/
theorem boot_leaf (s : State) :
    (∀ y : Nat, State.boot { s with time := y } = State.boot s)
    ∧ (∀ y : Nat, State.boot { s with fclk := y } = State.boot s)
    ∧ (∀ y : NMap Slice, State.boot { s with slices := y } = State.boot s)
    ∧ (∀ y : NMap Ring, State.boot { s with rings := y } = State.boot s)
    ∧ (∀ y : NMap Eng, State.boot { s with engines := y } = State.boot s)
    ∧ (∀ y : Loader, State.boot { s with loader := y } = State.boot s)
    ∧ (∀ y : Steward, State.boot { s with stw := y } = State.boot s)
    ∧ (∀ y : NMap Port, State.boot { s with ports := y } = State.boot s)
    ∧ (∀ y : Crg, State.boot { s with crg := y } = State.boot s)
    ∧ (∀ y : Copy, State.boot { s with stwCopy := y } = State.boot s)
    ∧ (∀ y : Copy, State.boot { s with hfnCopy := y } = State.boot s)
    ∧ (∀ y : List (Nat × Msg), State.boot { s with relayed := y } = State.boot s)
    ∧ (∀ y : Pmc, State.boot { s with pmc := y } = State.boot s)
    ∧ (∀ y : Iag, State.boot { s with iag := y } = State.boot s)
    ∧ (∀ y : NMap Rpq, State.boot { s with rpq := y } = State.boot s)
    ∧ (∀ y : Ras, State.boot { s with ras := y } = State.boot s)
    ∧ (∀ y : Pwr, State.boot { s with pwr := y } = State.boot s)
    ∧ (∀ y : Clk, State.boot { s with clk := y } = State.boot s)
    ∧ (∀ y : Saf, State.boot { s with saf := y } = State.boot s)
    ∧ (∀ y : Spare, State.boot { s with spare := y } = State.boot s)
    ∧ (∀ y : NMap Mpt, State.boot { s with mpts := y } = State.boot s)
    ∧ (∀ y : Hfn, State.boot { s with hfn := y } = State.boot s) :=
  ⟨fun _ => rfl, fun _ => rfl, fun _ => rfl, fun _ => rfl, fun _ => rfl, fun _ => rfl, fun _ => rfl, fun _ => rfl,
    fun _ => rfl, fun _ => rfl, fun _ => rfl, fun _ => rfl, fun _ => rfl, fun _ => rfl, fun _ => rfl, fun _ => rfl,
    fun _ => rfl, fun _ => rfl, fun _ => rfl, fun _ => rfl, fun _ => rfl, fun _ => rfl⟩

/-- What `State.rest` does not read. -/
theorem rest_leaf (s : State) :
    (∀ y : NMap Slice, State.rest { s with slices := y } = State.rest s)
    ∧ (∀ y : Pmc, State.rest { s with pmc := y } = State.rest s)
    ∧ (∀ y : Iag, State.rest { s with iag := y } = State.rest s)
    ∧ (∀ y : Ras, State.rest { s with ras := y } = State.rest s)
    ∧ (∀ y : Saf, State.rest { s with saf := y } = State.rest s)
    ∧ (∀ y : Spare, State.rest { s with spare := y } = State.rest s)
    ∧ (∀ y : BitVec 16, State.rest { s with pwr := { s.pwr with gatedAcc := y } } = State.rest s) :=
  ⟨fun _ => rfl, fun _ => rfl, fun _ => rfl, fun _ => rfl, fun _ => rfl, fun _ => rfl, fun _ => rfl⟩

theorem onlySlices_iff (s t : State) : OnlySlices s t ↔ t.rest = s.rest := by
  unfold OnlySlices State.rest
  constructor
  · intro h; rw [← h]
  · intro h
    obtain ⟨_, _, _, _, _, _, _, _, _, _, _, _, _, _, _, _, _, _, sp, _⟩ := s
    obtain ⟨_, _, _, _, _, _, _, _, _, _, _, _, _, _, _, _, _, _, tp, _⟩ := t
    cases sp; cases tp; simp_all

end Sys2Proof.Machine
end

