-- ==== Sys2Proof/Laws/Boot.lean ====
section
/-! SUPPORT. What each operation keeps of the fields start-up and sessions rest on. -/

namespace Sys2Proof.Machine

open Sys2Proof

set_option linter.unusedSimpArgs false
set_option linter.unusedTactic false
set_option linter.unreachableTactic false

@[simp] theorem State.setSlice_boot : ∀ (s : State) (p : Nat) (x : Slice), (s.setSlice p x).boot = s.boot := by
  intros
  rfl

@[simp] theorem State.modSlice_boot : ∀ (s : State) (p : Nat) (f : Slice → Slice), (s.modSlice p f).boot = s.boot :=
    by
  intros
  rfl

@[simp] theorem State.modEng_boot : ∀ (s : State) (e : Nat) (f : Eng → Eng), (s.modEng e f).boot = s.boot := by
  intros
  rfl

@[simp] theorem State.modStw_boot : ∀ (s : State) (f : Steward → Steward), (s.modStw f).boot = s.boot := by
  intros
  rfl

@[simp] theorem State.modLoader_boot : ∀ (s : State) (f : Loader → Loader), (s.modLoader f).boot = s.boot := by
  intros
  rfl

@[simp] theorem State.modIag_boot : ∀ (s : State) (f : Iag → Iag), (s.modIag f).boot = s.boot := by
  intros
  rfl

@[simp] theorem State.modPmc_boot : ∀ (s : State) (f : Pmc → Pmc), (s.modPmc f).boot = s.boot := by
  intros
  rfl

@[simp] theorem State.modPwr_boot : ∀ (s : State) (f : Pwr → Pwr), (s.modPwr f).boot = s.boot := by
  intros
  rfl

@[simp] theorem State.modRas_boot : ∀ (s : State) (f : Ras → Ras), (s.modRas f).boot = s.boot := by
  intros
  rfl

@[simp] theorem State.noteRsvd_boot : ∀ (s : State) (nonzero : Bool), (s.noteRsvd nonzero).boot = s.boot := by
  intros
  unfold State.noteRsvd
  split <;> first | rfl | simp only [boot_leaf]

@[simp] theorem State.modRing_boot : ∀ (s : State) (r : Nat) (f : Ring → Ring), (s.modRing r f).boot = s.boot := by
  intros
  rfl

@[simp] theorem State.modPort_boot : ∀ (s : State) (n : Nat) (f : Port → Port), (s.modPort n f).boot = s.boot := by
  intros
  rfl

@[simp] theorem State.fire_boot : ∀ (s : State) (n : Nat), (s.fire n).boot = s.boot := by
  intros
  rfl

@[simp] theorem State.fireSlice_boot : ∀ (s : State) (p k : Nat), (s.fireSlice p k).boot = s.boot := by
  intros
  rfl

@[simp] theorem State.firePort_boot : ∀ (s : State) (n k : Nat), (s.firePort n k).boot = s.boot := by
  intros
  rfl

@[simp] theorem State.fireRing_boot : ∀ (s : State) (r k : Nat), (s.fireRing r k).boot = s.boot := by
  intros
  rfl

@[simp] theorem State.pmcEvent_boot : ∀ (s : State) (base n code q : Nat) (ring : Bool) (amount : Nat),
  (s.pmcEvent base n code q ring amount).boot = s.boot := by
  intros
  rfl

@[simp] theorem State.slcEvent_boot : ∀ (s : State) (p code : Nat) (amount : optParam Nat 1), (s.slcEvent p code
    amount).boot = s.boot := by
  intros
  rfl

@[simp] theorem State.ringEvent_boot : ∀ (s : State) (r code : Nat) (q : optParam Nat 7) (amount : optParam Nat 1),
  (s.ringEvent r code q amount).boot = s.boot := by
  intros
  rfl

@[simp] theorem State.portEvent_boot : ∀ (s : State) (n code : Nat) (amount : optParam Nat 1), (s.portEvent n code
    amount).boot = s.boot := by
  intros
  rfl

@[simp] theorem State.glbEvent_boot : ∀ (s : State) (code : Nat) (amount : optParam Nat 1), (s.glbEvent code
    amount).boot = s.boot := by
  intros
  rfl

@[simp] theorem State.count_boot : ∀ (s : State) (p : Nat) (c : Cnt), (s.count p c).boot = s.boot := by
  intros
  unfold State.count
  split <;> first | rfl | simp only [boot_leaf, State.slcEvent_boot, State.modSlice_boot]

@[simp] theorem State.modSaf_boot : ∀ (s : State) (f : Saf → Saf), (s.modSaf f).boot = s.boot := by
  intros
  rfl

@[simp] theorem State.modSpare_boot : ∀ (s : State) (f : Spare → Spare), (s.modSpare f).boot = s.boot := by
  intros
  rfl

@[simp] theorem State.modClk_boot : ∀ (s : State) (f : Clk → Clk), (s.modClk f).boot = s.boot := by
  intros
  rfl

@[simp] theorem State.modHfn_boot : ∀ (s : State) (f : Hfn → Hfn), (s.modHfn f).boot = s.boot := by
  intros
  rfl

@[simp] theorem State.noteMark_boot : ∀ (s : State) (p : Nat), (s.noteMark p).boot = s.boot := by
  intros
  rfl

@[simp] theorem State.noteFatal_boot : ∀ (s : State) (e : ErrRec), (s.noteFatal e).boot = s.boot := by
  intros
  unfold State.noteFatal
  split <;> first | rfl | simp only [boot_leaf, State.modSaf_boot]

@[simp] theorem State.record_boot : ∀ (s : State) (e : ErrRec), (s.record e).boot = s.boot := by
  intros
  simp only [State.record, apply_ite State.boot, ite_self, boot_leaf, State.modRas_boot, State.noteMark_boot,
      State.noteFatal_boot]

@[simp] theorem State.sliceErr_boot : ∀ (s : State) (p cls code : Nat) (addr : optParam (Option LineAddr) none)
  (agent : optParam (Option (BitVec 10)) none) (detail : optParam (BitVec 64) 0)
  (extra : optParam (BitVec 16) 0) (byTest : optParam Bool false),
  (s.sliceErr p cls code addr agent detail extra byTest).boot = s.boot := by
  intros
  simp only [State.sliceErr, boot_leaf, State.record_boot]

@[simp] theorem State.emit_boot : ∀ (s : State) (p : Nat) (m : Msg), (s.emit p m).boot = s.boot := by
  intros
  rfl

@[simp] theorem State.modTrk_boot : ∀ (s : State) (p t : Nat) (f : Trk → Trk), (s.modTrk p t f).boot = s.boot := by
  intros
  rfl

@[simp] theorem State.grantOne_boot : ∀ (s : State) (p : Nat), (s.grantOne p).boot = s.boot := by
  intros
  unfold State.grantOne
  (repeat' first
    | with_reducible rfl
    | (with_reducible refine (foldl_keeps (State.boot) _ (fun _ _ => ?_) _ _).trans ?_)
    | (simp only [implies_true, forall_const, ↓apply_ite State.boot, apply_ite Prod.fst, ite_self, ↓boot_leaf,
            ↓State.emit_boot, ↓State.setSlice_boot]; done)
    | split
    | (simp only [implies_true, forall_const, ↓apply_ite State.boot, apply_ite Prod.fst, ite_self, ↓boot_leaf,
            ↓State.emit_boot, ↓State.setSlice_boot])
    | rfl)

@[simp] theorem State.grants_boot : ∀ (s : State) (p : Nat), (s.grants p).boot = s.boot := by
  intros
  unfold State.grants
  exact foldl_keeps State.boot _ (fun _ _ => by first | rfl | simp only [boot_leaf, State.grantOne_boot]) _ _

@[simp] theorem State.creditCycle_boot : ∀ (s : State) (p : Nat), (s.creditCycle p).boot = s.boot := by
  intros
  unfold State.creditCycle
  (repeat' first
    | with_reducible rfl
    | (with_reducible refine (foldl_keeps (State.boot) _ (fun _ _ => ?_) _ _).trans ?_)
    | (simp only [implies_true, forall_const, ↓apply_ite State.boot, apply_ite Prod.fst, ite_self, ↓boot_leaf,
            ↓State.modSlice_boot, ↓State.count_boot, ↓State.grants_boot]; done)
    | split
    | (simp only [implies_true, forall_const, ↓apply_ite State.boot, apply_ite Prod.fst, ite_self, ↓boot_leaf,
            ↓State.modSlice_boot, ↓State.count_boot, ↓State.grants_boot])
    | rfl)

@[simp] theorem State.creditCycles_boot : ∀ (s : State), s.creditCycles.boot = s.boot := by
  intros
  unfold State.creditCycles
  (repeat' first
    | with_reducible rfl
    | (with_reducible refine (foldl_keeps (State.boot) _ (fun _ _ => ?_) _ _).trans ?_)
    | (simp only [implies_true, forall_const, ↓apply_ite State.boot, apply_ite Prod.fst, ite_self, ↓boot_leaf,
            ↓State.creditCycle_boot]; done)
    | split
    | (simp only [implies_true, forall_const, ↓apply_ite State.boot, apply_ite Prod.fst, ite_self, ↓boot_leaf,
            ↓State.creditCycle_boot])
    | rfl)

@[simp] theorem State.closeTrk_boot : ∀ (s : State) (p t : Nat), (s.closeTrk p t).boot = s.boot := by
  intros
  unfold State.closeTrk
  split <;> first | rfl | simp only [boot_leaf, State.modSlice_boot]

@[simp] theorem State.homeMismatch_boot : ∀ (s : State) (p : Nat) (m : Msg), (s.homeMismatch p m).boot = s.boot := by
  intros
  simp only [State.homeMismatch, boot_leaf, State.sliceErr_boot]

@[simp] theorem State.crqDiscard_boot : ∀ (s : State) (p : Nat) (m : Msg), (s.crqDiscard p m).boot = s.boot := by
  intros
  simp only [State.crqDiscard, boot_leaf, State.count_boot, State.sliceErr_boot]

@[simp] theorem State.creditRequest_boot : ∀ (s : State) (p : Nat) (m : Msg), (s.creditRequest p m).boot = s.boot :=
    by
  intros
  unfold State.creditRequest
  (repeat' first
    | with_reducible rfl
    | (with_reducible refine (foldl_keeps (State.boot) _ (fun _ _ => ?_) _ _).trans ?_)
    | (simp only [implies_true, forall_const, ↓apply_ite State.boot, apply_ite Prod.fst, ite_self, ↓boot_leaf,
            ↓State.setSlice_boot, ↓State.crqDiscard_boot, ↓State.homeMismatch_boot]; done)
    | split
    | (simp only [implies_true, forall_const, ↓apply_ite State.boot, apply_ite Prod.fst, ite_self, ↓boot_leaf,
            ↓State.setSlice_boot, ↓State.crqDiscard_boot, ↓State.homeMismatch_boot])
    | rfl)

@[simp] theorem State.sfSuspect_boot : ∀ (s : State) (p key : Nat) (sc : BitVec 109) (patrol : Bool) (i : Nat),
  (s.sfSuspect p key sc patrol i).boot = s.boot := by
  intros
  unfold State.sfSuspect
  (repeat' first
    | with_reducible rfl
    | (with_reducible refine (foldl_keeps (State.boot) _ (fun _ _ => ?_) _ _).trans ?_)
    | (simp only [implies_true, forall_const, ↓apply_ite State.boot, apply_ite Prod.fst, ite_self, ↓boot_leaf,
            ↓State.sliceErr_boot, ↓State.fireSlice_boot, ↓State.count_boot]; done)
    | split
    | (simp only [implies_true, forall_const, ↓apply_ite State.boot, apply_ite Prod.fst, ite_self, ↓boot_leaf,
            ↓State.sliceErr_boot, ↓State.fireSlice_boot, ↓State.count_boot])
    | rfl)

@[simp] theorem State.sfBlockCheck_boot : ∀ (s : State) (p key : Nat) (patrol : Bool), (s.sfBlockCheck p key
    patrol).boot = s.boot := by
  intros
  unfold State.sfBlockCheck
  (repeat' first
    | with_reducible rfl
    | (with_reducible refine (foldl_keeps (State.boot) _ (fun _ _ => ?_) _ _).trans ?_)
    | (simp only [implies_true, forall_const, ↓apply_ite State.boot, apply_ite Prod.fst, ite_self, ↓boot_leaf,
            ↓State.modSlice_boot, ↓State.sfSuspect_boot, ↓State.count_boot, ↓State.sliceErr_boot,
            ↓State.fireSlice_boot, ↓State.setSlice_boot]; done)
    | split
    | (simp only [implies_true, forall_const, ↓apply_ite State.boot, apply_ite Prod.fst, ite_self, ↓boot_leaf,
            ↓State.modSlice_boot, ↓State.sfSuspect_boot, ↓State.count_boot, ↓State.sliceErr_boot,
            ↓State.fireSlice_boot, ↓State.setSlice_boot])
    | rfl)

@[simp] theorem State.sfLookupChecks_boot : ∀ (s : State) (p set : Nat), (s.sfLookupChecks p set).boot = s.boot := by
  intros
  unfold State.sfLookupChecks
  (repeat' first
    | with_reducible rfl
    | (with_reducible refine (foldl_keeps (State.boot) _ (fun _ _ => ?_) _ _).trans ?_)
    | (simp only [implies_true, forall_const, ↓apply_ite State.boot, apply_ite Prod.fst, ite_self, ↓boot_leaf,
            ↓State.sfBlockCheck_boot]; done)
    | split
    | (simp only [implies_true, forall_const, ↓apply_ite State.boot, apply_ite Prod.fst, ite_self, ↓boot_leaf,
            ↓State.sfBlockCheck_boot])
    | rfl)

@[simp] theorem State.sfDuplicate_boot : ∀ (s : State) (p : Nat) (hits : List Nat), (s.sfDuplicate p hits).boot =
    s.boot := by
  intros
  unfold State.sfDuplicate
  split <;> first | rfl | simp only [boot_leaf, State.sliceErr_boot, State.modSlice_boot]

@[simp] theorem State.sfMigrate_boot : ∀ (s : State) (p pos : Nat), (s.sfMigrate p pos).boot = s.boot := by
  intros
  unfold State.sfMigrate
  (repeat' first
    | with_reducible rfl
    | (with_reducible refine (foldl_keeps (State.boot) _ (fun _ _ => ?_) _ _).trans ?_)
    | (simp only [implies_true, forall_const, ↓apply_ite State.boot, apply_ite Prod.fst, ite_self, ↓boot_leaf,
            ↓State.setSlice_boot, ↓State.count_boot]; done)
    | split
    | (simp only [implies_true, forall_const, ↓apply_ite State.boot, apply_ite Prod.fst, ite_self, ↓boot_leaf,
            ↓State.setSlice_boot, ↓State.count_boot])
    | rfl)

@[simp] theorem State.sfLookup_boot : ∀ (s : State) (p : Nat) (a : LineAddr), (s.sfLookup p a).1.boot = s.boot := by
  intros
  unfold State.sfLookup
  (repeat' first
    | with_reducible rfl
    | (with_reducible refine (foldl_keeps (State.boot) _ (fun _ _ => ?_) _ _).trans ?_)
    | (simp only [implies_true, forall_const, ↓apply_ite State.boot, apply_ite Prod.fst, ite_self, ↓boot_leaf,
            ↓State.modSlice_boot, ↓State.slcEvent_boot, ↓State.sfMigrate_boot, ↓State.sfDuplicate_boot,
            ↓State.sfLookupChecks_boot]; done)
    | split
    | (simp only [implies_true, forall_const, ↓apply_ite State.boot, apply_ite Prod.fst, ite_self, ↓boot_leaf,
            ↓State.modSlice_boot, ↓State.slcEvent_boot, ↓State.sfMigrate_boot, ↓State.sfDuplicate_boot,
            ↓State.sfLookupChecks_boot])
    | rfl)
theorem State.sfLookup_bootP : ∀ {s : State} {p : Nat} {a : LineAddr} {u : State} {res},
    s.sfLookup p a = (u, res) → u.boot = s.boot := by
  intros
  rename_i h
  have h2 := congrArg (fun r => r.1.boot) h
  simp only [State.sfLookup_boot] at h2
  exact h2.symm

@[simp] theorem State.modHlc_boot : ∀ (s : State) (p : Nat) (f : Hlc → Hlc), (s.modHlc p f).boot = s.boot := by
  intros
  rfl

@[simp] theorem State.hError_boot : ∀ (s : State) (p q : Nat) (tag : BitVec 31) (groups : BitVec 8) (tagErr : Bool)
    (kind cls code : Nat)
  (a : Option LineAddr), (s.hError p q tag groups tagErr kind cls code a).boot = s.boot := by
  intros
  simp only [State.hError, apply_ite State.boot, ite_self, boot_leaf, State.sliceErr_boot, State.count_boot,
      State.modHlc_boot]

@[simp] theorem State.hTagCheck_boot : ∀ (s : State) (p q : Nat), (s.hTagCheck p q).boot = s.boot := by
  intros
  simp only [State.hTagCheck, apply_ite State.boot, ite_self, boot_leaf, State.modHlc_boot, State.hError_boot]

@[simp] theorem State.hDataCheck_boot : ∀ (s : State) (p q : Nat), (s.hDataCheck p q).boot = s.boot := by
  intros
  simp only [State.hDataCheck, apply_ite State.boot, ite_self, boot_leaf, State.modHlc_boot, State.hError_boot,
      State.fireSlice_boot]

@[simp] theorem State.hTagScan_boot : ∀ (s : State) (p : Nat) (a : LineAddr), (s.hTagScan p a).boot = s.boot := by
  intros
  unfold State.hTagScan
  exact foldl_keeps State.boot _ (fun _ _ => by first | rfl | simp only [boot_leaf, State.hTagCheck_boot]) _ _

@[simp] theorem State.lookup_boot : ∀ (s : State) (p : Nat) (a : LineAddr), (s.lookup p a).1.boot = s.boot := by
  intros
  simp only [State.lookup, boot_leaf, State.hTagScan_boot, State.sfLookup_boot]
theorem State.lookup_bootP : ∀ {s : State} {p : Nat} {a : LineAddr} {u : State} {res},
    s.lookup p a = (u, res) → u.boot = s.boot := by
  intros
  rename_i h
  have h2 := congrArg (fun r => r.1.boot) h
  simp only [State.lookup_boot] at h2
  exact h2.symm

@[simp] theorem State.hMoveCheck_boot : ∀ (s : State) (p q : Nat), (s.hMoveCheck p q).boot = s.boot := by
  intros
  unfold State.hMoveCheck
  split <;> first | rfl | simp only [boot_leaf, State.hDataCheck_boot]

@[simp] theorem State.vacate_boot : ∀ (s : State) (p q : Nat), (s.vacate p q).1.boot = s.boot := by
  intros
  unfold State.vacate
  (repeat' first
    | with_reducible rfl
    | (with_reducible refine (foldl_keeps (State.boot) _ (fun _ _ => ?_) _ _).trans ?_)
    | (simp only [implies_true, forall_const, ↓apply_ite State.boot, apply_ite Prod.fst, ite_self, ↓boot_leaf,
            ↓State.count_boot, ↓State.modHlc_boot, ↓State.hMoveCheck_boot]; done)
    | split
    | (simp only [implies_true, forall_const, ↓apply_ite State.boot, apply_ite Prod.fst, ite_self, ↓boot_leaf,
            ↓State.count_boot, ↓State.modHlc_boot, ↓State.hMoveCheck_boot])
    | rfl)
theorem State.vacate_bootP : ∀ {s : State} {p q : Nat} {u : State} {res},
    s.vacate p q = (u, res) → u.boot = s.boot := by
  intros
  rename_i h
  have h2 := congrArg (fun r => r.1.boot) h
  simp only [State.vacate_boot] at h2
  exact h2.symm

@[simp] theorem State.install_boot : ∀ (s : State) (p : Nat) (a : LineAddr) (data : LineData) (poison : BitVec 8)
    (dirty pf : Bool),
  (s.install p a data poison dirty pf).1.boot = s.boot := by
  intros
  unfold State.install
  (repeat' first
    | with_reducible rfl
    | (with_reducible refine (State.vacate_bootP (by assumption)).trans ?_)
    | (with_reducible refine (foldl_keeps (State.boot) _ (fun _ _ => ?_) _ _).trans ?_)
    | (simp only [implies_true, forall_const, ↓apply_ite State.boot, apply_ite Prod.fst, ite_self, ↓boot_leaf,
            ↓State.vacate_boot, ↓State.count_boot, ↓State.modHlc_boot]; done)
    | split
    | (simp only [implies_true, forall_const, ↓apply_ite State.boot, apply_ite Prod.fst, ite_self, ↓boot_leaf,
            ↓State.vacate_boot, ↓State.count_boot, ↓State.modHlc_boot])
    | rfl)
theorem State.install_bootP : ∀ {s : State} {p : Nat} {a : LineAddr} {data : LineData} {poison : BitVec 8} {dirty pf
    : Bool} {u : State} {res},
    s.install p a data poison dirty pf = (u, res) → u.boot = s.boot := by
  intros
  rename_i h
  have h2 := congrArg (fun r => r.1.boot) h
  simp only [State.install_boot] at h2
  exact h2.symm

@[simp] theorem State.storeLine_boot : ∀ (s : State) (p : Nat) (a : LineAddr) (data : LineData) (poison : BitVec 8)
    (waiter : Option Nat),
  (s.storeLine p a data poison waiter).1.boot = s.boot := by
  intros
  unfold State.storeLine
  (repeat' first
    | with_reducible rfl
    | (with_reducible refine (State.install_bootP (by assumption)).trans ?_)
    | (with_reducible refine (foldl_keeps (State.boot) _ (fun _ _ => ?_) _ _).trans ?_)
    | (simp only [implies_true, forall_const, ↓apply_ite State.boot, apply_ite Prod.fst, ite_self, ↓boot_leaf,
            ↓State.install_boot, ↓State.modHlc_boot]; done)
    | split
    | (simp only [implies_true, forall_const, ↓apply_ite State.boot, apply_ite Prod.fst, ite_self, ↓boot_leaf,
            ↓State.install_boot, ↓State.modHlc_boot])
    | rfl)
theorem State.storeLine_bootP : ∀ {s : State} {p : Nat} {a : LineAddr} {data : LineData} {poison : BitVec 8} {waiter
    : Option Nat} {u : State} {res},
    s.storeLine p a data poison waiter = (u, res) → u.boot = s.boot := by
  intros
  rename_i h
  have h2 := congrArg (fun r => r.1.boot) h
  simp only [State.storeLine_boot] at h2
  exact h2.symm

@[simp] theorem State.hRead_boot : ∀ (s : State) (p : Nat) (a : LineAddr) (demand : Bool), (s.hRead p a
    demand).1.boot = s.boot := by
  intros
  unfold State.hRead
  (repeat' first
    | with_reducible rfl
    | (with_reducible refine (foldl_keeps (State.boot) _ (fun _ _ => ?_) _ _).trans ?_)
    | (simp only [implies_true, forall_const, ↓apply_ite State.boot, apply_ite Prod.fst, ite_self, ↓boot_leaf,
            ↓State.count_boot, ↓State.modHlc_boot, ↓State.hDataCheck_boot, ↓State.hTagScan_boot]; done)
    | split
    | (simp only [implies_true, forall_const, ↓apply_ite State.boot, apply_ite Prod.fst, ite_self, ↓boot_leaf,
            ↓State.count_boot, ↓State.modHlc_boot, ↓State.hDataCheck_boot, ↓State.hTagScan_boot])
    | rfl)
theorem State.hRead_bootP : ∀ {s : State} {p : Nat} {a : LineAddr} {demand : Bool} {u : State} {res},
    s.hRead p a demand = (u, res) → u.boot = s.boot := by
  intros
  rename_i h
  have h2 := congrArg (fun r => r.1.boot) h
  simp only [State.hRead_boot] at h2
  exact h2.symm

@[simp] theorem State.missJoin_boot : ∀ (s : State) (p : Nat) (a : LineAddr) (w : Waiter) (demand : Bool),
  (s.missJoin p a w demand).1.boot = s.boot := by
  intros
  unfold State.missJoin
  (repeat' first
    | with_reducible rfl
    | (with_reducible refine (foldl_keeps (State.boot) _ (fun _ _ => ?_) _ _).trans ?_)
    | (simp only [implies_true, forall_const, ↓apply_ite State.boot, apply_ite Prod.fst, ite_self, ↓boot_leaf,
            ↓State.count_boot, ↓State.modHlc_boot]; done)
    | split
    | (simp only [implies_true, forall_const, ↓apply_ite State.boot, apply_ite Prod.fst, ite_self, ↓boot_leaf,
            ↓State.count_boot, ↓State.modHlc_boot])
    | rfl)
theorem State.missJoin_bootP : ∀ {s : State} {p : Nat} {a : LineAddr} {w : Waiter} {demand : Bool} {u : State} {res},
    s.missJoin p a w demand = (u, res) → u.boot = s.boot := by
  intros
  rename_i h
  have h2 := congrArg (fun r => r.1.boot) h
  simp only [State.missJoin_boot] at h2
  exact h2.symm

@[simp] theorem State.missSend_boot : ∀ (s : State) (p : Nat), (s.missSend p).boot = s.boot := by
  intros
  unfold State.missSend
  (repeat' first
    | with_reducible rfl
    | (with_reducible refine (foldl_keeps (State.boot) _ (fun _ _ => ?_) _ _).trans ?_)
    | (simp only [implies_true, forall_const, ↓apply_ite State.boot, apply_ite Prod.fst, ite_self, ↓boot_leaf,
            ↓State.emit_boot, ↓State.modHlc_boot]; done)
    | split
    | (simp only [implies_true, forall_const, ↓apply_ite State.boot, apply_ite Prod.fst, ite_self, ↓boot_leaf,
            ↓State.emit_boot, ↓State.modHlc_boot])
    | rfl)

@[simp] theorem State.offer_boot : ∀ (s : State) (p : Nat) (r : ℤ), (s.offer p r).boot = s.boot := by
  intros
  unfold State.offer
  (repeat' first
    | with_reducible rfl
    | (with_reducible refine (State.missJoin_bootP (by assumption)).trans ?_)
    | (with_reducible refine (foldl_keeps (State.boot) _ (fun _ _ => ?_) _ _).trans ?_)
    | (simp only [implies_true, forall_const, ↓apply_ite State.boot, apply_ite Prod.fst, ite_self, ↓boot_leaf,
            ↓State.missJoin_boot, ↓State.count_boot, ↓State.hTagScan_boot]; done)
    | split
    | (simp only [implies_true, forall_const, ↓apply_ite State.boot, apply_ite Prod.fst, ite_self, ↓boot_leaf,
            ↓State.missJoin_boot, ↓State.count_boot, ↓State.hTagScan_boot])
    | rfl)

@[simp] theorem State.trainStream_boot : ∀ (s : State) (p : Nat) (m : Msg), (s.trainStream p m).boot = s.boot := by
  intros
  unfold State.trainStream
  (repeat' first
    | with_reducible rfl
    | (with_reducible refine (foldl_keeps (State.boot) _ (fun _ _ => ?_) _ _).trans ?_)
    | (simp only [implies_true, forall_const, ↓apply_ite State.boot, apply_ite Prod.fst, ite_self, ↓boot_leaf,
            ↓State.offer_boot, ↓State.modHlc_boot]; done)
    | split
    | (simp only [implies_true, forall_const, ↓apply_ite State.boot, apply_ite Prod.fst, ite_self, ↓boot_leaf,
            ↓State.offer_boot, ↓State.modHlc_boot])
    | rfl)

@[simp] theorem State.maintAt_boot : ∀ (s : State) (p q : Nat) (op : BitVec 4), (s.maintAt p q op).1.boot = s.boot
    := by
  intros
  unfold State.maintAt
  (repeat' first
    | with_reducible rfl
    | (with_reducible refine (foldl_keeps (State.boot) _ (fun _ _ => ?_) _ _).trans ?_)
    | (simp only [implies_true, forall_const, ↓apply_ite State.boot, apply_ite Prod.fst, ite_self, ↓boot_leaf,
            ↓State.count_boot, ↓State.modHlc_boot, ↓State.hTagCheck_boot, ↓State.hMoveCheck_boot]; done)
    | split
    | (simp only [implies_true, forall_const, ↓apply_ite State.boot, apply_ite Prod.fst, ite_self, ↓boot_leaf,
            ↓State.count_boot, ↓State.modHlc_boot, ↓State.hTagCheck_boot, ↓State.hMoveCheck_boot])
    | rfl)
theorem State.maintAt_bootP : ∀ {s : State} {p q : Nat} {op : BitVec 4} {u : State} {res},
    s.maintAt p q op = (u, res) → u.boot = s.boot := by
  intros
  rename_i h
  have h2 := congrArg (fun r => r.1.boot) h
  simp only [State.maintAt_boot] at h2
  exact h2.symm

@[simp] theorem State.flushWay_boot : ∀ (s : State) (p w : Nat), (s.flushWay p w).boot = s.boot := by
  intros
  unfold State.flushWay
  (repeat' first
    | with_reducible rfl
    | (with_reducible refine (State.maintAt_bootP (by assumption)).trans ?_)
    | (with_reducible refine (foldl_keeps (State.boot) _ (fun _ _ => ?_) _ _).trans ?_)
    | (simp only [implies_true, forall_const, ↓apply_ite State.boot, apply_ite Prod.fst, ite_self, ↓boot_leaf,
            ↓State.maintAt_boot]; done)
    | split
    | (simp only [implies_true, forall_const, ↓apply_ite State.boot, apply_ite Prod.fst, ite_self, ↓boot_leaf,
            ↓State.maintAt_boot])
    | rfl)

@[simp] theorem State.maintFinish_boot : ∀ (s : State) (p : Nat), (s.maintFinish p).boot = s.boot := by
  intros
  unfold State.maintFinish
  (repeat' first
    | with_reducible rfl
    | (with_reducible refine (foldl_keeps (State.boot) _ (fun _ _ => ?_) _ _).trans ?_)
    | (simp only [implies_true, forall_const, ↓apply_ite State.boot, apply_ite Prod.fst, ite_self, ↓boot_leaf,
            ↓State.emit_boot, ↓State.modHlc_boot]; done)
    | split
    | (simp only [implies_true, forall_const, ↓apply_ite State.boot, apply_ite Prod.fst, ite_self, ↓boot_leaf,
            ↓State.emit_boot, ↓State.modHlc_boot])
    | rfl)

@[simp] theorem State.maintTry_boot : ∀ (s : State) (p i : Nat), (s.maintTry p i).boot = s.boot := by
  intros
  unfold State.maintTry
  (repeat' first
    | with_reducible rfl
    | (with_reducible refine (State.maintAt_bootP (by assumption)).trans ?_)
    | (with_reducible refine (foldl_keeps (State.boot) _ (fun _ _ => ?_) _ _).trans ?_)
    | (simp only [implies_true, forall_const, ↓apply_ite State.boot, apply_ite Prod.fst, ite_self, ↓boot_leaf,
            ↓State.maintAt_boot, ↓State.maintFinish_boot, ↓State.modHlc_boot]; done)
    | split
    | (simp only [implies_true, forall_const, ↓apply_ite State.boot, apply_ite Prod.fst, ite_self, ↓boot_leaf,
            ↓State.maintAt_boot, ↓State.maintFinish_boot, ↓State.modHlc_boot])
    | rfl)

@[simp] theorem State.maintRetry_boot : ∀ (s : State) (p : Nat), (s.maintRetry p).boot = s.boot := by
  intros
  unfold State.maintRetry
  exact foldl_keeps State.boot _ (fun _ _ => by first | rfl | simp only [boot_leaf, State.maintTry_boot]) _ _

@[simp] theorem State.modLine_boot : ∀ (s : State) (p : Nat) (a : LineAddr) (f : Olt → Olt), (s.modLine p a f).boot
    = s.boot := by
  intros
  rfl

@[simp] theorem State.setDir_boot : ∀ (s : State) (p : Nat) (a : LineAddr) (st : BitVec 2) (vec : BitVec 64) (poison
    : Bool),
  (s.setDir p a st vec poison).boot = s.boot := by
  intros
  unfold State.setDir
  split <;> first | rfl | simp only [boot_leaf, State.modSlice_boot]

@[simp] theorem State.freeLine_boot : ∀ (s : State) (p : Nat) (a : LineAddr), (s.freeLine p a).boot = s.boot := by
  intros
  rfl

@[simp] theorem State.protoError_boot : ∀ (s : State) (p : Nat) (m : Msg) (st mode : BitVec 2), (s.protoError p m st
    mode).boot = s.boot := by
  intros
  simp only [State.protoError, boot_leaf, State.sliceErr_boot, State.fire_boot, State.modSlice_boot, State.count_boot]

@[simp] theorem State.endWith_boot : ∀ (s : State) (p t opc : Nat) (f : Msg → Msg), (s.endWith p t opc f).boot =
    s.boot := by
  intros
  unfold State.endWith
  split <;> first | rfl | simp only [boot_leaf, State.emit_boot, State.closeTrk_boot]

@[simp] theorem State.endErr_boot : ∀ (s : State) (p t : Nat) (stat : BitVec 4), (s.endErr p t stat).boot = s.boot
    := by
  intros
  simp only [State.endErr, boot_leaf, State.endWith_boot]

@[simp] theorem State.loadRecent_boot : ∀ (s : State) (p : Nat) (a : LineAddr), (s.loadRecent p a).boot = s.boot := by
  intros
  rfl

@[simp] theorem State.sendForward_boot : ∀ (s : State) (p t opc o : Nat) (a : LineAddr) (named : Bool),
  (s.sendForward p t opc o a named).boot = s.boot := by
  intros
  unfold State.sendForward
  split <;> first | rfl | simp only [boot_leaf, State.modTrk_boot, State.emit_boot]

@[simp] theorem State.sendVector_boot : ∀ (s : State) (p t opc : Nat) (a : LineAddr) (vec : BitVec 64),
  (s.sendVector p t opc a vec).boot = s.boot := by
  intros
  simp only [State.sendVector, apply_ite State.boot, ite_self, boot_leaf, State.modLine_boot, State.modTrk_boot,
      State.emit_boot]

@[simp] theorem State.enqueue_boot : ∀ (s : State) (p t : Nat) (a : LineAddr), (s.enqueue p t a).boot = s.boot := by
  intros
  rfl

@[simp] theorem State.victimEnd_boot : ∀ (s : State) (p t : Nat) (v : LineAddr), (s.victimEnd p t v).boot = s.boot
    := by
  intros
  unfold State.victimEnd
  (repeat' first
    | with_reducible rfl
    | (with_reducible refine (foldl_keeps (State.boot) _ (fun _ _ => ?_) _ _).trans ?_)
    | (simp only [implies_true, forall_const, ↓apply_ite State.boot, apply_ite Prod.fst, ite_self, ↓boot_leaf,
            ↓State.freeLine_boot, ↓State.modLine_boot, ↓State.modTrk_boot, ↓State.modSlice_boot]; done)
    | split
    | (simp only [implies_true, forall_const, ↓apply_ite State.boot, apply_ite Prod.fst, ite_self, ↓boot_leaf,
            ↓State.freeLine_boot, ↓State.modLine_boot, ↓State.modTrk_boot, ↓State.modSlice_boot])
    | rfl)

@[simp] theorem State.victimWrite_boot : ∀ (s : State) (p t : Nat) (v : LineAddr) (poison : Bool), (s.victimWrite p
    t v poison).boot = s.boot := by
  intros
  unfold State.victimWrite
  (repeat' first
    | with_reducible rfl
    | (with_reducible refine (State.storeLine_bootP (by assumption)).trans ?_)
    | (with_reducible refine (foldl_keeps (State.boot) _ (fun _ _ => ?_) _ _).trans ?_)
    | (simp only [implies_true, forall_const, ↓apply_ite State.boot, apply_ite Prod.fst, ite_self, ↓boot_leaf,
            ↓State.modTrk_boot, ↓State.storeLine_boot, ↓State.victimEnd_boot]; done)
    | split
    | (simp only [implies_true, forall_const, ↓apply_ite State.boot, apply_ite Prod.fst, ite_self, ↓boot_leaf,
            ↓State.modTrk_boot, ↓State.storeLine_boot, ↓State.victimEnd_boot])
    | rfl)

@[simp] theorem State.handleStart_boot : ∀ (s : State) (p t : Nat) (a : LineAddr), (s.handleStart p t a).boot =
    s.boot := by
  intros
  unfold State.handleStart
  (repeat' first
    | with_reducible rfl
    | (with_reducible refine (foldl_keeps (State.boot) _ (fun _ _ => ?_) _ _).trans ?_)
    | (simp only [implies_true, forall_const, ↓apply_ite State.boot, apply_ite Prod.fst, ite_self, ↓boot_leaf,
            ↓State.sendVector_boot, ↓State.modLine_boot, ↓State.sendForward_boot]; done)
    | split
    | (simp only [implies_true, forall_const, ↓apply_ite State.boot, apply_ite Prod.fst, ite_self, ↓boot_leaf,
            ↓State.sendVector_boot, ↓State.modLine_boot, ↓State.sendForward_boot])
    | rfl)

@[simp] theorem State.victimWritten_boot : ∀ (s : State) (p t : Nat) (v : LineAddr), (s.victimWritten p t v).boot =
    s.boot := by
  intros
  unfold State.victimWritten
  (repeat' split) <;> first
    | rfl
    | simp only [boot_leaf, State.victimEnd_boot, State.modTrk_boot, State.handleStart_boot]

@[simp] theorem State.victimStart_boot : ∀ (s : State) (p t q : Nat), (s.victimStart p t q).boot = s.boot := by
  intros
  simp only [State.victimStart, apply_ite State.boot, ite_self, boot_leaf, State.victimWrite_boot,
      State.handleStart_boot, State.sendForward_boot, State.sendVector_boot, State.modLine_boot, State.count_boot,
      State.modTrk_boot]

@[simp] theorem State.startHead_boot : ∀ (s : State) (p set : Nat), (s.startHead p set).boot = s.boot := by
  intros
  unfold State.startHead
  (repeat' first
    | with_reducible rfl
    | (with_reducible refine (foldl_keeps (State.boot) _ (fun _ _ => ?_) _ _).trans ?_)
    | (simp only [implies_true, forall_const, ↓apply_ite State.boot, apply_ite Prod.fst, ite_self, ↓boot_leaf,
            ↓State.victimStart_boot, ↓State.modTrk_boot]; done)
    | split
    | (simp only [implies_true, forall_const, ↓apply_ite State.boot, apply_ite Prod.fst, ite_self, ↓boot_leaf,
            ↓State.victimStart_boot, ↓State.modTrk_boot])
    | rfl)

@[simp] theorem State.joinWait_boot : ∀ (s : State) (p t : Nat), (s.joinWait p t).boot = s.boot := by
  intros
  unfold State.joinWait
  (repeat' first
    | with_reducible rfl
    | (with_reducible refine (foldl_keeps (State.boot) _ (fun _ _ => ?_) _ _).trans ?_)
    | (simp only [implies_true, forall_const, ↓apply_ite State.boot, apply_ite Prod.fst, ite_self, ↓boot_leaf,
            ↓State.startHead_boot, ↓State.count_boot, ↓State.modTrk_boot, ↓State.modSlice_boot]; done)
    | split
    | (simp only [implies_true, forall_const, ↓apply_ite State.boot, apply_ite Prod.fst, ite_self, ↓boot_leaf,
            ↓State.startHead_boot, ↓State.count_boot, ↓State.modTrk_boot, ↓State.modSlice_boot])
    | rfl)

@[simp] theorem State.needData_boot : ∀ (s : State) (p t : Nat), (s.needData p t).boot = s.boot := by
  intros
  unfold State.needData
  (repeat' first
    | with_reducible rfl
    | (with_reducible refine (State.hRead_bootP (by assumption)).trans ?_)
    | (with_reducible refine (State.missJoin_bootP (by assumption)).trans ?_)
    | (with_reducible refine (foldl_keeps (State.boot) _ (fun _ _ => ?_) _ _).trans ?_)
    | (simp only [implies_true, forall_const, ↓apply_ite State.boot, apply_ite Prod.fst, ite_self, ↓boot_leaf,
            ↓State.missJoin_boot, ↓State.trainStream_boot, ↓State.hRead_boot, ↓State.modTrk_boot]; done)
    | split
    | (simp only [implies_true, forall_const, ↓apply_ite State.boot, apply_ite Prod.fst, ite_self, ↓boot_leaf,
            ↓State.missJoin_boot, ↓State.trainStream_boot, ↓State.hRead_boot, ↓State.modTrk_boot])
    | rfl)

@[simp] theorem State.farCopied_boot : ∀ (s : State) (p : Nat), (s.farCopied p).boot = s.boot := by
  intros
  rfl

@[simp] theorem State.breakWatch_boot : ∀ (s : State) (p : Nat) (a : LineAddr), (s.breakWatch p a).boot = s.boot := by
  intros
  rfl

@[simp] theorem State.farLeave_boot : ∀ (s : State) (p t : Nat), (s.farLeave p t).boot = s.boot := by
  intros
  rfl

@[simp] theorem State.farDecline_boot : ∀ (s : State) (p t : Nat) (stat : BitVec 4), (s.farDecline p t stat).boot =
    s.boot := by
  intros
  simp only [State.farDecline, boot_leaf, State.count_boot, State.farLeave_boot, State.endWith_boot,
      State.maintRetry_boot]

@[simp] theorem State.farBecomesReady_boot : ∀ (s : State) (p t : Nat) (k : Trk), (s.farBecomesReady p t k).1.boot =
    s.boot := by
  intros
  unfold State.farBecomesReady
  (repeat' first
    | with_reducible rfl
    | (with_reducible refine (foldl_keeps (State.boot) _ (fun _ _ => ?_) _ _).trans ?_)
    | (simp only [implies_true, forall_const, ↓apply_ite State.boot, apply_ite Prod.fst, ite_self, ↓boot_leaf,
            ↓State.modSlice_boot, ↓State.modTrk_boot, ↓State.farDecline_boot]; done)
    | split
    | (simp only [implies_true, forall_const, ↓apply_ite State.boot, apply_ite Prod.fst, ite_self, ↓boot_leaf,
            ↓State.modSlice_boot, ↓State.modTrk_boot, ↓State.farDecline_boot])
    | rfl)
theorem State.farBecomesReady_bootP : ∀ {s : State} {p t : Nat} {k : Trk} {u : State} {res},
    s.farBecomesReady p t k = (u, res) → u.boot = s.boot := by
  intros
  rename_i h
  have h2 := congrArg (fun r => r.1.boot) h
  simp only [State.farBecomesReady_boot] at h2
  exact h2.symm

@[simp] theorem State.farReserve_boot : ∀ (s : State) (p : Nat) (a : LineAddr), (s.farReserve p a).1.boot = s.boot
    := by
  intros
  unfold State.farReserve
  (repeat' first
    | with_reducible rfl
    | (with_reducible refine (State.vacate_bootP (by assumption)).trans ?_)
    | (with_reducible refine (foldl_keeps (State.boot) _ (fun _ _ => ?_) _ _).trans ?_)
    | (simp only [implies_true, forall_const, ↓apply_ite State.boot, apply_ite Prod.fst, ite_self, ↓boot_leaf,
            ↓State.vacate_boot]; done)
    | split
    | (simp only [implies_true, forall_const, ↓apply_ite State.boot, apply_ite Prod.fst, ite_self, ↓boot_leaf,
            ↓State.vacate_boot])
    | rfl)
theorem State.farReserve_bootP : ∀ {s : State} {p : Nat} {a : LineAddr} {u : State} {res},
    s.farReserve p a = (u, res) → u.boot = s.boot := by
  intros
  rename_i h
  have h2 := congrArg (fun r => r.1.boot) h
  simp only [State.farReserve_boot] at h2
  exact h2.symm

@[simp] theorem State.farHold_boot : ∀ (s : State) (p t : Nat) (a : LineAddr) (data : LineData) (poison : BitVec 8)
    (dirty : Bool),
  (s.farHold p t a data poison dirty).boot = s.boot := by
  intros
  unfold State.farHold
  (repeat' split) <;> first | rfl | simp only [boot_leaf, State.modTrk_boot, State.modHlc_boot]

@[simp] theorem State.takeEntry_boot : ∀ (s : State) (p t : Nat) (a : LineAddr), (s.takeEntry p t a).boot = s.boot
    := by
  intros
  unfold State.takeEntry
  (repeat' first
    | with_reducible rfl
    | (with_reducible refine (foldl_keeps (State.boot) _ (fun _ _ => ?_) _ _).trans ?_)
    | (simp only [implies_true, forall_const, ↓apply_ite State.boot, apply_ite Prod.fst, ite_self, ↓boot_leaf,
            ↓State.count_boot, ↓State.modTrk_boot, ↓State.modLine_boot]; done)
    | split
    | (simp only [implies_true, forall_const, ↓apply_ite State.boot, apply_ite Prod.fst, ite_self, ↓boot_leaf,
            ↓State.count_boot, ↓State.modTrk_boot, ↓State.modLine_boot])
    | rfl)

@[simp] theorem State.chainOwn_boot : ∀ (s : State) (p t : Nat) (a : LineAddr) (o : Nat) (mode : BitVec 2),
  (s.chainOwn p t a o mode).boot = s.boot := by
  intros
  unfold State.chainOwn
  split <;> first
    | rfl
    | simp only [boot_leaf, State.loadRecent_boot, State.count_boot, State.breakWatch_boot, State.sendForward_boot,
            State.modTrk_boot, State.modLine_boot, State.setDir_boot]

@[simp] theorem State.forwardRead_boot : ∀ (s : State) (p t : Nat) (a : LineAddr) (o : Nat) (shared : Bool),
  (s.forwardRead p t a o shared).boot = s.boot := by
  intros
  unfold State.forwardRead
  (repeat' split) <;> first
    | rfl
    | simp only [boot_leaf, State.setDir_boot, State.sendForward_boot, State.modTrk_boot, State.modLine_boot]

@[simp] theorem State.setWatch_boot : ∀ (s : State) (p : Nat) (m : Msg) (e : SfEnt), (s.setWatch p m e).boot =
    s.boot := by
  intros
  unfold State.setWatch
  split <;> first | rfl | simp only [boot_leaf, State.modSlice_boot]

@[simp] theorem State.act_boot : ∀ (s : State) (p t : Nat) (a : LineAddr), (s.act p t a).boot = s.boot := by
  intros
  unfold State.act
  (repeat' first
    | with_reducible rfl
    | (with_reducible refine (foldl_keeps (State.boot) _ (fun _ _ => ?_) _ _).trans ?_)
    | (simp only [implies_true, forall_const, ↓apply_ite State.boot, apply_ite Prod.fst, ite_self, ↓boot_leaf,
            ↓State.sendForward_boot, ↓State.setWatch_boot, ↓State.sendVector_boot, ↓State.chainOwn_boot,
            ↓State.needData_boot, ↓State.takeEntry_boot, ↓State.setDir_boot, ↓State.forwardRead_boot,
            ↓State.breakWatch_boot, ↓State.modSlice_boot, ↓State.endWith_boot, ↓State.protoError_boot,
            ↓State.endErr_boot, ↓State.modLine_boot, ↓State.modTrk_boot]; done)
    | split
    | (simp only [implies_true, forall_const, ↓apply_ite State.boot, apply_ite Prod.fst, ite_self, ↓boot_leaf,
            ↓State.sendForward_boot, ↓State.setWatch_boot, ↓State.sendVector_boot, ↓State.chainOwn_boot,
            ↓State.needData_boot, ↓State.takeEntry_boot, ↓State.setDir_boot, ↓State.forwardRead_boot,
            ↓State.breakWatch_boot, ↓State.modSlice_boot, ↓State.endWith_boot, ↓State.protoError_boot,
            ↓State.endErr_boot, ↓State.modLine_boot, ↓State.modTrk_boot])
    | rfl)

@[simp] theorem State.serve_boot : ∀ (s : State) (p t : Nat) (a : LineAddr), (s.serve p t a).boot = s.boot := by
  intros
  simp only [State.serve, apply_ite State.boot, ite_self, boot_leaf, State.act_boot, State.modTrk_boot,
      State.handleStart_boot, State.modLine_boot]

@[simp] theorem State.doWrite_boot : ∀ (s : State) (p t : Nat) (k : Trk), (s.doWrite p t k).1.boot = s.boot := by
  intros
  unfold State.doWrite
  (repeat' first
    | with_reducible rfl
    | (with_reducible refine (State.storeLine_bootP (by assumption)).trans ?_)
    | (with_reducible refine (foldl_keeps (State.boot) _ (fun _ _ => ?_) _ _).trans ?_)
    | (simp only [implies_true, forall_const, ↓apply_ite State.boot, apply_ite Prod.fst, ite_self, ↓boot_leaf,
            ↓State.modTrk_boot, ↓State.endWith_boot, ↓State.storeLine_boot, ↓State.setDir_boot]; done)
    | split
    | (simp only [implies_true, forall_const, ↓apply_ite State.boot, apply_ite Prod.fst, ite_self, ↓boot_leaf,
            ↓State.modTrk_boot, ↓State.endWith_boot, ↓State.storeLine_boot, ↓State.setDir_boot])
    | rfl)
theorem State.doWrite_bootP : ∀ {s : State} {p t : Nat} {k : Trk} {u : State} {res},
    s.doWrite p t k = (u, res) → u.boot = s.boot := by
  intros
  rename_i h
  have h2 := congrArg (fun r => r.1.boot) h
  simp only [State.doWrite_boot] at h2
  exact h2.symm

@[simp] theorem State.complete_boot : ∀ (s : State) (p t : Nat) (k : Trk), (s.complete p t k).1.boot = s.boot := by
  intros
  unfold State.complete
  (repeat' first
    | with_reducible rfl
    | (with_reducible refine (State.doWrite_bootP (by assumption)).trans ?_)
    | (with_reducible refine (State.farBecomesReady_bootP (by assumption)).trans ?_)
    | (with_reducible refine (foldl_keeps (State.boot) _ (fun _ _ => ?_) _ _).trans ?_)
    | (simp only [implies_true, forall_const, ↓apply_ite State.boot, apply_ite Prod.fst, ite_self, ↓boot_leaf,
            ↓State.farBecomesReady_boot, ↓State.doWrite_boot, ↓State.loadRecent_boot, ↓State.endWith_boot]; done)
    | split
    | (simp only [implies_true, forall_const, ↓apply_ite State.boot, apply_ite Prod.fst, ite_self, ↓boot_leaf,
            ↓State.farBecomesReady_boot, ↓State.doWrite_boot, ↓State.loadRecent_boot, ↓State.endWith_boot])
    | rfl)
theorem State.complete_bootP : ∀ {s : State} {p t : Nat} {k : Trk} {u : State} {res},
    s.complete p t k = (u, res) → u.boot = s.boot := by
  intros
  rename_i h
  have h2 := congrArg (fun r => r.1.boot) h
  simp only [State.complete_boot] at h2
  exact h2.symm

@[simp] theorem State.settleStep_boot : ∀ (s : State) (p : Nat) (a : LineAddr), (s.settleStep p a).boot = s.boot := by
  intros
  unfold State.settleStep
  (repeat' first
    | with_reducible rfl
    | (with_reducible refine (State.complete_bootP (by assumption)).trans ?_)
    | (with_reducible refine (foldl_keeps (State.boot) _ (fun _ _ => ?_) _ _).trans ?_)
    | (simp only [implies_true, forall_const, ↓apply_ite State.boot, apply_ite Prod.fst, ite_self, ↓boot_leaf,
            ↓State.serve_boot, ↓State.joinWait_boot, ↓State.freeLine_boot, ↓State.count_boot, ↓State.complete_boot,
            ↓State.act_boot, ↓State.setDir_boot, ↓State.victimWrite_boot, ↓State.modTrk_boot,
            ↓State.handleStart_boot, ↓State.modLine_boot]; done)
    | split
    | (simp only [implies_true, forall_const, ↓apply_ite State.boot, apply_ite Prod.fst, ite_self, ↓boot_leaf,
            ↓State.serve_boot, ↓State.joinWait_boot, ↓State.freeLine_boot, ↓State.count_boot, ↓State.complete_boot,
            ↓State.act_boot, ↓State.setDir_boot, ↓State.victimWrite_boot, ↓State.modTrk_boot,
            ↓State.handleStart_boot, ↓State.modLine_boot])
    | rfl)

@[simp] theorem State.settle_boot : ∀ (s : State) (p : Nat) (a : LineAddr), (s.settle p a).boot = s.boot := by
  intros
  unfold State.settle
  exact foldl_keeps State.boot _ (fun _ _ => by first | rfl | simp only [boot_leaf, State.settleStep_boot]) _ _

@[simp] theorem State.breakOut_boot : ∀ (s : State) (p t : Nat), (s.breakOut p t).boot = s.boot := by
  intros
  rfl

@[simp] theorem State.decideReq_boot : ∀ (s : State) (p t : Nat) (hit : Option Nat), (s.decideReq p t hit).boot =
    s.boot := by
  intros
  unfold State.decideReq
  (repeat' first
    | with_reducible rfl
    | (with_reducible refine (foldl_keeps (State.boot) _ (fun _ _ => ?_) _ _).trans ?_)
    | (simp only [implies_true, forall_const, ↓apply_ite State.boot, apply_ite Prod.fst, ite_self, ↓boot_leaf,
            ↓State.modTrk_boot, ↓State.chainOwn_boot, ↓State.setWatch_boot, ↓State.forwardRead_boot,
            ↓State.serve_boot, ↓State.settle_boot, ↓State.count_boot, ↓State.modLine_boot, ↓State.joinWait_boot,
            ↓State.enqueue_boot, ↓State.breakOut_boot]; done)
    | split
    | (simp only [implies_true, forall_const, ↓apply_ite State.boot, apply_ite Prod.fst, ite_self, ↓boot_leaf,
            ↓State.modTrk_boot, ↓State.chainOwn_boot, ↓State.setWatch_boot, ↓State.forwardRead_boot,
            ↓State.serve_boot, ↓State.settle_boot, ↓State.count_boot, ↓State.modLine_boot, ↓State.joinWait_boot,
            ↓State.enqueue_boot, ↓State.breakOut_boot])
    | rfl)

@[simp] theorem State.clearBit_boot : ∀ (s : State) (p : Nat) (a : LineAddr) (pos : Option Nat) (w : Nat),
    (s.clearBit p a pos w).boot = s.boot := by
  intros
  unfold State.clearBit
  (repeat' first
    | with_reducible rfl
    | (with_reducible refine (foldl_keeps (State.boot) _ (fun _ _ => ?_) _ _).trans ?_)
    | (simp only [implies_true, forall_const, ↓apply_ite State.boot, apply_ite Prod.fst, ite_self, ↓boot_leaf,
            ↓State.modSlice_boot]; done)
    | split
    | (simp only [implies_true, forall_const, ↓apply_ite State.boot, apply_ite Prod.fst, ite_self, ↓boot_leaf,
            ↓State.modSlice_boot])
    | rfl)

@[simp] theorem State.dropEntry_boot : ∀ (s : State) (p : Nat) (a : LineAddr) (pos : Option Nat) (poison : Bool),
  (s.dropEntry p a pos poison).boot = s.boot := by
  intros
  unfold State.dropEntry
  split <;> first | rfl | simp only [boot_leaf, State.modSlice_boot]

@[simp] theorem State.wbAnswer_boot : ∀ (s : State) (p : Nat) (m : Msg) (opc : Nat), (s.wbAnswer p m opc).boot =
    s.boot := by
  intros
  rfl

@[simp] theorem State.writeback_boot : ∀ (s : State) (p : Nat) (m : Msg) (pos : Option Nat) (held : Bool),
  (s.writeback p m pos held).boot = s.boot := by
  intros
  unfold State.writeback
  (repeat' first
    | with_reducible rfl
    | (with_reducible refine (State.storeLine_bootP (by assumption)).trans ?_)
    | (with_reducible refine (foldl_keeps (State.boot) _ (fun _ _ => ?_) _ _).trans ?_)
    | (simp only [implies_true, forall_const, ↓apply_ite State.boot, apply_ite Prod.fst, ite_self, ↓boot_leaf,
            ↓State.clearBit_boot, ↓State.storeLine_boot, ↓State.dropEntry_boot, ↓State.count_boot,
            ↓State.wbAnswer_boot, ↓State.modSlice_boot, ↓State.modLine_boot]; done)
    | split
    | (simp only [implies_true, forall_const, ↓apply_ite State.boot, apply_ite Prod.fst, ite_self, ↓boot_leaf,
            ↓State.clearBit_boot, ↓State.storeLine_boot, ↓State.dropEntry_boot, ↓State.count_boot,
            ↓State.wbAnswer_boot, ↓State.modSlice_boot, ↓State.modLine_boot])
    | rfl)

@[simp] theorem State.evictClean_boot : ∀ (s : State) (p : Nat) (m : Msg) (pos : Option Nat), (s.evictClean p m
    pos).boot = s.boot := by
  intros
  simp only [State.evictClean, apply_ite State.boot, ite_self, boot_leaf, State.clearBit_boot,
      State.protoError_boot, State.dropEntry_boot, State.wbAnswer_boot]

@[simp] theorem State.redecide_boot : ∀ (s : State) (p : Nat) (a : LineAddr), (s.redecide p a).boot = s.boot := by
  intros
  unfold State.redecide
  exact foldl_keeps State.boot _ (fun _ _ => by first
    | rfl
    | simp only [boot_leaf, State.modLine_boot, State.writeback_boot]) _ _

@[simp] theorem State.answered_boot : ∀ (s : State) (p t w : Nat), (s.answered p t w).boot = s.boot := by
  intros
  rfl

@[simp] theorem State.strayAnswer_boot : ∀ (s : State) (p : Nat) (m : Msg), (s.strayAnswer p m).boot = s.boot := by
  intros
  simp only [State.strayAnswer, boot_leaf, State.protoError_boot]

@[simp] theorem State.invAck_boot : ∀ (s : State) (p : Nat) (m : Msg), (s.invAck p m).boot = s.boot := by
  intros
  simp only [State.invAck, apply_ite State.boot, ite_self, boot_leaf, State.strayAnswer_boot, State.answered_boot,
      State.modLine_boot, State.redecide_boot, State.settle_boot]

@[simp] theorem State.fwdDone_boot : ∀ (s : State) (p : Nat) (m : Msg), (s.fwdDone p m).boot = s.boot := by
  intros
  unfold State.fwdDone
  (repeat' first
    | with_reducible rfl
    | (with_reducible refine (foldl_keeps (State.boot) _ (fun _ _ => ?_) _ _).trans ?_)
    | (simp only [implies_true, forall_const, ↓apply_ite State.boot, apply_ite Prod.fst, ite_self, ↓boot_leaf,
            ↓State.redecide_boot, ↓State.settle_boot, ↓State.modLine_boot, ↓State.answered_boot,
            ↓State.endWith_boot, ↓State.strayAnswer_boot]; done)
    | split
    | (simp only [implies_true, forall_const, ↓apply_ite State.boot, apply_ite Prod.fst, ite_self, ↓boot_leaf,
            ↓State.redecide_boot, ↓State.settle_boot, ↓State.modLine_boot, ↓State.answered_boot,
            ↓State.endWith_boot, ↓State.strayAnswer_boot])
    | rfl)

@[simp] theorem State.copyBack_boot : ∀ (s : State) (p : Nat) (m : Msg), (s.copyBack p m).boot = s.boot := by
  intros
  simp only [State.copyBack, apply_ite State.boot, ite_self, boot_leaf, State.strayAnswer_boot, State.redecide_boot,
      State.settle_boot, State.modLine_boot, State.answered_boot, State.endWith_boot, State.storeLine_boot]

@[simp] theorem State.recallData_boot : ∀ (s : State) (p : Nat) (m : Msg), (s.recallData p m).boot = s.boot := by
  intros
  unfold State.recallData
  (repeat' first
    | with_reducible rfl
    | (with_reducible refine (State.storeLine_bootP (by assumption)).trans ?_)
    | (with_reducible refine (foldl_keeps (State.boot) _ (fun _ _ => ?_) _ _).trans ?_)
    | (simp only [implies_true, forall_const, ↓apply_ite State.boot, apply_ite Prod.fst, ite_self, ↓boot_leaf,
            ↓State.redecide_boot, ↓State.settle_boot, ↓State.farHold_boot, ↓State.modTrk_boot,
            ↓State.storeLine_boot, ↓State.modLine_boot, ↓State.setDir_boot, ↓State.answered_boot,
            ↓State.strayAnswer_boot]; done)
    | split
    | (simp only [implies_true, forall_const, ↓apply_ite State.boot, apply_ite Prod.fst, ite_self, ↓boot_leaf,
            ↓State.redecide_boot, ↓State.settle_boot, ↓State.farHold_boot, ↓State.modTrk_boot,
            ↓State.storeLine_boot, ↓State.modLine_boot, ↓State.setDir_boot, ↓State.answered_boot,
            ↓State.strayAnswer_boot])
    | rfl)

@[simp] theorem State.memError_boot : ∀ (s : State) (p : Nat) (m : Msg), (s.memError p m).boot = s.boot := by
  intros
  unfold State.memError
  split <;> first | rfl | simp only [boot_leaf, State.sliceErr_boot]

@[simp] theorem State.deliver_boot : ∀ (s : State) (p : Nat) (a : LineAddr) (data : LineData) (poison : BitVec 8) (w
    : Waiter),
  (s.deliver p a data poison w).boot = s.boot := by
  intros
  unfold State.deliver
  (repeat' split) <;> first | rfl | simp only [boot_leaf, State.maintTry_boot, State.modTrk_boot, State.farHold_boot]

@[simp] theorem State.writeOver_boot : ∀ (s : State) (p : Nat) (w : MemWrite), (s.writeOver p w).boot = s.boot := by
  intros
  unfold State.writeOver
  (repeat' first
    | with_reducible rfl
    | (with_reducible refine (foldl_keeps (State.boot) _ (fun _ _ => ?_) _ _).trans ?_)
    | (simp only [implies_true, forall_const, ↓apply_ite State.boot, apply_ite Prod.fst, ite_self, ↓boot_leaf,
            ↓State.maintFinish_boot, ↓State.endWith_boot, ↓State.modLine_boot, ↓State.victimWritten_boot,
            ↓State.settle_boot]; done)
    | split
    | (simp only [implies_true, forall_const, ↓apply_ite State.boot, apply_ite Prod.fst, ite_self, ↓boot_leaf,
            ↓State.maintFinish_boot, ↓State.endWith_boot, ↓State.modLine_boot, ↓State.victimWritten_boot,
            ↓State.settle_boot])
    | rfl)

@[simp] theorem State.memAck_boot : ∀ (s : State) (p : Nat) (m : Msg), (s.memAck p m).boot = s.boot := by
  intros
  unfold State.memAck
  (repeat' first
    | with_reducible rfl
    | (with_reducible refine (foldl_keeps (State.boot) _ (fun _ _ => ?_) _ _).trans ?_)
    | (simp only [implies_true, forall_const, ↓apply_ite State.boot, apply_ite Prod.fst, ite_self, ↓boot_leaf,
            ↓State.modHlc_boot, ↓State.writeOver_boot, ↓State.strayAnswer_boot, ↓State.memError_boot]; done)
    | split
    | (simp only [implies_true, forall_const, ↓apply_ite State.boot, apply_ite Prod.fst, ite_self, ↓boot_leaf,
            ↓State.modHlc_boot, ↓State.writeOver_boot, ↓State.strayAnswer_boot, ↓State.memError_boot])
    | rfl)

@[simp] theorem State.writeSend_boot : ∀ (s : State) (p : Nat) (a : LineAddr), (s.writeSend p a).boot = s.boot := by
  intros
  unfold State.writeSend
  (repeat' first
    | with_reducible rfl
    | (with_reducible refine (foldl_keeps (State.boot) _ (fun _ _ => ?_) _ _).trans ?_)
    | (simp only [implies_true, forall_const, ↓apply_ite State.boot, apply_ite Prod.fst, ite_self, ↓boot_leaf,
            ↓State.emit_boot, ↓State.sliceErr_boot, ↓State.modHlc_boot, ↓State.writeOver_boot]; done)
    | split
    | (simp only [implies_true, forall_const, ↓apply_ite State.boot, apply_ite Prod.fst, ite_self, ↓boot_leaf,
            ↓State.emit_boot, ↓State.sliceErr_boot, ↓State.modHlc_boot, ↓State.writeOver_boot])
    | rfl)

@[simp] theorem State.missTry_boot : ∀ (s : State) (p t : Nat) (k : Trk), (s.missTry p t k).1.boot = s.boot := by
  intros
  unfold State.missTry
  (repeat' first
    | with_reducible rfl
    | (with_reducible refine (State.hRead_bootP (by assumption)).trans ?_)
    | (with_reducible refine (State.missJoin_bootP (by assumption)).trans ?_)
    | (with_reducible refine (foldl_keeps (State.boot) _ (fun _ _ => ?_) _ _).trans ?_)
    | (simp only [implies_true, forall_const, ↓apply_ite State.boot, apply_ite Prod.fst, ite_self, ↓boot_leaf,
            ↓State.missJoin_boot, ↓State.farHold_boot, ↓State.settle_boot, ↓State.modTrk_boot, ↓State.hRead_boot];
            done)
    | split
    | (simp only [implies_true, forall_const, ↓apply_ite State.boot, apply_ite Prod.fst, ite_self, ↓boot_leaf,
            ↓State.missJoin_boot, ↓State.farHold_boot, ↓State.settle_boot, ↓State.modTrk_boot, ↓State.hRead_boot])
    | rfl)
theorem State.missTry_bootP : ∀ {s : State} {p t : Nat} {k : Trk} {u : State} {res},
    s.missTry p t k = (u, res) → u.boot = s.boot := by
  intros
  rename_i h
  have h2 := congrArg (fun r => r.1.boot) h
  simp only [State.missTry_boot] at h2
  exact h2.symm

@[simp] theorem State.farRead_boot : ∀ (s : State) (p t : Nat) (a : LineAddr), (s.farRead p t a).boot = s.boot := by
  intros
  unfold State.farRead
  (repeat' first
    | with_reducible rfl
    | (with_reducible refine (State.hRead_bootP (by assumption)).trans ?_)
    | (with_reducible refine (State.missJoin_bootP (by assumption)).trans ?_)
    | (with_reducible refine (foldl_keeps (State.boot) _ (fun _ _ => ?_) _ _).trans ?_)
    | (simp only [implies_true, forall_const, ↓apply_ite State.boot, apply_ite Prod.fst, ite_self, ↓boot_leaf,
            ↓State.modTrk_boot, ↓State.missJoin_boot, ↓State.farHold_boot, ↓State.hRead_boot]; done)
    | split
    | (simp only [implies_true, forall_const, ↓apply_ite State.boot, apply_ite Prod.fst, ite_self, ↓boot_leaf,
            ↓State.modTrk_boot, ↓State.missJoin_boot, ↓State.farHold_boot, ↓State.hRead_boot])
    | rfl)

@[simp] theorem State.farOperand_boot : ∀ (s : State) (p t q : Nat) (m : Msg), (s.farOperand p t q m).1.boot =
    s.boot := by
  intros
  unfold State.farOperand
  (repeat' first
    | with_reducible rfl
    | (with_reducible refine (foldl_keeps (State.boot) _ (fun _ _ => ?_) _ _).trans ?_)
    | (simp only [implies_true, forall_const, ↓apply_ite State.boot, apply_ite Prod.fst, ite_self, ↓boot_leaf,
            ↓State.modTrk_boot, ↓State.farRead_boot, ↓State.modSlice_boot, ↓State.farDecline_boot,
            ↓State.modLine_boot, ↓State.settle_boot, ↓State.hDataCheck_boot]; done)
    | split
    | (simp only [implies_true, forall_const, ↓apply_ite State.boot, apply_ite Prod.fst, ite_self, ↓boot_leaf,
            ↓State.modTrk_boot, ↓State.farRead_boot, ↓State.modSlice_boot, ↓State.farDecline_boot,
            ↓State.modLine_boot, ↓State.settle_boot, ↓State.hDataCheck_boot])
    | rfl)
theorem State.farOperand_bootP : ∀ {s : State} {p t q : Nat} {m : Msg} {u : State} {res},
    s.farOperand p t q m = (u, res) → u.boot = s.boot := by
  intros
  rename_i h
  have h2 := congrArg (fun r => r.1.boot) h
  simp only [State.farOperand_boot] at h2
  exact h2.symm

@[simp] theorem State.farStart_boot : ∀ (s : State) (p t : Nat), (s.farStart p t).boot = s.boot := by
  intros
  unfold State.farStart
  (repeat' first
    | with_reducible rfl
    | (with_reducible refine (State.farReserve_bootP (by assumption)).trans ?_)
    | (with_reducible refine (foldl_keeps (State.boot) _ (fun _ _ => ?_) _ _).trans ?_)
    | (simp only [implies_true, forall_const, ↓apply_ite State.boot, apply_ite Prod.fst, ite_self, ↓boot_leaf,
            ↓State.setDir_boot, ↓State.sendVector_boot, ↓State.farRead_boot, ↓State.sendForward_boot,
            ↓State.farReserve_boot, ↓State.farDecline_boot, ↓State.modLine_boot, ↓State.modTrk_boot,
            ↓State.handleStart_boot, ↓State.settle_boot]; done)
    | split
    | (simp only [implies_true, forall_const, ↓apply_ite State.boot, apply_ite Prod.fst, ite_self, ↓boot_leaf,
            ↓State.setDir_boot, ↓State.sendVector_boot, ↓State.farRead_boot, ↓State.sendForward_boot,
            ↓State.farReserve_boot, ↓State.farDecline_boot, ↓State.modLine_boot, ↓State.modTrk_boot,
            ↓State.handleStart_boot, ↓State.settle_boot])
    | rfl)

@[simp] theorem State.farWrite_boot : ∀ (s : State) (p q : Nat) (a : LineAddr) (data : LineData), (s.farWrite p q a
    data).boot = s.boot := by
  intros
  rfl

@[simp] theorem State.farFinish_boot : ∀ (s : State) (p t : Nat) (stat : BitVec 4) (aux : BitVec 8) (payload :
    LineData),
  (s.farFinish p t stat aux payload).boot = s.boot := by
  intros
  unfold State.farFinish
  (repeat' first
    | with_reducible rfl
    | (with_reducible refine (foldl_keeps (State.boot) _ (fun _ _ => ?_) _ _).trans ?_)
    | (simp only [implies_true, forall_const, ↓apply_ite State.boot, apply_ite Prod.fst, ite_self, ↓boot_leaf,
            ↓State.maintRetry_boot, ↓State.settle_boot, ↓State.modLine_boot, ↓State.farLeave_boot,
            ↓State.endWith_boot]; done)
    | split
    | (simp only [implies_true, forall_const, ↓apply_ite State.boot, apply_ite Prod.fst, ite_self, ↓boot_leaf,
            ↓State.maintRetry_boot, ↓State.settle_boot, ↓State.modLine_boot, ↓State.farLeave_boot,
            ↓State.endWith_boot])
    | rfl)

@[simp] theorem State.aluExecute_boot : ∀ (s : State) (p : Nat), (s.aluExecute p).boot = s.boot := by
  intros
  unfold State.aluExecute
  (repeat' first
    | with_reducible rfl
    | (with_reducible refine (State.farOperand_bootP (by assumption)).trans ?_)
    | (with_reducible refine (foldl_keeps (State.boot) _ (fun _ _ => ?_) _ _).trans ?_)
    | (simp only [implies_true, forall_const, ↓apply_ite State.boot, apply_ite Prod.fst, ite_self, ↓boot_leaf,
            ↓State.farWrite_boot, ↓State.farFinish_boot, ↓State.count_boot, ↓State.breakWatch_boot,
            ↓State.farOperand_boot, ↓State.farLeave_boot]; done)
    | split
    | (simp only [implies_true, forall_const, ↓apply_ite State.boot, apply_ite Prod.fst, ite_self, ↓boot_leaf,
            ↓State.farWrite_boot, ↓State.farFinish_boot, ↓State.count_boot, ↓State.breakWatch_boot,
            ↓State.farOperand_boot, ↓State.farLeave_boot])
    | rfl)

@[simp] theorem State.takeMsg_boot : ∀ (s : State) (p : Nat) (m : Msg), (s.takeMsg p m).boot = s.boot := by
  intros
  rfl

@[simp] theorem State.taking_boot : ∀ (s : State) (p : Nat) (m : Msg) (go : State → State),
  (∀ (a : State), (go a).boot = a.boot) → (s.taking p m go).boot = s.boot := by
  intros
  unfold State.taking
  split <;> first | rfl | simp only [*, boot_leaf, State.takeMsg_boot]

@[simp] theorem State.noteTaken_boot : ∀ (s : State) (p : Nat) (m : Msg), (s.noteTaken p m).boot = s.boot := by
  intros
  unfold State.noteTaken
  split <;> first | rfl | simp only [boot_leaf, State.modSlice_boot]

@[simp] theorem State.beyondAllowance_boot : ∀ (s : State) (p : Nat) (m : Msg), (s.beyondAllowance p m).boot =
    s.boot := by
  intros
  rfl

@[simp] theorem State.farAdmit_boot : ∀ (s : State) (p t : Nat) (m : Msg) (hit : Option Nat), (s.farAdmit p t m
    hit).boot = s.boot := by
  intros
  unfold State.farAdmit
  (repeat' first
    | with_reducible rfl
    | (with_reducible refine (foldl_keeps (State.boot) _ (fun _ _ => ?_) _ _).trans ?_)
    | (simp only [implies_true, forall_const, ↓apply_ite State.boot, apply_ite Prod.fst, ite_self, ↓boot_leaf,
            ↓State.modSlice_boot, ↓State.decideReq_boot, ↓State.farDecline_boot]; done)
    | split
    | (simp only [implies_true, forall_const, ↓apply_ite State.boot, apply_ite Prod.fst, ite_self, ↓boot_leaf,
            ↓State.modSlice_boot, ↓State.decideReq_boot, ↓State.farDecline_boot])
    | rfl)

@[simp] theorem State.predict_boot : ∀ (s : State) (p : Nat) (m : Msg), (s.predict p m).boot = s.boot := by
  intros
  rfl

@[simp] theorem State.wbTake_boot : ∀ (s : State) (p : Nat) (m : Msg) (go : State → Option Nat → State),
  (∀ (a : State) (a_1 : Option Nat), (go a a_1).boot = a.boot) → (s.wbTake p m go).boot = s.boot := by
  intros
  unfold State.wbTake
  (repeat' first
    | with_reducible rfl
    | (with_reducible refine (State.lookup_bootP (by assumption)).trans ?_)
    | (with_reducible refine (foldl_keeps (State.boot) _ (fun _ _ => ?_) _ _).trans ?_)
    | (simp only [*, implies_true, forall_const, ↓apply_ite State.boot, apply_ite Prod.fst, ite_self, ↓boot_leaf,
            ↓State.noteTaken_boot, ↓State.lookup_boot, ↓State.homeMismatch_boot, ↓State.taking_boot]; done)
    | split
    | (simp only [*, implies_true, forall_const, ↓apply_ite State.boot, apply_ite Prod.fst, ite_self, ↓boot_leaf,
            ↓State.noteTaken_boot, ↓State.lookup_boot, ↓State.homeMismatch_boot, ↓State.taking_boot])
    | rfl)

@[simp] theorem State.answerTake_boot : ∀ (s : State) (p : Nat) (m : Msg) (go : State → State),
  (∀ (a : State), (go a).boot = a.boot) → (s.answerTake p m go).boot = s.boot := by
  intros
  unfold State.answerTake
  (repeat' first
    | with_reducible rfl
    | (with_reducible refine (foldl_keeps (State.boot) _ (fun _ _ => ?_) _ _).trans ?_)
    | (simp only [*, implies_true, forall_const, ↓apply_ite State.boot, apply_ite Prod.fst, ite_self, ↓boot_leaf,
            ↓State.homeMismatch_boot, ↓State.taking_boot]; done)
    | split
    | (simp only [*, implies_true, forall_const, ↓apply_ite State.boot, apply_ite Prod.fst, ite_self, ↓boot_leaf,
            ↓State.homeMismatch_boot, ↓State.taking_boot])
    | rfl)

@[simp] theorem State.hlcMaint_boot : ∀ (s : State) (p : Nat) (m : Msg), (s.hlcMaint p m).boot = s.boot := by
  intros
  unfold State.hlcMaint
  (repeat' first
    | with_reducible rfl
    | (with_reducible refine (State.lookup_bootP (by assumption)).trans ?_)
    | (with_reducible refine (foldl_keeps (State.boot) _ (fun _ _ => ?_) _ _).trans ?_)
    | (simp only [implies_true, forall_const, ↓apply_ite State.boot, apply_ite Prod.fst, ite_self, ↓boot_leaf,
            ↓State.breakWatch_boot, ↓State.maintTry_boot, ↓State.modHlc_boot, ↓State.lookup_boot, ↓State.emit_boot,
            ↓State.noteTaken_boot, ↓State.homeMismatch_boot, ↓State.taking_boot]; done)
    | split
    | (simp only [implies_true, forall_const, ↓apply_ite State.boot, apply_ite Prod.fst, ite_self, ↓boot_leaf,
            ↓State.breakWatch_boot, ↓State.maintTry_boot, ↓State.modHlc_boot, ↓State.lookup_boot, ↓State.emit_boot,
            ↓State.noteTaken_boot, ↓State.homeMismatch_boot, ↓State.taking_boot])
    | rfl)

@[simp] theorem State.farPredClr_boot : ∀ (s : State) (p : Nat), (s.farPredClr p).boot = s.boot := by
  intros
  rfl

@[simp] theorem State.hlcDisable_boot : ∀ (s : State) (p : Nat), (s.hlcDisable p).boot = s.boot := by
  intros
  unfold State.hlcDisable
  split <;> first | rfl | simp only [boot_leaf, State.modHlc_boot]

@[simp] theorem State.hlcEnable_boot : ∀ (s : State) (p : Nat), (s.hlcEnable p).boot = s.boot := by
  intros
  simp only [State.hlcEnable, apply_ite State.boot, ite_self, boot_leaf, State.modHlc_boot]

@[simp] theorem State.maintEndAll_boot : ∀ (s : State) (p : Nat), (s.maintEndAll p).boot = s.boot := by
  intros
  simp only [State.maintEndAll, boot_leaf, State.modHlc_boot, State.maintFinish_boot]

@[simp] theorem State.hlcInit_boot : ∀ (s : State) (p : Nat), (s.hlcInit p).boot = s.boot := by
  intros
  simp only [State.hlcInit, apply_ite State.boot, ite_self, boot_leaf, State.modHlc_boot]

@[simp] theorem State.hlcWayDisable_boot : ∀ (s : State) (p w : Nat), (s.hlcWayDisable p w).boot = s.boot := by
  intros
  simp only [State.hlcWayDisable, apply_ite State.boot, ite_self, boot_leaf, State.flushWay_boot, State.modHlc_boot]

@[simp] theorem State.hlcWayEnable_boot : ∀ (s : State) (p w : Nat), (s.hlcWayEnable p w).boot = s.boot := by
  intros
  simp only [State.hlcWayEnable, apply_ite State.boot, ite_self, boot_leaf, State.modHlc_boot]

@[simp] theorem State.sflInit_boot : ∀ (s : State) (p : Nat), (s.sflInit p).boot = s.boot := by
  intros
  rfl

@[simp] theorem State.sflPassStart_boot : ∀ (s : State) (p : Nat), (s.sflPassStart p).boot = s.boot := by
  intros
  rfl

@[simp] theorem State.modStop_boot : ∀ (s : State) (st : Stop) (f : StopSt → StopSt), (s.modStop st f).boot = s.boot
    := by
  intros
  unfold State.modStop
  split <;> first | rfl | simp only [boot_leaf, State.modPort_boot, State.modSlice_boot]

@[simp] theorem State.inject_boot : ∀ (s : State) (st : Stop) (c : Nat), (s.inject st c).boot = s.boot := by
  intros
  unfold State.inject
  (repeat' first
    | with_reducible rfl
    | (with_reducible refine (foldl_keeps (State.boot) _ (fun _ _ => ?_) _ _).trans ?_)
    | (simp only [implies_true, forall_const, ↓apply_ite State.boot, apply_ite Prod.fst, ite_self, ↓boot_leaf,
            ↓State.modRing_boot, ↓State.modStop_boot, ↓State.ringEvent_boot]; done)
    | split
    | (simp only [implies_true, forall_const, ↓apply_ite State.boot, apply_ite Prod.fst, ite_self, ↓boot_leaf,
            ↓State.modRing_boot, ↓State.modStop_boot, ↓State.ringEvent_boot])
    | rfl)

@[simp] theorem State.ringSent_boot : ∀ (s : State) (r k : Nat) (d : Dir) (seq : BitVec 12) (f : Flit),
  (s.ringSent r k d seq f).boot = s.boot := by
  intros
  rfl

@[simp] theorem State.ringAsks_boot : ∀ (s : State) (r : Nat), (s.ringAsks r).boot = s.boot := by
  intros
  rfl

@[simp] theorem State.ringTakes_boot : ∀ (s : State) (r k : Nat) (d : Dir) (good : Bool) (seq : BitVec 12) (f :
    Option Flit),
  (s.ringTakes r k d good seq f).boot = s.boot := by
  intros
  unfold State.ringTakes
  (repeat' first
    | with_reducible rfl
    | (with_reducible refine (foldl_keeps (State.boot) _ (fun _ _ => ?_) _ _).trans ?_)
    | (simp only [implies_true, forall_const, ↓apply_ite State.boot, apply_ite Prod.fst, ite_self, ↓boot_leaf,
            ↓State.ringAsks_boot, ↓State.modRing_boot, ↓State.ringEvent_boot]; done)
    | split
    | (simp only [implies_true, forall_const, ↓apply_ite State.boot, apply_ite Prod.fst, ite_self, ↓boot_leaf,
            ↓State.ringAsks_boot, ↓State.modRing_boot, ↓State.ringEvent_boot])
    | rfl)

@[simp] theorem State.ringReceive_boot : ∀ (s : State) (r k : Nat) (d : Dir) (raw : BitVec 768), (s.ringReceive r k
    d raw).boot = s.boot := by
  intros
  unfold State.ringReceive
  (repeat' first
    | with_reducible rfl
    | (with_reducible refine (foldl_keeps (State.boot) _ (fun _ _ => ?_) _ _).trans ?_)
    | (simp only [implies_true, forall_const, ↓apply_ite State.boot, apply_ite Prod.fst, ite_self, ↓boot_leaf,
            ↓State.ringSent_boot, ↓State.ringTakes_boot]; done)
    | split
    | (simp only [implies_true, forall_const, ↓apply_ite State.boot, apply_ite Prod.fst, ite_self, ↓boot_leaf,
            ↓State.ringSent_boot, ↓State.ringTakes_boot])
    | rfl)

@[simp] theorem State.modCopy_boot : ∀ (s : State) (c : Nat) (f : Copy → Copy), (s.modCopy c f).boot = s.boot := by
  intros
  simp only [State.modCopy, apply_ite State.boot, ite_self, boot_leaf, State.modPort_boot]

@[simp] theorem State.sendHome_boot : ∀ (s : State) (n : Nat) (m : Msg), (s.sendHome n m).boot = s.boot := by
  intros
  simp only [State.sendHome, apply_ite State.boot, ite_self, boot_leaf, State.modStop_boot, State.modCopy_boot]

@[simp] theorem State.sendNode_boot : ∀ (s : State) (n : Nat) (m : Msg), (s.sendNode n m).boot = s.boot := by
  intros
  rfl

@[simp] theorem State.sourceError_boot : ∀ (s : State) (n : Nat) (m : Msg), (s.sourceError n m).boot = s.boot := by
  intros
  unfold State.sourceError
  split <;> first
    | rfl
    | simp only [boot_leaf, State.portEvent_boot, State.record_boot, State.firePort_boot, State.modPort_boot]

@[simp] theorem State.holdBack_boot : ∀ (s : State) (n : Nat) (m : Msg), (s.holdBack n m).boot = s.boot := by
  intros
  unfold State.holdBack
  split <;> first | rfl | simp only [boot_leaf, State.portEvent_boot, State.modPort_boot]

@[simp] theorem State.leaveSlot_boot : ∀ (s : State) (n : Nat) (m : Msg), (s.leaveSlot n m).boot = s.boot := by
  intros
  rfl

@[simp] theorem State.ncServeOne_boot : ∀ (s : State) (n l : Nat), (s.ncServeOne n l).boot = s.boot := by
  intros
  unfold State.ncServeOne
  (repeat' split) <;> first
    | rfl
    | simp only [boot_leaf, State.modPort_boot, State.leaveSlot_boot, State.sendHome_boot]

@[simp] theorem State.ncAsk_boot : ∀ (s : State) (n l : Nat), (s.ncAsk n l).boot = s.boot := by
  intros
  unfold State.ncAsk
  (repeat' first
    | with_reducible rfl
    | (with_reducible refine (foldl_keeps (State.boot) _ (fun _ _ => ?_) _ _).trans ?_)
    | (simp only [implies_true, forall_const, ↓apply_ite State.boot, apply_ite Prod.fst, ite_self, ↓boot_leaf,
            ↓State.sendHome_boot, ↓State.modPort_boot]; done)
    | split
    | (simp only [implies_true, forall_const, ↓apply_ite State.boot, apply_ite Prod.fst, ite_self, ↓boot_leaf,
            ↓State.sendHome_boot, ↓State.modPort_boot])
    | rfl)

@[simp] theorem State.ncServe_boot : ∀ (s : State) (n l : Nat), (s.ncServe n l).boot = s.boot := by
  intros
  unfold State.ncServe
  (repeat' first
    | with_reducible rfl
    | (with_reducible refine (foldl_keeps (State.boot) _ (fun _ _ => ?_) _ _).trans ?_)
    | (simp only [implies_true, forall_const, ↓apply_ite State.boot, apply_ite Prod.fst, ite_self, ↓boot_leaf,
            ↓State.ncServeOne_boot, ↓State.ncAsk_boot]; done)
    | split
    | (simp only [implies_true, forall_const, ↓apply_ite State.boot, apply_ite Prod.fst, ite_self, ↓boot_leaf,
            ↓State.ncServeOne_boot, ↓State.ncAsk_boot])
    | rfl)

@[simp] theorem State.maintServeOne_boot : ∀ (s : State) (n : Nat), (s.maintServeOne n).boot = s.boot := by
  intros
  unfold State.maintServeOne
  split <;> first | rfl | simp only [boot_leaf, State.modPort_boot, State.sendHome_boot]

@[simp] theorem State.maintServe_boot : ∀ (s : State) (n : Nat), (s.maintServe n).boot = s.boot := by
  intros
  unfold State.maintServe
  exact foldl_keeps State.boot _ (fun _ _ => by first | rfl | simp only [boot_leaf, State.maintServeOne_boot]) _ _

@[simp] theorem State.passOn_boot : ∀ (s : State) (n : Nat) (m : Msg), (s.passOn n m).boot = s.boot := by
  intros
  simp only [State.passOn, apply_ite State.boot, ite_self, boot_leaf, State.sendNode_boot, State.sendHome_boot,
      State.leaveSlot_boot, State.maintServe_boot, State.modPort_boot, State.ncServe_boot]

@[simp] theorem State.ncServeAll_boot : ∀ (s : State) (n : Nat), (s.ncServeAll n).boot = s.boot := by
  intros
  unfold State.ncServeAll
  exact foldl_keeps State.boot _ (fun _ _ => by first | rfl | simp only [boot_leaf, State.ncServe_boot]) _ _

@[simp] theorem State.releaseHeld_boot : ∀ (s : State) (n : Nat), (s.releaseHeld n).boot = s.boot := by
  intros
  unfold State.releaseHeld
  (repeat' first
    | with_reducible rfl
    | (with_reducible refine (foldl_keeps (State.boot) _ (fun _ _ => ?_) _ _).trans ?_)
    | (simp only [implies_true, forall_const, ↓apply_ite State.boot, apply_ite Prod.fst, ite_self, ↓boot_leaf,
            ↓State.maintServe_boot, ↓State.modPort_boot, ↓State.passOn_boot, ↓State.ncServeAll_boot]; done)
    | split
    | (simp only [implies_true, forall_const, ↓apply_ite State.boot, apply_ite Prod.fst, ite_self, ↓boot_leaf,
            ↓State.maintServe_boot, ↓State.modPort_boot, ↓State.passOn_boot, ↓State.ncServeAll_boot])
    | rfl)

@[simp] theorem State.egressOne_boot : ∀ (s : State) (n key : Nat), (s.egressOne n key).boot = s.boot := by
  intros
  unfold State.egressOne
  (repeat' first
    | with_reducible rfl
    | (with_reducible refine (foldl_keeps (State.boot) _ (fun _ _ => ?_) _ _).trans ?_)
    | (simp only [implies_true, forall_const, ↓apply_ite State.boot, apply_ite Prod.fst, ite_self, ↓boot_leaf,
            ↓State.portEvent_boot, ↓State.modPort_boot]; done)
    | split
    | (simp only [implies_true, forall_const, ↓apply_ite State.boot, apply_ite Prod.fst, ite_self, ↓boot_leaf,
            ↓State.portEvent_boot, ↓State.modPort_boot])
    | rfl)

@[simp] theorem State.egress_boot : ∀ (s : State) (n : Nat), (s.egress n).boot = s.boot := by
  intros
  unfold State.egress
  (repeat' first
    | with_reducible rfl
    | (with_reducible refine (foldl_keeps (State.boot) _ (fun _ _ => ?_) _ _).trans ?_)
    | (simp only [implies_true, forall_const, ↓apply_ite State.boot, apply_ite Prod.fst, ite_self, ↓boot_leaf,
            ↓State.modPort_boot, ↓State.egressOne_boot]; done)
    | split
    | (simp only [implies_true, forall_const, ↓apply_ite State.boot, apply_ite Prod.fst, ite_self, ↓boot_leaf,
            ↓State.modPort_boot, ↓State.egressOne_boot])
    | rfl)

@[simp] theorem State.portGets_boot : ∀ (s : State) (n : Nat) (e : Ejected), (s.portGets n e).boot = s.boot := by
  intros
  simp only [State.portGets, apply_ite State.boot, ite_self, boot_leaf, State.portEvent_boot, State.maintServe_boot,
      State.modPort_boot, State.ncServe_boot]

@[simp] theorem State.ejectAt_boot : ∀ (s : State) (r pos : Nat) (dec : Bool) (c : Nat), (s.ejectAt r pos dec
    c).boot = s.boot := by
  intros
  unfold State.ejectAt
  (repeat' first
    | with_reducible rfl
    | (with_reducible refine (foldl_keeps (State.boot) _ (fun _ _ => ?_) _ _).trans ?_)
    | (simp only [implies_true, forall_const, ↓apply_ite State.boot, apply_ite Prod.fst, ite_self, ↓boot_leaf,
            ↓State.portGets_boot, ↓State.egress_boot, ↓State.ringEvent_boot, ↓State.modRing_boot,
            ↓State.modStop_boot]; done)
    | split
    | (simp only [implies_true, forall_const, ↓apply_ite State.boot, apply_ite Prod.fst, ite_self, ↓boot_leaf,
            ↓State.portGets_boot, ↓State.egress_boot, ↓State.ringEvent_boot, ↓State.modRing_boot,
            ↓State.modStop_boot])
    | rfl)

@[simp] theorem State.modRpq_boot : ∀ (s : State) (q : Nat) (f : Rpq → Rpq), (s.modRpq q f).boot = s.boot := by
  intros
  rfl

@[simp] theorem State.rpqLevel_boot : ∀ (s : State) (q before : Nat), (s.rpqLevel q before).boot = s.boot := by
  intros
  simp only [State.rpqLevel, apply_ite State.boot, ite_self, boot_leaf, State.fire_boot]

@[simp] theorem State.rpqPush_boot : ∀ (s : State) (q : Nat) (val : BitVec 32) (n : Fin 5), (s.rpqPush q val n).boot
    = s.boot := by
  intros
  simp only [State.rpqPush, apply_ite State.boot, ite_self, boot_leaf, State.rpqLevel_boot, State.modRpq_boot,
      State.glbEvent_boot]

@[simp] theorem State.rpqPop_boot : ∀ (s : State) (q : Nat), (s.rpqPop q).1.boot = s.boot := by
  intros
  rfl
theorem State.rpqPop_bootP : ∀ {s : State} {q : Nat} {u : State} {res},
    s.rpqPop q = (u, res) → u.boot = s.boot := by
  intros
  rename_i h
  have h2 := congrArg (fun r => r.1.boot) h
  simp only [State.rpqPop_boot] at h2
  exact h2.symm

@[simp] theorem State.rpqFlush_boot : ∀ (s : State) (q : Nat), (s.rpqFlush q).boot = s.boot := by
  intros
  rfl

@[simp] theorem State.modSrc_boot : ∀ (s : State) (n : Nat) (f : Src → Src), (s.modSrc n f).boot = s.boot := by
  intros
  rfl

@[simp] theorem State.endActive_boot : ∀ (s : State) (n : Nat), (s.endActive n).boot = s.boot := by
  intros
  rfl

@[simp] theorem State.engErr_boot : ∀ (s : State) (e cls code : Nat) (detail : BitVec 64), (s.engErr e cls code
    detail).boot = s.boot := by
  intros
  simp only [State.engErr, boot_leaf, State.record_boot]

@[simp] theorem State.diverge_boot : ∀ (s : State), s.diverge.boot = s.boot := by
  intros
  simp only [State.diverge, boot_leaf, State.record_boot]

@[simp] theorem State.tandemLeaves_boot : ∀ (s : State) (a : TandemOut), (s.tandemLeaves a).boot = s.boot := by
  intros
  unfold State.tandemLeaves
  split <;> first | rfl | simp only [boot_leaf, State.rpqPush_boot, State.modPort_boot]

@[simp] theorem State.tandemOut_boot : ∀ (s : State) (e : Nat) (o : TandemOut), (s.tandemOut e o).boot = s.boot := by
  intros
  unfold State.tandemOut
  (repeat' first
    | with_reducible rfl
    | (with_reducible refine (foldl_keeps (State.boot) _ (fun _ _ => ?_) _ _).trans ?_)
    | (simp only [implies_true, forall_const, ↓apply_ite State.boot, apply_ite Prod.fst, ite_self, ↓boot_leaf,
            ↓State.diverge_boot, ↓State.tandemLeaves_boot, ↓State.modStw_boot]; done)
    | split
    | (simp only [implies_true, forall_const, ↓apply_ite State.boot, apply_ite Prod.fst, ite_self, ↓boot_leaf,
            ↓State.diverge_boot, ↓State.tandemLeaves_boot, ↓State.modStw_boot])
    | rfl)

@[simp] theorem State.engSend_boot : ∀ (s : State) (e : Nat) (m : Msg) (since : optParam Nat s.time), (s.engSend e m
    since).boot = s.boot := by
  intros
  simp only [State.engSend, apply_ite State.boot, ite_self, boot_leaf, State.modSlice_boot, State.tandemOut_boot]

@[simp] theorem State.engReq_boot : ∀ (s : State) (e opc : Nat) (addr : Word) (kind : OutKind) (since : Nat) (f :
    Msg → Msg)
  (ent : optParam Nat 0), (s.engReq e opc addr kind since f ent).boot = s.boot := by
  intros
  simp only [State.engReq, boot_leaf, State.modEng_boot, State.engSend_boot]

@[simp] theorem State.sbSendOne_boot : ∀ (s : State) (e : Nat), (s.sbSendOne e).boot = s.boot := by
  intros
  unfold State.sbSendOne
  (repeat' split) <;> first | rfl | simp only [boot_leaf, State.engReq_boot, State.modEng_boot]

@[simp] theorem State.pump_boot : ∀ (s : State) (e : Nat), (s.pump e).boot = s.boot := by
  intros
  unfold State.pump
  (repeat' first
    | with_reducible rfl
    | (with_reducible refine (foldl_keeps (State.boot) _ (fun _ _ => ?_) _ _).trans ?_)
    | (simp only [implies_true, forall_const, ↓apply_ite State.boot, apply_ite Prod.fst, ite_self, ↓boot_leaf,
            ↓State.sbSendOne_boot, ↓State.modEng_boot, ↓State.engReq_boot]; done)
    | split
    | (simp only [implies_true, forall_const, ↓apply_ite State.boot, apply_ite Prod.fst, ite_self, ↓boot_leaf,
            ↓State.sbSendOne_boot, ↓State.modEng_boot, ↓State.engReq_boot])
    | rfl)

@[simp] theorem State.leaveActive_boot : ∀ (s : State) (e n : Nat), (s.leaveActive e n).boot = s.boot := by
  intros
  unfold State.leaveActive
  split <;> first | rfl | simp only [boot_leaf, State.endActive_boot]

@[simp] theorem State.pushSlot_boot : ∀ (s : State) (e : Nat) (v : Option Nat), (s.pushSlot e v).boot = s.boot := by
  intros
  unfold State.pushSlot
  (repeat' first
    | with_reducible rfl
    | (with_reducible refine (foldl_keeps (State.boot) _ (fun _ _ => ?_) _ _).trans ?_)
    | (simp only [implies_true, forall_const, ↓apply_ite State.boot, apply_ite Prod.fst, ite_self, ↓boot_leaf,
            ↓State.leaveActive_boot, ↓State.modEng_boot]; done)
    | split
    | (simp only [implies_true, forall_const, ↓apply_ite State.boot, apply_ite Prod.fst, ite_self, ↓boot_leaf,
            ↓State.leaveActive_boot, ↓State.modEng_boot])
    | rfl)

@[simp] theorem State.emptyRecord_boot : ∀ (s : State) (e : Nat), (s.emptyRecord e).boot = s.boot := by
  intros
  unfold State.emptyRecord
  (repeat' first
    | with_reducible rfl
    | (with_reducible refine (foldl_keeps (State.boot) _ (fun _ _ => ?_) _ _).trans ?_)
    | (simp only [implies_true, forall_const, ↓apply_ite State.boot, apply_ite Prod.fst, ite_self, ↓boot_leaf,
            ↓State.modEng_boot, ↓State.leaveActive_boot]; done)
    | split
    | (simp only [implies_true, forall_const, ↓apply_ite State.boot, apply_ite Prod.fst, ite_self, ↓boot_leaf,
            ↓State.modEng_boot, ↓State.leaveActive_boot])
    | rfl)

@[simp] theorem State.dropRsv_boot : ∀ (s : State) (e : Nat), (s.dropRsv e).boot = s.boot := by
  intros
  unfold State.dropRsv
  split <;> first | rfl | simp only [boot_leaf, State.modSlice_boot, State.modEng_boot]

@[simp] theorem State.declineReady_boot : ∀ (s : State) (p : Nat), (s.declineReady p).boot = s.boot := by
  intros
  unfold State.declineReady
  (repeat' first
    | with_reducible rfl
    | (with_reducible refine (foldl_keeps (State.boot) _ (fun _ _ => ?_) _ _).trans ?_)
    | (simp only [implies_true, forall_const, ↓apply_ite State.boot, apply_ite Prod.fst, ite_self, ↓boot_leaf,
            ↓State.farDecline_boot, ↓State.modLine_boot, ↓State.settle_boot]; done)
    | split
    | (simp only [implies_true, forall_const, ↓apply_ite State.boot, apply_ite Prod.fst, ite_self, ↓boot_leaf,
            ↓State.farDecline_boot, ↓State.modLine_boot, ↓State.settle_boot])
    | rfl)

@[simp] theorem State.halt_boot : ∀ (s : State) (e cause : Nat), (s.halt e cause).boot = s.boot := by
  intros
  unfold State.halt
  split <;> first
    | rfl
    | simp only [boot_leaf, State.pump_boot, State.fire_boot, State.declineReady_boot, State.modSpare_boot,
            State.modEng_boot, State.emptyRecord_boot, State.dropRsv_boot]

@[simp] theorem State.enter_boot : ∀ (s : State) (e cause : Nat) (epc eaddr target : Word) (slot : Option Nat),
  (s.enter e cause epc eaddr target slot).boot = s.boot := by
  intros
  unfold State.enter
  split <;> first
    | rfl
    | simp only [boot_leaf, State.halt_boot, State.pump_boot, State.modEng_boot, State.pushSlot_boot,
            State.dropRsv_boot]

@[simp] theorem State.exc_boot : ∀ (s : State) (e cause : Nat) (epc eaddr : Word), (s.exc e cause epc eaddr).boot =
    s.boot := by
  intros
  simp only [State.exc, apply_ite State.boot, ite_self, boot_leaf, State.enter_boot, State.halt_boot,
      State.modEng_boot]

@[simp] theorem State.gotoPc_boot : ∀ (s : State) (e : Nat) (a : Word), (s.gotoPc e a).boot = s.boot := by
  intros
  unfold State.gotoPc
  split <;> first | rfl | simp only [boot_leaf, State.exc_boot, State.modEng_boot]

@[simp] theorem State.fwAdvance_boot : ∀ (s : State) (e : Nat), (s.fwAdvance e).boot = s.boot := by
  intros
  simp only [State.fwAdvance, boot_leaf, State.gotoPc_boot]

@[simp] theorem State.advance_boot : ∀ (s : State) (e : Nat), (s.advance e).boot = s.boot := by
  intros
  unfold State.advance
  split <;> first | rfl | simp only [boot_leaf, State.fwAdvance_boot, State.modEng_boot]

@[simp] theorem State.retire_boot : ∀ (s : State) (e rd : Nat) (v : Word), (s.retire e rd v).boot = s.boot := by
  intros
  simp only [State.retire, boot_leaf, State.modEng_boot, State.advance_boot]

@[simp] theorem State.checkEntry_boot : ∀ (s : State), s.checkEntry.boot = s.boot := by
  intros
  unfold State.checkEntry
  (repeat' split) <;> first | rfl | simp only [boot_leaf, State.modEng_boot, State.enter_boot]

@[simp] theorem State.tellChecker_boot : ∀ (s : State) (e : Nat) (v : Option (Nat × Word)), (s.tellChecker e v).boot
    = s.boot := by
  intros
  unfold State.tellChecker
  split <;> first | rfl | simp only [boot_leaf]

@[simp] theorem State.boundary_boot : ∀ (s : State) (e : Nat), (s.boundary e).boot = s.boot := by
  intros
  unfold State.boundary
  (repeat' first
    | with_reducible rfl
    | (with_reducible refine (foldl_keeps (State.boot) _ (fun _ _ => ?_) _ _).trans ?_)
    | (simp only [implies_true, forall_const, ↓apply_ite State.boot, apply_ite Prod.fst, ite_self, ↓boot_leaf,
            ↓State.modEng_boot, ↓State.tellChecker_boot, ↓State.enter_boot, ↓State.checkEntry_boot]; done)
    | split
    | (simp only [implies_true, forall_const, ↓apply_ite State.boot, apply_ite Prod.fst, ite_self, ↓boot_leaf,
            ↓State.modEng_boot, ↓State.tellChecker_boot, ↓State.enter_boot, ↓State.checkEntry_boot])
    | rfl)

@[simp] theorem State.farFail_boot : ∀ (s : State) (e code : Nat), (s.farFail e code).boot = s.boot := by
  intros
  rfl

@[simp] theorem State.farBudget_boot : ∀ (s : State) (e : Nat), (s.farBudget e).boot = s.boot := by
  intros
  simp only [State.farBudget, apply_ite State.boot, ite_self, boot_leaf, State.farFail_boot]

@[simp] theorem State.secCount_boot : ∀ (s : State), s.secCount.boot = s.boot := by
  intros
  rfl

@[simp] theorem State.fetch_boot : ∀ (s : State) (e : Nat), (s.fetch e).1.boot = s.boot := by
  intros
  unfold State.fetch
  (repeat' first
    | with_reducible rfl
    | (with_reducible refine (foldl_keeps (State.boot) _ (fun _ _ => ?_) _ _).trans ?_)
    | (simp only [implies_true, forall_const, ↓apply_ite State.boot, apply_ite Prod.fst, ite_self, ↓boot_leaf,
            ↓State.modEng_boot, ↓State.secCount_boot, ↓State.exc_boot, ↓State.diverge_boot, ↓State.halt_boot]; done)
    | split
    | (simp only [implies_true, forall_const, ↓apply_ite State.boot, apply_ite Prod.fst, ite_self, ↓boot_leaf,
            ↓State.modEng_boot, ↓State.secCount_boot, ↓State.exc_boot, ↓State.diverge_boot, ↓State.halt_boot])
    | rfl)
theorem State.fetch_bootP : ∀ {s : State} {e : Nat} {u : State} {res},
    s.fetch e = (u, res) → u.boot = s.boot := by
  intros
  rename_i h
  have h2 := congrArg (fun r => r.1.boot) h
  simp only [State.fetch_boot] at h2
  exact h2.symm

@[simp] theorem State.insn_boot : ∀ (s : State) (e : Nat) (w : BitVec 32) (opc : Nat) (zero : BitVec 32) (far user :
    Bool)
  (body : State → State),
  (∀ (a : State), (body a).boot = a.boot) → (s.insn e w opc zero far user body).boot = s.boot := by
  intros
  unfold State.insn
  (repeat' first
    | with_reducible rfl
    | (with_reducible refine (State.fetch_bootP (by assumption)).trans ?_)
    | (with_reducible refine (foldl_keeps (State.boot) _ (fun _ _ => ?_) _ _).trans ?_)
    | (simp only [*, implies_true, forall_const, ↓apply_ite State.boot, apply_ite Prod.fst, ite_self, ↓boot_leaf,
            ↓State.boundary_boot, ↓State.exc_boot, ↓State.fetch_boot, ↓State.modEng_boot, ↓State.farBudget_boot,
            ↓State.farFail_boot]; done)
    | split
    | (simp only [*, implies_true, forall_const, ↓apply_ite State.boot, apply_ite Prod.fst, ite_self, ↓boot_leaf,
            ↓State.boundary_boot, ↓State.exc_boot, ↓State.fetch_boot, ↓State.modEng_boot, ↓State.farBudget_boot,
            ↓State.farFail_boot])
    | rfl)

@[simp] theorem State.jumpTo_boot : ∀ (s : State) (e : Nat) (target : Word), (s.jumpTo e target).boot = s.boot := by
  intros
  simp only [State.jumpTo, apply_ite State.boot, ite_self, boot_leaf, State.gotoPc_boot, State.farFail_boot,
      State.modEng_boot]

@[simp] theorem State.walkFail_boot : ∀ (s : State) (e cause : Nat) (k : PtWalk), (s.walkFail e cause k).boot =
    s.boot := by
  intros
  simp only [State.walkFail, apply_ite State.boot, ite_self, boot_leaf, State.exc_boot, State.fwAdvance_boot,
      State.modEng_boot]

@[simp] theorem State.walkStep_boot : ∀ (s : State) (e : Nat) (k : PtWalk), (s.walkStep e k).boot = s.boot := by
  intros
  simp only [State.walkStep, apply_ite State.boot, ite_self, boot_leaf, State.modEng_boot, State.pump_boot,
      State.walkFail_boot]

@[simp] theorem State.startWalk_boot : ∀ (s : State) (e : Nat) (va : Word) (store fillOnly : Bool),
  (s.startWalk e va store fillOnly).boot = s.boot := by
  intros
  unfold State.startWalk
  (repeat' split) <;> first | rfl | simp only [boot_leaf, State.walkStep_boot, State.modEng_boot]

@[simp] theorem State.storeError_boot : ∀ (s : State) (e : Nat) (addr : Word) (timeout : Bool), (s.storeError e addr
    timeout).boot = s.boot := by
  intros
  simp only [State.storeError, apply_ite State.boot, ite_self, boot_leaf, State.engErr_boot, State.modEng_boot]

@[simp] theorem State.engTake_boot : ∀ (s : State) (e : Nat) (m : Msg), (s.engTake e m).boot = s.boot := by
  intros
  simp only [State.engTake, apply_ite State.boot, ite_self, boot_leaf, State.modSlice_boot, State.modPort_boot]

@[simp] theorem State.staleTake_boot : ∀ (s : State) (e : Nat) (m : Msg) (go : State → State),
  (∀ (a : State), (go a).boot = a.boot) → (s.staleTake e m go).boot = s.boot := by
  intros
  simp only [*, State.staleTake, apply_ite State.boot, ite_self, boot_leaf, State.modSlice_boot, State.engTake_boot,
      State.modEng_boot]

@[simp] theorem State.modGrp_boot : ∀ (s : State) (g : Nat) (f : Grp → Grp), (s.modGrp g f).boot = s.boot := by
  intros
  rfl

@[simp] theorem State.countIn_boot : ∀ (s : State) (g : Nat), (s.countIn g).boot = s.boot := by
  intros
  rfl

@[simp] theorem State.capture_boot : ∀ (s : State) (n : Nat), (s.capture n).boot = s.boot := by
  intros
  simp only [State.capture, apply_ite State.boot, ite_self, boot_leaf, State.countIn_boot, State.modSrc_boot]

@[simp] theorem State.closeWindow_boot : ∀ (s : State) (g : Nat), (s.closeWindow g).boot = s.boot := by
  intros
  rfl

@[simp] theorem State.commitMark_boot : ∀ (s : State) (n : Nat), (s.commitMark n).boot = s.boot := by
  intros
  simp only [State.commitMark, apply_ite State.boot, ite_self, boot_leaf, State.modSrc_boot]

@[simp] theorem State.deliverTo_boot : ∀ (s : State) (e n : Nat), (s.deliverTo e n).boot = s.boot := by
  intros
  simp only [State.deliverTo, boot_leaf, State.modEng_boot, State.boundary_boot]

@[simp] theorem State.commitEngine_boot : ∀ (s : State) (n : Nat), (s.commitEngine n).boot = s.boot := by
  intros
  simp only [State.commitEngine, boot_leaf, State.deliverTo_boot, State.glbEvent_boot, State.commitMark_boot]

@[simp] theorem State.wake_boot : ∀ (s : State) (e : Nat), (s.wake e).boot = s.boot := by
  intros
  unfold State.wake
  (repeat' split) <;> first
    | rfl
    | simp only [boot_leaf, State.modEng_boot, State.tellChecker_boot, State.commitEngine_boot,
            State.checkEntry_boot]

@[simp] theorem State.opA_boot : ∀ (s : State) (e : Nat) (w : BitVec 32) (opc : Nat) (f : Word → Word → Word),
  (s.opA e w opc f).boot = s.boot := by
  intros
  unfold State.opA
  (repeat' first
    | with_reducible rfl
    | (with_reducible refine (foldl_keeps (State.boot) _ (fun _ _ => ?_) _ _).trans ?_)
    | (simp only [implies_true, forall_const, ↓apply_ite State.boot, apply_ite Prod.fst, ite_self, ↓boot_leaf,
            ↓State.retire_boot, ↓State.insn_boot]; done)
    | split
    | (simp only [implies_true, forall_const, ↓apply_ite State.boot, apply_ite Prod.fst, ite_self, ↓boot_leaf,
            ↓State.retire_boot, ↓State.insn_boot])
    | rfl)

@[simp] theorem State.opB_boot : ∀ (s : State) (e : Nat) (w : BitVec 32) (opc : Nat) (zero : BitVec 32) (f : Word →
    Word → Word),
  (s.opB e w opc zero f).boot = s.boot := by
  intros
  unfold State.opB
  (repeat' first
    | with_reducible rfl
    | (with_reducible refine (foldl_keeps (State.boot) _ (fun _ _ => ?_) _ _).trans ?_)
    | (simp only [implies_true, forall_const, ↓apply_ite State.boot, apply_ite Prod.fst, ite_self, ↓boot_leaf,
            ↓State.retire_boot, ↓State.insn_boot]; done)
    | split
    | (simp only [implies_true, forall_const, ↓apply_ite State.boot, apply_ite Prod.fst, ite_self, ↓boot_leaf,
            ↓State.retire_boot, ↓State.insn_boot])
    | rfl)

@[simp] theorem State.opC_boot : ∀ (s : State) (e : Nat) (w : BitVec 32) (opc : Nat) (c : Word → Word → Bool),
  (s.opC e w opc c).boot = s.boot := by
  intros
  unfold State.opC
  (repeat' first
    | with_reducible rfl
    | (with_reducible refine (foldl_keeps (State.boot) _ (fun _ _ => ?_) _ _).trans ?_)
    | (simp only [implies_true, forall_const, ↓apply_ite State.boot, apply_ite Prod.fst, ite_self, ↓boot_leaf,
            ↓State.advance_boot, ↓State.jumpTo_boot, ↓State.insn_boot]; done)
    | split
    | (simp only [implies_true, forall_const, ↓apply_ite State.boot, apply_ite Prod.fst, ite_self, ↓boot_leaf,
            ↓State.advance_boot, ↓State.jumpTo_boot, ↓State.insn_boot])
    | rfl)

@[simp] theorem State.memParity_boot : ∀ (s : State) (e off : Nat), (s.memParity e off).1.boot = s.boot := by
  intros
  unfold State.memParity
  (repeat' first
    | with_reducible rfl
    | (with_reducible refine (foldl_keeps (State.boot) _ (fun _ _ => ?_) _ _).trans ?_)
    | (simp only [implies_true, forall_const, ↓apply_ite State.boot, apply_ite Prod.fst, ite_self, ↓boot_leaf,
            ↓State.modEng_boot, ↓State.secCount_boot, ↓State.diverge_boot, ↓State.engErr_boot]; done)
    | split
    | (simp only [implies_true, forall_const, ↓apply_ite State.boot, apply_ite Prod.fst, ite_self, ↓boot_leaf,
            ↓State.modEng_boot, ↓State.secCount_boot, ↓State.diverge_boot, ↓State.engErr_boot])
    | rfl)
theorem State.memParity_bootP : ∀ {s : State} {e off : Nat} {u : State} {res},
    s.memParity e off = (u, res) → u.boot = s.boot := by
  intros
  rename_i h
  have h2 := congrArg (fun r => r.1.boot) h
  simp only [State.memParity_boot] at h2
  exact h2.symm

@[simp] theorem State.loadSend_boot : ∀ (s : State) (e rd size : Nat) (addr pa : Word) (kind : OutKind),
  (s.loadSend e rd size addr pa kind).boot = s.boot := by
  intros
  simp only [State.loadSend, apply_ite State.boot, ite_self, boot_leaf, State.advance_boot, State.engReq_boot,
      State.modEng_boot]

@[simp] theorem State.startFor_boot : ∀ (s : State) (e : Nat) (pa : Word) (size : Nat), (s.startFor e pa size).boot
    = s.boot := by
  intros
  simp only [State.startFor, boot_leaf, State.modEng_boot, State.pump_boot]

@[simp] theorem State.load_boot : ∀ (s : State) (e rd size : Nat) (addr : Word), (s.load e rd size addr).boot =
    s.boot := by
  intros
  unfold State.load
  (repeat' first
    | with_reducible rfl
    | (with_reducible refine (State.memParity_bootP (by assumption)).trans ?_)
    | (with_reducible refine (foldl_keeps (State.boot) _ (fun _ _ => ?_) _ _).trans ?_)
    | (simp only [implies_true, forall_const, ↓apply_ite State.boot, apply_ite Prod.fst, ite_self, ↓boot_leaf,
            ↓State.loadSend_boot, ↓State.startFor_boot, ↓State.startWalk_boot, ↓State.retire_boot,
            ↓State.memParity_boot, ↓State.exc_boot, ↓State.advance_boot, ↓State.modEng_boot]; done)
    | split
    | (simp only [implies_true, forall_const, ↓apply_ite State.boot, apply_ite Prod.fst, ite_self, ↓boot_leaf,
            ↓State.loadSend_boot, ↓State.startFor_boot, ↓State.startWalk_boot, ↓State.retire_boot,
            ↓State.memParity_boot, ↓State.exc_boot, ↓State.advance_boot, ↓State.modEng_boot])
    | rfl)

@[simp] theorem State.opLoad_boot : ∀ (s : State) (e : Nat) (w : BitVec 32) (opc size : Nat), (s.opLoad e w opc
    size).boot = s.boot := by
  intros
  unfold State.opLoad
  (repeat' first
    | with_reducible rfl
    | (with_reducible refine (foldl_keeps (State.boot) _ (fun _ _ => ?_) _ _).trans ?_)
    | (simp only [implies_true, forall_const, ↓apply_ite State.boot, apply_ite Prod.fst, ite_self, ↓boot_leaf,
            ↓State.load_boot, ↓State.insn_boot]; done)
    | split
    | (simp only [implies_true, forall_const, ↓apply_ite State.boot, apply_ite Prod.fst, ite_self, ↓boot_leaf,
            ↓State.load_boot, ↓State.insn_boot])
    | rfl)

@[simp] theorem State.sbStore_boot : ∀ (s : State) (e size : Nat) (pa v : Word), (s.sbStore e size pa v).boot =
    s.boot := by
  intros
  simp only [State.sbStore, apply_ite State.boot, ite_self, boot_leaf, State.modEng_boot, State.pump_boot,
      State.advance_boot]

@[simp] theorem State.engPush_boot : ∀ (s : State) (e q : Nat) (val : BitVec 32) (n : Fin 5), (s.engPush e q val
    n).boot = s.boot := by
  intros
  unfold State.engPush
  split <;> first | rfl | simp only [boot_leaf, State.tandemOut_boot, State.rpqPush_boot]

@[simp] theorem State.windowStore_boot : ∀ (s : State) (e size off : Nat) (addr v : Word), (s.windowStore e size off
    addr v).boot = s.boot := by
  intros
  simp only [State.windowStore, apply_ite State.boot, ite_self, boot_leaf, State.exc_boot, State.storeError_boot,
      State.engPush_boot, State.advance_boot]

@[simp] theorem State.store_boot : ∀ (s : State) (e size : Nat) (addr v : Word), (s.store e size addr v).boot =
    s.boot := by
  intros
  unfold State.store
  (repeat' first
    | with_reducible rfl
    | (with_reducible refine (foldl_keeps (State.boot) _ (fun _ _ => ?_) _ _).trans ?_)
    | (simp only [implies_true, forall_const, ↓apply_ite State.boot, apply_ite Prod.fst, ite_self, ↓boot_leaf,
            ↓State.sbStore_boot, ↓State.startWalk_boot, ↓State.advance_boot, ↓State.windowStore_boot,
            ↓State.exc_boot, ↓State.modEng_boot]; done)
    | split
    | (simp only [implies_true, forall_const, ↓apply_ite State.boot, apply_ite Prod.fst, ite_self, ↓boot_leaf,
            ↓State.sbStore_boot, ↓State.startWalk_boot, ↓State.advance_boot, ↓State.windowStore_boot,
            ↓State.exc_boot, ↓State.modEng_boot])
    | rfl)

@[simp] theorem State.opStore_boot : ∀ (s : State) (e : Nat) (w : BitVec 32) (opc size : Nat), (s.opStore e w opc
    size).boot = s.boot := by
  intros
  unfold State.opStore
  (repeat' first
    | with_reducible rfl
    | (with_reducible refine (foldl_keeps (State.boot) _ (fun _ _ => ?_) _ _).trans ?_)
    | (simp only [implies_true, forall_const, ↓apply_ite State.boot, apply_ite Prod.fst, ite_self, ↓boot_leaf,
            ↓State.store_boot, ↓State.insn_boot]; done)
    | split
    | (simp only [implies_true, forall_const, ↓apply_ite State.boot, apply_ite Prod.fst, ite_self, ↓boot_leaf,
            ↓State.store_boot, ↓State.insn_boot])
    | rfl)

@[simp] theorem State.placeRsv_boot : ∀ (s : State) (e : Nat) (a : LineAddr) (remote : Bool), (s.placeRsv e a
    remote).boot = s.boot := by
  intros
  simp only [State.placeRsv, boot_leaf, State.dropRsv_boot, State.modEng_boot]

@[simp] theorem State.scEnd_boot : ∀ (s : State) (e rd : Nat) (failed : Bool), (s.scEnd e rd failed).boot = s.boot
    := by
  intros
  simp only [State.scEnd, boot_leaf, State.dropRsv_boot, State.modEng_boot, State.fwAdvance_boot]

@[simp] theorem State.storeBarrierEnd_boot : ∀ (s : State) (e : Nat), (s.storeBarrierEnd e).boot = s.boot := by
  intros
  simp only [State.storeBarrierEnd, apply_ite State.boot, ite_self, boot_leaf, State.advance_boot,
      State.modEng_boot, State.exc_boot]

@[simp] theorem State.drain_boot : ∀ (s : State) (e : Nat), (s.drain e).boot = s.boot := by
  intros
  simp only [State.drain, boot_leaf, State.modEng_boot, State.pump_boot]

@[simp] theorem State.loadFault_boot : ∀ (s : State) (e : Nat), (s.loadFault e).boot = s.boot := by
  intros
  unfold State.loadFault
  (repeat' split) <;> first | rfl | simp only [boot_leaf, State.modEng_boot, State.exc_boot]

@[simp] theorem State.walkData_boot : ∀ (s : State) (e : Nat) (m : Msg) (k : PtWalk), (s.walkData e m k).boot =
    s.boot := by
  intros
  simp only [State.walkData, apply_ite State.boot, ite_self, boot_leaf, State.walkStep_boot, State.pump_boot,
      State.walkFail_boot, State.modEng_boot, State.startWalk_boot]

@[simp] theorem State.farLoad_boot : ∀ (s : State) (slot : Nat) (ws : List (BitVec 32)), (s.farLoad slot ws).boot =
    s.boot := by
  intros
  simp only [State.farLoad, apply_ite State.boot, ite_self, boot_leaf, State.fire_boot]

@[simp] theorem State.farLoadCtrl_boot : ∀ (s : State) (v : BitVec 32), (s.farLoadCtrl v).boot = s.boot := by
  intros
  simp only [State.farLoadCtrl, apply_ite State.boot, ite_self, boot_leaf, State.farLoad_boot]

@[simp] theorem State.engRefuse_boot : ∀ (s : State) (e : Nat), (s.engRefuse e).boot = s.boot := by
  intros
  rfl

@[simp] theorem State.quiesce_boot : ∀ (s : State) (e : Nat), (s.quiesce e).boot = s.boot := by
  intros
  simp only [State.quiesce, boot_leaf, State.dropRsv_boot, State.modEng_boot, State.pump_boot]

@[simp] theorem State.engQuiesce_boot : ∀ (s : State) (e : Nat), (s.engQuiesce e).boot = s.boot := by
  intros
  unfold State.engQuiesce
  split <;> first | rfl | simp only [boot_leaf, State.quiesce_boot, State.engRefuse_boot]

@[simp] theorem State.holdEngine_boot : ∀ (s : State) (e : Nat), (s.holdEngine e).boot = s.boot := by
  intros
  simp only [State.holdEngine, apply_ite State.boot, ite_self, boot_leaf, State.quiesce_boot, State.modEng_boot]

@[simp] theorem State.fwNext_boot : ∀ (s : State), s.fwNext.boot = s.boot := by
  intros
  unfold State.fwNext
  (repeat' split) <;> first | rfl | simp only [boot_leaf, State.holdEngine_boot, State.fire_boot]

@[simp] theorem State.fwCommit_boot : ∀ (s : State) (rolling : Bool), (s.fwCommit rolling).boot = s.boot := by
  intros
  unfold State.fwCommit
  (repeat' first
    | with_reducible rfl
    | (with_reducible refine (foldl_keeps (State.boot) _ (fun _ _ => ?_) _ _).trans ?_)
    | (simp only [implies_true, forall_const, ↓apply_ite State.boot, apply_ite Prod.fst, ite_self, ↓boot_leaf,
            ↓State.fire_boot, ↓State.fwNext_boot, ↓State.holdEngine_boot]; done)
    | split
    | (simp only [implies_true, forall_const, ↓apply_ite State.boot, apply_ite Prod.fst, ite_self, ↓boot_leaf,
            ↓State.fire_boot, ↓State.fwNext_boot, ↓State.holdEngine_boot])
    | rfl)

@[simp] theorem State.spareClear_boot : ∀ (s : State) (p : Nat), (s.spareClear p).boot = s.boot := by
  intros
  simp only [State.spareClear, boot_leaf, State.modPwr_boot, State.sflInit_boot, State.hlcInit_boot]

@[simp] theorem State.haltRecord_boot : ∀ (s : State) (e : Nat), (s.haltRecord e).boot = s.boot := by
  intros
  unfold State.haltRecord
  split <;> first | rfl | simp only [boot_leaf, State.engErr_boot, State.modEng_boot]

@[simp] theorem State.loadOver_boot : ∀ (s : State) (e : Nat), (s.loadOver e).boot = s.boot := by
  intros
  simp only [State.loadOver, apply_ite State.boot, ite_self, boot_leaf, State.fwNext_boot]

@[simp] theorem State.ingress_boot : ∀ (s : State) (n : Nat) (m : Msg), (s.ingress n m).boot = s.boot := by
  intros
  simp only [State.ingress, apply_ite State.boot, ite_self, boot_leaf, State.passOn_boot, State.holdBack_boot,
      State.leaveSlot_boot, State.sourceError_boot, State.modPort_boot, State.portEvent_boot]

@[simp] theorem State.ringResend_boot : ∀ (s : State) (r k : Nat) (d : Dir) (seq : BitVec 12), (s.ringResend r k d
    seq).boot = s.boot := by
  intros
  rfl

@[simp] theorem State.ringAsked_boot : ∀ (s : State) (r k : Nat) (d : Dir) (seq : BitVec 12), (s.ringAsked r k d
    seq).boot = s.boot := by
  intros
  unfold State.ringAsked
  split <;> first | rfl | simp only [boot_leaf, State.modRing_boot, State.ringResend_boot]

@[simp] theorem State.portResend_boot : ∀ (s : State) (n : Nat) (seq : BitVec 12), (s.portResend n seq).boot =
    s.boot := by
  intros
  rfl

@[simp] theorem State.portAsks_boot : ∀ (s : State) (n : Nat), (s.portAsks n).boot = s.boot := by
  intros
  rfl

@[simp] theorem State.portAsked_boot : ∀ (s : State) (n : Nat) (seq : BitVec 12), (s.portAsked n seq).boot = s.boot
    := by
  intros
  simp only [State.portAsked, boot_leaf, State.portResend_boot, State.portAsks_boot]

@[simp] theorem State.portAck_boot : ∀ (s : State) (n : Nat) (seq : BitVec 12), (s.portAck n seq).boot = s.boot := by
  intros
  simp only [State.portAck, boot_leaf, State.modPort_boot, State.egress_boot]

@[simp] theorem State.portAccepts_boot : ∀ (s : State) (n : Nat) (raw : BitVec 768), (s.portAccepts n raw).boot =
    s.boot := by
  intros
  unfold State.portAccepts
  split <;> first | rfl | simp only [boot_leaf, State.egress_boot, State.modPort_boot]

@[simp] theorem State.portReceive_boot : ∀ (s : State) (n : Nat) (raw : BitVec 768), (s.portReceive n raw).boot =
    s.boot := by
  intros
  unfold State.portReceive
  (repeat' first
    | with_reducible rfl
    | (with_reducible refine (foldl_keeps (State.boot) _ (fun _ _ => ?_) _ _).trans ?_)
    | (simp only [implies_true, forall_const, ↓apply_ite State.boot, apply_ite Prod.fst, ite_self, ↓boot_leaf,
            ↓State.portAccepts_boot, ↓State.portAsks_boot, ↓State.portAsked_boot, ↓State.portAck_boot,
            ↓State.modPort_boot]; done)
    | split
    | (simp only [implies_true, forall_const, ↓apply_ite State.boot, apply_ite Prod.fst, ite_self, ↓boot_leaf,
            ↓State.portAccepts_boot, ↓State.portAsks_boot, ↓State.portAsked_boot, ↓State.portAck_boot,
            ↓State.modPort_boot])
    | rfl)

@[simp] theorem State.ringAck_boot : ∀ (s : State) (r k : Nat) (d : Dir) (seq : BitVec 12), (s.ringAck r k d
    seq).boot = s.boot := by
  intros
  rfl

@[simp] theorem State.ringErr_boot : ∀ (s : State) (r cls code : Nat) (extra : optParam (BitVec 16) 0),
  (s.ringErr r cls code extra).boot = s.boot := by
  intros
  simp only [State.ringErr, boot_leaf, State.record_boot]

@[simp] theorem State.consRestart_boot : ∀ (s : State) (q : Nat), (s.consRestart q).boot = s.boot := by
  intros
  rfl

@[simp] theorem State.consWake_boot : ∀ (s : State) (q : Nat), (s.consWake q).boot = s.boot := by
  intros
  unfold State.consWake
  split <;> first | rfl | simp only [boot_leaf, State.modRing_boot, State.consRestart_boot, State.modPwr_boot]

@[simp] theorem State.shiftOff_boot : ∀ (s : State) (r : Nat) (cause : ShiftCause), (s.shiftOff r cause).boot =
    s.boot := by
  intros
  simp only [State.shiftOff, apply_ite State.boot, ite_self, boot_leaf, State.consWake_boot, State.consRestart_boot,
      State.modRing_boot, State.ringErr_boot, State.fireRing_boot]

@[simp] theorem State.segLose_boot : ∀ (s : State) (r k : Nat), (s.segLose r k).boot = s.boot := by
  intros
  unfold State.segLose
  split <;> first | rfl | simp only [boot_leaf, State.consWake_boot, State.modRing_boot, State.consRestart_boot]

@[simp] theorem State.crgRefuse_boot : ∀ (s : State) (r : Nat), (s.crgRefuse r).boot = s.boot := by
  intros
  rfl

@[simp] theorem State.crgShift_boot : ∀ (s : State) (r : Nat), (s.crgShift r).boot = s.boot := by
  intros
  unfold State.crgShift
  split <;> first | rfl | simp only [boot_leaf, State.crgRefuse_boot, State.modRing_boot, State.shiftOff_boot]

@[simp] theorem State.moveOne_boot : ∀ (s : State) (r key : Nat), (s.moveOne r key).boot = s.boot := by
  intros
  unfold State.moveOne
  (repeat' first
    | with_reducible rfl
    | (with_reducible refine (foldl_keeps (State.boot) _ (fun _ _ => ?_) _ _).trans ?_)
    | (simp only [implies_true, forall_const, ↓apply_ite State.boot, apply_ite Prod.fst, ite_self, ↓boot_leaf,
            ↓State.modRing_boot, ↓State.ringEvent_boot]; done)
    | split
    | (simp only [implies_true, forall_const, ↓apply_ite State.boot, apply_ite Prod.fst, ite_self, ↓boot_leaf,
            ↓State.modRing_boot, ↓State.ringEvent_boot])
    | rfl)

@[simp] theorem State.moveFlits_boot : ∀ (s : State) (r : Nat), (s.moveFlits r).boot = s.boot := by
  intros
  unfold State.moveFlits
  (repeat' first
    | with_reducible rfl
    | (with_reducible refine (foldl_keeps (State.boot) _ (fun _ _ => ?_) _ _).trans ?_)
    | (simp only [implies_true, forall_const, ↓apply_ite State.boot, apply_ite Prod.fst, ite_self, ↓boot_leaf,
            ↓State.moveOne_boot]; done)
    | split
    | (simp only [implies_true, forall_const, ↓apply_ite State.boot, apply_ite Prod.fst, ite_self, ↓boot_leaf,
            ↓State.moveOne_boot])
    | rfl)

@[simp] theorem State.releaseAll_boot : ∀ (s : State), s.releaseAll.boot = s.boot := by
  intros
  unfold State.releaseAll
  exact foldl_keeps State.boot _ (fun _ _ => by first | rfl | simp only [boot_leaf, State.releaseHeld_boot]) _ _

@[simp] theorem State.liftHold_boot : ∀ (s : State), s.liftHold.boot = s.boot := by
  intros
  unfold State.liftHold
  (repeat' first
    | with_reducible rfl
    | (with_reducible refine (foldl_keeps (State.boot) _ (fun _ _ => ?_) _ _).trans ?_)
    | (simp only [implies_true, forall_const, ↓apply_ite State.boot, apply_ite Prod.fst, ite_self, ↓boot_leaf,
            ↓State.releaseAll_boot]; done)
    | split
    | (simp only [implies_true, forall_const, ↓apply_ite State.boot, apply_ite Prod.fst, ite_self, ↓boot_leaf,
            ↓State.releaseAll_boot])
    | rfl)

@[simp] theorem State.edgesLeft_boot : ∀ (s : State), s.edgesLeft.boot = s.boot := by
  intros
  unfold State.edgesLeft
  split <;> first | rfl | simp only [boot_leaf, State.modPwr_boot, State.liftHold_boot]

@[simp] theorem State.crgReturn_boot : ∀ (s : State) (r : Nat), (s.crgReturn r).boot = s.boot := by
  intros
  unfold State.crgReturn
  split <;> first
    | rfl
    | simp only [boot_leaf, State.crgRefuse_boot, State.modRing_boot, State.consRestart_boot, State.modPwr_boot,
            State.edgesLeft_boot]

@[simp] theorem State.deadAnswer_boot : ∀ (s : State) (p t g : Nat), (s.deadAnswer p t g).boot = s.boot := by
  intros
  unfold State.deadAnswer
  (repeat' first
    | with_reducible rfl
    | (with_reducible refine (foldl_keeps (State.boot) _ (fun _ _ => ?_) _ _).trans ?_)
    | (simp only [implies_true, forall_const, ↓apply_ite State.boot, apply_ite Prod.fst, ite_self, ↓boot_leaf,
            ↓State.recallData_boot, ↓State.copyBack_boot, ↓State.fwdDone_boot, ↓State.invAck_boot,
            ↓State.loadRecent_boot, ↓State.emit_boot]; done)
    | split
    | (simp only [implies_true, forall_const, ↓apply_ite State.boot, apply_ite Prod.fst, ite_self, ↓boot_leaf,
            ↓State.recallData_boot, ↓State.copyBack_boot, ↓State.fwdDone_boot, ↓State.invAck_boot,
            ↓State.loadRecent_boot, ↓State.emit_boot])
    | rfl)

@[simp] theorem State.linkDown_boot : ∀ (s : State) (n : Nat), (s.linkDown n).boot = s.boot := by
  intros
  unfold State.linkDown
  (repeat' first
    | with_reducible rfl
    | (with_reducible refine (foldl_keeps (State.boot) _ (fun _ _ => ?_) _ _).trans ?_)
    | (simp only [implies_true, forall_const, ↓apply_ite State.boot, apply_ite Prod.fst, ite_self, ↓boot_leaf,
            ↓State.deadAnswer_boot, ↓State.record_boot, ↓State.firePort_boot, ↓State.modPort_boot]; done)
    | split
    | (simp only [implies_true, forall_const, ↓apply_ite State.boot, apply_ite Prod.fst, ite_self, ↓boot_leaf,
            ↓State.deadAnswer_boot, ↓State.record_boot, ↓State.firePort_boot, ↓State.modPort_boot])
    | rfl)

@[simp] theorem State.portTake_boot : ∀ (s : State) (n : Nat) (m : Msg), (s.portTake n m).boot = s.boot := by
  intros
  unfold State.portTake
  split <;> first | rfl | simp only [boot_leaf, State.modPort_boot, State.portEvent_boot]

@[simp] theorem State.tlbDone_boot : ∀ (s : State) (dst : BitVec 10) (txn : BitVec 12) (stat : BitVec 4),
  (s.tlbDone dst txn stat).boot = s.boot := by
  intros
  rfl

@[simp] theorem State.msixWrite_boot : ∀ (s : State) (v : Nat), (s.msixWrite v).boot = s.boot := by
  intros
  unfold State.msixWrite
  split <;> first | rfl | simp only [boot_leaf, State.glbEvent_boot, State.modHfn_boot]

@[simp] theorem State.msixRelease_boot : ∀ (s : State), s.msixRelease.boot = s.boot := by
  intros
  unfold State.msixRelease
  (repeat' first
    | with_reducible rfl
    | (with_reducible refine (foldl_keeps (State.boot) _ (fun _ _ => ?_) _ _).trans ?_)
    | (simp only [implies_true, forall_const, ↓apply_ite State.boot, apply_ite Prod.fst, ite_self, ↓boot_leaf,
            ↓State.modHfn_boot, ↓State.msixWrite_boot]; done)
    | split
    | (simp only [implies_true, forall_const, ↓apply_ite State.boot, apply_ite Prod.fst, ite_self, ↓boot_leaf,
            ↓State.modHfn_boot, ↓State.msixWrite_boot])
    | rfl)

@[simp] theorem State.commitHost_boot : ∀ (s : State) (n : Nat), (s.commitHost n).boot = s.boot := by
  intros
  simp only [State.commitHost, boot_leaf, State.commitMark_boot, State.modIag_boot, State.msixWrite_boot]

@[simp] theorem State.hostEoi_boot : ∀ (s : State) (n : Nat), (s.hostEoi n).boot = s.boot := by
  intros
  unfold State.hostEoi
  split <;> first | rfl | simp only [boot_leaf, State.endActive_boot]

@[simp] theorem State.doorbell_boot : ∀ (s : State) (e : Nat), (s.doorbell e).boot = s.boot := by
  intros
  unfold State.doorbell
  split <;> first | rfl | simp only [boot_leaf, State.fire_boot]

@[simp] theorem State.srcWrite_boot : ∀ (s : State) (n : Nat) (v : Word), (s.srcWrite n v).1.boot = s.boot := by
  intros
  unfold State.srcWrite
  (repeat' first
    | with_reducible rfl
    | (with_reducible refine (foldl_keeps (State.boot) _ (fun _ _ => ?_) _ _).trans ?_)
    | (simp only [implies_true, forall_const, ↓apply_ite State.boot, apply_ite Prod.fst, ite_self, ↓boot_leaf,
            ↓State.countIn_boot, ↓State.modSrc_boot, ↓State.modIag_boot, ↓State.noteRsvd_boot]; done)
    | split
    | (simp only [implies_true, forall_const, ↓apply_ite State.boot, apply_ite Prod.fst, ite_self, ↓boot_leaf,
            ↓State.countIn_boot, ↓State.modSrc_boot, ↓State.modIag_boot, ↓State.noteRsvd_boot])
    | rfl)
theorem State.srcWrite_bootP : ∀ {s : State} {n : Nat} {v : Word} {u : State} {res},
    s.srcWrite n v = (u, res) → u.boot = s.boot := by
  intros
  rename_i h
  have h2 := congrArg (fun r => r.1.boot) h
  simp only [State.srcWrite_boot] at h2
  exact h2.symm

@[simp] theorem State.pmcSel_boot : ∀ (s : State) (c : Nat) (v : BitVec 32), (s.pmcSel c v).1.boot = s.boot := by
  intros
  unfold State.pmcSel
  split <;> first | rfl | simp only [boot_leaf, State.modPmc_boot, State.noteRsvd_boot]
theorem State.pmcSel_bootP : ∀ {s : State} {c : Nat} {v : BitVec 32} {u : State} {res},
    s.pmcSel c v = (u, res) → u.boot = s.boot := by
  intros
  rename_i h
  have h2 := congrArg (fun r => r.1.boot) h
  simp only [State.pmcSel_boot] at h2
  exact h2.symm

@[simp] theorem State.pmcCnt_boot : ∀ (s : State) (c : Nat) (v : Word), (s.pmcCnt c v).boot = s.boot := by
  intros
  simp only [State.pmcCnt, boot_leaf, State.noteRsvd_boot, State.modPmc_boot]

@[simp] theorem State.pmcFreeze_boot : ∀ (s : State) (stop : Bool), (s.pmcFreeze stop).boot = s.boot := by
  intros
  rfl

@[simp] theorem State.pmcSnapshot_boot : ∀ (s : State), s.pmcSnapshot.boot = s.boot := by
  intros
  rfl

@[simp] theorem State.recordRpq_boot : ∀ (s : State) (e : ErrRec), (s.recordRpq e).boot = s.boot := by
  intros
  unfold State.recordRpq
  (repeat' first
    | with_reducible rfl
    | (with_reducible refine (foldl_keeps (State.boot) _ (fun _ _ => ?_) _ _).trans ?_)
    | (simp only [implies_true, forall_const, ↓apply_ite State.boot, apply_ite Prod.fst, ite_self, ↓boot_leaf,
            ↓State.rpqPush_boot, ↓State.modRpq_boot, ↓State.glbEvent_boot]; done)
    | split
    | (simp only [implies_true, forall_const, ↓apply_ite State.boot, apply_ite Prod.fst, ite_self, ↓boot_leaf,
            ↓State.rpqPush_boot, ↓State.modRpq_boot, ↓State.glbEvent_boot])
    | rfl)

@[simp] theorem State.spillOffer_boot : ∀ (s : State) (e : ErrRec), (s.spillOffer e).boot = s.boot := by
  intros
  unfold State.spillOffer
  split <;> first | rfl | simp only [boot_leaf, State.modHfn_boot]

@[simp] theorem State.spillCopy_boot : ∀ (s : State), s.spillCopy.boot = s.boot := by
  intros
  unfold State.spillCopy
  (repeat' first
    | with_reducible rfl
    | (with_reducible refine (foldl_keeps (State.boot) _ (fun _ _ => ?_) _ _).trans ?_)
    | (simp only [implies_true, forall_const, ↓apply_ite State.boot, apply_ite Prod.fst, ite_self, ↓boot_leaf,
            ↓State.modRas_boot, ↓State.spillOffer_boot]; done)
    | split
    | (simp only [implies_true, forall_const, ↓apply_ite State.boot, apply_ite Prod.fst, ite_self, ↓boot_leaf,
            ↓State.modRas_boot, ↓State.spillOffer_boot])
    | rfl)

@[simp] theorem State.countRecord_boot : ∀ (s : State) (e : ErrRec), (s.countRecord e).boot = s.boot := by
  intros
  simp only [State.countRecord, apply_ite State.boot, ite_self, boot_leaf, State.modRas_boot, State.glbEvent_boot,
      State.fire_boot]

@[simp] theorem State.collect_boot : ∀ (s : State) (e : ErrRec), (s.collect e).boot = s.boot := by
  intros
  unfold State.collect
  split <;> first
    | rfl
    | simp only [boot_leaf, State.modSaf_boot, State.countRecord_boot, State.recordRpq_boot, State.spillCopy_boot,
            State.modRas_boot]

@[simp] theorem State.modMpt_boot : ∀ (s : State) (m : Nat) (f : Mpt → Mpt), (s.modMpt m f).boot = s.boot := by
  intros
  rfl

@[simp] theorem State.memSend_boot : ∀ (s : State) (m : Nat) (a : Msg), (s.memSend m a).boot = s.boot := by
  intros
  unfold State.memSend
  split <;> first | rfl | simp only [boot_leaf, State.firePort_boot, State.portEvent_boot, State.sendHome_boot]

@[simp] theorem State.memFail_boot : ∀ (s : State) (m : Nat) (q : Msg) (wr : Bool), (s.memFail m q wr).boot = s.boot
    := by
  intros
  simp only [State.memFail, boot_leaf, State.memSend_boot]

@[simp] theorem State.mptErr_boot : ∀ (s : State) (m : Nat) (q : optParam (Option LineAddr) none), (s.mptErr m
    q).boot = s.boot := by
  intros
  rfl

@[simp] theorem State.mptStart_boot : ∀ (s : State) (m : Nat) (q : Msg), (s.mptStart m q).boot = s.boot := by
  intros
  simp only [State.mptStart, boot_leaf, State.modMpt_boot]

@[simp] theorem State.mptRestart_boot : ∀ (s : State) (m : Nat), (s.mptRestart m).boot = s.boot := by
  intros
  unfold State.mptRestart
  (repeat' first
    | with_reducible rfl
    | (with_reducible refine (foldl_keeps (State.boot) _ (fun _ _ => ?_) _ _).trans ?_)
    | (simp only [implies_true, forall_const, ↓apply_ite State.boot, apply_ite Prod.fst, ite_self, ↓boot_leaf,
            ↓State.modMpt_boot, ↓State.mptStart_boot]; done)
    | split
    | (simp only [implies_true, forall_const, ↓apply_ite State.boot, apply_ite Prod.fst, ite_self, ↓boot_leaf,
            ↓State.modMpt_boot, ↓State.mptStart_boot])
    | rfl)

@[simp] theorem State.mptStray_boot : ∀ (s : State) (m : Nat) (tag : BitVec 10), (s.mptStray m tag).boot = s.boot :=
    by
  intros
  unfold State.mptStray
  split <;> first | rfl | simp only [boot_leaf, State.firePort_boot, State.modMpt_boot]

@[simp] theorem State.mptResponse_boot : ∀ (s : State) (m : Nat) (tag : BitVec 10) (wr : Bool) (stat : BitVec 4)
    (data : LineData)
  (poison : Byte), (s.mptResponse m tag wr stat data poison).boot = s.boot := by
  intros
  unfold State.mptResponse
  split <;> first
    | rfl
    | simp only [boot_leaf, State.memSend_boot, State.mptRestart_boot, State.modMpt_boot, State.mptStray_boot]

@[simp] theorem State.mptAnswerAll_boot : ∀ (s : State) (m : Nat), (s.mptAnswerAll m).boot = s.boot := by
  intros
  unfold State.mptAnswerAll
  (repeat' first
    | with_reducible rfl
    | (with_reducible refine (foldl_keeps (State.boot) _ (fun _ _ => ?_) _ _).trans ?_)
    | (simp only [implies_true, forall_const, ↓apply_ite State.boot, apply_ite Prod.fst, ite_self, ↓boot_leaf,
            ↓State.memFail_boot, ↓State.modMpt_boot]; done)
    | split
    | (simp only [implies_true, forall_const, ↓apply_ite State.boot, apply_ite Prod.fst, ite_self, ↓boot_leaf,
            ↓State.memFail_boot, ↓State.modMpt_boot])
    | rfl)

@[simp] theorem State.pwrFatal_boot : ∀ (s : State), s.pwrFatal.boot = s.boot := by
  intros
  simp only [State.pwrFatal, boot_leaf, State.record_boot]

@[simp] theorem State.stopSteward_boot : ∀ (s : State), s.stopSteward.boot = s.boot := by
  intros
  simp only [State.stopSteward, boot_leaf, State.quiesce_boot, State.modPwr_boot]

@[simp] theorem State.powerExit_boot : ∀ (s : State), s.powerExit.boot = s.boot := by
  intros
  rfl

@[simp] theorem State.relink_boot : ∀ (s : State), s.relink.boot = s.boot := by
  intros
  unfold State.relink
  (repeat' first
    | with_reducible rfl
    | (with_reducible refine (foldl_keeps (State.boot) _ (fun _ _ => ?_) _ _).trans ?_)
    | (simp only [implies_true, forall_const, ↓apply_ite State.boot, apply_ite Prod.fst, ite_self, ↓boot_leaf,
            ↓State.modPort_boot]; done)
    | split
    | (simp only [implies_true, forall_const, ↓apply_ite State.boot, apply_ite Prod.fst, ite_self, ↓boot_leaf,
            ↓State.modPort_boot])
    | rfl)

@[simp] theorem State.copiesLost_boot : ∀ (s : State), s.copiesLost.boot = s.boot := by
  intros
  rfl

@[simp] theorem State.edgeRelease_boot : ∀ (s : State) (d : Nat), (s.edgeRelease d).1.boot = s.boot := by
  intros
  unfold State.edgeRelease
  (repeat' split) <;> first | rfl | simp only [boot_leaf, State.modPwr_boot, State.edgesLeft_boot]
theorem State.edgeRelease_bootP : ∀ {s : State} {d : Nat} {u : State} {res},
    s.edgeRelease d = (u, res) → u.boot = s.boot := by
  intros
  rename_i h
  have h2 := congrArg (fun r => r.1.boot) h
  simp only [State.edgeRelease_boot] at h2
  exact h2.symm

@[simp] theorem State.sliceRc_boot : ∀ (s : State) (p o : Nat) (m : Word), (s.sliceRc p o m).boot = s.boot := by
  intros
  unfold State.sliceRc
  (repeat' first
    | with_reducible rfl
    | (with_reducible refine (foldl_keeps (State.boot) _ (fun _ _ => ?_) _ _).trans ?_)
    | (simp only [implies_true, forall_const, ↓apply_ite State.boot, apply_ite Prod.fst, ite_self, ↓boot_leaf,
            ↓State.modSlice_boot]; done)
    | split
    | (simp only [implies_true, forall_const, ↓apply_ite State.boot, apply_ite Prod.fst, ite_self, ↓boot_leaf,
            ↓State.modSlice_boot])
    | rfl)

@[simp] theorem State.sliceRead_boot : ∀ (s : State) (p off size : Nat), (s.sliceRead p off size).1.boot = s.boot :=
    by
  intros
  unfold State.sliceRead
  (repeat' first
    | with_reducible rfl
    | (with_reducible refine (foldl_keeps (State.boot) _ (fun _ _ => ?_) _ _).trans ?_)
    | (simp only [implies_true, forall_const, ↓apply_ite State.boot, apply_ite Prod.fst, ite_self, ↓boot_leaf,
            ↓State.sliceRc_boot]; done)
    | split
    | (simp only [implies_true, forall_const, ↓apply_ite State.boot, apply_ite Prod.fst, ite_self, ↓boot_leaf,
            ↓State.sliceRc_boot])
    | rfl)
theorem State.sliceRead_bootP : ∀ {s : State} {p off size : Nat} {u : State} {res},
    s.sliceRead p off size = (u, res) → u.boot = s.boot := by
  intros
  rename_i h
  have h2 := congrArg (fun r => r.1.boot) h
  simp only [State.sliceRead_boot] at h2
  exact h2.symm

@[simp] theorem State.writeSflCtrl_boot : ∀ (s : State) (p : Nat) (v : Word), (s.writeSflCtrl p v).boot = s.boot := by
  intros
  simp only [State.writeSflCtrl, apply_ite State.boot, ite_self, boot_leaf, State.sflPassStart_boot,
      State.sflInit_boot, State.modSlice_boot]

@[simp] theorem State.writeHlcCtrl_boot : ∀ (s : State) (p : Nat) (v : Word), (s.writeHlcCtrl p v).boot = s.boot := by
  intros
  simp only [State.writeHlcCtrl, apply_ite State.boot, ite_self, boot_leaf, State.hlcInit_boot,
      State.hlcDisable_boot, State.modHlc_boot, State.hlcEnable_boot]

@[simp] theorem State.writeWays_boot : ∀ (s : State) (p : Nat) (v : Word), (s.writeWays p v).boot = s.boot := by
  intros
  unfold State.writeWays
  (repeat' first
    | with_reducible rfl
    | (with_reducible refine (foldl_keeps (State.boot) _ (fun _ _ => ?_) _ _).trans ?_)
    | (simp only [implies_true, forall_const, ↓apply_ite State.boot, apply_ite Prod.fst, ite_self, ↓boot_leaf,
            ↓State.hlcWayDisable_boot, ↓State.hlcWayEnable_boot]; done)
    | split
    | (simp only [implies_true, forall_const, ↓apply_ite State.boot, apply_ite Prod.fst, ite_self, ↓boot_leaf,
            ↓State.hlcWayDisable_boot, ↓State.hlcWayEnable_boot])
    | rfl)

@[simp] theorem State.writeFarCtrl_boot : ∀ (s : State) (p : Nat) (v : Word), (s.writeFarCtrl p v).boot = s.boot := by
  intros
  simp only [State.writeFarCtrl, apply_ite State.boot, ite_self, boot_leaf, State.farPredClr_boot,
      State.modSlice_boot]

@[simp] theorem State.writeRgn_boot : ∀ (s : State) (n : Nat) (v : Word), (s.writeRgn n v).boot = s.boot := by
  intros
  unfold State.writeRgn
  split <;> first | rfl | simp only [boot_leaf]

@[simp] theorem State.sliceW1c_boot : ∀ (s : State) (p o : Nat) (b : Word), (s.sliceW1c p o b).boot = s.boot := by
  intros
  rfl

@[simp] theorem State.svcRsp_boot : ∀ (s : State) (p : Nat) (q : Msg) (stat : BitVec 4) (len : Nat) (data : LineData),
  (s.svcRsp p q stat len data).boot = s.boot := by
  intros
  rfl

@[simp] theorem State.svcReq_boot : ∀ (s : State) (p : Nat) (m : Msg) (go : State → Msg → State),
  (∀ (a : State) (a_1 : Msg), (go a a_1).boot = a.boot) → (s.svcReq p m go).boot = s.boot := by
  intros
  unfold State.svcReq
  (repeat' first
    | with_reducible rfl
    | (with_reducible refine (foldl_keeps (State.boot) _ (fun _ _ => ?_) _ _).trans ?_)
    | (simp only [*, implies_true, forall_const, ↓apply_ite State.boot, apply_ite Prod.fst, ite_self, ↓boot_leaf,
            ↓State.svcRsp_boot, ↓State.taking_boot]; done)
    | split
    | (simp only [*, implies_true, forall_const, ↓apply_ite State.boot, apply_ite Prod.fst, ite_self, ↓boot_leaf,
            ↓State.svcRsp_boot, ↓State.taking_boot])
    | rfl)

theorem State.svcStore_bootP : ∀ {s : State} {p o : Nat} {v : Word} {t : State}, s.svcStore p o v = some t → t.boot
    = s.boot := by
  intros
  rename_i h
  unfold State.svcStore at h
  (repeat' (split at h)) <;> first
    | (cases h; done)
    | (cases h; (repeat' first
    | with_reducible rfl
    | (with_reducible refine (foldl_keeps (State.boot) _ (fun _ _ => ?_) _ _).trans ?_)
    | (simp only [implies_true, forall_const, ↓apply_ite State.boot, apply_ite Prod.fst, ite_self, ↓boot_leaf,
            ↓State.modSlice_boot, ↓State.noteRsvd_boot]; done)
    | split
    | (simp only [implies_true, forall_const, ↓apply_ite State.boot, apply_ite Prod.fst, ite_self, ↓boot_leaf,
            ↓State.modSlice_boot, ↓State.noteRsvd_boot])
    | rfl))

@[simp] theorem State.putLine_boot : ∀ (s : State) (p pos : Nat) (tag : BitVec 31) (data : LineData) (poison :
    BitVec 8) (dirty : Bool),
  (s.putLine p pos tag data poison dirty).boot = s.boot := by
  intros
  simp only [State.putLine, apply_ite State.boot, ite_self, boot_leaf, State.modHlc_boot]

@[simp] theorem State.dictMaint_boot : ∀ (s : State) (op : BitVec 4), (s.dictMaint op).boot = s.boot := by
  intros
  unfold State.dictMaint
  (repeat' first
    | with_reducible rfl
    | (with_reducible refine (foldl_keeps (State.boot) _ (fun _ _ => ?_) _ _).trans ?_)
    | (simp only [implies_true, forall_const, ↓apply_ite State.boot, apply_ite Prod.fst, ite_self, ↓boot_leaf,
            ↓State.modHlc_boot]; done)
    | split
    | (simp only [implies_true, forall_const, ↓apply_ite State.boot, apply_ite Prod.fst, ite_self, ↓boot_leaf,
            ↓State.modHlc_boot])
    | rfl)

@[simp] theorem State.dictMaintCmd_boot : ∀ (s : State) (op : BitVec 4), (s.dictMaintCmd op).boot = s.boot := by
  intros
  unfold State.dictMaintCmd
  split <;> first | rfl | simp only [boot_leaf, State.dictMaint_boot]

@[simp] theorem State.evacBegin_boot : ∀ (s : State) (l : BitVec 7) (target : Nat), (s.evacBegin l target).boot =
    s.boot := by
  intros
  rfl

@[simp] theorem State.evacCmd_boot : ∀ (s : State) (l : BitVec 7) (named : Nat), (s.evacCmd l named).1.boot = s.boot
    := by
  intros
  unfold State.evacCmd
  (repeat' split) <;> first | rfl | simp only [boot_leaf, State.modSpare_boot, State.evacBegin_boot]
theorem State.evacCmd_bootP : ∀ {s : State} {l : BitVec 7} {named : Nat} {u : State} {res},
    s.evacCmd l named = (u, res) → u.boot = s.boot := by
  intros
  rename_i h
  have h2 := congrArg (fun r => r.1.boot) h
  simp only [State.evacCmd_boot] at h2
  exact h2.symm

@[simp] theorem State.spareCtrl_boot : ∀ (s : State) (v : BitVec 32), (s.spareCtrl v).boot = s.boot := by
  intros
  unfold State.spareCtrl
  split <;> first | rfl | simp only [boot_leaf, State.evacCmd_boot]

@[simp] theorem State.modEvac_boot : ∀ (s : State) (f : Evac → Evac), (s.modEvac f).boot = s.boot := by
  intros
  rfl

@[simp] theorem State.allCopies_boot : ∀ (s : State) (f : Copy → Copy), (s.allCopies f).boot = s.boot := by
  intros
  unfold State.allCopies
  exact foldl_keeps State.boot _ (fun _ _ => by first | rfl | simp only [boot_leaf, State.modCopy_boot]) _ _

@[simp] theorem State.countStopped_boot : ∀ (s before : State), (s.countStopped before).boot = s.boot := by
  intros
  unfold State.countStopped
  (repeat' first
    | with_reducible rfl
    | (with_reducible refine (foldl_keeps (State.boot) _ (fun _ _ => ?_) _ _).trans ?_)
    | (simp only [implies_true, forall_const, ↓apply_ite State.boot, apply_ite Prod.fst, ite_self, ↓boot_leaf,
            ↓State.portEvent_boot]; done)
    | split
    | (simp only [implies_true, forall_const, ↓apply_ite State.boot, apply_ite Prod.fst, ite_self, ↓boot_leaf,
            ↓State.portEvent_boot])
    | rfl)

@[simp] theorem State.copyOne_boot : ∀ (s : State) (old new key : Nat), (s.copyOne old new key).boot = s.boot := by
  intros
  simp only [State.copyOne, boot_leaf, State.modSlice_boot, State.sfBlockCheck_boot]

@[simp] theorem State.copyLine_boot : ∀ (s : State) (old new pos : Nat), (s.copyLine old new pos).boot = s.boot := by
  intros
  simp only [State.copyLine, apply_ite State.boot, ite_self, boot_leaf, State.putLine_boot, State.hTagCheck_boot,
      State.hDataCheck_boot]

@[simp] theorem State.copySlice_boot : ∀ (s : State) (old new : Nat) (l : BitVec 7), (s.copySlice old new l).boot =
    s.boot := by
  intros
  unfold State.copySlice
  (repeat' first
    | with_reducible rfl
    | (with_reducible refine (foldl_keeps (State.boot) _ (fun _ _ => ?_) _ _).trans ?_)
    | (simp only [implies_true, forall_const, ↓apply_ite State.boot, apply_ite Prod.fst, ite_self, ↓boot_leaf,
            ↓State.writeFarCtrl_boot, ↓State.sflPassStart_boot, ↓State.writeWays_boot, ↓State.writeHlcCtrl_boot,
            ↓State.writeSflCtrl_boot, ↓State.copyLine_boot, ↓State.copyOne_boot, ↓State.modSlice_boot]; done)
    | split
    | (simp only [implies_true, forall_const, ↓apply_ite State.boot, apply_ite Prod.fst, ite_self, ↓boot_leaf,
            ↓State.writeFarCtrl_boot, ↓State.sflPassStart_boot, ↓State.writeWays_boot, ↓State.writeHlcCtrl_boot,
            ↓State.writeSflCtrl_boot, ↓State.copyLine_boot, ↓State.copyOne_boot, ↓State.modSlice_boot])
    | rfl)

@[simp] theorem State.evacEntry_boot : ∀ (s : State) (v : Evac), (s.evacEntry v).boot = s.boot := by
  intros
  simp only [State.evacEntry, boot_leaf, State.allCopies_boot, State.modEvac_boot]

@[simp] theorem State.relayDeliver_boot : ∀ (s : State) (l p : Nat), (s.relayDeliver l p).boot = s.boot := by
  intros
  unfold State.relayDeliver
  exact foldl_keeps State.boot _ (fun _ _ => by first | rfl | simp only [boot_leaf, State.creditRequest_boot]) _ _

@[simp] theorem State.clearHold_boot : ∀ (s : State) (l : Nat), (s.clearHold l).boot = s.boot := by
  intros
  simp only [State.clearHold, boot_leaf, State.allCopies_boot, State.releaseAll_boot]

@[simp] theorem State.evacClear_boot : ∀ (s : State) (v : Evac), (s.evacClear v).boot = s.boot := by
  intros
  simp only [State.evacClear, boot_leaf, State.relayDeliver_boot, State.clearHold_boot, State.modSaf_boot,
      State.modEvac_boot]

@[simp] theorem State.evacRecord_boot : ∀ (s : State) (cls code old : Nat), (s.evacRecord cls code old).boot =
    s.boot := by
  intros
  simp only [State.evacRecord, boot_leaf, State.record_boot]

@[simp] theorem State.evacAgain_boot : ∀ (s : State), s.evacAgain.boot = s.boot := by
  intros
  unfold State.evacAgain
  (repeat' split) <;> first | rfl | simp only [boot_leaf, State.modSpare_boot, State.fire_boot]

@[simp] theorem State.discardTarget_boot : ∀ (s : State) (t : Nat), (s.discardTarget t).boot = s.boot := by
  intros
  rfl

@[simp] theorem State.hfnFetch_boot : ∀ (s : State), s.hfnFetch.boot = s.boot := by
  intros
  rfl

@[simp] theorem State.abortDone_boot : ∀ (s : State), s.abortDone.boot = s.boot := by
  intros
  unfold State.abortDone
  split <;> first | rfl | simp only [boot_leaf, State.modHfn_boot, State.fire_boot]

@[simp] theorem State.hfnAbort_boot : ∀ (s : State) (cause : BitVec 3), (s.hfnAbort cause).boot = s.boot := by
  intros
  unfold State.hfnAbort
  split <;> first | rfl | simp only [boot_leaf, State.modHfn_boot, State.abortDone_boot]

@[simp] theorem State.cmdTail_boot : ∀ (s : State) (v : BitVec 32), (s.cmdTail v).boot = s.boot := by
  intros
  simp only [State.cmdTail, apply_ite State.boot, ite_self, boot_leaf, State.hfnFetch_boot, State.modHfn_boot,
      State.noteRsvd_boot]

@[simp] theorem State.cmdResume_boot : ∀ (s : State), s.cmdResume.boot = s.boot := by
  intros
  unfold State.cmdResume
  split <;> first | rfl | simp only [boot_leaf, State.modHfn_boot, State.hfnFetch_boot]

@[simp] theorem State.bmeClear_boot : ∀ (s : State), s.bmeClear.boot = s.boot := by
  intros
  simp only [State.bmeClear, apply_ite State.boot, ite_self, boot_leaf, State.hfnAbort_boot, State.modHfn_boot]

@[simp] theorem State.modProbe_boot : ∀ (s : State) (p : Nat) (f : Probe → Probe), (s.modProbe p f).boot = s.boot :=
    by
  intros
  rfl

@[simp] theorem State.probeSend_boot : ∀ (s : State) (p step : Nat), (s.probeSend p step).boot = s.boot := by
  intros
  rfl

@[simp] theorem State.probeFail_boot : ∀ (s : State) (p : Nat) (step : BitVec 3), (s.probeFail p step).boot = s.boot
    := by
  intros
  simp only [State.probeFail, boot_leaf, State.record_boot, State.modProbe_boot, State.modSaf_boot]

@[simp] theorem State.probeTake_boot : ∀ (s : State) (p : Nat) (m : Msg), (s.probeTake p m).boot = s.boot := by
  intros
  rfl

@[simp] theorem State.checkerFail_boot : ∀ (s : State) (c : BitVec 16), (s.checkerFail c).boot = s.boot := by
  intros
  simp only [State.checkerFail, boot_leaf, State.record_boot]

@[simp] theorem State.clockRecord_boot : ∀ (s : State) (i : Nat), (s.clockRecord i).boot = s.boot := by
  intros
  rfl

@[simp] theorem State.poisonOut_boot : ∀ (s : State) (p : Nat) (a : LineAddr) (held : Option LineData), (s.poisonOut
    p a held).boot = s.boot := by
  intros
  unfold State.poisonOut
  (repeat' first
    | with_reducible rfl
    | (with_reducible refine (State.install_bootP (by assumption)).trans ?_)
    | (with_reducible refine (foldl_keeps (State.boot) _ (fun _ _ => ?_) _ _).trans ?_)
    | (simp only [implies_true, forall_const, ↓apply_ite State.boot, apply_ite Prod.fst, ite_self, ↓boot_leaf,
            ↓State.setDir_boot, ↓State.install_boot, ↓State.modHlc_boot]; done)
    | split
    | (simp only [implies_true, forall_const, ↓apply_ite State.boot, apply_ite Prod.fst, ite_self, ↓boot_leaf,
            ↓State.setDir_boot, ↓State.install_boot, ↓State.modHlc_boot])
    | rfl)

@[simp] theorem State.kickEnd_boot : ∀ (s : State) (p t : Nat) (k : Trk), (s.kickEnd p t k).boot = s.boot := by
  intros
  unfold State.kickEnd
  (repeat' first
    | with_reducible rfl
    | (with_reducible refine (foldl_keeps (State.boot) _ (fun _ _ => ?_) _ _).trans ?_)
    | (simp only [implies_true, forall_const, ↓apply_ite State.boot, apply_ite Prod.fst, ite_self, ↓boot_leaf,
            ↓State.loadRecent_boot, ↓State.endWith_boot, ↓State.poisonOut_boot]; done)
    | split
    | (simp only [implies_true, forall_const, ↓apply_ite State.boot, apply_ite Prod.fst, ite_self, ↓boot_leaf,
            ↓State.loadRecent_boot, ↓State.endWith_boot, ↓State.poisonOut_boot])
    | rfl)

@[simp] theorem State.kickClean_boot : ∀ (s : State), s.kickClean.boot = s.boot := by
  intros
  unfold State.kickClean
  (repeat' first
    | with_reducible rfl
    | (with_reducible refine (foldl_keeps (State.boot) _ (fun _ _ => ?_) _ _).trans ?_)
    | (simp only [implies_true, forall_const, ↓apply_ite State.boot, apply_ite Prod.fst, ite_self, ↓boot_leaf,
            ↓State.modHlc_boot]; done)
    | split
    | (simp only [implies_true, forall_const, ↓apply_ite State.boot, apply_ite Prod.fst, ite_self, ↓boot_leaf,
            ↓State.modHlc_boot])
    | rfl)

@[simp] theorem State.ringTrained_boot : ∀ (s : State) (r : Nat) (out : BitVec 94), (s.ringTrained r out).boot =
    s.boot := by
  intros
  simp only [State.ringTrained, apply_ite State.boot, ite_self, boot_leaf, State.modRing_boot]

@[simp] theorem State.applyMap_boot : ∀ (s : State) (m : List Nat), (s.applyMap m).boot = s.boot := by
  intros
  unfold State.applyMap
  (repeat' first
    | with_reducible rfl
    | (with_reducible refine (foldl_keeps (State.boot) _ (fun _ _ => ?_) _ _).trans ?_)
    | (simp only [implies_true, forall_const, ↓apply_ite State.boot, apply_ite Prod.fst, ite_self, ↓boot_leaf,
            ↓State.modSlice_boot, ↓State.modCopy_boot]; done)
    | split
    | (simp only [implies_true, forall_const, ↓apply_ite State.boot, apply_ite Prod.fst, ite_self, ↓boot_leaf,
            ↓State.modSlice_boot, ↓State.modCopy_boot])
    | rfl)

@[simp] theorem State.activate_boot : ∀ (s : State), s.activate.boot = s.boot := by
  intros
  unfold State.activate
  exact foldl_keeps State.boot _ (fun _ _ => by first | rfl | simp only [boot_leaf, State.modSlice_boot]) _ _

@[simp] theorem State.tapTake_boot : ∀ (s : State) (i : TapInstr), (s.tapTake i).boot = s.boot := by
  intros
  rfl

@[simp] theorem State.crgCmd_boot : ∀ (s : State) (b : Word), (s.crgCmd b).boot = s.boot := by
  intros
  simp only [State.crgCmd, apply_ite State.boot, ite_self, boot_leaf, State.crgReturn_boot, State.crgShift_boot]

@[simp] theorem State.consSet_boot : ∀ (s : State) (g : Crg), (s.consSet g).boot = s.boot := by
  intros
  unfold State.consSet
  (repeat' first
    | with_reducible rfl
    | (with_reducible refine (foldl_keeps (State.boot) _ (fun _ _ => ?_) _ _).trans ?_)
    | (simp only [implies_true, forall_const, ↓apply_ite State.boot, apply_ite Prod.fst, ite_self, ↓boot_leaf,
            ↓State.consRestart_boot, ↓State.consWake_boot]; done)
    | split
    | (simp only [implies_true, forall_const, ↓apply_ite State.boot, apply_ite Prod.fst, ite_self, ↓boot_leaf,
            ↓State.consRestart_boot, ↓State.consWake_boot])
    | rfl)

@[simp] theorem State.consCtrl_boot : ∀ (s : State) (v : Word), (s.consCtrl v).1.boot = s.boot := by
  intros
  unfold State.consCtrl
  split <;> first | rfl | simp only [boot_leaf, State.consSet_boot]
theorem State.consCtrl_bootP : ∀ {s : State} {v : Word} {u : State} {res},
    s.consCtrl v = (u, res) → u.boot = s.boot := by
  intros
  rename_i h
  have h2 := congrArg (fun r => r.1.boot) h
  simp only [State.consCtrl_boot] at h2
  exact h2.symm

@[simp] theorem State.grpWrite_boot : ∀ (s : State) (g : Nat) (v : Word), (s.grpWrite g v).1.boot = s.boot := by
  intros
  unfold State.grpWrite
  split <;> first | rfl | simp only [boot_leaf, State.modGrp_boot]
theorem State.grpWrite_bootP : ∀ {s : State} {g : Nat} {v : Word} {u : State} {res},
    s.grpWrite g v = (u, res) → u.boot = s.boot := by
  intros
  rename_i h
  have h2 := congrArg (fun r => r.1.boot) h
  simp only [State.grpWrite_boot] at h2
  exact h2.symm

@[simp] theorem State.ovfClear_boot : ∀ (s : State) (w : Nat) (b : Word), (s.ovfClear w b).boot = s.boot := by
  intros
  rfl

@[simp] theorem State.pmcGctrl_boot : ∀ (s : State) (v : Word), (s.pmcGctrl v).boot = s.boot := by
  intros
  unfold State.pmcGctrl
  split <;> first | rfl | simp only [boot_leaf, State.pmcSnapshot_boot, State.pmcFreeze_boot, State.modPmc_boot]

@[simp] theorem State.cmdCtrl_boot : ∀ (s : State) (v : Word), (s.cmdCtrl v).boot = s.boot := by
  intros
  simp only [State.cmdCtrl, apply_ite State.boot, ite_self, boot_leaf, State.modHfn_boot, State.hfnFetch_boot]

@[simp] theorem State.rasStore_boot : ∀ (s : State) (o : Nat) (new b : Word), (s.rasStore o new b).boot = s.boot := by
  intros
  simp only [State.rasStore, apply_ite State.boot, ite_self, boot_leaf, State.spareCtrl_boot, State.modRas_boot]

@[simp] theorem State.safStore_boot : ∀ (s : State) (who : Sys2Proof.Writer) (o : Nat) (new b : Word),
  (s.safStore who o new b).boot = s.boot := by
  intros
  simp only [State.safStore, apply_ite State.boot, ite_self, boot_leaf, State.modSaf_boot]

@[simp] theorem State.iagStore_boot : ∀ (s : State) (o : Nat) (new b : Word), (s.iagStore o new b).boot = s.boot := by
  intros
  simp only [State.iagStore, apply_ite State.boot, ite_self, boot_leaf, State.modIag_boot, State.doorbell_boot,
      State.hostEoi_boot, State.grpWrite_boot, State.srcWrite_boot]

@[simp] theorem State.pmcStore_boot : ∀ (s : State) (o : Nat) (new b : Word), (s.pmcStore o new b).boot = s.boot := by
  intros
  simp only [State.pmcStore, apply_ite State.boot, ite_self, boot_leaf, State.modPmc_boot, State.pmcGctrl_boot,
      State.ovfClear_boot, State.noteRsvd_boot, State.pmcCnt_boot, State.pmcSel_boot]

@[simp] theorem State.farStore_boot : ∀ (s : State) (o : Nat) (new b : Word), (s.farStore o new b).boot = s.boot := by
  intros
  simp only [State.farStore, apply_ite State.boot, ite_self, boot_leaf, State.farLoadCtrl_boot, State.modLoader_boot]

@[simp] theorem State.clkStore_boot : ∀ (s : State) (o : Nat) (new b : Word), (s.clkStore o new b).boot = s.boot := by
  intros
  simp only [State.clkStore, apply_ite State.boot, ite_self, boot_leaf, State.modClk_boot]

@[simp] theorem State.undefAccess_boot : ∀ (s : State), s.undefAccess.boot = s.boot := by
  intros
  rfl

@[simp] theorem State.glbRc_boot : ∀ (s : State) (o : Nat) (m : Word), (s.glbRc o m).boot = s.boot := by
  intros
  simp only [State.glbRc, apply_ite State.boot, ite_self, boot_leaf, State.modMpt_boot, State.modRas_boot,
      State.modPwr_boot, State.modHfn_boot, State.modIag_boot]

@[simp] theorem State.glbRead_boot : ∀ (s : State) (off size : Nat), (s.glbRead off size).1.boot = s.boot := by
  intros
  unfold State.glbRead
  (repeat' first
    | with_reducible rfl
    | (with_reducible refine (foldl_keeps (State.boot) _ (fun _ _ => ?_) _ _).trans ?_)
    | (simp only [implies_true, forall_const, ↓apply_ite State.boot, apply_ite Prod.fst, ite_self, ↓boot_leaf,
            ↓State.glbRc_boot]; done)
    | split
    | (simp only [implies_true, forall_const, ↓apply_ite State.boot, apply_ite Prod.fst, ite_self, ↓boot_leaf,
            ↓State.glbRc_boot])
    | rfl)
theorem State.glbRead_bootP : ∀ {s : State} {off size : Nat} {u : State} {res},
    s.glbRead off size = (u, res) → u.boot = s.boot := by
  intros
  rename_i h
  have h2 := congrArg (fun r => r.1.boot) h
  simp only [State.glbRead_boot] at h2
  exact h2.symm

@[simp] theorem State.badAccess_boot : ∀ (s : State), s.badAccess.boot = s.boot := by
  intros
  rfl

@[simp] theorem State.gatedAccess_boot : ∀ (s : State) (asleep : Bool), (s.gatedAccess asleep).boot = s.boot := by
  intros
  unfold State.gatedAccess
  split <;> first | rfl | simp only [boot_leaf, State.modPwr_boot]

@[simp] theorem endsLater_boot : ∀ (t : State) (runs : Bool) (k : AwaitKind), (endsLater t runs k).1.boot = t.boot
    := by
  intros
  rfl
theorem endsLater_bootP : ∀ {t : State} {runs : Bool} {k : AwaitKind} {u : State} {res},
    endsLater t runs k = (u, res) → u.boot = t.boot := by
  intros
  rename_i h
  have h2 := congrArg (fun r => r.1.boot) h
  simp only [endsLater_boot] at h2
  exact h2.symm

@[simp] theorem State.allSlices_boot : ∀ (s : State) (f : Slice → Slice), (s.allSlices f).boot = s.boot := by
  intros
  unfold State.allSlices
  exact foldl_keeps State.boot _ (fun _ _ => by first | rfl | simp only [boot_leaf, State.modSlice_boot]) _ _

@[simp] theorem State.allHlc_boot : ∀ (s : State) (f : Hlc → Hlc), (s.allHlc f).boot = s.boot := by
  intros
  simp only [State.allHlc, boot_leaf, State.allSlices_boot]

@[simp] theorem State.writeProg_boot : ∀ (s : State) (slot : Nat) (b : List Byte), (s.writeProg slot b).1.boot =
    s.boot := by
  intros
  unfold State.writeProg
  (repeat' first
    | with_reducible rfl
    | (with_reducible refine (foldl_keeps (State.boot) _ (fun _ _ => ?_) _ _).trans ?_)
    | (simp only [implies_true, forall_const, ↓apply_ite State.boot, apply_ite Prod.fst, ite_self, ↓boot_leaf,
            ↓State.farLoad_boot]; done)
    | split
    | (simp only [implies_true, forall_const, ↓apply_ite State.boot, apply_ite Prod.fst, ite_self, ↓boot_leaf,
            ↓State.farLoad_boot])
    | rfl)
theorem State.writeProg_bootP : ∀ {s : State} {slot : Nat} {b : List Byte} {u : State} {res},
    s.writeProg slot b = (u, res) → u.boot = s.boot := by
  intros
  rename_i h
  have h2 := congrArg (fun r => r.1.boot) h
  simp only [State.writeProg_boot] at h2
  exact h2.symm

@[simp] theorem State.writeCommit_boot : ∀ (s : State) (v : Nat), (s.writeCommit v).1.boot = s.boot := by
  intros
  unfold State.writeCommit
  (repeat' split) <;> first | rfl | simp only [boot_leaf, State.fwCommit_boot]
theorem State.writeCommit_bootP : ∀ {s : State} {v : Nat} {u : State} {res},
    s.writeCommit v = (u, res) → u.boot = s.boot := by
  intros
  rename_i h
  have h2 := congrArg (fun r => r.1.boot) h
  simp only [State.writeCommit_boot] at h2
  exact h2.symm

@[simp] theorem State.fgDiscard_boot : ∀ (s : State), s.fgDiscard.boot = s.boot := by
  intros
  rfl

@[simp] theorem State.fgTake_boot : ∀ (s : State) (rt : Route) (b : List Byte), (s.fgTake rt b).1.boot = s.boot := by
  intros
  unfold State.fgTake
  (repeat' split) <;> first | rfl | simp only [boot_leaf]
theorem State.fgTake_bootP : ∀ {s : State} {rt : Route} {b : List Byte} {u : State} {res},
    s.fgTake rt b = (u, res) → u.boot = s.boot := by
  intros
  rename_i h
  have h2 := congrArg (fun r => r.1.boot) h
  simp only [State.fgTake_boot] at h2
  exact h2.symm

@[simp] theorem State.mbxGo_boot : ∀ (s : State), s.mbxGo.boot = s.boot := by
  intros
  unfold State.mbxGo
  (repeat' split) <;> first | rfl | simp only [boot_leaf, State.fgDiscard_boot]

@[simp] theorem State.pollUnits_boot : ∀ (s : State), s.pollUnits.boot = s.boot := by
  intros
  rfl

@[simp] theorem State.cccGet_boot : ∀ (s : State) (b : List Byte), (s.cccGet b).boot = s.boot := by
  intros
  unfold State.cccGet
  split <;> first | rfl | simp only [boot_leaf]

@[simp] theorem State.rpqCtrlWrite_boot : ∀ (s : State) (q : Nat) (v : BitVec 32), (s.rpqCtrlWrite q v).boot =
    s.boot := by
  intros
  simp only [State.rpqCtrlWrite, apply_ite State.boot, ite_self, boot_leaf, State.rpqFlush_boot, State.modRpq_boot,
      State.noteRsvd_boot]

@[simp] theorem State.msixTableWrite_boot : ∀ (s : State) (vec at_ size : Nat) (v : Word), (s.msixTableWrite vec at_
    size v).boot = s.boot := by
  intros
  simp only [State.msixTableWrite, boot_leaf, State.modHfn_boot, State.msixRelease_boot]

@[simp] theorem State.bar2Load_boot : ∀ (s : State) (off size : Nat) (l : Bar2Loc), (s.bar2Load off size l).1.boot =
    s.boot := by
  intros
  unfold State.bar2Load
  (repeat' split) <;> first
    | rfl
    | simp only [boot_leaf, State.undefAccess_boot, State.modRpq_boot, State.rpqPop_boot]
theorem State.bar2Load_bootP : ∀ {s : State} {off size : Nat} {l : Bar2Loc} {u : State} {res},
    s.bar2Load off size l = (u, res) → u.boot = s.boot := by
  intros
  rename_i h
  have h2 := congrArg (fun r => r.1.boot) h
  simp only [State.bar2Load_boot] at h2
  exact h2.symm

@[simp] theorem State.bar2Bad_boot : ∀ (s : State) (asleep : Bool) (a : Bar2Loc), (s.bar2Bad asleep a).boot = s.boot
    := by
  intros
  unfold State.bar2Bad
  (repeat' split) <;> first | rfl | simp only [boot_leaf, State.modRpq_boot, State.badAccess_boot]

@[simp] theorem State.bar2Read_boot : ∀ (s : State) (off size : Nat), (s.bar2Read off size).1.boot = s.boot := by
  intros
  unfold State.bar2Read
  (repeat' first
    | with_reducible rfl
    | (with_reducible refine (State.bar2Load_bootP (by assumption)).trans ?_)
    | (with_reducible refine (foldl_keeps (State.boot) _ (fun _ _ => ?_) _ _).trans ?_)
    | (simp only [implies_true, forall_const, ↓apply_ite State.boot, apply_ite Prod.fst, ite_self, ↓boot_leaf,
            ↓State.bar2Load_boot, ↓State.gatedAccess_boot, ↓State.bar2Bad_boot]; done)
    | split
    | (simp only [implies_true, forall_const, ↓apply_ite State.boot, apply_ite Prod.fst, ite_self, ↓boot_leaf,
            ↓State.bar2Load_boot, ↓State.gatedAccess_boot, ↓State.bar2Bad_boot])
    | rfl)
theorem State.bar2Read_bootP : ∀ {s : State} {off size : Nat} {u : State} {res},
    s.bar2Read off size = (u, res) → u.boot = s.boot := by
  intros
  rename_i h
  have h2 := congrArg (fun r => r.1.boot) h
  simp only [State.bar2Read_boot] at h2
  exact h2.symm

@[simp] theorem State.hostAnswer_boot : ∀ (s : State) (v : BitVec 128), (s.hostAnswer v).boot = s.boot := by
  intros
  rfl

@[simp] theorem State.notTaken_boot : ∀ (s : State) (write : Bool), (s.notTaken write).boot = s.boot := by
  intros
  simp only [State.notTaken, apply_ite State.boot, ite_self, boot_leaf, State.modHfn_boot]

@[simp] theorem State.evacKeep_boot : ∀ (s : State) (v : Evac), (s.evacKeep v).boot = s.boot := by
  intros
  rfl

@[simp] theorem State.pmcTick_boot : ∀ (s : State), s.pmcTick.boot = s.boot := by
  intros
  unfold State.pmcTick
  split <;> first | rfl | simp only [boot_leaf, State.modPmc_boot]

@[simp] theorem State.idleCycle_boot : ∀ (s : State), s.idleCycle.boot = s.boot := by
  intros
  unfold State.idleCycle
  split <;> first | rfl | simp only [boot_leaf, State.creditCycles_boot, State.pmcTick_boot]

@[simp] theorem State.spillRose_boot (s t : State) : (s.spillRose t).boot = t.boot := by
  unfold State.spillRose
  split <;> simp

theorem put_keeps (v : Svc) (m : Byte × BitVec 3 × List Byte) :
    (v.put m).sessions = v.sessions ∧ (v.put m).ownerKey = v.ownerKey := ⟨rfl, rfl⟩

theorem foldl_put_keeps (l : List (Byte × BitVec 3 × List Byte)) (v : Svc) :
    (l.foldl Svc.put v).sessions = v.sessions ∧ (l.foldl Svc.put v).ownerKey = v.ownerKey := by
  induction l generalizing v with
  | nil => exact ⟨rfl, rfl⟩
  | cons m l ih => exact ih (v.put m)

@[simp] theorem State.svcFlush_boot (s : State) : s.svcFlush.boot = s.boot := by
  unfold State.svcFlush
  split
  · rfl
  · simp [State.boot, State.modSvc, State.whos, foldl_put_keeps]

@[simp] theorem State.missFirst_boot (s : State) (p : Nat) (l : List (Nat × Trk)) :
    (s.missFirst p l).boot = s.boot := by
  have keep : ∀ (l : List (Nat × Trk)) (r : State × Bool),
      (l.foldl (fun r e => if r.2 then r else r.1.missTry p e.1 e.2) r).1.boot = r.1.boot := by
    intro l
    induction l with
    | nil => exact fun _ => rfl
    | cons e l ih =>
      intro r
      rw [List.foldl_cons, ih]
      split
      · rfl
      · exact State.missTry_boot ..
  exact keep l (s, false)

theorem State.regWrite_boot (s : State) (f : State → State) (h : ∀ t, (f t).boot = t.boot) :
    (s.regWrite f).boot = s.boot := by
  unfold State.regWrite
  split
  · rfl
  · exact h s

@[simp] theorem State.missOpen_boot : ∀ (s : State) (p : Nat), (s.missOpen p).boot = s.boot := by
  intros
  simp only [State.missOpen, boot_leaf, State.missFirst_boot]

@[simp] theorem State.mctpSend_boot : ∀ (s : State) (dst : Byte) (tag : BitVec 3) (b : List Byte), (s.mctpSend dst
    tag b).boot = s.boot := by
  intros
  unfold State.mctpSend
  (repeat' first
    | with_reducible rfl
    | (with_reducible refine (foldl_keeps (State.boot) _ (fun _ _ => ?_) _ _).trans ?_)
    | (simp only [implies_true, forall_const, ↓apply_ite State.boot, apply_ite Prod.fst, ite_self, ↓boot_leaf,
            ↓State.svcFlush_boot]; done)
    | split
    | (simp only [implies_true, forall_const, ↓apply_ite State.boot, apply_ite Prod.fst, ite_self, ↓boot_leaf,
            ↓State.svcFlush_boot])
    | rfl)

@[simp] theorem State.sendTo_boot : ∀ (s : State) (peer : Peer) (b : List Byte), (s.sendTo peer b).boot = s.boot := by
  intros
  unfold State.sendTo
  split <;> first | rfl | simp only [boot_leaf, State.fire_boot, State.mctpSend_boot]

@[simp] theorem State.spillOne_boot : ∀ (s : State), s.spillOne.boot = s.boot := by
  intros
  unfold State.spillOne
  (repeat' first
    | with_reducible rfl
    | (with_reducible refine (foldl_keeps (State.boot) _ (fun _ _ => ?_) _ _).trans ?_)
    | (simp only [implies_true, forall_const, ↓apply_ite State.boot, apply_ite Prod.fst, ite_self, ↓boot_leaf,
            ↓State.modHfn_boot, ↓State.spillRose_boot]; done)
    | split
    | (simp only [implies_true, forall_const, ↓apply_ite State.boot, apply_ite Prod.fst, ite_self, ↓boot_leaf,
            ↓State.modHfn_boot, ↓State.spillRose_boot])
    | rfl)

@[simp] theorem State.spillAll_boot : ∀ (s : State), s.spillAll.boot = s.boot := by
  intros
  unfold State.spillAll
  exact foldl_keeps State.boot _ (fun _ _ => by first | rfl | simp only [boot_leaf, State.spillOne_boot]) _ _

@[simp] theorem State.spillRd_boot : ∀ (s : State) (v : BitVec 32), (s.spillRd v).boot = s.boot := by
  intros
  unfold State.spillRd
  split <;> first | rfl | simp only [boot_leaf, State.spillRose_boot]

@[simp] theorem State.spillCtrl_boot : ∀ (s : State) (v : BitVec 32), (s.spillCtrl v).boot = s.boot := by
  intros
  simp only [State.spillCtrl, apply_ite State.boot, ite_self, boot_leaf, State.spillAll_boot, State.modHfn_boot,
      State.noteRsvd_boot]

@[simp] theorem State.bmeSet_boot : ∀ (s : State), s.bmeSet.boot = s.boot := by
  intros
  simp only [State.bmeSet, boot_leaf, State.modHfn_boot, State.msixRelease_boot, State.spillAll_boot,
      State.hfnFetch_boot]

@[simp] theorem State.hfnToD0_boot : ∀ (s : State), s.hfnToD0.boot = s.boot := by
  intros
  simp only [State.hfnToD0, boot_leaf, State.modHfn_boot, State.msixRelease_boot, State.spillAll_boot,
      State.hfnFetch_boot]

@[simp] theorem State.hfnStore_boot : ∀ (s : State) (o : Nat) (new b : Word), (s.hfnStore o new b).boot = s.boot := by
  intros
  simp only [State.hfnStore, apply_ite State.boot, ite_self, boot_leaf, State.cmdResume_boot, State.cmdTail_boot,
      State.cmdCtrl_boot, State.spillRd_boot, State.spillCtrl_boot, State.modHfn_boot]

@[simp] theorem State.glbStore_boot : ∀ (s : State) (who : Sys2Proof.Writer) (o : Nat) (old v m : Word),
  (s.glbStore who o old v m).boot = s.boot := by
  intros
  simp only [State.glbStore, apply_ite State.boot, ite_self, boot_leaf, State.clkStore_boot, State.safStore_boot,
      State.rasStore_boot, State.edgeRelease_boot, State.hfnStore_boot, State.pmcStore_boot, State.iagStore_boot,
      State.farStore_boot, State.consCtrl_boot, State.crgCmd_boot, State.noteRsvd_boot]

@[simp] theorem State.glbWrite_boot : ∀ (s : State) (who : Sys2Proof.Writer) (off size : Nat) (v : Word),
  (s.glbWrite who off size v).boot = s.boot := by
  intros
  unfold State.glbWrite
  (repeat' first
    | with_reducible rfl
    | (with_reducible refine (foldl_keeps (State.boot) _ (fun _ _ => ?_) _ _).trans ?_)
    | (simp only [implies_true, forall_const, ↓apply_ite State.boot, apply_ite Prod.fst, ite_self, ↓boot_leaf,
            ↓State.glbStore_boot, ↓State.undefAccess_boot]; done)
    | split
    | (simp only [implies_true, forall_const, ↓apply_ite State.boot, apply_ite Prod.fst, ite_self, ↓boot_leaf,
            ↓State.glbStore_boot, ↓State.undefAccess_boot])
    | rfl)

@[simp] theorem State.plainAnswer_boot : ∀ (s : State) (peer : Peer) (b : List Byte) (status detail : Byte),
  (s.plainAnswer peer b status detail).boot = s.boot := by
  intros
  simp only [State.plainAnswer, boot_leaf, State.sendTo_boot]

@[simp] theorem State.fgMalformed_boot : ∀ (s : State) (peer : Peer) (b : List Byte) (check : Nat), (s.fgMalformed
    peer b check).boot = s.boot := by
  intros
  unfold State.fgMalformed
  (repeat' first
    | with_reducible rfl
    | (with_reducible refine (foldl_keeps (State.boot) _ (fun _ _ => ?_) _ _).trans ?_)
    | (simp only [implies_true, forall_const, ↓apply_ite State.boot, apply_ite Prod.fst, ite_self, ↓boot_leaf,
            ↓State.plainAnswer_boot]; done)
    | split
    | (simp only [implies_true, forall_const, ↓apply_ite State.boot, apply_ite Prod.fst, ite_self, ↓boot_leaf,
            ↓State.plainAnswer_boot])
    | rfl)

@[simp] theorem State.ctlAnswer_boot : ∀ (s : State) (e : Byte) (tag : BitVec 3) (cmd : Byte) (data : List Byte),
  (s.ctlAnswer e tag cmd data).boot = s.boot := by
  intros
  unfold State.ctlAnswer
  (repeat' first
    | with_reducible rfl
    | (with_reducible refine (foldl_keeps (State.boot) _ (fun _ _ => ?_) _ _).trans ?_)
    | (simp only [implies_true, forall_const, ↓apply_ite State.boot, apply_ite Prod.fst, ite_self, ↓boot_leaf,
            ↓State.mctpSend_boot]; done)
    | split
    | (simp only [implies_true, forall_const, ↓apply_ite State.boot, apply_ite Prod.fst, ite_self, ↓boot_leaf,
            ↓State.mctpSend_boot])
    | rfl)

@[simp] theorem State.mctpTake_boot : ∀ (s : State) (e : Byte) (tag : BitVec 3) (b : List Byte), (s.mctpTake e tag
    b).boot = s.boot := by
  intros
  unfold State.mctpTake
  (repeat' split) <;> first | rfl | simp only [boot_leaf, State.mctpSend_boot]

@[simp] theorem State.mctpAdd_boot : ∀ (s : State) (k : MctpPkt) (b : List Byte), (s.mctpAdd k b).boot = s.boot := by
  intros
  unfold State.mctpAdd
  (repeat' first
    | with_reducible rfl
    | (with_reducible refine (foldl_keeps (State.boot) _ (fun _ _ => ?_) _ _).trans ?_)
    | (simp only [implies_true, forall_const, ↓apply_ite State.boot, apply_ite Prod.fst, ite_self, ↓boot_leaf,
            ↓State.mctpTake_boot, ↓State.fgDiscard_boot]; done)
    | split
    | (simp only [implies_true, forall_const, ↓apply_ite State.boot, apply_ite Prod.fst, ite_self, ↓boot_leaf,
            ↓State.mctpTake_boot, ↓State.fgDiscard_boot])
    | rfl)

theorem State.modSession_boot (s : State) (n : BitVec 16) (f : Session → Session) (h : ∀ x, (f x).who = x.who) :
    (s.modSession n f).boot = s.boot := by
  have hw : (s.modSession n f).whos = s.whos := by
    simp only [State.whos, State.modSession, State.modSvc, List.map_map]
    refine List.map_congr_left fun x _ => ?_
    simp only [Function.comp]
    split
    · exact h x
    · rfl
  simp only [State.boot, hw]
  rfl

@[simp] theorem State.answer_boot (s : State) (peer : Peer) (n tx : BitVec 16) (ty status detail : Byte)
    (body : List Byte) : (s.answer peer n tx ty status detail body).boot = s.boot := by
  unfold State.answer
  split
  · rfl
  · exact (State.sendTo_boot ..).trans (State.modSession_boot _ _ _ fun _ => rfl)

@[simp] theorem State.seqError_boot (s : State) (peer : Peer) (x : Session) (ty : Byte) :
    (s.seqError peer x ty).boot = s.boot :=
  (State.sendTo_boot ..).trans (State.modSession_boot _ _ _ fun _ => rfl)

@[simp] theorem State.awaitEnd_boot (s : State) (kind : AwaitKind) (status detail : Byte) :
    (s.awaitEnd kind status detail).boot = s.boot := by
  unfold State.awaitEnd
  split
  · split
    · exact State.answer_boot ..
    · rfl
  · rfl

@[simp] theorem State.arrive_boot : ∀ (s : State) (p t : Nat), (s.arrive p t).boot = s.boot := by
  intros
  unfold State.arrive
  split <;> first | rfl | simp only [boot_leaf, State.decideReq_boot, State.lookup_boot]

@[simp] theorem State.release_boot : ∀ (s : State) (p t : Nat), (s.release p t).boot = s.boot := by
  intros
  unfold State.release
  (repeat' first
    | with_reducible rfl
    | (with_reducible refine (foldl_keeps (State.boot) _ (fun _ _ => ?_) _ _).trans ?_)
    | (simp only [implies_true, forall_const, ↓apply_ite State.boot, apply_ite Prod.fst, ite_self, ↓boot_leaf,
            ↓State.modTrk_boot, ↓State.arrive_boot, ↓State.modSlice_boot, ↓State.settle_boot,
            ↓State.startHead_boot]; done)
    | split
    | (simp only [implies_true, forall_const, ↓apply_ite State.boot, apply_ite Prod.fst, ite_self, ↓boot_leaf,
            ↓State.modTrk_boot, ↓State.arrive_boot, ↓State.modSlice_boot, ↓State.settle_boot,
            ↓State.startHead_boot])
    | rfl)

@[simp] theorem State.drainsOver_boot : ∀ (s : State), s.drainsOver.boot = s.boot := by
  intros
  unfold State.drainsOver
  split <;> first | rfl | simp only [boot_leaf, State.awaitEnd_boot]

@[simp] theorem State.waysOver_boot : ∀ (s : State) (p : Nat), (s.waysOver p).boot = s.boot := by
  intros
  unfold State.waysOver
  split <;> first | rfl | simp only [boot_leaf, State.awaitEnd_boot]

@[simp] theorem State.engReset_boot : ∀ (s : State) (e : Nat) (run : Bool), (s.engReset e run).boot = s.boot := by
  intros
  simp only [State.engReset, apply_ite State.boot, ite_self, boot_leaf, State.awaitEnd_boot, State.modSlice_boot,
      State.modEng_boot, State.emptyRecord_boot, State.dropRsv_boot]

@[simp] theorem State.tryWarm_boot : ∀ (s : State) (e : Nat), (s.tryWarm e).boot = s.boot := by
  intros
  simp only [State.tryWarm, apply_ite State.boot, ite_self, boot_leaf, State.modEng_boot, State.engReset_boot]

@[simp] theorem State.warmStart_boot : ∀ (s : State) (e : Nat), (s.warmStart e).boot = s.boot := by
  intros
  simp only [State.warmStart, boot_leaf, State.pump_boot, State.tryWarm_boot, State.dropRsv_boot, State.modEng_boot]

@[simp] theorem State.storeDone_boot : ∀ (s : State) (e : Nat) (txn : BitVec 12), (s.storeDone e txn).boot = s.boot
    := by
  intros
  simp only [State.storeDone, boot_leaf, State.pump_boot, State.tryWarm_boot, State.modEng_boot]

@[simp] theorem State.farReturn_boot : ∀ (s : State) (p : Nat), (s.farReturn p).boot = s.boot := by
  intros
  unfold State.farReturn
  (repeat' first
    | with_reducible rfl
    | (with_reducible refine (foldl_keeps (State.boot) _ (fun _ _ => ?_) _ _).trans ?_)
    | (simp only [implies_true, forall_const, ↓apply_ite State.boot, apply_ite Prod.fst, ite_self, ↓boot_leaf,
            ↓State.wake_boot, ↓State.boundary_boot, ↓State.tryWarm_boot, ↓State.exc_boot, ↓State.modSlice_boot,
            ↓State.modEng_boot]; done)
    | split
    | (simp only [implies_true, forall_const, ↓apply_ite State.boot, apply_ite Prod.fst, ite_self, ↓boot_leaf,
            ↓State.wake_boot, ↓State.boundary_boot, ↓State.tryWarm_boot, ↓State.exc_boot, ↓State.modSlice_boot,
            ↓State.modEng_boot])
    | rfl)

@[simp] theorem State.engWarm_boot : ∀ (s : State) (e : Nat), (s.engWarm e).boot = s.boot := by
  intros
  unfold State.engWarm
  split <;> first | rfl | simp only [boot_leaf, State.engRefuse_boot, State.warmStart_boot]

@[simp] theorem State.coldStart_boot : ∀ (s : State) (e : Nat), (s.coldStart e).boot = s.boot := by
  intros
  unfold State.coldStart
  (repeat' first
    | with_reducible rfl
    | (with_reducible refine (foldl_keeps (State.boot) _ (fun _ _ => ?_) _ _).trans ?_)
    | (simp only [implies_true, forall_const, ↓apply_ite State.boot, apply_ite Prod.fst, ite_self, ↓boot_leaf,
            ↓State.modEng_boot, ↓State.engReset_boot, ↓State.farDecline_boot, ↓State.modLine_boot,
            ↓State.settle_boot, ↓State.modSlice_boot, ↓State.declineReady_boot]; done)
    | split
    | (simp only [implies_true, forall_const, ↓apply_ite State.boot, apply_ite Prod.fst, ite_self, ↓boot_leaf,
            ↓State.modEng_boot, ↓State.engReset_boot, ↓State.farDecline_boot, ↓State.modLine_boot,
            ↓State.settle_boot, ↓State.modSlice_boot, ↓State.declineReady_boot])
    | rfl)

@[simp] theorem State.engCold_boot : ∀ (s : State) (e : Nat), (s.engCold e).boot = s.boot := by
  intros
  unfold State.engCold
  split <;> first | rfl | simp only [boot_leaf, State.engRefuse_boot, State.coldStart_boot]

@[simp] theorem State.resume_boot : ∀ (s : State) (e : Nat), (s.resume e).boot = s.boot := by
  intros
  simp only [State.resume, apply_ite State.boot, ite_self, boot_leaf, State.wake_boot, State.modEng_boot,
      State.boundary_boot, State.awaitEnd_boot]

@[simp] theorem State.engResume_boot : ∀ (s : State) (e : Nat), (s.engResume e).boot = s.boot := by
  intros
  unfold State.engResume
  split <;> first | rfl | simp only [boot_leaf, State.resume_boot, State.engRefuse_boot]

@[simp] theorem State.fwWrite_boot : ∀ (s : State) (e : Nat), (s.fwWrite e).boot = s.boot := by
  intros
  simp only [State.fwWrite, boot_leaf, State.engReset_boot, State.modEng_boot]

@[simp] theorem State.loadFailed_boot : ∀ (s : State) (e : Nat), (s.loadFailed e).boot = s.boot := by
  intros
  simp only [State.loadFailed, boot_leaf, State.engErr_boot, State.modEng_boot, State.engReset_boot]

@[simp] theorem State.startSteward_boot : ∀ (s : State), s.startSteward.boot = s.boot := by
  intros
  simp only [State.startSteward, boot_leaf, State.resume_boot, State.modPwr_boot, State.modSaf_boot]

@[simp] theorem State.resumeOwn_boot : ∀ (s : State), s.resumeOwn.boot = s.boot := by
  intros
  unfold State.resumeOwn
  exact foldl_keeps State.boot _ (fun _ _ => by first
    | rfl
    | simp only [boot_leaf, State.resume_boot, State.modPwr_boot]) _ _

@[simp] theorem State.powerRefuse_boot : ∀ (s : State) (cause : BitVec 3), (s.powerRefuse cause).boot = s.boot := by
  intros
  simp only [State.powerRefuse, boot_leaf, State.modPwr_boot, State.fire_boot, State.awaitEnd_boot]

@[simp] theorem State.powerUndo_boot : ∀ (s : State) (cause : BitVec 3), (s.powerUndo cause).boot = s.boot := by
  intros
  simp only [State.powerUndo, boot_leaf, State.resumeOwn_boot, State.startSteward_boot, State.liftHold_boot,
      State.powerRefuse_boot, State.modPwr_boot]

@[simp] theorem State.powerEntered_boot : ∀ (s : State) (t : PwrTrans), (s.powerEntered t).boot = s.boot := by
  intros
  simp only [State.powerEntered, boot_leaf, State.fire_boot, State.awaitEnd_boot, State.modPwr_boot]

@[simp] theorem State.powerLeft_boot : ∀ (s : State) (t : PwrTrans), (s.powerLeft t).boot = s.boot := by
  intros
  unfold State.powerLeft
  (repeat' first
    | with_reducible rfl
    | (with_reducible refine (foldl_keeps (State.boot) _ (fun _ _ => ?_) _ _).trans ?_)
    | (simp only [implies_true, forall_const, ↓apply_ite State.boot, apply_ite Prod.fst, ite_self, ↓boot_leaf,
            ↓State.fire_boot, ↓State.awaitEnd_boot, ↓State.modSaf_boot, ↓State.liftHold_boot, ↓State.resumeOwn_boot,
            ↓State.startSteward_boot, ↓State.relink_boot, ↓State.copiesLost_boot, ↓State.modPwr_boot]; done)
    | split
    | (simp only [implies_true, forall_const, ↓apply_ite State.boot, apply_ite Prod.fst, ite_self, ↓boot_leaf,
            ↓State.fire_boot, ↓State.awaitEnd_boot, ↓State.modSaf_boot, ↓State.liftHold_boot, ↓State.resumeOwn_boot,
            ↓State.startSteward_boot, ↓State.relink_boot, ↓State.copiesLost_boot, ↓State.modPwr_boot])
    | rfl)

@[simp] theorem State.writeQuiesce_boot : ∀ (s : State) (e : Nat) (v : Bool), (s.writeQuiesce e v).boot = s.boot := by
  intros
  simp only [State.writeQuiesce, apply_ite State.boot, ite_self, boot_leaf, State.engResume_boot,
      State.engQuiesce_boot]

@[simp] theorem State.writeEngCtrl_boot : ∀ (s : State) (e : Nat) (v : Word), (s.writeEngCtrl e v).boot = s.boot := by
  intros
  simp only [State.writeEngCtrl, apply_ite State.boot, ite_self, boot_leaf, State.writeQuiesce_boot,
      State.engWarm_boot, State.engCold_boot, State.engRefuse_boot]

@[simp] theorem State.sliceStore_boot : ∀ (s : State) (p o : Nat) (old v m : Word), (s.sliceStore p o old v m).boot
    = s.boot := by
  intros
  simp only [State.sliceStore, apply_ite State.boot, ite_self, boot_leaf, State.sliceW1c_boot, State.modEng_boot,
      State.writeEngCtrl_boot, State.writeFarCtrl_boot, State.writeWays_boot, State.writeHlcCtrl_boot,
      State.writeSflCtrl_boot, State.modSlice_boot, State.writeRgn_boot, State.noteRsvd_boot]

@[simp] theorem State.sliceWrite_boot : ∀ (s : State) (p off size : Nat) (v : Word), (s.sliceWrite p off size
    v).1.boot = s.boot := by
  intros
  unfold State.sliceWrite
  (repeat' first
    | with_reducible rfl
    | (with_reducible refine (foldl_keeps (State.boot) _ (fun _ _ => ?_) _ _).trans ?_)
    | (simp only [implies_true, forall_const, ↓apply_ite State.boot, apply_ite Prod.fst, ite_self, ↓boot_leaf,
            ↓State.sliceStore_boot]; done)
    | split
    | (simp only [implies_true, forall_const, ↓apply_ite State.boot, apply_ite Prod.fst, ite_self, ↓boot_leaf,
            ↓State.sliceStore_boot])
    | rfl)
theorem State.sliceWrite_bootP : ∀ {s : State} {p off size : Nat} {v : Word} {u : State} {res},
    s.sliceWrite p off size v = (u, res) → u.boot = s.boot := by
  intros
  rename_i h
  have h2 := congrArg (fun r => r.1.boot) h
  simp only [State.sliceWrite_boot] at h2
  exact h2.symm

@[simp] theorem State.retireSlice_boot : ∀ (s : State) (p : Nat), (s.retire_ p).boot = s.boot := by
  intros
  simp only [State.retire_, boot_leaf, State.modPwr_boot, State.modEng_boot, State.engReset_boot, State.modSlice_boot]

@[simp] theorem State.evacDone_boot : ∀ (s : State) (v : Evac), (s.evacDone v).boot = s.boot := by
  intros
  unfold State.evacDone
  (repeat' first
    | with_reducible rfl
    | (with_reducible refine (foldl_keeps (State.boot) _ (fun _ _ => ?_) _ _).trans ?_)
    | (simp only [implies_true, forall_const, ↓apply_ite State.boot, apply_ite Prod.fst, ite_self, ↓boot_leaf,
            ↓State.evacRecord_boot, ↓State.fire_boot, ↓State.awaitEnd_boot, ↓State.modSpare_boot,
            ↓State.modSaf_boot, ↓State.retireSlice_boot]; done)
    | split
    | (simp only [implies_true, forall_const, ↓apply_ite State.boot, apply_ite Prod.fst, ite_self, ↓boot_leaf,
            ↓State.evacRecord_boot, ↓State.fire_boot, ↓State.awaitEnd_boot, ↓State.modSpare_boot,
            ↓State.modSaf_boot, ↓State.retireSlice_boot])
    | rfl)

@[simp] theorem State.evacUndo_boot : ∀ (s : State) (v : Evac), (s.evacUndo v).boot = s.boot := by
  intros
  simp only [State.evacUndo, apply_ite State.boot, ite_self, boot_leaf, State.resume_boot, State.modEvac_boot,
      State.modSaf_boot, State.relayDeliver_boot, State.clearHold_boot]

@[simp] theorem State.evacGiveUp_boot : ∀ (s : State) (v : Evac), (s.evacGiveUp v).boot = s.boot := by
  intros
  simp only [State.evacGiveUp, boot_leaf, State.modSpare_boot, State.evacRecord_boot, State.fire_boot,
      State.awaitEnd_boot]

@[simp] theorem State.kickDirect_boot : ∀ (s : State), s.kickDirect.boot = s.boot := by
  intros
  simp only [State.kickDirect, boot_leaf, State.pmcFreeze_boot, State.pmcSnapshot_boot, State.fire_boot,
      State.modPwr_boot, State.awaitEnd_boot, State.modSaf_boot]

@[simp] theorem State.kickWake_boot : ∀ (s : State), s.kickWake.boot = s.boot := by
  intros
  simp only [State.kickWake, apply_ite State.boot, ite_self, boot_leaf, State.modPwr_boot, State.startSteward_boot,
      State.awaitEnd_boot]

@[simp] theorem State.kickSlice_boot : ∀ (s : State) (p : Nat), (s.kickSlice p).boot = s.boot := by
  intros
  unfold State.kickSlice
  (repeat' first
    | with_reducible rfl
    | (with_reducible refine (foldl_keeps (State.boot) _ (fun _ _ => ?_) _ _).trans ?_)
    | (simp only [implies_true, forall_const, ↓apply_ite State.boot, apply_ite Prod.fst, ite_self, ↓boot_leaf,
            ↓State.modSlice_boot, ↓State.farReturn_boot, ↓State.kickEnd_boot]; done)
    | split
    | (simp only [implies_true, forall_const, ↓apply_ite State.boot, apply_ite Prod.fst, ite_self, ↓boot_leaf,
            ↓State.modSlice_boot, ↓State.farReturn_boot, ↓State.kickEnd_boot])
    | rfl)

@[simp] theorem State.bootSteward_boot : ∀ (s : State), s.bootSteward.boot = s.boot := by
  intros
  simp only [State.bootSteward, boot_leaf, State.engReset_boot]

@[simp] theorem State.writeEngine_boot : ∀ (s : State) (e v : Nat), (s.writeEngine e v).1.boot = s.boot := by
  intros
  unfold State.writeEngine
  (repeat' first
    | with_reducible rfl
    | (with_reducible refine (endsLater_bootP (by assumption)).trans ?_)
    | (with_reducible refine (foldl_keeps (State.boot) _ (fun _ _ => ?_) _ _).trans ?_)
    | (simp only [implies_true, forall_const, ↓apply_ite State.boot, apply_ite Prod.fst, ite_self, ↓boot_leaf,
            ↓State.engResume_boot, ↓State.engQuiesce_boot, ↓State.engCold_boot, ↓State.engWarm_boot,
            ↓endsLater_boot]; done)
    | split
    | (simp only [implies_true, forall_const, ↓apply_ite State.boot, apply_ite Prod.fst, ite_self, ↓boot_leaf,
            ↓State.engResume_boot, ↓State.engQuiesce_boot, ↓State.engCold_boot, ↓State.engWarm_boot,
            ↓endsLater_boot])
    | rfl)
theorem State.writeEngine_bootP : ∀ {s : State} {e v : Nat} {u : State} {res},
    s.writeEngine e v = (u, res) → u.boot = s.boot := by
  intros
  rename_i h
  have h2 := congrArg (fun r => r.1.boot) h
  simp only [State.writeEngine_boot] at h2
  exact h2.symm

@[simp] theorem State.reply_boot : ∀ (s : State) (peer : Peer) (x : Session) (b : List Byte) (status detail : Byte)
    (body : List Byte),
  (s.reply peer x b status detail body).boot = s.boot := by
  intros
  simp only [State.reply, boot_leaf, State.answer_boot]

@[simp] theorem State.awaitLong_boot : ∀ (s : State), s.awaitLong.boot = s.boot := by
  intros
  unfold State.awaitLong
  (repeat' split) <;> first | rfl | simp only [boot_leaf, State.awaitEnd_boot]

end Sys2Proof.Machine
end

