-- ==== Sys2Proof/Laws/PerInstr.lean ====
section
/-! SUPPORT. The two kinds of commands the frame statements name exclude each other, constructor by constructor. -/

open Sys2Proof Sys2Proof.Machine

namespace Sys2Proof.Laws.Kind

/-- No command of one slice is a start-up, power or session command. -/
def Statement (i : Instr) : Prop := sliceCommand i = false ∨ startUpCommand i = false

theorem flitIngress (n : Fin 50) (m : Msg) : Statement (.flitIngress n m) := .inr rfl
theorem flitInject (st : Stop) (c : MClass) : Statement (.flitInject st c) := .inr rfl
theorem linkFlitReceive (l : LinkId) (x : LinkIn) : Statement (.linkFlitReceive l x) := .inr rfl
theorem replayRequest (l : LinkId) (seq : BitVec 12) : Statement (.replayRequest l seq) := .inr rfl
theorem linkAcknowledge (l : LinkId) (seq : BitVec 12) : Statement (.linkAcknowledge l seq) := .inr rfl
theorem replayAckTimeout (l : LinkId) : Statement (.replayAckTimeout l) := .inr rfl
theorem segmentOutOfService (r : Fin 6) (k : Fin 94) : Statement (.segmentOutOfService r k) := .inr rfl
theorem segmentOutDone (r : Fin 6) (k : Fin 94) : Statement (.segmentOutDone r k) := .inr rfl
theorem segmentOutTimeout (r : Fin 6) (k : Fin 94) : Statement (.segmentOutTimeout r k) := .inr rfl
theorem flitEject (r : Fin 6) (pos : Fin 94) (d : Dir) (c : MClass) : Statement (.flitEject r pos d c) := .inr rfl
theorem ringShiftOff (r : Fin 6) (cause : ShiftCause) : Statement (.ringShiftOff r cause) := .inr rfl
theorem ringShiftComplete (r : Fin 6) : Statement (.ringShiftComplete r) := .inl rfl
theorem ringShiftOverrun (r : Fin 6) : Statement (.ringShiftOverrun r) := .inr rfl
theorem crgShiftOffCmd (r : BitVec 3) : Statement (.crgShiftOffCmd r) := .inr rfl
theorem crgReturnCmd (r : BitVec 3) : Statement (.crgReturnCmd r) := .inr rfl
theorem ringReturnComplete (r : Fin 6) (failed : List (Fin 94)) : Statement (.ringReturnComplete r failed) := .inl rfl
theorem consWindowEnd (q : Fin 3) (f0 f1 cycles : Nat) : Statement (.consWindowEnd q f0 f1 cycles) := .inr rfl
theorem consEntry (q : Fin 3) : Statement (.consEntry q) := .inr rfl
theorem consDrainTimeout (q : Fin 3) : Statement (.consDrainTimeout q) := .inr rfl
theorem consGated (q : Fin 3) : Statement (.consGated q) := .inr rfl
theorem consWake (q : Fin 3) : Statement (.consWake q) := .inr rfl
theorem consWakeDone (q : Fin 3) : Statement (.consWakeDone q) := .inr rfl
theorem dieLinkControlSlot (n : Fin 50) (init : Bool) (counts : List Nat)
    : Statement (.dieLinkControlSlot n init counts) := .inr rfl
theorem linkActiveEntry (n : Fin 50) : Statement (.linkActiveEntry n) := .inr rfl
theorem linkActiveExit (n : Fin 50) : Statement (.linkActiveExit n) := .inr rfl
theorem linkActiveTimeout (n : Fin 50) : Statement (.linkActiveTimeout n) := .inr rfl
theorem linkDown (n : Fin 50) : Statement (.linkDown n) := .inr rfl
theorem deadAgentForward (n : Fin 50) (m : Msg) : Statement (.deadAgentForward n m) := .inr rfl
theorem readShared (p : Fin 132) (m : Msg) : Statement (.readShared p m) := .inr rfl
theorem readOwn (p : Fin 132) (m : Msg) : Statement (.readOwn p m) := .inr rfl
theorem upgrade (p : Fin 132) (m : Msg) : Statement (.upgrade p m) := .inr rfl
theorem readNc (p : Fin 132) (m : Msg) : Statement (.readNc p m) := .inr rfl
theorem writeNcFull (p : Fin 132) (m : Msg) : Statement (.writeNcFull p m) := .inr rfl
theorem writeNcPartial (p : Fin 132) (m : Msg) : Statement (.writeNcPartial p m) := .inr rfl
theorem atomicReq (p : Fin 132) (m : Msg) : Statement (.atomicReq p m) := .inr rfl
theorem farOp (p : Fin 132) (m : Msg) : Statement (.farOp p m) := .inr rfl
theorem writeback (p : Fin 132) (m : Msg) : Statement (.writeback p m) := .inr rfl
theorem evictClean (p : Fin 132) (m : Msg) : Statement (.evictClean p m) := .inr rfl
theorem invAck (p : Fin 132) (m : Msg) : Statement (.invAck p m) := .inr rfl
theorem fwdDone (p : Fin 132) (m : Msg) : Statement (.fwdDone p m) := .inr rfl
theorem copyBack (p : Fin 132) (m : Msg) : Statement (.copyBack p m) := .inr rfl
theorem recallData (p : Fin 132) (m : Msg) : Statement (.recallData p m) := .inr rfl
theorem memData (p : Fin 132) (m : Msg) : Statement (.memData p m) := .inr rfl
theorem memAck (p : Fin 132) (m : Msg) : Statement (.memAck p m) := .inr rfl
theorem creditRequest (p : Fin 132) (m : Msg) : Statement (.creditRequest p m) := .inr rfl
theorem allocWaitRelease (p : Fin 132) (t : Fin 256) : Statement (.allocWaitRelease p t) := .inr rfl
theorem breakaway (p : Fin 132) (t : Fin 256) : Statement (.breakaway p t) := .inr rfl
theorem trackerWatchdogExpiry (p : Fin 132) (t : Fin 256) : Statement (.trackerWatchdogExpiry p t) := .inr rfl
theorem missRegisterOpen (p : Fin 132) : Statement (.missRegisterOpen p) := .inr rfl
theorem missRegisterSend (p : Fin 132) : Statement (.missRegisterSend p) := .inr rfl
theorem evictionWriteSend (p : Fin 132) (a : LineAddr) : Statement (.evictionWriteSend p a) := .inr rfl
theorem hlcMaintClean (p : Fin 132) (m : Msg) : Statement (.hlcMaintClean p m) := .inr rfl
theorem hlcMaintInvalidate (p : Fin 132) (m : Msg) : Statement (.hlcMaintInvalidate p m) := .inr rfl
theorem hlcMaintCleanInvalidate (p : Fin 132) (m : Msg) : Statement (.hlcMaintCleanInvalidate p m) := .inr rfl
theorem hlcMaintResume (p : Fin 132) (i : Fin 8) : Statement (.hlcMaintResume p i) := .inr rfl
theorem hlcWalkerVisit (p : Fin 132) : Statement (.hlcWalkerVisit p) := .inr rfl
theorem svcReqRegisterRead (p : Fin 132) (m : Msg) : Statement (.svcReqRegisterRead p m) := .inr rfl
theorem svcReqRegisterWrite (p : Fin 132) (m : Msg) : Statement (.svcReqRegisterWrite p m) := .inr rfl
theorem svcReqDirectoryCopy (p : Fin 132) (m : Msg) : Statement (.svcReqDirectoryCopy p m) := .inr rfl
theorem svcReqLineCopy (p : Fin 132) (m : Msg) : Statement (.svcReqLineCopy p m) := .inr rfl
theorem stewardRelay (m : Msg) : Statement (.stewardRelay m) := .inr rfl
theorem tlbInv (m : Msg) : Statement (.tlbInv m) := .inr rfl
theorem tlbShoot (p : Fin 132) (m : Msg) : Statement (.tlbShoot p m) := .inr rfl
theorem tlbShootAck (m : Msg) : Statement (.tlbShootAck m) := .inr rfl
theorem tlbCollectionTimeout (i : BitVec 8) : Statement (.tlbCollectionTimeout i) := .inr rfl
theorem farServiceStart (p : Fin 132) (t : Fin 256) : Statement (.farServiceStart p t) := .inr rfl
theorem atomicAluExecute (p : Fin 132) : Statement (.atomicAluExecute p) := .inr rfl
theorem farProgramDispatch (p : Fin 132) : Statement (.farProgramDispatch p) := .inr rfl
theorem farProgramFault (p : Fin 132) (code : BitVec 3) : Statement (.farProgramFault p code) := .inr rfl
theorem farWritebackDone (p : Fin 132) : Statement (.farWritebackDone p) := .inr rfl
theorem slotRecopy (p : Fin 132) (k : Fin 256) : Statement (.slotRecopy p k) := .inr rfl
theorem predictorRecentTick (p : Fin 132) : Statement (.predictorRecentTick p) := .inr rfl
theorem farPredClr (p : Fin 132) : Statement (.farPredClr p) := .inr rfl
theorem farLoadGo (src : LoadSource) : Statement (.farLoadGo src) := .inr rfl
theorem farLoadWrite : Statement (.farLoadWrite) := .inr rfl
theorem farLoadDone : Statement (.farLoadDone) := .inl rfl
theorem engineFarstoreCopy (e : Fin 132) : Statement (.engineFarstoreCopy e) := .inr rfl
theorem add (e : Fin 134) (w : BitVec 32) : Statement (.add e w) := .inr rfl
theorem sub (e : Fin 134) (w : BitVec 32) : Statement (.sub e w) := .inr rfl
theorem and (e : Fin 134) (w : BitVec 32) : Statement (.and e w) := .inr rfl
theorem or (e : Fin 134) (w : BitVec 32) : Statement (.or e w) := .inr rfl
theorem xor (e : Fin 134) (w : BitVec 32) : Statement (.xor e w) := .inr rfl
theorem sll (e : Fin 134) (w : BitVec 32) : Statement (.sll e w) := .inr rfl
theorem srl (e : Fin 134) (w : BitVec 32) : Statement (.srl e w) := .inr rfl
theorem sra (e : Fin 134) (w : BitVec 32) : Statement (.sra e w) := .inr rfl
theorem mul (e : Fin 134) (w : BitVec 32) : Statement (.mul e w) := .inr rfl
theorem slt (e : Fin 134) (w : BitVec 32) : Statement (.slt e w) := .inr rfl
theorem sltu (e : Fin 134) (w : BitVec 32) : Statement (.sltu e w) := .inr rfl
theorem addi (e : Fin 134) (w : BitVec 32) : Statement (.addi e w) := .inr rfl
theorem andi (e : Fin 134) (w : BitVec 32) : Statement (.andi e w) := .inr rfl
theorem ori (e : Fin 134) (w : BitVec 32) : Statement (.ori e w) := .inr rfl
theorem xori (e : Fin 134) (w : BitVec 32) : Statement (.xori e w) := .inr rfl
theorem slli (e : Fin 134) (w : BitVec 32) : Statement (.slli e w) := .inr rfl
theorem srli (e : Fin 134) (w : BitVec 32) : Statement (.srli e w) := .inr rfl
theorem srai (e : Fin 134) (w : BitVec 32) : Statement (.srai e w) := .inr rfl
theorem slti (e : Fin 134) (w : BitVec 32) : Statement (.slti e w) := .inr rfl
theorem lui (e : Fin 134) (w : BitVec 32) : Statement (.lui e w) := .inr rfl
theorem beq (e : Fin 134) (w : BitVec 32) : Statement (.beq e w) := .inr rfl
theorem bne (e : Fin 134) (w : BitVec 32) : Statement (.bne e w) := .inr rfl
theorem blt (e : Fin 134) (w : BitVec 32) : Statement (.blt e w) := .inr rfl
theorem bge (e : Fin 134) (w : BitVec 32) : Statement (.bge e w) := .inr rfl
theorem bltu (e : Fin 134) (w : BitVec 32) : Statement (.bltu e w) := .inr rfl
theorem bgeu (e : Fin 134) (w : BitVec 32) : Statement (.bgeu e w) := .inr rfl
theorem jal (e : Fin 134) (w : BitVec 32) : Statement (.jal e w) := .inr rfl
theorem jalr (e : Fin 134) (w : BitVec 32) : Statement (.jalr e w) := .inr rfl
theorem lb (e : Fin 134) (w : BitVec 32) : Statement (.lb e w) := .inr rfl
theorem lh (e : Fin 134) (w : BitVec 32) : Statement (.lh e w) := .inr rfl
theorem lw (e : Fin 134) (w : BitVec 32) : Statement (.lw e w) := .inr rfl
theorem ld (e : Fin 134) (w : BitVec 32) : Statement (.ld e w) := .inr rfl
theorem sb (e : Fin 134) (w : BitVec 32) : Statement (.sb e w) := .inr rfl
theorem sh (e : Fin 134) (w : BitVec 32) : Statement (.sh e w) := .inr rfl
theorem sw (e : Fin 134) (w : BitVec 32) : Statement (.sw e w) := .inr rfl
theorem sd (e : Fin 134) (w : BitVec 32) : Statement (.sd e w) := .inr rfl
theorem lr (e : Fin 134) (w : BitVec 32) : Statement (.lr e w) := .inr rfl
theorem sc (e : Fin 134) (w : BitVec 32) : Statement (.sc e w) := .inr rfl
theorem lbar (e : Fin 134) (w : BitVec 32) : Statement (.lbar e w) := .inr rfl
theorem sbar (e : Fin 134) (w : BitVec 32) : Statement (.sbar e w) := .inr rfl
theorem fbar (e : Fin 134) (w : BitVec 32) : Statement (.fbar e w) := .inr rfl
theorem wait (e : Fin 134) (w : BitVec 32) : Statement (.wait e w) := .inr rfl
theorem iret (e : Fin 134) (w : BitVec 32) : Statement (.iret e w) := .inr rfl
theorem syscall (e : Fin 134) (w : BitVec 32) : Statement (.syscall e w) := .inr rfl
theorem tlbi (e : Fin 134) (w : BitVec 32) : Statement (.tlbi e w) := .inr rfl
theorem csrr (e : Fin 134) (w : BitVec 32) : Statement (.csrr e w) := .inr rfl
theorem csrw (e : Fin 134) (w : BitVec 32) : Statement (.csrw e w) := .inr rfl
theorem fret (e : Fin 134) (w : BitVec 32) : Statement (.fret e w) := .inr rfl
theorem engineHaltReload (e : Fin 132) : Statement (.engineHaltReload e) := .inr rfl
theorem storeBufferSend (e : Fin 134) (a : LineAddr) : Statement (.storeBufferSend e a) := .inr rfl
theorem engineLoadReturn (e : Fin 134) (m : Msg) : Statement (.engineLoadReturn e m) := .inr rfl
theorem engineStoreComplete (e : Fin 134) (m : Msg) : Statement (.engineStoreComplete e m) := .inr rfl
theorem storeTimeout (e : Fin 134) (txn : BitVec 12) : Statement (.storeTimeout e txn) := .inr rfl
theorem walkReadReturn (e : Fin 134) (m : Msg) : Statement (.walkReadReturn e m) := .inr rfl
theorem tlbiDone (e : Fin 134) (m : Msg) : Statement (.tlbiDone e m) := .inr rfl
theorem engWarmRst (e : Fin 132) : Statement (.engWarmRst e) := .inr rfl
theorem engColdRst (e : Fin 132) : Statement (.engColdRst e) := .inr rfl
theorem engQuiesce (e : Fin 132) : Statement (.engQuiesce e) := .inr rfl
theorem engResume (e : Fin 132) : Statement (.engResume e) := .inr rfl
theorem engineQuiesced (e : Fin 132) : Statement (.engineQuiesced e) := .inr rfl
theorem fwCommitAll : Statement (.fwCommitAll) := .inr rfl
theorem fwCommitRolling : Statement (.fwCommitRolling) := .inr rfl
theorem engineLoad (e : Fin 132) (readBackOk : Bool) : Statement (.engineLoad e readBackOk) := .inr rfl
theorem stewardLockstepMismatch : Statement (.stewardLockstepMismatch) := .inr rfl
theorem eventCapture (n : Fin 1536) : Statement (.eventCapture n) := .inr rfl
theorem windowExpiry (g : Fin 64) : Statement (.windowExpiry g) := .inr rfl
theorem sourceCommit (n : Fin 1536) : Statement (.sourceCommit n) := .inr rfl
theorem waitWake (e : Fin 134) : Statement (.waitWake e) := .inr rfl
theorem iagHostEoi (v : BitVec 11) : Statement (.iagHostEoi v) := .inr rfl
theorem iagDoorbell (v : BitVec 8) : Statement (.iagDoorbell v) := .inr rfl
theorem iagSrcWrite (n : Fin 1536) (v : Word) : Statement (.iagSrcWrite n v) := .inr rfl
theorem rpqPop (q : Fin 32) (off : Fin 16) (size : Nat) : Statement (.rpqPop q off size) := .inr rfl
theorem rpqFlush (q : Fin 32) : Statement (.rpqFlush q) := .inr rfl
theorem pmcSelWrite (c : Fin 1584) (v : BitVec 32) : Statement (.pmcSelWrite c v) := .inr rfl
theorem pmcCntWrite (c : Fin 1584) (v : Word) : Statement (.pmcCntWrite c v) := .inr rfl
theorem pmcFreeze : Statement (.pmcFreeze) := .inr rfl
theorem pmcUnfreeze : Statement (.pmcUnfreeze) := .inr rfl
theorem pmcSnapshot : Statement (.pmcSnapshot) := .inr rfl
theorem pmcSnapshotDone : Statement (.pmcSnapshotDone) := .inr rfl
theorem entdaa (a : BitVec 7) : Statement (.entdaa a) := .inr rfl
theorem setdasa (sa a : BitVec 7) : Statement (.setdasa sa a) := .inr rfl
theorem rstdaa : Statement (.rstdaa) := .inr rfl
theorem getpid : Statement (.getpid) := .inr rfl
theorem getbcr : Statement (.getbcr) := .inr rfl
theorem getdcr : Statement (.getdcr) := .inr rfl
theorem getstatus : Statement (.getstatus) := .inr rfl
theorem enec (b : Byte) : Statement (.enec b) := .inr rfl
theorem disec (b : Byte) : Statement (.disec b) := .inr rfl
theorem getmwl : Statement (.getmwl) := .inr rfl
theorem setmwl (v : BitVec 16) : Statement (.setmwl v) := .inr rfl
theorem getmrl : Statement (.getmrl) := .inr rfl
theorem setmrl (v : BitVec 16) : Statement (.setmrl v) := .inr rfl
theorem mctpPacket (k : MctpPkt) : Statement (.mctpPacket k) := .inr rfl
theorem setEndpointId (src : Byte) (tag : BitVec 3) (op eid : Byte)
    : Statement (.setEndpointId src tag op eid) := .inr rfl
theorem getEndpointId (src : Byte) (tag : BitVec 3) : Statement (.getEndpointId src tag) := .inr rfl
theorem getMctpVersionSupport (src : Byte) (tag : BitVec 3) (ty : Byte)
    : Statement (.getMctpVersionSupport src tag ty) := .inr rfl
theorem getMessageTypeSupport (src : Byte) (tag : BitVec 3) : Statement (.getMessageTypeSupport src tag) := .inr rfl
theorem getVendorDefinedMsgSupport (src : Byte) (tag : BitVec 3) (sel : Byte)
    : Statement (.getVendorDefinedMsgSupport src tag sel) := .inr rfl
theorem fgOpen (rt : Route) (b : List Byte) : Statement (.fgOpen rt b) := .inl rfl
theorem fgClose (rt : Route) (b : List Byte) : Statement (.fgClose rt b) := .inl rfl
theorem fgRead (rt : Route) (b : List Byte) : Statement (.fgRead rt b) := .inl rfl
theorem fgWrite (rt : Route) (b : List Byte) : Statement (.fgWrite rt b) := .inl rfl
theorem fgChallenge (rt : Route) (b : List Byte) : Statement (.fgChallenge rt b) := .inl rfl
theorem fgResponse (rt : Route) (b : List Byte) : Statement (.fgResponse rt b) := .inl rfl
theorem fgResync (rt : Route) (b : List Byte) : Statement (.fgResync rt b) := .inl rfl
theorem fgDrop (rt : Route) (b : List Byte) : Statement (.fgDrop rt b) := .inl rfl
theorem sessionIdleTimeout (n : BitVec 16) : Statement (.sessionIdleTimeout n) := .inl rfl
theorem lockoutExpiry : Statement (.lockoutExpiry) := .inr rfl
theorem mbxGo : Statement (.mbxGo) := .inr rfl
theorem accumulatorPoll : Statement (.accumulatorPoll) := .inr rfl
theorem restoreWindowCloseCmd : Statement (.restoreWindowCloseCmd) := .inl rfl
theorem restoreWindowTimeout : Statement (.restoreWindowTimeout) := .inl rfl
theorem ownerKeyWrite (rt : Route) (key : List Byte) : Statement (.ownerKeyWrite rt key) := .inl rfl
theorem hlcDictCleanAll : Statement (.hlcDictCleanAll) := .inr rfl
theorem hlcDictInvalidateAll : Statement (.hlcDictInvalidateAll) := .inr rfl
theorem hlcDictCleanInvalidateAll : Statement (.hlcDictCleanInvalidateAll) := .inr rfl
theorem hlcDisable (p : Fin 132) : Statement (.hlcDisable p) := .inr rfl
theorem hlcEnable (p : Fin 132) : Statement (.hlcEnable p) := .inr rfl
theorem hlcDrainDone (p : Fin 132) : Statement (.hlcDrainDone p) := .inr rfl
theorem hlcInit (p : Fin 132) : Statement (.hlcInit p) := .inr rfl
theorem hlcWayDisable (p : Fin 132) (w : Fin 16) : Statement (.hlcWayDisable p w) := .inr rfl
theorem hlcWayEnable (p : Fin 132) (w : Fin 16) : Statement (.hlcWayEnable p w) := .inr rfl
theorem hlcWayFlushDone (p : Fin 132) (w : Fin 16) : Statement (.hlcWayFlushDone p w) := .inr rfl
theorem hlcLeakDecay (p : Fin 132) (w : Fin 16) : Statement (.hlcLeakDecay p w) := .inr rfl
theorem sflInit (p : Fin 132) : Statement (.sflInit p) := .inr rfl
theorem sflPassStart (p : Fin 132) : Statement (.sflPassStart p) := .inr rfl
theorem sflPatrolCheck (p : Fin 132) : Statement (.sflPatrolCheck p) := .inr rfl
theorem smapCopyCompare : Statement (.smapCopyCompare) := .inr rfl
theorem spareEvacuateCmd (src : SpareSource) : Statement (.spareEvacuateCmd src) := .inr rfl
theorem autoSpareTrigger (p : Fin 132) : Statement (.autoSpareTrigger p) := .inr rfl
theorem spareReady (p : Fin 132) : Statement (.spareReady p) := .inr rfl
theorem smapHoldSet : Statement (.smapHoldSet) := .inr rfl
theorem smapStateCopy : Statement (.smapStateCopy) := .inr rfl
theorem smapEntryWrite : Statement (.smapEntryWrite) := .inr rfl
theorem smapHoldClear : Statement (.smapHoldClear) := .inl rfl
theorem smapGenIncrement : Statement (.smapGenIncrement) := .inr rfl
theorem evacuationAbandon : Statement (.evacuationAbandon) := .inl rfl
theorem evacuationRetry : Statement (.evacuationRetry) := .inr rfl
theorem rewriteTimerExpiry : Statement (.rewriteTimerExpiry) := .inl rfl
theorem coastEntry : Statement (.coastEntry) := .inl rfl
theorem coastExit : Statement (.coastExit) := .inl rfl
theorem freewheelEntry : Statement (.freewheelEntry) := .inl rfl
theorem freewheelExit : Statement (.freewheelExit) := .inl rfl
theorem powerDrainDone : Statement (.powerDrainDone) := .inr rfl
theorem powerDrainTimeout : Statement (.powerDrainTimeout) := .inl rfl
theorem bbOk : Statement (.bbOk) := .inl rfl
theorem pwrStateAck : Statement (.pwrStateAck) := .inl rfl
theorem powerHandshakeTimeout : Statement (.powerHandshakeTimeout) := .inl rfl
theorem railFault (b : Fin 4) : Statement (.railFault b) := .inr rfl
theorem vcoreCodeChange (c : BitVec 4) : Statement (.vcoreCodeChange c) := .inr rfl
theorem edgeRelease (d : BitVec 16) : Statement (.edgeRelease d) := .inr rfl
theorem errorRecord : Statement (.errorRecord) := .inr rfl
theorem logSpillWrite : Statement (.logSpillWrite) := .inr rfl
theorem spillRdWrite (v : BitVec 32) : Statement (.spillRdWrite v) := .inr rfl
theorem spillCtrlWrite (v : BitVec 32) : Statement (.spillCtrlWrite v) := .inr rfl
theorem cmdTailWrite (v : BitVec 32) : Statement (.cmdTailWrite v) := .inr rfl
theorem descriptorApply (d : BitVec 128) : Statement (.descriptorApply d) := .inr rfl
theorem cmdAbortClear : Statement (.cmdAbortClear) := .inr rfl
theorem hfnCompletionTimeout (tag : BitVec 8) : Statement (.hfnCompletionTimeout tag) := .inr rfl
theorem hfnTagQuarantineEnd (tag : BitVec 8) : Statement (.hfnTagQuarantineEnd tag) := .inr rfl
theorem hfnCompletion (tag : BitVec 8) (st : CplStatus) : Statement (.hfnCompletion tag st) := .inr rfl
theorem busMasterDisable : Statement (.busMasterDisable) := .inr rfl
theorem hostReset : Statement (.hostReset) := .inl rfl
theorem hfnD3hot : Statement (.hfnD3hot) := .inr rfl
theorem hfnD0 : Statement (.hfnD0) := .inr rfl
theorem lsliceWindowAccess (sl : Fin 128) (off : BitVec 16) (size : Nat) (wr : Option Word)
    : Statement (.lsliceWindowAccess sl off size wr) := .inr rfl
theorem registerWrite (by_ : Writer) (bar : Bar) (off size : Nat) (wr : Option Word) (poisoned : Bool)
    : Statement (.registerWrite by_ bar off size wr poisoned) := .inl rfl
theorem memRd (m : Fin 12) (q : Msg) : Statement (.memRd m q) := .inr rfl
theorem memWr (m : Fin 12) (q : Msg) : Statement (.memWr m q) := .inr rfl
theorem memReadResponse (m : Fin 12) (tag : BitVec 10) (data : LineData) (pois : Byte) (err : Bool)
    : Statement (.memReadResponse m tag data pois err) := .inr rfl
theorem memWriteResponse (m : Fin 12) (tag : BitVec 10) (err : Bool)
    : Statement (.memWriteResponse m tag err) := .inr rfl
theorem memoryCommandTimeout (m : Fin 12) (tag : BitVec 10) : Statement (.memoryCommandTimeout m tag) := .inr rfl
theorem memTagQuarantineEnd (m : Fin 12) (tag : BitVec 10) : Statement (.memTagQuarantineEnd m tag) := .inr rfl
theorem memReadyFall (m : Fin 12) : Statement (.memReadyFall m) := .inr rfl
theorem memReadyRise (m : Fin 12) : Statement (.memReadyRise m) := .inr rfl
theorem probeStart (p : Fin 132) : Statement (.probeStart p) := .inr rfl
theorem probeStep (p : Fin 132) (m : Msg) : Statement (.probeStep p m) := .inr rfl
theorem probeTimeout (p : Fin 132) : Statement (.probeTimeout p) := .inr rfl
theorem checkerSelfTest (c : BitVec 16) (flagsGood flagsBad : Bool)
    : Statement (.checkerSelfTest c flagsGood flagsBad) := .inl rfl
theorem safKick (by_ : Writer) : Statement (.safKick by_) := .inr rfl
theorem stewardWatchdogExpiry : Statement (.stewardWatchdogExpiry) := .inr rfl
theorem clockLoss (i : Fin 36) : Statement (.clockLoss i) := .inl rfl
theorem kickstandEntry : Statement (.kickstandEntry) := .inl rfl
theorem kickstandWindowEnd : Statement (.kickstandWindowEnd) := .inr rfl
theorem kickstandSafeAck (cleaned : Bool) : Statement (.kickstandSafeAck cleaned) := .inr rfl
theorem coldReset : Statement (.coldReset) := .inl rfl
theorem coldResetRelease : Statement (.coldResetRelease) := .inl rfl
theorem pllLock : Statement (.pllLock) := .inl rfl
theorem pllLockTimeout : Statement (.pllLockTimeout) := .inl rfl
theorem timeBaseTick : Statement (.timeBaseTick) := .inr rfl
theorem arraySelfTestDone (failed : List (Fin 132)) (outside : Bool)
    : Statement (.arraySelfTestDone failed outside) := .inl rfl
theorem checkerTestAndClearDone (failed : Option (BitVec 16))
    : Statement (.checkerTestAndClearDone failed) := .inl rfl
theorem ringTrainingDone (failed : List (Fin 6 × Fin 94)) : Statement (.ringTrainingDone failed) := .inl rfl
theorem stewardImageWrite (sub : Nat) (b : List Byte) : Statement (.stewardImageWrite sub b) := .inl rfl
theorem portUp (n : Fin 50) : Statement (.portUp n) := .inl rfl
theorem portDeadline (n : Fin 50) : Statement (.portDeadline n) := .inl rfl
theorem sliceEnable : Statement (.sliceEnable) := .inl rfl
theorem coherentReady : Statement (.coherentReady) := .inl rfl
theorem clockReturn (i : Fin 36) : Statement (.clockReturn i) := .inr rfl
theorem busMasterEnable : Statement (.busMasterEnable) := .inr rfl
theorem memCommandTransfer (m : Fin 12) (lane : Fin 2) (tag : BitVec 10)
    : Statement (.memCommandTransfer m lane tag) := .inr rfl
theorem counterWrap (c : Fin 1584) : Statement (.counterWrap c) := .inr rfl
theorem clockMeasWindowEnd (khz : List Nat) : Statement (.clockMeasWindowEnd khz) := .inr rfl
theorem relayEntryWatchdog (host : Bool) : Statement (.relayEntryWatchdog host) := .inr rfl
theorem tapInstruction (i : TapInstr) : Statement (.tapInstruction i) := .inr rfl

end Sys2Proof.Laws.Kind
end

