-- ==== Sys2Proof/Laws/Rest.lean ====
section
/-! SUPPORT. What each operation of a slice keeps: everything but slices, counters, events and records. -/

namespace Sys2Proof.Machine

open Sys2Proof

set_option linter.unusedSimpArgs false
set_option linter.unusedTactic false
set_option linter.unreachableTactic false

@[simp] theorem State.setSlice_rest : ∀ (s : State) (p : Nat) (x : Slice), (s.setSlice p x).rest = s.rest := by
  intros
  rfl

@[simp] theorem State.modSlice_rest : ∀ (s : State) (p : Nat) (f : Slice → Slice), (s.modSlice p f).rest = s.rest :=
    by
  intros
  rfl

@[simp] theorem State.modIag_rest : ∀ (s : State) (f : Iag → Iag), (s.modIag f).rest = s.rest := by
  intros
  rfl

@[simp] theorem State.modPmc_rest : ∀ (s : State) (f : Pmc → Pmc), (s.modPmc f).rest = s.rest := by
  intros
  rfl

@[simp] theorem State.modRas_rest : ∀ (s : State) (f : Ras → Ras), (s.modRas f).rest = s.rest := by
  intros
  rfl

@[simp] theorem State.fire_rest : ∀ (s : State) (n : Nat), (s.fire n).rest = s.rest := by
  intros
  rfl

@[simp] theorem State.fireSlice_rest : ∀ (s : State) (p k : Nat), (s.fireSlice p k).rest = s.rest := by
  intros
  rfl

@[simp] theorem State.firePort_rest : ∀ (s : State) (n k : Nat), (s.firePort n k).rest = s.rest := by
  intros
  rfl

@[simp] theorem State.fireRing_rest : ∀ (s : State) (r k : Nat), (s.fireRing r k).rest = s.rest := by
  intros
  rfl

@[simp] theorem State.pmcEvent_rest : ∀ (s : State) (base n code q : Nat) (ring : Bool) (amount : Nat),
  (s.pmcEvent base n code q ring amount).rest = s.rest := by
  intros
  rfl

@[simp] theorem State.slcEvent_rest : ∀ (s : State) (p code : Nat) (amount : optParam Nat 1), (s.slcEvent p code
    amount).rest = s.rest := by
  intros
  rfl

@[simp] theorem State.ringEvent_rest : ∀ (s : State) (r code : Nat) (q : optParam Nat 7) (amount : optParam Nat 1),
  (s.ringEvent r code q amount).rest = s.rest := by
  intros
  rfl

@[simp] theorem State.portEvent_rest : ∀ (s : State) (n code : Nat) (amount : optParam Nat 1), (s.portEvent n code
    amount).rest = s.rest := by
  intros
  rfl

@[simp] theorem State.glbEvent_rest : ∀ (s : State) (code : Nat) (amount : optParam Nat 1), (s.glbEvent code
    amount).rest = s.rest := by
  intros
  rfl

@[simp] theorem State.count_rest : ∀ (s : State) (p : Nat) (c : Cnt), (s.count p c).rest = s.rest := by
  intros
  unfold State.count
  split <;> first | rfl | simp only [rest_leaf, State.slcEvent_rest, State.modSlice_rest]

@[simp] theorem State.modSaf_rest : ∀ (s : State) (f : Saf → Saf), (s.modSaf f).rest = s.rest := by
  intros
  rfl

@[simp] theorem State.modSpare_rest : ∀ (s : State) (f : Spare → Spare), (s.modSpare f).rest = s.rest := by
  intros
  rfl

@[simp] theorem State.noteMark_rest : ∀ (s : State) (p : Nat), (s.noteMark p).rest = s.rest := by
  intros
  rfl

@[simp] theorem State.noteFatal_rest : ∀ (s : State) (e : ErrRec), (s.noteFatal e).rest = s.rest := by
  intros
  unfold State.noteFatal
  split <;> first | rfl | simp only [rest_leaf, State.modSaf_rest]

@[simp] theorem State.record_rest : ∀ (s : State) (e : ErrRec), (s.record e).rest = s.rest := by
  intros
  simp only [State.record, apply_ite State.rest, ite_self, rest_leaf, State.modRas_rest, State.noteMark_rest,
      State.noteFatal_rest]

@[simp] theorem State.sliceErr_rest : ∀ (s : State) (p cls code : Nat) (addr : optParam (Option LineAddr) none)
  (agent : optParam (Option (BitVec 10)) none) (detail : optParam (BitVec 64) 0)
  (extra : optParam (BitVec 16) 0) (byTest : optParam Bool false),
  (s.sliceErr p cls code addr agent detail extra byTest).rest = s.rest := by
  intros
  simp only [State.sliceErr, rest_leaf, State.record_rest]

@[simp] theorem State.emit_rest : ∀ (s : State) (p : Nat) (m : Msg), (s.emit p m).rest = s.rest := by
  intros
  rfl

@[simp] theorem State.modTrk_rest : ∀ (s : State) (p t : Nat) (f : Trk → Trk), (s.modTrk p t f).rest = s.rest := by
  intros
  rfl

@[simp] theorem State.grantOne_rest : ∀ (s : State) (p : Nat), (s.grantOne p).rest = s.rest := by
  intros
  unfold State.grantOne
  (repeat' first
    | with_reducible rfl
    | (with_reducible refine (foldl_keeps (State.rest) _ (fun _ _ => ?_) _ _).trans ?_)
    | (simp only [implies_true, forall_const, ↓apply_ite State.rest, apply_ite Prod.fst, ite_self, ↓rest_leaf,
            ↓State.emit_rest, ↓State.setSlice_rest]; done)
    | split
    | (simp only [implies_true, forall_const, ↓apply_ite State.rest, apply_ite Prod.fst, ite_self, ↓rest_leaf,
            ↓State.emit_rest, ↓State.setSlice_rest])
    | rfl)

@[simp] theorem State.grants_rest : ∀ (s : State) (p : Nat), (s.grants p).rest = s.rest := by
  intros
  unfold State.grants
  exact foldl_keeps State.rest _ (fun _ _ => by first | rfl | simp only [rest_leaf, State.grantOne_rest]) _ _

@[simp] theorem State.creditCycle_rest : ∀ (s : State) (p : Nat), (s.creditCycle p).rest = s.rest := by
  intros
  unfold State.creditCycle
  (repeat' first
    | with_reducible rfl
    | (with_reducible refine (foldl_keeps (State.rest) _ (fun _ _ => ?_) _ _).trans ?_)
    | (simp only [implies_true, forall_const, ↓apply_ite State.rest, apply_ite Prod.fst, ite_self, ↓rest_leaf,
            ↓State.modSlice_rest, ↓State.count_rest, ↓State.grants_rest]; done)
    | split
    | (simp only [implies_true, forall_const, ↓apply_ite State.rest, apply_ite Prod.fst, ite_self, ↓rest_leaf,
            ↓State.modSlice_rest, ↓State.count_rest, ↓State.grants_rest])
    | rfl)

@[simp] theorem State.creditCycles_rest : ∀ (s : State), s.creditCycles.rest = s.rest := by
  intros
  unfold State.creditCycles
  (repeat' first
    | with_reducible rfl
    | (with_reducible refine (foldl_keeps (State.rest) _ (fun _ _ => ?_) _ _).trans ?_)
    | (simp only [implies_true, forall_const, ↓apply_ite State.rest, apply_ite Prod.fst, ite_self, ↓rest_leaf,
            ↓State.creditCycle_rest]; done)
    | split
    | (simp only [implies_true, forall_const, ↓apply_ite State.rest, apply_ite Prod.fst, ite_self, ↓rest_leaf,
            ↓State.creditCycle_rest])
    | rfl)

@[simp] theorem State.closeTrk_rest : ∀ (s : State) (p t : Nat), (s.closeTrk p t).rest = s.rest := by
  intros
  unfold State.closeTrk
  split <;> first | rfl | simp only [rest_leaf, State.modSlice_rest]

@[simp] theorem State.homeMismatch_rest : ∀ (s : State) (p : Nat) (m : Msg), (s.homeMismatch p m).rest = s.rest := by
  intros
  simp only [State.homeMismatch, rest_leaf, State.sliceErr_rest]

@[simp] theorem State.crqDiscard_rest : ∀ (s : State) (p : Nat) (m : Msg), (s.crqDiscard p m).rest = s.rest := by
  intros
  simp only [State.crqDiscard, rest_leaf, State.count_rest, State.sliceErr_rest]

@[simp] theorem State.creditRequest_rest : ∀ (s : State) (p : Nat) (m : Msg), (s.creditRequest p m).rest = s.rest :=
    by
  intros
  unfold State.creditRequest
  (repeat' first
    | with_reducible rfl
    | (with_reducible refine (foldl_keeps (State.rest) _ (fun _ _ => ?_) _ _).trans ?_)
    | (simp only [implies_true, forall_const, ↓apply_ite State.rest, apply_ite Prod.fst, ite_self, ↓rest_leaf,
            ↓State.setSlice_rest, ↓State.crqDiscard_rest, ↓State.homeMismatch_rest]; done)
    | split
    | (simp only [implies_true, forall_const, ↓apply_ite State.rest, apply_ite Prod.fst, ite_self, ↓rest_leaf,
            ↓State.setSlice_rest, ↓State.crqDiscard_rest, ↓State.homeMismatch_rest])
    | rfl)

@[simp] theorem State.sfSuspect_rest : ∀ (s : State) (p key : Nat) (sc : BitVec 109) (patrol : Bool) (i : Nat),
  (s.sfSuspect p key sc patrol i).rest = s.rest := by
  intros
  unfold State.sfSuspect
  (repeat' first
    | with_reducible rfl
    | (with_reducible refine (foldl_keeps (State.rest) _ (fun _ _ => ?_) _ _).trans ?_)
    | (simp only [implies_true, forall_const, ↓apply_ite State.rest, apply_ite Prod.fst, ite_self, ↓rest_leaf,
            ↓State.sliceErr_rest, ↓State.fireSlice_rest, ↓State.count_rest]; done)
    | split
    | (simp only [implies_true, forall_const, ↓apply_ite State.rest, apply_ite Prod.fst, ite_self, ↓rest_leaf,
            ↓State.sliceErr_rest, ↓State.fireSlice_rest, ↓State.count_rest])
    | rfl)

@[simp] theorem State.sfBlockCheck_rest : ∀ (s : State) (p key : Nat) (patrol : Bool), (s.sfBlockCheck p key
    patrol).rest = s.rest := by
  intros
  unfold State.sfBlockCheck
  (repeat' first
    | with_reducible rfl
    | (with_reducible refine (foldl_keeps (State.rest) _ (fun _ _ => ?_) _ _).trans ?_)
    | (simp only [implies_true, forall_const, ↓apply_ite State.rest, apply_ite Prod.fst, ite_self, ↓rest_leaf,
            ↓State.modSlice_rest, ↓State.sfSuspect_rest, ↓State.count_rest, ↓State.sliceErr_rest,
            ↓State.fireSlice_rest, ↓State.setSlice_rest]; done)
    | split
    | (simp only [implies_true, forall_const, ↓apply_ite State.rest, apply_ite Prod.fst, ite_self, ↓rest_leaf,
            ↓State.modSlice_rest, ↓State.sfSuspect_rest, ↓State.count_rest, ↓State.sliceErr_rest,
            ↓State.fireSlice_rest, ↓State.setSlice_rest])
    | rfl)

@[simp] theorem State.sfLookupChecks_rest : ∀ (s : State) (p set : Nat), (s.sfLookupChecks p set).rest = s.rest := by
  intros
  unfold State.sfLookupChecks
  (repeat' first
    | with_reducible rfl
    | (with_reducible refine (foldl_keeps (State.rest) _ (fun _ _ => ?_) _ _).trans ?_)
    | (simp only [implies_true, forall_const, ↓apply_ite State.rest, apply_ite Prod.fst, ite_self, ↓rest_leaf,
            ↓State.sfBlockCheck_rest]; done)
    | split
    | (simp only [implies_true, forall_const, ↓apply_ite State.rest, apply_ite Prod.fst, ite_self, ↓rest_leaf,
            ↓State.sfBlockCheck_rest])
    | rfl)

@[simp] theorem State.sfDuplicate_rest : ∀ (s : State) (p : Nat) (hits : List Nat), (s.sfDuplicate p hits).rest =
    s.rest := by
  intros
  unfold State.sfDuplicate
  split <;> first | rfl | simp only [rest_leaf, State.sliceErr_rest, State.modSlice_rest]

@[simp] theorem State.sfMigrate_rest : ∀ (s : State) (p pos : Nat), (s.sfMigrate p pos).rest = s.rest := by
  intros
  unfold State.sfMigrate
  (repeat' first
    | with_reducible rfl
    | (with_reducible refine (foldl_keeps (State.rest) _ (fun _ _ => ?_) _ _).trans ?_)
    | (simp only [implies_true, forall_const, ↓apply_ite State.rest, apply_ite Prod.fst, ite_self, ↓rest_leaf,
            ↓State.setSlice_rest, ↓State.count_rest]; done)
    | split
    | (simp only [implies_true, forall_const, ↓apply_ite State.rest, apply_ite Prod.fst, ite_self, ↓rest_leaf,
            ↓State.setSlice_rest, ↓State.count_rest])
    | rfl)

@[simp] theorem State.sfLookup_rest : ∀ (s : State) (p : Nat) (a : LineAddr), (s.sfLookup p a).1.rest = s.rest := by
  intros
  unfold State.sfLookup
  (repeat' first
    | with_reducible rfl
    | (with_reducible refine (foldl_keeps (State.rest) _ (fun _ _ => ?_) _ _).trans ?_)
    | (simp only [implies_true, forall_const, ↓apply_ite State.rest, apply_ite Prod.fst, ite_self, ↓rest_leaf,
            ↓State.modSlice_rest, ↓State.slcEvent_rest, ↓State.sfMigrate_rest, ↓State.sfDuplicate_rest,
            ↓State.sfLookupChecks_rest]; done)
    | split
    | (simp only [implies_true, forall_const, ↓apply_ite State.rest, apply_ite Prod.fst, ite_self, ↓rest_leaf,
            ↓State.modSlice_rest, ↓State.slcEvent_rest, ↓State.sfMigrate_rest, ↓State.sfDuplicate_rest,
            ↓State.sfLookupChecks_rest])
    | rfl)
theorem State.sfLookup_restP : ∀ {s : State} {p : Nat} {a : LineAddr} {u : State} {res},
    s.sfLookup p a = (u, res) → u.rest = s.rest := by
  intros
  rename_i h
  have h2 := congrArg (fun r => r.1.rest) h
  simp only [State.sfLookup_rest] at h2
  exact h2.symm

@[simp] theorem State.modHlc_rest : ∀ (s : State) (p : Nat) (f : Hlc → Hlc), (s.modHlc p f).rest = s.rest := by
  intros
  rfl

@[simp] theorem State.hError_rest : ∀ (s : State) (p q : Nat) (tag : BitVec 31) (groups : BitVec 8) (tagErr : Bool)
    (kind cls code : Nat)
  (a : Option LineAddr), (s.hError p q tag groups tagErr kind cls code a).rest = s.rest := by
  intros
  simp only [State.hError, apply_ite State.rest, ite_self, rest_leaf, State.sliceErr_rest, State.count_rest,
      State.modHlc_rest]

@[simp] theorem State.hTagCheck_rest : ∀ (s : State) (p q : Nat), (s.hTagCheck p q).rest = s.rest := by
  intros
  simp only [State.hTagCheck, apply_ite State.rest, ite_self, rest_leaf, State.modHlc_rest, State.hError_rest]

@[simp] theorem State.hDataCheck_rest : ∀ (s : State) (p q : Nat), (s.hDataCheck p q).rest = s.rest := by
  intros
  simp only [State.hDataCheck, apply_ite State.rest, ite_self, rest_leaf, State.modHlc_rest, State.hError_rest,
      State.fireSlice_rest]

@[simp] theorem State.hTagScan_rest : ∀ (s : State) (p : Nat) (a : LineAddr), (s.hTagScan p a).rest = s.rest := by
  intros
  unfold State.hTagScan
  exact foldl_keeps State.rest _ (fun _ _ => by first | rfl | simp only [rest_leaf, State.hTagCheck_rest]) _ _

@[simp] theorem State.lookup_rest : ∀ (s : State) (p : Nat) (a : LineAddr), (s.lookup p a).1.rest = s.rest := by
  intros
  simp only [State.lookup, rest_leaf, State.hTagScan_rest, State.sfLookup_rest]
theorem State.lookup_restP : ∀ {s : State} {p : Nat} {a : LineAddr} {u : State} {res},
    s.lookup p a = (u, res) → u.rest = s.rest := by
  intros
  rename_i h
  have h2 := congrArg (fun r => r.1.rest) h
  simp only [State.lookup_rest] at h2
  exact h2.symm

@[simp] theorem State.hMoveCheck_rest : ∀ (s : State) (p q : Nat), (s.hMoveCheck p q).rest = s.rest := by
  intros
  unfold State.hMoveCheck
  split <;> first | rfl | simp only [rest_leaf, State.hDataCheck_rest]

@[simp] theorem State.vacate_rest : ∀ (s : State) (p q : Nat), (s.vacate p q).1.rest = s.rest := by
  intros
  unfold State.vacate
  (repeat' first
    | with_reducible rfl
    | (with_reducible refine (foldl_keeps (State.rest) _ (fun _ _ => ?_) _ _).trans ?_)
    | (simp only [implies_true, forall_const, ↓apply_ite State.rest, apply_ite Prod.fst, ite_self, ↓rest_leaf,
            ↓State.count_rest, ↓State.modHlc_rest, ↓State.hMoveCheck_rest]; done)
    | split
    | (simp only [implies_true, forall_const, ↓apply_ite State.rest, apply_ite Prod.fst, ite_self, ↓rest_leaf,
            ↓State.count_rest, ↓State.modHlc_rest, ↓State.hMoveCheck_rest])
    | rfl)
theorem State.vacate_restP : ∀ {s : State} {p q : Nat} {u : State} {res},
    s.vacate p q = (u, res) → u.rest = s.rest := by
  intros
  rename_i h
  have h2 := congrArg (fun r => r.1.rest) h
  simp only [State.vacate_rest] at h2
  exact h2.symm

@[simp] theorem State.install_rest : ∀ (s : State) (p : Nat) (a : LineAddr) (data : LineData) (poison : BitVec 8)
    (dirty pf : Bool),
  (s.install p a data poison dirty pf).1.rest = s.rest := by
  intros
  unfold State.install
  (repeat' first
    | with_reducible rfl
    | (with_reducible refine (State.vacate_restP (by assumption)).trans ?_)
    | (with_reducible refine (foldl_keeps (State.rest) _ (fun _ _ => ?_) _ _).trans ?_)
    | (simp only [implies_true, forall_const, ↓apply_ite State.rest, apply_ite Prod.fst, ite_self, ↓rest_leaf,
            ↓State.vacate_rest, ↓State.count_rest, ↓State.modHlc_rest]; done)
    | split
    | (simp only [implies_true, forall_const, ↓apply_ite State.rest, apply_ite Prod.fst, ite_self, ↓rest_leaf,
            ↓State.vacate_rest, ↓State.count_rest, ↓State.modHlc_rest])
    | rfl)
theorem State.install_restP : ∀ {s : State} {p : Nat} {a : LineAddr} {data : LineData} {poison : BitVec 8} {dirty pf
    : Bool} {u : State} {res},
    s.install p a data poison dirty pf = (u, res) → u.rest = s.rest := by
  intros
  rename_i h
  have h2 := congrArg (fun r => r.1.rest) h
  simp only [State.install_rest] at h2
  exact h2.symm

@[simp] theorem State.storeLine_rest : ∀ (s : State) (p : Nat) (a : LineAddr) (data : LineData) (poison : BitVec 8)
    (waiter : Option Nat),
  (s.storeLine p a data poison waiter).1.rest = s.rest := by
  intros
  unfold State.storeLine
  (repeat' first
    | with_reducible rfl
    | (with_reducible refine (State.install_restP (by assumption)).trans ?_)
    | (with_reducible refine (foldl_keeps (State.rest) _ (fun _ _ => ?_) _ _).trans ?_)
    | (simp only [implies_true, forall_const, ↓apply_ite State.rest, apply_ite Prod.fst, ite_self, ↓rest_leaf,
            ↓State.install_rest, ↓State.modHlc_rest]; done)
    | split
    | (simp only [implies_true, forall_const, ↓apply_ite State.rest, apply_ite Prod.fst, ite_self, ↓rest_leaf,
            ↓State.install_rest, ↓State.modHlc_rest])
    | rfl)
theorem State.storeLine_restP : ∀ {s : State} {p : Nat} {a : LineAddr} {data : LineData} {poison : BitVec 8} {waiter
    : Option Nat} {u : State} {res},
    s.storeLine p a data poison waiter = (u, res) → u.rest = s.rest := by
  intros
  rename_i h
  have h2 := congrArg (fun r => r.1.rest) h
  simp only [State.storeLine_rest] at h2
  exact h2.symm

@[simp] theorem State.hRead_rest : ∀ (s : State) (p : Nat) (a : LineAddr) (demand : Bool), (s.hRead p a
    demand).1.rest = s.rest := by
  intros
  unfold State.hRead
  (repeat' first
    | with_reducible rfl
    | (with_reducible refine (foldl_keeps (State.rest) _ (fun _ _ => ?_) _ _).trans ?_)
    | (simp only [implies_true, forall_const, ↓apply_ite State.rest, apply_ite Prod.fst, ite_self, ↓rest_leaf,
            ↓State.count_rest, ↓State.modHlc_rest, ↓State.hDataCheck_rest, ↓State.hTagScan_rest]; done)
    | split
    | (simp only [implies_true, forall_const, ↓apply_ite State.rest, apply_ite Prod.fst, ite_self, ↓rest_leaf,
            ↓State.count_rest, ↓State.modHlc_rest, ↓State.hDataCheck_rest, ↓State.hTagScan_rest])
    | rfl)
theorem State.hRead_restP : ∀ {s : State} {p : Nat} {a : LineAddr} {demand : Bool} {u : State} {res},
    s.hRead p a demand = (u, res) → u.rest = s.rest := by
  intros
  rename_i h
  have h2 := congrArg (fun r => r.1.rest) h
  simp only [State.hRead_rest] at h2
  exact h2.symm

@[simp] theorem State.missJoin_rest : ∀ (s : State) (p : Nat) (a : LineAddr) (w : Waiter) (demand : Bool),
  (s.missJoin p a w demand).1.rest = s.rest := by
  intros
  unfold State.missJoin
  (repeat' first
    | with_reducible rfl
    | (with_reducible refine (foldl_keeps (State.rest) _ (fun _ _ => ?_) _ _).trans ?_)
    | (simp only [implies_true, forall_const, ↓apply_ite State.rest, apply_ite Prod.fst, ite_self, ↓rest_leaf,
            ↓State.count_rest, ↓State.modHlc_rest]; done)
    | split
    | (simp only [implies_true, forall_const, ↓apply_ite State.rest, apply_ite Prod.fst, ite_self, ↓rest_leaf,
            ↓State.count_rest, ↓State.modHlc_rest])
    | rfl)
theorem State.missJoin_restP : ∀ {s : State} {p : Nat} {a : LineAddr} {w : Waiter} {demand : Bool} {u : State} {res},
    s.missJoin p a w demand = (u, res) → u.rest = s.rest := by
  intros
  rename_i h
  have h2 := congrArg (fun r => r.1.rest) h
  simp only [State.missJoin_rest] at h2
  exact h2.symm

@[simp] theorem State.missSend_rest : ∀ (s : State) (p : Nat), (s.missSend p).rest = s.rest := by
  intros
  unfold State.missSend
  (repeat' first
    | with_reducible rfl
    | (with_reducible refine (foldl_keeps (State.rest) _ (fun _ _ => ?_) _ _).trans ?_)
    | (simp only [implies_true, forall_const, ↓apply_ite State.rest, apply_ite Prod.fst, ite_self, ↓rest_leaf,
            ↓State.emit_rest, ↓State.modHlc_rest]; done)
    | split
    | (simp only [implies_true, forall_const, ↓apply_ite State.rest, apply_ite Prod.fst, ite_self, ↓rest_leaf,
            ↓State.emit_rest, ↓State.modHlc_rest])
    | rfl)

@[simp] theorem State.offer_rest : ∀ (s : State) (p : Nat) (r : ℤ), (s.offer p r).rest = s.rest := by
  intros
  unfold State.offer
  (repeat' first
    | with_reducible rfl
    | (with_reducible refine (State.missJoin_restP (by assumption)).trans ?_)
    | (with_reducible refine (foldl_keeps (State.rest) _ (fun _ _ => ?_) _ _).trans ?_)
    | (simp only [implies_true, forall_const, ↓apply_ite State.rest, apply_ite Prod.fst, ite_self, ↓rest_leaf,
            ↓State.missJoin_rest, ↓State.count_rest, ↓State.hTagScan_rest]; done)
    | split
    | (simp only [implies_true, forall_const, ↓apply_ite State.rest, apply_ite Prod.fst, ite_self, ↓rest_leaf,
            ↓State.missJoin_rest, ↓State.count_rest, ↓State.hTagScan_rest])
    | rfl)

@[simp] theorem State.trainStream_rest : ∀ (s : State) (p : Nat) (m : Msg), (s.trainStream p m).rest = s.rest := by
  intros
  unfold State.trainStream
  (repeat' first
    | with_reducible rfl
    | (with_reducible refine (foldl_keeps (State.rest) _ (fun _ _ => ?_) _ _).trans ?_)
    | (simp only [implies_true, forall_const, ↓apply_ite State.rest, apply_ite Prod.fst, ite_self, ↓rest_leaf,
            ↓State.offer_rest, ↓State.modHlc_rest]; done)
    | split
    | (simp only [implies_true, forall_const, ↓apply_ite State.rest, apply_ite Prod.fst, ite_self, ↓rest_leaf,
            ↓State.offer_rest, ↓State.modHlc_rest])
    | rfl)

@[simp] theorem State.maintAt_rest : ∀ (s : State) (p q : Nat) (op : BitVec 4), (s.maintAt p q op).1.rest = s.rest
    := by
  intros
  unfold State.maintAt
  (repeat' first
    | with_reducible rfl
    | (with_reducible refine (foldl_keeps (State.rest) _ (fun _ _ => ?_) _ _).trans ?_)
    | (simp only [implies_true, forall_const, ↓apply_ite State.rest, apply_ite Prod.fst, ite_self, ↓rest_leaf,
            ↓State.count_rest, ↓State.modHlc_rest, ↓State.hTagCheck_rest, ↓State.hMoveCheck_rest]; done)
    | split
    | (simp only [implies_true, forall_const, ↓apply_ite State.rest, apply_ite Prod.fst, ite_self, ↓rest_leaf,
            ↓State.count_rest, ↓State.modHlc_rest, ↓State.hTagCheck_rest, ↓State.hMoveCheck_rest])
    | rfl)
theorem State.maintAt_restP : ∀ {s : State} {p q : Nat} {op : BitVec 4} {u : State} {res},
    s.maintAt p q op = (u, res) → u.rest = s.rest := by
  intros
  rename_i h
  have h2 := congrArg (fun r => r.1.rest) h
  simp only [State.maintAt_rest] at h2
  exact h2.symm

@[simp] theorem State.flushWay_rest : ∀ (s : State) (p w : Nat), (s.flushWay p w).rest = s.rest := by
  intros
  unfold State.flushWay
  (repeat' first
    | with_reducible rfl
    | (with_reducible refine (State.maintAt_restP (by assumption)).trans ?_)
    | (with_reducible refine (foldl_keeps (State.rest) _ (fun _ _ => ?_) _ _).trans ?_)
    | (simp only [implies_true, forall_const, ↓apply_ite State.rest, apply_ite Prod.fst, ite_self, ↓rest_leaf,
            ↓State.maintAt_rest]; done)
    | split
    | (simp only [implies_true, forall_const, ↓apply_ite State.rest, apply_ite Prod.fst, ite_self, ↓rest_leaf,
            ↓State.maintAt_rest])
    | rfl)

@[simp] theorem State.maintFinish_rest : ∀ (s : State) (p : Nat), (s.maintFinish p).rest = s.rest := by
  intros
  unfold State.maintFinish
  (repeat' first
    | with_reducible rfl
    | (with_reducible refine (foldl_keeps (State.rest) _ (fun _ _ => ?_) _ _).trans ?_)
    | (simp only [implies_true, forall_const, ↓apply_ite State.rest, apply_ite Prod.fst, ite_self, ↓rest_leaf,
            ↓State.emit_rest, ↓State.modHlc_rest]; done)
    | split
    | (simp only [implies_true, forall_const, ↓apply_ite State.rest, apply_ite Prod.fst, ite_self, ↓rest_leaf,
            ↓State.emit_rest, ↓State.modHlc_rest])
    | rfl)

@[simp] theorem State.walkVisit_rest : ∀ (s : State) (p : Nat), (s.walkVisit p).rest = s.rest := by
  intros
  unfold State.walkVisit
  (repeat' first
    | with_reducible rfl
    | (with_reducible refine (State.maintAt_restP (by assumption)).trans ?_)
    | (with_reducible refine (foldl_keeps (State.rest) _ (fun _ _ => ?_) _ _).trans ?_)
    | (simp only [implies_true, forall_const, ↓apply_ite State.rest, apply_ite Prod.fst, ite_self, ↓rest_leaf,
            ↓State.maintAt_rest, ↓State.maintFinish_rest, ↓State.modHlc_rest]; done)
    | split
    | (simp only [implies_true, forall_const, ↓apply_ite State.rest, apply_ite Prod.fst, ite_self, ↓rest_leaf,
            ↓State.maintAt_rest, ↓State.maintFinish_rest, ↓State.modHlc_rest])
    | rfl)

@[simp] theorem State.maintTry_rest : ∀ (s : State) (p i : Nat), (s.maintTry p i).rest = s.rest := by
  intros
  unfold State.maintTry
  (repeat' first
    | with_reducible rfl
    | (with_reducible refine (State.maintAt_restP (by assumption)).trans ?_)
    | (with_reducible refine (foldl_keeps (State.rest) _ (fun _ _ => ?_) _ _).trans ?_)
    | (simp only [implies_true, forall_const, ↓apply_ite State.rest, apply_ite Prod.fst, ite_self, ↓rest_leaf,
            ↓State.maintAt_rest, ↓State.maintFinish_rest, ↓State.modHlc_rest]; done)
    | split
    | (simp only [implies_true, forall_const, ↓apply_ite State.rest, apply_ite Prod.fst, ite_self, ↓rest_leaf,
            ↓State.maintAt_rest, ↓State.maintFinish_rest, ↓State.modHlc_rest])
    | rfl)

@[simp] theorem State.maintRetry_rest : ∀ (s : State) (p : Nat), (s.maintRetry p).rest = s.rest := by
  intros
  unfold State.maintRetry
  exact foldl_keeps State.rest _ (fun _ _ => by first | rfl | simp only [rest_leaf, State.maintTry_rest]) _ _

@[simp] theorem State.modLine_rest : ∀ (s : State) (p : Nat) (a : LineAddr) (f : Olt → Olt), (s.modLine p a f).rest
    = s.rest := by
  intros
  rfl

@[simp] theorem State.setDir_rest : ∀ (s : State) (p : Nat) (a : LineAddr) (st : BitVec 2) (vec : BitVec 64) (poison
    : Bool),
  (s.setDir p a st vec poison).rest = s.rest := by
  intros
  unfold State.setDir
  split <;> first | rfl | simp only [rest_leaf, State.modSlice_rest]

@[simp] theorem State.freeLine_rest : ∀ (s : State) (p : Nat) (a : LineAddr), (s.freeLine p a).rest = s.rest := by
  intros
  rfl

@[simp] theorem State.protoError_rest : ∀ (s : State) (p : Nat) (m : Msg) (st mode : BitVec 2), (s.protoError p m st
    mode).rest = s.rest := by
  intros
  simp only [State.protoError, rest_leaf, State.sliceErr_rest, State.fire_rest, State.modSlice_rest, State.count_rest]

@[simp] theorem State.endWith_rest : ∀ (s : State) (p t opc : Nat) (f : Msg → Msg), (s.endWith p t opc f).rest =
    s.rest := by
  intros
  unfold State.endWith
  split <;> first | rfl | simp only [rest_leaf, State.emit_rest, State.closeTrk_rest]

@[simp] theorem State.endErr_rest : ∀ (s : State) (p t : Nat) (stat : BitVec 4), (s.endErr p t stat).rest = s.rest
    := by
  intros
  simp only [State.endErr, rest_leaf, State.endWith_rest]

@[simp] theorem State.loadRecent_rest : ∀ (s : State) (p : Nat) (a : LineAddr), (s.loadRecent p a).rest = s.rest := by
  intros
  rfl

@[simp] theorem State.sendForward_rest : ∀ (s : State) (p t opc o : Nat) (a : LineAddr) (named : Bool),
  (s.sendForward p t opc o a named).rest = s.rest := by
  intros
  simp only [State.sendForward, apply_ite State.rest, ite_self, rest_leaf, State.modTrk_rest, State.emit_rest]

@[simp] theorem State.sendVector_rest : ∀ (s : State) (p t opc : Nat) (a : LineAddr) (vec : BitVec 64),
  (s.sendVector p t opc a vec).rest = s.rest := by
  intros
  simp only [State.sendVector, apply_ite State.rest, ite_self, rest_leaf, State.modLine_rest, State.modTrk_rest,
      State.emit_rest]

@[simp] theorem State.enqueue_rest : ∀ (s : State) (p t : Nat) (a : LineAddr), (s.enqueue p t a).rest = s.rest := by
  intros
  rfl

@[simp] theorem State.victimEnd_rest : ∀ (s : State) (p t : Nat) (v : LineAddr), (s.victimEnd p t v).rest = s.rest
    := by
  intros
  unfold State.victimEnd
  (repeat' first
    | with_reducible rfl
    | (with_reducible refine (foldl_keeps (State.rest) _ (fun _ _ => ?_) _ _).trans ?_)
    | (simp only [implies_true, forall_const, ↓apply_ite State.rest, apply_ite Prod.fst, ite_self, ↓rest_leaf,
            ↓State.freeLine_rest, ↓State.modLine_rest, ↓State.modTrk_rest, ↓State.modSlice_rest]; done)
    | split
    | (simp only [implies_true, forall_const, ↓apply_ite State.rest, apply_ite Prod.fst, ite_self, ↓rest_leaf,
            ↓State.freeLine_rest, ↓State.modLine_rest, ↓State.modTrk_rest, ↓State.modSlice_rest])
    | rfl)

@[simp] theorem State.victimWrite_rest : ∀ (s : State) (p t : Nat) (v : LineAddr) (poison : Bool), (s.victimWrite p
    t v poison).rest = s.rest := by
  intros
  unfold State.victimWrite
  (repeat' first
    | with_reducible rfl
    | (with_reducible refine (State.storeLine_restP (by assumption)).trans ?_)
    | (with_reducible refine (foldl_keeps (State.rest) _ (fun _ _ => ?_) _ _).trans ?_)
    | (simp only [implies_true, forall_const, ↓apply_ite State.rest, apply_ite Prod.fst, ite_self, ↓rest_leaf,
            ↓State.modTrk_rest, ↓State.storeLine_rest, ↓State.victimEnd_rest]; done)
    | split
    | (simp only [implies_true, forall_const, ↓apply_ite State.rest, apply_ite Prod.fst, ite_self, ↓rest_leaf,
            ↓State.modTrk_rest, ↓State.storeLine_rest, ↓State.victimEnd_rest])
    | rfl)

@[simp] theorem State.handleStart_rest : ∀ (s : State) (p t : Nat) (a : LineAddr), (s.handleStart p t a).rest =
    s.rest := by
  intros
  unfold State.handleStart
  (repeat' first
    | with_reducible rfl
    | (with_reducible refine (foldl_keeps (State.rest) _ (fun _ _ => ?_) _ _).trans ?_)
    | (simp only [implies_true, forall_const, ↓apply_ite State.rest, apply_ite Prod.fst, ite_self, ↓rest_leaf,
            ↓State.sendVector_rest, ↓State.modLine_rest, ↓State.sendForward_rest]; done)
    | split
    | (simp only [implies_true, forall_const, ↓apply_ite State.rest, apply_ite Prod.fst, ite_self, ↓rest_leaf,
            ↓State.sendVector_rest, ↓State.modLine_rest, ↓State.sendForward_rest])
    | rfl)

@[simp] theorem State.victimWritten_rest : ∀ (s : State) (p t : Nat) (v : LineAddr), (s.victimWritten p t v).rest =
    s.rest := by
  intros
  unfold State.victimWritten
  (repeat' split) <;> first
    | rfl
    | simp only [rest_leaf, State.victimEnd_rest, State.modTrk_rest, State.handleStart_rest]

@[simp] theorem State.victimStart_rest : ∀ (s : State) (p t q : Nat), (s.victimStart p t q).rest = s.rest := by
  intros
  simp only [State.victimStart, apply_ite State.rest, ite_self, rest_leaf, State.victimWrite_rest,
      State.handleStart_rest, State.sendForward_rest, State.sendVector_rest, State.modLine_rest, State.count_rest,
      State.modTrk_rest]

@[simp] theorem State.startHead_rest : ∀ (s : State) (p set : Nat), (s.startHead p set).rest = s.rest := by
  intros
  unfold State.startHead
  (repeat' first
    | with_reducible rfl
    | (with_reducible refine (foldl_keeps (State.rest) _ (fun _ _ => ?_) _ _).trans ?_)
    | (simp only [implies_true, forall_const, ↓apply_ite State.rest, apply_ite Prod.fst, ite_self, ↓rest_leaf,
            ↓State.victimStart_rest, ↓State.modTrk_rest]; done)
    | split
    | (simp only [implies_true, forall_const, ↓apply_ite State.rest, apply_ite Prod.fst, ite_self, ↓rest_leaf,
            ↓State.victimStart_rest, ↓State.modTrk_rest])
    | rfl)

@[simp] theorem State.joinWait_rest : ∀ (s : State) (p t : Nat), (s.joinWait p t).rest = s.rest := by
  intros
  unfold State.joinWait
  (repeat' first
    | with_reducible rfl
    | (with_reducible refine (foldl_keeps (State.rest) _ (fun _ _ => ?_) _ _).trans ?_)
    | (simp only [implies_true, forall_const, ↓apply_ite State.rest, apply_ite Prod.fst, ite_self, ↓rest_leaf,
            ↓State.startHead_rest, ↓State.count_rest, ↓State.modTrk_rest, ↓State.modSlice_rest]; done)
    | split
    | (simp only [implies_true, forall_const, ↓apply_ite State.rest, apply_ite Prod.fst, ite_self, ↓rest_leaf,
            ↓State.startHead_rest, ↓State.count_rest, ↓State.modTrk_rest, ↓State.modSlice_rest])
    | rfl)

@[simp] theorem State.needData_rest : ∀ (s : State) (p t : Nat), (s.needData p t).rest = s.rest := by
  intros
  unfold State.needData
  (repeat' first
    | with_reducible rfl
    | (with_reducible refine (State.hRead_restP (by assumption)).trans ?_)
    | (with_reducible refine (State.missJoin_restP (by assumption)).trans ?_)
    | (with_reducible refine (foldl_keeps (State.rest) _ (fun _ _ => ?_) _ _).trans ?_)
    | (simp only [implies_true, forall_const, ↓apply_ite State.rest, apply_ite Prod.fst, ite_self, ↓rest_leaf,
            ↓State.missJoin_rest, ↓State.trainStream_rest, ↓State.hRead_rest, ↓State.modTrk_rest]; done)
    | split
    | (simp only [implies_true, forall_const, ↓apply_ite State.rest, apply_ite Prod.fst, ite_self, ↓rest_leaf,
            ↓State.missJoin_rest, ↓State.trainStream_rest, ↓State.hRead_rest, ↓State.modTrk_rest])
    | rfl)

@[simp] theorem State.farCopied_rest : ∀ (s : State) (p : Nat), (s.farCopied p).rest = s.rest := by
  intros
  rfl

@[simp] theorem State.breakWatch_rest : ∀ (s : State) (p : Nat) (a : LineAddr), (s.breakWatch p a).rest = s.rest := by
  intros
  rfl

@[simp] theorem State.farLeave_rest : ∀ (s : State) (p t : Nat), (s.farLeave p t).rest = s.rest := by
  intros
  rfl

@[simp] theorem State.farDecline_rest : ∀ (s : State) (p t : Nat) (stat : BitVec 4), (s.farDecline p t stat).rest =
    s.rest := by
  intros
  simp only [State.farDecline, rest_leaf, State.count_rest, State.farLeave_rest, State.endWith_rest,
      State.maintRetry_rest]

@[simp] theorem State.farBecomesReady_rest : ∀ (s : State) (p t : Nat) (k : Trk), (s.farBecomesReady p t k).1.rest =
    s.rest := by
  intros
  unfold State.farBecomesReady
  (repeat' first
    | with_reducible rfl
    | (with_reducible refine (foldl_keeps (State.rest) _ (fun _ _ => ?_) _ _).trans ?_)
    | (simp only [implies_true, forall_const, ↓apply_ite State.rest, apply_ite Prod.fst, ite_self, ↓rest_leaf,
            ↓State.modSlice_rest, ↓State.modTrk_rest, ↓State.farDecline_rest]; done)
    | split
    | (simp only [implies_true, forall_const, ↓apply_ite State.rest, apply_ite Prod.fst, ite_self, ↓rest_leaf,
            ↓State.modSlice_rest, ↓State.modTrk_rest, ↓State.farDecline_rest])
    | rfl)
theorem State.farBecomesReady_restP : ∀ {s : State} {p t : Nat} {k : Trk} {u : State} {res},
    s.farBecomesReady p t k = (u, res) → u.rest = s.rest := by
  intros
  rename_i h
  have h2 := congrArg (fun r => r.1.rest) h
  simp only [State.farBecomesReady_rest] at h2
  exact h2.symm

@[simp] theorem State.farReserve_rest : ∀ (s : State) (p : Nat) (a : LineAddr), (s.farReserve p a).1.rest = s.rest
    := by
  intros
  unfold State.farReserve
  (repeat' first
    | with_reducible rfl
    | (with_reducible refine (State.vacate_restP (by assumption)).trans ?_)
    | (with_reducible refine (foldl_keeps (State.rest) _ (fun _ _ => ?_) _ _).trans ?_)
    | (simp only [implies_true, forall_const, ↓apply_ite State.rest, apply_ite Prod.fst, ite_self, ↓rest_leaf,
            ↓State.vacate_rest]; done)
    | split
    | (simp only [implies_true, forall_const, ↓apply_ite State.rest, apply_ite Prod.fst, ite_self, ↓rest_leaf,
            ↓State.vacate_rest])
    | rfl)
theorem State.farReserve_restP : ∀ {s : State} {p : Nat} {a : LineAddr} {u : State} {res},
    s.farReserve p a = (u, res) → u.rest = s.rest := by
  intros
  rename_i h
  have h2 := congrArg (fun r => r.1.rest) h
  simp only [State.farReserve_rest] at h2
  exact h2.symm

@[simp] theorem State.farHold_rest : ∀ (s : State) (p t : Nat) (a : LineAddr) (data : LineData) (poison : BitVec 8)
    (dirty : Bool),
  (s.farHold p t a data poison dirty).rest = s.rest := by
  intros
  unfold State.farHold
  (repeat' split) <;> first | rfl | simp only [rest_leaf, State.modTrk_rest, State.modHlc_rest]

@[simp] theorem State.takeEntry_rest : ∀ (s : State) (p t : Nat) (a : LineAddr), (s.takeEntry p t a).rest = s.rest
    := by
  intros
  unfold State.takeEntry
  (repeat' first
    | with_reducible rfl
    | (with_reducible refine (foldl_keeps (State.rest) _ (fun _ _ => ?_) _ _).trans ?_)
    | (simp only [implies_true, forall_const, ↓apply_ite State.rest, apply_ite Prod.fst, ite_self, ↓rest_leaf,
            ↓State.count_rest, ↓State.modTrk_rest, ↓State.modLine_rest]; done)
    | split
    | (simp only [implies_true, forall_const, ↓apply_ite State.rest, apply_ite Prod.fst, ite_self, ↓rest_leaf,
            ↓State.count_rest, ↓State.modTrk_rest, ↓State.modLine_rest])
    | rfl)

@[simp] theorem State.chainOwn_rest : ∀ (s : State) (p t : Nat) (a : LineAddr) (o : Nat) (mode : BitVec 2),
  (s.chainOwn p t a o mode).rest = s.rest := by
  intros
  unfold State.chainOwn
  split <;> first
    | rfl
    | simp only [rest_leaf, State.loadRecent_rest, State.count_rest, State.breakWatch_rest, State.sendForward_rest,
            State.modTrk_rest, State.modLine_rest, State.setDir_rest]

@[simp] theorem State.forwardRead_rest : ∀ (s : State) (p t : Nat) (a : LineAddr) (o : Nat) (shared : Bool),
  (s.forwardRead p t a o shared).rest = s.rest := by
  intros
  unfold State.forwardRead
  (repeat' split) <;> first
    | rfl
    | simp only [rest_leaf, State.setDir_rest, State.sendForward_rest, State.modTrk_rest, State.modLine_rest]

@[simp] theorem State.setWatch_rest : ∀ (s : State) (p : Nat) (m : Msg) (e : SfEnt), (s.setWatch p m e).rest =
    s.rest := by
  intros
  unfold State.setWatch
  split <;> first | rfl | simp only [rest_leaf, State.modSlice_rest]

@[simp] theorem State.act_rest : ∀ (s : State) (p t : Nat) (a : LineAddr), (s.act p t a).rest = s.rest := by
  intros
  unfold State.act
  (repeat' first
    | with_reducible rfl
    | (with_reducible refine (foldl_keeps (State.rest) _ (fun _ _ => ?_) _ _).trans ?_)
    | (simp only [implies_true, forall_const, ↓apply_ite State.rest, apply_ite Prod.fst, ite_self, ↓rest_leaf,
            ↓State.sendForward_rest, ↓State.setWatch_rest, ↓State.sendVector_rest, ↓State.chainOwn_rest,
            ↓State.needData_rest, ↓State.takeEntry_rest, ↓State.setDir_rest, ↓State.forwardRead_rest,
            ↓State.breakWatch_rest, ↓State.modSlice_rest, ↓State.endWith_rest, ↓State.protoError_rest,
            ↓State.endErr_rest, ↓State.modLine_rest, ↓State.modTrk_rest]; done)
    | split
    | (simp only [implies_true, forall_const, ↓apply_ite State.rest, apply_ite Prod.fst, ite_self, ↓rest_leaf,
            ↓State.sendForward_rest, ↓State.setWatch_rest, ↓State.sendVector_rest, ↓State.chainOwn_rest,
            ↓State.needData_rest, ↓State.takeEntry_rest, ↓State.setDir_rest, ↓State.forwardRead_rest,
            ↓State.breakWatch_rest, ↓State.modSlice_rest, ↓State.endWith_rest, ↓State.protoError_rest,
            ↓State.endErr_rest, ↓State.modLine_rest, ↓State.modTrk_rest])
    | rfl)

@[simp] theorem State.serve_rest : ∀ (s : State) (p t : Nat) (a : LineAddr), (s.serve p t a).rest = s.rest := by
  intros
  simp only [State.serve, apply_ite State.rest, ite_self, rest_leaf, State.act_rest, State.modTrk_rest,
      State.handleStart_rest, State.modLine_rest]

@[simp] theorem State.doWrite_rest : ∀ (s : State) (p t : Nat) (k : Trk), (s.doWrite p t k).1.rest = s.rest := by
  intros
  unfold State.doWrite
  (repeat' first
    | with_reducible rfl
    | (with_reducible refine (State.storeLine_restP (by assumption)).trans ?_)
    | (with_reducible refine (foldl_keeps (State.rest) _ (fun _ _ => ?_) _ _).trans ?_)
    | (simp only [implies_true, forall_const, ↓apply_ite State.rest, apply_ite Prod.fst, ite_self, ↓rest_leaf,
            ↓State.modTrk_rest, ↓State.endWith_rest, ↓State.storeLine_rest, ↓State.setDir_rest]; done)
    | split
    | (simp only [implies_true, forall_const, ↓apply_ite State.rest, apply_ite Prod.fst, ite_self, ↓rest_leaf,
            ↓State.modTrk_rest, ↓State.endWith_rest, ↓State.storeLine_rest, ↓State.setDir_rest])
    | rfl)
theorem State.doWrite_restP : ∀ {s : State} {p t : Nat} {k : Trk} {u : State} {res},
    s.doWrite p t k = (u, res) → u.rest = s.rest := by
  intros
  rename_i h
  have h2 := congrArg (fun r => r.1.rest) h
  simp only [State.doWrite_rest] at h2
  exact h2.symm

@[simp] theorem State.complete_rest : ∀ (s : State) (p t : Nat) (k : Trk), (s.complete p t k).1.rest = s.rest := by
  intros
  unfold State.complete
  (repeat' first
    | with_reducible rfl
    | (with_reducible refine (State.doWrite_restP (by assumption)).trans ?_)
    | (with_reducible refine (State.farBecomesReady_restP (by assumption)).trans ?_)
    | (with_reducible refine (foldl_keeps (State.rest) _ (fun _ _ => ?_) _ _).trans ?_)
    | (simp only [implies_true, forall_const, ↓apply_ite State.rest, apply_ite Prod.fst, ite_self, ↓rest_leaf,
            ↓State.farBecomesReady_rest, ↓State.doWrite_rest, ↓State.loadRecent_rest, ↓State.endWith_rest]; done)
    | split
    | (simp only [implies_true, forall_const, ↓apply_ite State.rest, apply_ite Prod.fst, ite_self, ↓rest_leaf,
            ↓State.farBecomesReady_rest, ↓State.doWrite_rest, ↓State.loadRecent_rest, ↓State.endWith_rest])
    | rfl)
theorem State.complete_restP : ∀ {s : State} {p t : Nat} {k : Trk} {u : State} {res},
    s.complete p t k = (u, res) → u.rest = s.rest := by
  intros
  rename_i h
  have h2 := congrArg (fun r => r.1.rest) h
  simp only [State.complete_rest] at h2
  exact h2.symm

@[simp] theorem State.settleStep_rest : ∀ (s : State) (p : Nat) (a : LineAddr), (s.settleStep p a).rest = s.rest := by
  intros
  unfold State.settleStep
  (repeat' first
    | with_reducible rfl
    | (with_reducible refine (State.complete_restP (by assumption)).trans ?_)
    | (with_reducible refine (foldl_keeps (State.rest) _ (fun _ _ => ?_) _ _).trans ?_)
    | (simp only [implies_true, forall_const, ↓apply_ite State.rest, apply_ite Prod.fst, ite_self, ↓rest_leaf,
            ↓State.serve_rest, ↓State.joinWait_rest, ↓State.freeLine_rest, ↓State.count_rest, ↓State.complete_rest,
            ↓State.act_rest, ↓State.setDir_rest, ↓State.victimWrite_rest, ↓State.modTrk_rest,
            ↓State.handleStart_rest, ↓State.modLine_rest]; done)
    | split
    | (simp only [implies_true, forall_const, ↓apply_ite State.rest, apply_ite Prod.fst, ite_self, ↓rest_leaf,
            ↓State.serve_rest, ↓State.joinWait_rest, ↓State.freeLine_rest, ↓State.count_rest, ↓State.complete_rest,
            ↓State.act_rest, ↓State.setDir_rest, ↓State.victimWrite_rest, ↓State.modTrk_rest,
            ↓State.handleStart_rest, ↓State.modLine_rest])
    | rfl)

@[simp] theorem State.settle_rest : ∀ (s : State) (p : Nat) (a : LineAddr), (s.settle p a).rest = s.rest := by
  intros
  unfold State.settle
  exact foldl_keeps State.rest _ (fun _ _ => by first | rfl | simp only [rest_leaf, State.settleStep_rest]) _ _

@[simp] theorem State.breakOut_rest : ∀ (s : State) (p t : Nat), (s.breakOut p t).rest = s.rest := by
  intros
  simp only [State.breakOut, rest_leaf, State.count_rest, State.modTrk_rest]

@[simp] theorem State.decideReq_rest : ∀ (s : State) (p t : Nat) (hit : Option Nat), (s.decideReq p t hit).rest =
    s.rest := by
  intros
  unfold State.decideReq
  (repeat' first
    | with_reducible rfl
    | (with_reducible refine (foldl_keeps (State.rest) _ (fun _ _ => ?_) _ _).trans ?_)
    | (simp only [implies_true, forall_const, ↓apply_ite State.rest, apply_ite Prod.fst, ite_self, ↓rest_leaf,
            ↓State.modTrk_rest, ↓State.chainOwn_rest, ↓State.setWatch_rest, ↓State.forwardRead_rest,
            ↓State.serve_rest, ↓State.settle_rest, ↓State.count_rest, ↓State.modLine_rest, ↓State.joinWait_rest,
            ↓State.enqueue_rest, ↓State.breakOut_rest]; done)
    | split
    | (simp only [implies_true, forall_const, ↓apply_ite State.rest, apply_ite Prod.fst, ite_self, ↓rest_leaf,
            ↓State.modTrk_rest, ↓State.chainOwn_rest, ↓State.setWatch_rest, ↓State.forwardRead_rest,
            ↓State.serve_rest, ↓State.settle_rest, ↓State.count_rest, ↓State.modLine_rest, ↓State.joinWait_rest,
            ↓State.enqueue_rest, ↓State.breakOut_rest])
    | rfl)

@[simp] theorem State.clearBit_rest : ∀ (s : State) (p : Nat) (a : LineAddr) (pos : Option Nat) (w : Nat),
    (s.clearBit p a pos w).rest = s.rest := by
  intros
  unfold State.clearBit
  (repeat' first
    | with_reducible rfl
    | (with_reducible refine (foldl_keeps (State.rest) _ (fun _ _ => ?_) _ _).trans ?_)
    | (simp only [implies_true, forall_const, ↓apply_ite State.rest, apply_ite Prod.fst, ite_self, ↓rest_leaf,
            ↓State.modSlice_rest]; done)
    | split
    | (simp only [implies_true, forall_const, ↓apply_ite State.rest, apply_ite Prod.fst, ite_self, ↓rest_leaf,
            ↓State.modSlice_rest])
    | rfl)

@[simp] theorem State.dropEntry_rest : ∀ (s : State) (p : Nat) (a : LineAddr) (pos : Option Nat) (poison : Bool),
  (s.dropEntry p a pos poison).rest = s.rest := by
  intros
  unfold State.dropEntry
  split <;> first | rfl | simp only [rest_leaf, State.modSlice_rest]

@[simp] theorem State.wbAnswer_rest : ∀ (s : State) (p : Nat) (m : Msg) (opc : Nat), (s.wbAnswer p m opc).rest =
    s.rest := by
  intros
  rfl

@[simp] theorem State.writeback_rest : ∀ (s : State) (p : Nat) (m : Msg) (pos : Option Nat) (held : Bool),
  (s.writeback p m pos held).rest = s.rest := by
  intros
  unfold State.writeback
  (repeat' first
    | with_reducible rfl
    | (with_reducible refine (State.storeLine_restP (by assumption)).trans ?_)
    | (with_reducible refine (foldl_keeps (State.rest) _ (fun _ _ => ?_) _ _).trans ?_)
    | (simp only [implies_true, forall_const, ↓apply_ite State.rest, apply_ite Prod.fst, ite_self, ↓rest_leaf,
            ↓State.clearBit_rest, ↓State.storeLine_rest, ↓State.dropEntry_rest, ↓State.count_rest,
            ↓State.wbAnswer_rest, ↓State.modSlice_rest, ↓State.modLine_rest]; done)
    | split
    | (simp only [implies_true, forall_const, ↓apply_ite State.rest, apply_ite Prod.fst, ite_self, ↓rest_leaf,
            ↓State.clearBit_rest, ↓State.storeLine_rest, ↓State.dropEntry_rest, ↓State.count_rest,
            ↓State.wbAnswer_rest, ↓State.modSlice_rest, ↓State.modLine_rest])
    | rfl)

@[simp] theorem State.evictClean_rest : ∀ (s : State) (p : Nat) (m : Msg) (pos : Option Nat), (s.evictClean p m
    pos).rest = s.rest := by
  intros
  simp only [State.evictClean, apply_ite State.rest, ite_self, rest_leaf, State.clearBit_rest,
      State.protoError_rest, State.dropEntry_rest, State.wbAnswer_rest]

@[simp] theorem State.redecide_rest : ∀ (s : State) (p : Nat) (a : LineAddr), (s.redecide p a).rest = s.rest := by
  intros
  unfold State.redecide
  exact foldl_keeps State.rest _ (fun _ _ => by first
    | rfl
    | simp only [rest_leaf, State.modLine_rest, State.writeback_rest]) _ _

@[simp] theorem State.answered_rest : ∀ (s : State) (p t w : Nat), (s.answered p t w).rest = s.rest := by
  intros
  rfl

@[simp] theorem State.strayAnswer_rest : ∀ (s : State) (p : Nat) (m : Msg), (s.strayAnswer p m).rest = s.rest := by
  intros
  simp only [State.strayAnswer, rest_leaf, State.protoError_rest]

@[simp] theorem State.invAck_rest : ∀ (s : State) (p : Nat) (m : Msg), (s.invAck p m).rest = s.rest := by
  intros
  simp only [State.invAck, apply_ite State.rest, ite_self, rest_leaf, State.strayAnswer_rest, State.answered_rest,
      State.modLine_rest, State.redecide_rest, State.settle_rest]

@[simp] theorem State.fwdDone_rest : ∀ (s : State) (p : Nat) (m : Msg), (s.fwdDone p m).rest = s.rest := by
  intros
  unfold State.fwdDone
  (repeat' first
    | with_reducible rfl
    | (with_reducible refine (foldl_keeps (State.rest) _ (fun _ _ => ?_) _ _).trans ?_)
    | (simp only [implies_true, forall_const, ↓apply_ite State.rest, apply_ite Prod.fst, ite_self, ↓rest_leaf,
            ↓State.redecide_rest, ↓State.settle_rest, ↓State.modLine_rest, ↓State.answered_rest,
            ↓State.endWith_rest, ↓State.strayAnswer_rest]; done)
    | split
    | (simp only [implies_true, forall_const, ↓apply_ite State.rest, apply_ite Prod.fst, ite_self, ↓rest_leaf,
            ↓State.redecide_rest, ↓State.settle_rest, ↓State.modLine_rest, ↓State.answered_rest,
            ↓State.endWith_rest, ↓State.strayAnswer_rest])
    | rfl)

@[simp] theorem State.copyBack_rest : ∀ (s : State) (p : Nat) (m : Msg), (s.copyBack p m).rest = s.rest := by
  intros
  simp only [State.copyBack, apply_ite State.rest, ite_self, rest_leaf, State.strayAnswer_rest, State.redecide_rest,
      State.settle_rest, State.modLine_rest, State.answered_rest, State.endWith_rest, State.storeLine_rest]

@[simp] theorem State.recallData_rest : ∀ (s : State) (p : Nat) (m : Msg), (s.recallData p m).rest = s.rest := by
  intros
  unfold State.recallData
  (repeat' first
    | with_reducible rfl
    | (with_reducible refine (State.storeLine_restP (by assumption)).trans ?_)
    | (with_reducible refine (foldl_keeps (State.rest) _ (fun _ _ => ?_) _ _).trans ?_)
    | (simp only [implies_true, forall_const, ↓apply_ite State.rest, apply_ite Prod.fst, ite_self, ↓rest_leaf,
            ↓State.redecide_rest, ↓State.settle_rest, ↓State.farHold_rest, ↓State.modTrk_rest,
            ↓State.storeLine_rest, ↓State.modLine_rest, ↓State.setDir_rest, ↓State.answered_rest,
            ↓State.strayAnswer_rest]; done)
    | split
    | (simp only [implies_true, forall_const, ↓apply_ite State.rest, apply_ite Prod.fst, ite_self, ↓rest_leaf,
            ↓State.redecide_rest, ↓State.settle_rest, ↓State.farHold_rest, ↓State.modTrk_rest,
            ↓State.storeLine_rest, ↓State.modLine_rest, ↓State.setDir_rest, ↓State.answered_rest,
            ↓State.strayAnswer_rest])
    | rfl)

@[simp] theorem State.memError_rest : ∀ (s : State) (p : Nat) (m : Msg), (s.memError p m).rest = s.rest := by
  intros
  unfold State.memError
  split <;> first | rfl | simp only [rest_leaf, State.sliceErr_rest]

@[simp] theorem State.deliver_rest : ∀ (s : State) (p : Nat) (a : LineAddr) (data : LineData) (poison : BitVec 8) (w
    : Waiter),
  (s.deliver p a data poison w).rest = s.rest := by
  intros
  unfold State.deliver
  (repeat' split) <;> first | rfl | simp only [rest_leaf, State.maintTry_rest, State.modTrk_rest, State.farHold_rest]

@[simp] theorem State.memData_rest : ∀ (s : State) (p : Nat) (m : Msg), (s.memData p m).rest = s.rest := by
  intros
  unfold State.memData
  (repeat' first
    | with_reducible rfl
    | (with_reducible refine (State.install_restP (by assumption)).trans ?_)
    | (with_reducible refine (foldl_keeps (State.rest) _ (fun _ _ => ?_) _ _).trans ?_)
    | (simp only [implies_true, forall_const, ↓apply_ite State.rest, apply_ite Prod.fst, ite_self, ↓rest_leaf,
            ↓State.settle_rest, ↓State.maintTry_rest, ↓State.deliver_rest, ↓State.install_rest,
            ↓State.hDataCheck_rest, ↓State.modHlc_rest, ↓State.strayAnswer_rest, ↓State.memError_rest]; done)
    | split
    | (simp only [implies_true, forall_const, ↓apply_ite State.rest, apply_ite Prod.fst, ite_self, ↓rest_leaf,
            ↓State.settle_rest, ↓State.maintTry_rest, ↓State.deliver_rest, ↓State.install_rest,
            ↓State.hDataCheck_rest, ↓State.modHlc_rest, ↓State.strayAnswer_rest, ↓State.memError_rest])
    | rfl)

@[simp] theorem State.writeOver_rest : ∀ (s : State) (p : Nat) (w : MemWrite), (s.writeOver p w).rest = s.rest := by
  intros
  unfold State.writeOver
  (repeat' first
    | with_reducible rfl
    | (with_reducible refine (foldl_keeps (State.rest) _ (fun _ _ => ?_) _ _).trans ?_)
    | (simp only [implies_true, forall_const, ↓apply_ite State.rest, apply_ite Prod.fst, ite_self, ↓rest_leaf,
            ↓State.maintFinish_rest, ↓State.endWith_rest, ↓State.modLine_rest, ↓State.victimWritten_rest,
            ↓State.settle_rest]; done)
    | split
    | (simp only [implies_true, forall_const, ↓apply_ite State.rest, apply_ite Prod.fst, ite_self, ↓rest_leaf,
            ↓State.maintFinish_rest, ↓State.endWith_rest, ↓State.modLine_rest, ↓State.victimWritten_rest,
            ↓State.settle_rest])
    | rfl)

@[simp] theorem State.memAck_rest : ∀ (s : State) (p : Nat) (m : Msg), (s.memAck p m).rest = s.rest := by
  intros
  unfold State.memAck
  (repeat' first
    | with_reducible rfl
    | (with_reducible refine (foldl_keeps (State.rest) _ (fun _ _ => ?_) _ _).trans ?_)
    | (simp only [implies_true, forall_const, ↓apply_ite State.rest, apply_ite Prod.fst, ite_self, ↓rest_leaf,
            ↓State.modHlc_rest, ↓State.writeOver_rest, ↓State.strayAnswer_rest, ↓State.memError_rest]; done)
    | split
    | (simp only [implies_true, forall_const, ↓apply_ite State.rest, apply_ite Prod.fst, ite_self, ↓rest_leaf,
            ↓State.modHlc_rest, ↓State.writeOver_rest, ↓State.strayAnswer_rest, ↓State.memError_rest])
    | rfl)

@[simp] theorem State.writeSend_rest : ∀ (s : State) (p : Nat) (a : LineAddr), (s.writeSend p a).rest = s.rest := by
  intros
  unfold State.writeSend
  (repeat' first
    | with_reducible rfl
    | (with_reducible refine (foldl_keeps (State.rest) _ (fun _ _ => ?_) _ _).trans ?_)
    | (simp only [implies_true, forall_const, ↓apply_ite State.rest, apply_ite Prod.fst, ite_self, ↓rest_leaf,
            ↓State.emit_rest, ↓State.sliceErr_rest, ↓State.modHlc_rest, ↓State.writeOver_rest]; done)
    | split
    | (simp only [implies_true, forall_const, ↓apply_ite State.rest, apply_ite Prod.fst, ite_self, ↓rest_leaf,
            ↓State.emit_rest, ↓State.sliceErr_rest, ↓State.modHlc_rest, ↓State.writeOver_rest])
    | rfl)

@[simp] theorem State.missTry_rest : ∀ (s : State) (p t : Nat) (k : Trk), (s.missTry p t k).1.rest = s.rest := by
  intros
  unfold State.missTry
  (repeat' first
    | with_reducible rfl
    | (with_reducible refine (State.hRead_restP (by assumption)).trans ?_)
    | (with_reducible refine (State.missJoin_restP (by assumption)).trans ?_)
    | (with_reducible refine (foldl_keeps (State.rest) _ (fun _ _ => ?_) _ _).trans ?_)
    | (simp only [implies_true, forall_const, ↓apply_ite State.rest, apply_ite Prod.fst, ite_self, ↓rest_leaf,
            ↓State.missJoin_rest, ↓State.farHold_rest, ↓State.settle_rest, ↓State.modTrk_rest, ↓State.hRead_rest];
            done)
    | split
    | (simp only [implies_true, forall_const, ↓apply_ite State.rest, apply_ite Prod.fst, ite_self, ↓rest_leaf,
            ↓State.missJoin_rest, ↓State.farHold_rest, ↓State.settle_rest, ↓State.modTrk_rest, ↓State.hRead_rest])
    | rfl)
theorem State.missTry_restP : ∀ {s : State} {p t : Nat} {k : Trk} {u : State} {res},
    s.missTry p t k = (u, res) → u.rest = s.rest := by
  intros
  rename_i h
  have h2 := congrArg (fun r => r.1.rest) h
  simp only [State.missTry_rest] at h2
  exact h2.symm

@[simp] theorem State.farRead_rest : ∀ (s : State) (p t : Nat) (a : LineAddr), (s.farRead p t a).rest = s.rest := by
  intros
  unfold State.farRead
  (repeat' first
    | with_reducible rfl
    | (with_reducible refine (State.hRead_restP (by assumption)).trans ?_)
    | (with_reducible refine (State.missJoin_restP (by assumption)).trans ?_)
    | (with_reducible refine (foldl_keeps (State.rest) _ (fun _ _ => ?_) _ _).trans ?_)
    | (simp only [implies_true, forall_const, ↓apply_ite State.rest, apply_ite Prod.fst, ite_self, ↓rest_leaf,
            ↓State.modTrk_rest, ↓State.missJoin_rest, ↓State.farHold_rest, ↓State.hRead_rest]; done)
    | split
    | (simp only [implies_true, forall_const, ↓apply_ite State.rest, apply_ite Prod.fst, ite_self, ↓rest_leaf,
            ↓State.modTrk_rest, ↓State.missJoin_rest, ↓State.farHold_rest, ↓State.hRead_rest])
    | rfl)

@[simp] theorem State.farOperand_rest : ∀ (s : State) (p t q : Nat) (m : Msg), (s.farOperand p t q m).1.rest =
    s.rest := by
  intros
  unfold State.farOperand
  (repeat' first
    | with_reducible rfl
    | (with_reducible refine (foldl_keeps (State.rest) _ (fun _ _ => ?_) _ _).trans ?_)
    | (simp only [implies_true, forall_const, ↓apply_ite State.rest, apply_ite Prod.fst, ite_self, ↓rest_leaf,
            ↓State.modTrk_rest, ↓State.farRead_rest, ↓State.modSlice_rest, ↓State.farDecline_rest,
            ↓State.modLine_rest, ↓State.settle_rest, ↓State.hDataCheck_rest]; done)
    | split
    | (simp only [implies_true, forall_const, ↓apply_ite State.rest, apply_ite Prod.fst, ite_self, ↓rest_leaf,
            ↓State.modTrk_rest, ↓State.farRead_rest, ↓State.modSlice_rest, ↓State.farDecline_rest,
            ↓State.modLine_rest, ↓State.settle_rest, ↓State.hDataCheck_rest])
    | rfl)
theorem State.farOperand_restP : ∀ {s : State} {p t q : Nat} {m : Msg} {u : State} {res},
    s.farOperand p t q m = (u, res) → u.rest = s.rest := by
  intros
  rename_i h
  have h2 := congrArg (fun r => r.1.rest) h
  simp only [State.farOperand_rest] at h2
  exact h2.symm

@[simp] theorem State.farStart_rest : ∀ (s : State) (p t : Nat), (s.farStart p t).rest = s.rest := by
  intros
  unfold State.farStart
  (repeat' first
    | with_reducible rfl
    | (with_reducible refine (State.farReserve_restP (by assumption)).trans ?_)
    | (with_reducible refine (foldl_keeps (State.rest) _ (fun _ _ => ?_) _ _).trans ?_)
    | (simp only [implies_true, forall_const, ↓apply_ite State.rest, apply_ite Prod.fst, ite_self, ↓rest_leaf,
            ↓State.setDir_rest, ↓State.sendVector_rest, ↓State.farRead_rest, ↓State.sendForward_rest,
            ↓State.farReserve_rest, ↓State.farDecline_rest, ↓State.modLine_rest, ↓State.modTrk_rest,
            ↓State.handleStart_rest, ↓State.settle_rest]; done)
    | split
    | (simp only [implies_true, forall_const, ↓apply_ite State.rest, apply_ite Prod.fst, ite_self, ↓rest_leaf,
            ↓State.setDir_rest, ↓State.sendVector_rest, ↓State.farRead_rest, ↓State.sendForward_rest,
            ↓State.farReserve_rest, ↓State.farDecline_rest, ↓State.modLine_rest, ↓State.modTrk_rest,
            ↓State.handleStart_rest, ↓State.settle_rest])
    | rfl)

@[simp] theorem State.farWrite_rest : ∀ (s : State) (p q : Nat) (a : LineAddr) (data : LineData), (s.farWrite p q a
    data).rest = s.rest := by
  intros
  rfl

@[simp] theorem State.farFinish_rest : ∀ (s : State) (p t : Nat) (stat : BitVec 4) (aux : BitVec 8) (payload :
    LineData),
  (s.farFinish p t stat aux payload).rest = s.rest := by
  intros
  unfold State.farFinish
  (repeat' first
    | with_reducible rfl
    | (with_reducible refine (foldl_keeps (State.rest) _ (fun _ _ => ?_) _ _).trans ?_)
    | (simp only [implies_true, forall_const, ↓apply_ite State.rest, apply_ite Prod.fst, ite_self, ↓rest_leaf,
            ↓State.maintRetry_rest, ↓State.settle_rest, ↓State.modLine_rest, ↓State.farLeave_rest,
            ↓State.endWith_rest]; done)
    | split
    | (simp only [implies_true, forall_const, ↓apply_ite State.rest, apply_ite Prod.fst, ite_self, ↓rest_leaf,
            ↓State.maintRetry_rest, ↓State.settle_rest, ↓State.modLine_rest, ↓State.farLeave_rest,
            ↓State.endWith_rest])
    | rfl)

@[simp] theorem State.aluExecute_rest : ∀ (s : State) (p : Nat), (s.aluExecute p).rest = s.rest := by
  intros
  unfold State.aluExecute
  (repeat' first
    | with_reducible rfl
    | (with_reducible refine (State.farOperand_restP (by assumption)).trans ?_)
    | (with_reducible refine (foldl_keeps (State.rest) _ (fun _ _ => ?_) _ _).trans ?_)
    | (simp only [implies_true, forall_const, ↓apply_ite State.rest, apply_ite Prod.fst, ite_self, ↓rest_leaf,
            ↓State.farWrite_rest, ↓State.farFinish_rest, ↓State.count_rest, ↓State.breakWatch_rest,
            ↓State.farOperand_rest, ↓State.farLeave_rest]; done)
    | split
    | (simp only [implies_true, forall_const, ↓apply_ite State.rest, apply_ite Prod.fst, ite_self, ↓rest_leaf,
            ↓State.farWrite_rest, ↓State.farFinish_rest, ↓State.count_rest, ↓State.breakWatch_rest,
            ↓State.farOperand_rest, ↓State.farLeave_rest])
    | rfl)

@[simp] theorem State.takeMsg_rest : ∀ (s : State) (p : Nat) (m : Msg), (s.takeMsg p m).rest = s.rest := by
  intros
  rfl

@[simp] theorem State.taking_rest : ∀ (s : State) (p : Nat) (m : Msg) (go : State → State),
  (∀ (a : State), (go a).rest = a.rest) → (s.taking p m go).rest = s.rest := by
  intros
  unfold State.taking
  split <;> first | rfl | simp only [*, rest_leaf, State.takeMsg_rest]

@[simp] theorem State.noteTaken_rest : ∀ (s : State) (p : Nat) (m : Msg), (s.noteTaken p m).rest = s.rest := by
  intros
  unfold State.noteTaken
  split <;> first | rfl | simp only [rest_leaf, State.modSlice_rest]

@[simp] theorem State.beyondAllowance_rest : ∀ (s : State) (p : Nat) (m : Msg), (s.beyondAllowance p m).rest =
    s.rest := by
  intros
  rfl

@[simp] theorem State.farAdmit_rest : ∀ (s : State) (p t : Nat) (m : Msg) (hit : Option Nat), (s.farAdmit p t m
    hit).rest = s.rest := by
  intros
  unfold State.farAdmit
  (repeat' first
    | with_reducible rfl
    | (with_reducible refine (foldl_keeps (State.rest) _ (fun _ _ => ?_) _ _).trans ?_)
    | (simp only [implies_true, forall_const, ↓apply_ite State.rest, apply_ite Prod.fst, ite_self, ↓rest_leaf,
            ↓State.modSlice_rest, ↓State.decideReq_rest, ↓State.farDecline_rest]; done)
    | split
    | (simp only [implies_true, forall_const, ↓apply_ite State.rest, apply_ite Prod.fst, ite_self, ↓rest_leaf,
            ↓State.modSlice_rest, ↓State.decideReq_rest, ↓State.farDecline_rest])
    | rfl)

@[simp] theorem State.predict_rest : ∀ (s : State) (p : Nat) (m : Msg), (s.predict p m).rest = s.rest := by
  intros
  rfl

@[simp] theorem State.wbTake_rest : ∀ (s : State) (p : Nat) (m : Msg) (go : State → Option Nat → State),
  (∀ (a : State) (a_1 : Option Nat), (go a a_1).rest = a.rest) → (s.wbTake p m go).rest = s.rest := by
  intros
  unfold State.wbTake
  (repeat' first
    | with_reducible rfl
    | (with_reducible refine (State.lookup_restP (by assumption)).trans ?_)
    | (with_reducible refine (foldl_keeps (State.rest) _ (fun _ _ => ?_) _ _).trans ?_)
    | (simp only [*, implies_true, forall_const, ↓apply_ite State.rest, apply_ite Prod.fst, ite_self, ↓rest_leaf,
            ↓State.noteTaken_rest, ↓State.lookup_rest, ↓State.homeMismatch_rest, ↓State.taking_rest]; done)
    | split
    | (simp only [*, implies_true, forall_const, ↓apply_ite State.rest, apply_ite Prod.fst, ite_self, ↓rest_leaf,
            ↓State.noteTaken_rest, ↓State.lookup_rest, ↓State.homeMismatch_rest, ↓State.taking_rest])
    | rfl)

@[simp] theorem State.answerTake_rest : ∀ (s : State) (p : Nat) (m : Msg) (go : State → State),
  (∀ (a : State), (go a).rest = a.rest) → (s.answerTake p m go).rest = s.rest := by
  intros
  unfold State.answerTake
  (repeat' first
    | with_reducible rfl
    | (with_reducible refine (foldl_keeps (State.rest) _ (fun _ _ => ?_) _ _).trans ?_)
    | (simp only [*, implies_true, forall_const, ↓apply_ite State.rest, apply_ite Prod.fst, ite_self, ↓rest_leaf,
            ↓State.homeMismatch_rest, ↓State.taking_rest]; done)
    | split
    | (simp only [*, implies_true, forall_const, ↓apply_ite State.rest, apply_ite Prod.fst, ite_self, ↓rest_leaf,
            ↓State.homeMismatch_rest, ↓State.taking_rest])
    | rfl)

@[simp] theorem State.hlcMaint_rest : ∀ (s : State) (p : Nat) (m : Msg), (s.hlcMaint p m).rest = s.rest := by
  intros
  unfold State.hlcMaint
  (repeat' first
    | with_reducible rfl
    | (with_reducible refine (State.lookup_restP (by assumption)).trans ?_)
    | (with_reducible refine (foldl_keeps (State.rest) _ (fun _ _ => ?_) _ _).trans ?_)
    | (simp only [implies_true, forall_const, ↓apply_ite State.rest, apply_ite Prod.fst, ite_self, ↓rest_leaf,
            ↓State.breakWatch_rest, ↓State.maintTry_rest, ↓State.modHlc_rest, ↓State.lookup_rest, ↓State.emit_rest,
            ↓State.noteTaken_rest, ↓State.homeMismatch_rest, ↓State.taking_rest]; done)
    | split
    | (simp only [implies_true, forall_const, ↓apply_ite State.rest, apply_ite Prod.fst, ite_self, ↓rest_leaf,
            ↓State.breakWatch_rest, ↓State.maintTry_rest, ↓State.modHlc_rest, ↓State.lookup_rest, ↓State.emit_rest,
            ↓State.noteTaken_rest, ↓State.homeMismatch_rest, ↓State.taking_rest])
    | rfl)

@[simp] theorem State.farPredClr_rest : ∀ (s : State) (p : Nat), (s.farPredClr p).rest = s.rest := by
  intros
  rfl

@[simp] theorem State.hlcDisable_rest : ∀ (s : State) (p : Nat), (s.hlcDisable p).rest = s.rest := by
  intros
  unfold State.hlcDisable
  split <;> first | rfl | simp only [rest_leaf, State.modHlc_rest]

@[simp] theorem State.hlcEnable_rest : ∀ (s : State) (p : Nat), (s.hlcEnable p).rest = s.rest := by
  intros
  simp only [State.hlcEnable, apply_ite State.rest, ite_self, rest_leaf, State.modHlc_rest]

@[simp] theorem State.maintEndAll_rest : ∀ (s : State) (p : Nat), (s.maintEndAll p).rest = s.rest := by
  intros
  simp only [State.maintEndAll, rest_leaf, State.modHlc_rest, State.maintFinish_rest]

@[simp] theorem State.hlcInit_rest : ∀ (s : State) (p : Nat), (s.hlcInit p).rest = s.rest := by
  intros
  simp only [State.hlcInit, apply_ite State.rest, ite_self, rest_leaf, State.modHlc_rest]

@[simp] theorem State.hlcWayDisable_rest : ∀ (s : State) (p w : Nat), (s.hlcWayDisable p w).rest = s.rest := by
  intros
  simp only [State.hlcWayDisable, apply_ite State.rest, ite_self, rest_leaf, State.flushWay_rest, State.modHlc_rest]

@[simp] theorem State.hlcWayEnable_rest : ∀ (s : State) (p w : Nat), (s.hlcWayEnable p w).rest = s.rest := by
  intros
  simp only [State.hlcWayEnable, apply_ite State.rest, ite_self, rest_leaf, State.modHlc_rest]

@[simp] theorem State.sflInit_rest : ∀ (s : State) (p : Nat), (s.sflInit p).rest = s.rest := by
  intros
  rfl

@[simp] theorem State.sflPassStart_rest : ∀ (s : State) (p : Nat), (s.sflPassStart p).rest = s.rest := by
  intros
  rfl

@[simp] theorem State.rpqLevel_rest : ∀ (s : State) (q before : Nat), (s.rpqLevel q before).rest = s.rest := by
  intros
  simp only [State.rpqLevel, apply_ite State.rest, ite_self, rest_leaf, State.fire_rest]

@[simp] theorem State.modSrc_rest : ∀ (s : State) (n : Nat) (f : Src → Src), (s.modSrc n f).rest = s.rest := by
  intros
  rfl

@[simp] theorem State.endActive_rest : ∀ (s : State) (n : Nat), (s.endActive n).rest = s.rest := by
  intros
  rfl

@[simp] theorem State.engErr_rest : ∀ (s : State) (e cls code : Nat) (detail : BitVec 64), (s.engErr e cls code
    detail).rest = s.rest := by
  intros
  simp only [State.engErr, rest_leaf, State.record_rest]

@[simp] theorem State.leaveActive_rest : ∀ (s : State) (e n : Nat), (s.leaveActive e n).rest = s.rest := by
  intros
  unfold State.leaveActive
  split <;> first | rfl | simp only [rest_leaf, State.endActive_rest]

@[simp] theorem State.declineReady_rest : ∀ (s : State) (p : Nat), (s.declineReady p).rest = s.rest := by
  intros
  unfold State.declineReady
  (repeat' first
    | with_reducible rfl
    | (with_reducible refine (foldl_keeps (State.rest) _ (fun _ _ => ?_) _ _).trans ?_)
    | (simp only [implies_true, forall_const, ↓apply_ite State.rest, apply_ite Prod.fst, ite_self, ↓rest_leaf,
            ↓State.farDecline_rest, ↓State.modLine_rest, ↓State.settle_rest]; done)
    | split
    | (simp only [implies_true, forall_const, ↓apply_ite State.rest, apply_ite Prod.fst, ite_self, ↓rest_leaf,
            ↓State.farDecline_rest, ↓State.modLine_rest, ↓State.settle_rest])
    | rfl)

@[simp] theorem State.modGrp_rest : ∀ (s : State) (g : Nat) (f : Grp → Grp), (s.modGrp g f).rest = s.rest := by
  intros
  rfl

@[simp] theorem State.countIn_rest : ∀ (s : State) (g : Nat), (s.countIn g).rest = s.rest := by
  intros
  rfl

@[simp] theorem State.capture_rest : ∀ (s : State) (n : Nat), (s.capture n).rest = s.rest := by
  intros
  simp only [State.capture, apply_ite State.rest, ite_self, rest_leaf, State.countIn_rest, State.modSrc_rest]

@[simp] theorem State.closeWindow_rest : ∀ (s : State) (g : Nat), (s.closeWindow g).rest = s.rest := by
  intros
  rfl

@[simp] theorem State.commitMark_rest : ∀ (s : State) (n : Nat), (s.commitMark n).rest = s.rest := by
  intros
  simp only [State.commitMark, apply_ite State.rest, ite_self, rest_leaf, State.modSrc_rest]

@[simp] theorem State.ringErr_rest : ∀ (s : State) (r cls code : Nat) (extra : optParam (BitVec 16) 0),
  (s.ringErr r cls code extra).rest = s.rest := by
  intros
  simp only [State.ringErr, rest_leaf, State.record_rest]

@[simp] theorem State.deadAnswer_rest : ∀ (s : State) (p t g : Nat), (s.deadAnswer p t g).rest = s.rest := by
  intros
  unfold State.deadAnswer
  (repeat' first
    | with_reducible rfl
    | (with_reducible refine (foldl_keeps (State.rest) _ (fun _ _ => ?_) _ _).trans ?_)
    | (simp only [implies_true, forall_const, ↓apply_ite State.rest, apply_ite Prod.fst, ite_self, ↓rest_leaf,
            ↓State.recallData_rest, ↓State.copyBack_rest, ↓State.fwdDone_rest, ↓State.invAck_rest,
            ↓State.loadRecent_rest, ↓State.emit_rest]; done)
    | split
    | (simp only [implies_true, forall_const, ↓apply_ite State.rest, apply_ite Prod.fst, ite_self, ↓rest_leaf,
            ↓State.recallData_rest, ↓State.copyBack_rest, ↓State.fwdDone_rest, ↓State.invAck_rest,
            ↓State.loadRecent_rest, ↓State.emit_rest])
    | rfl)

@[simp] theorem State.hostEoi_rest : ∀ (s : State) (n : Nat), (s.hostEoi n).rest = s.rest := by
  intros
  unfold State.hostEoi
  split <;> first | rfl | simp only [rest_leaf, State.endActive_rest]

@[simp] theorem State.doorbell_rest : ∀ (s : State) (e : Nat), (s.doorbell e).rest = s.rest := by
  intros
  unfold State.doorbell
  split <;> first | rfl | simp only [rest_leaf, State.fire_rest]

@[simp] theorem State.pmcFreeze_rest : ∀ (s : State) (stop : Bool), (s.pmcFreeze stop).rest = s.rest := by
  intros
  rfl

@[simp] theorem State.pmcSnapshot_rest : ∀ (s : State), s.pmcSnapshot.rest = s.rest := by
  intros
  rfl

@[simp] theorem State.countRecord_rest : ∀ (s : State) (e : ErrRec), (s.countRecord e).rest = s.rest := by
  intros
  simp only [State.countRecord, apply_ite State.rest, ite_self, rest_leaf, State.modRas_rest, State.glbEvent_rest,
      State.fire_rest]

@[simp] theorem State.mptErr_rest : ∀ (s : State) (m : Nat) (q : optParam (Option LineAddr) none), (s.mptErr m
    q).rest = s.rest := by
  intros
  rfl

@[simp] theorem State.memLost_rest : ∀ (s : State) (m : Nat) (q : Msg) (wr : Bool), (s.memLost m q wr).rest = s.rest
    := by
  intros
  unfold State.memLost
  split <;> first | rfl | simp only [rest_leaf, State.memData_rest, State.memAck_rest]

@[simp] theorem State.pwrFatal_rest : ∀ (s : State), s.pwrFatal.rest = s.rest := by
  intros
  simp only [State.pwrFatal, rest_leaf, State.record_rest]

@[simp] theorem State.copiesLost_rest : ∀ (s : State), s.copiesLost.rest = s.rest := by
  intros
  rfl

@[simp] theorem State.sliceRc_rest : ∀ (s : State) (p o : Nat) (m : Word), (s.sliceRc p o m).rest = s.rest := by
  intros
  unfold State.sliceRc
  (repeat' first
    | with_reducible rfl
    | (with_reducible refine (foldl_keeps (State.rest) _ (fun _ _ => ?_) _ _).trans ?_)
    | (simp only [implies_true, forall_const, ↓apply_ite State.rest, apply_ite Prod.fst, ite_self, ↓rest_leaf,
            ↓State.modSlice_rest]; done)
    | split
    | (simp only [implies_true, forall_const, ↓apply_ite State.rest, apply_ite Prod.fst, ite_self, ↓rest_leaf,
            ↓State.modSlice_rest])
    | rfl)

@[simp] theorem State.sliceRead_rest : ∀ (s : State) (p off size : Nat), (s.sliceRead p off size).1.rest = s.rest :=
    by
  intros
  unfold State.sliceRead
  (repeat' first
    | with_reducible rfl
    | (with_reducible refine (foldl_keeps (State.rest) _ (fun _ _ => ?_) _ _).trans ?_)
    | (simp only [implies_true, forall_const, ↓apply_ite State.rest, apply_ite Prod.fst, ite_self, ↓rest_leaf,
            ↓State.sliceRc_rest]; done)
    | split
    | (simp only [implies_true, forall_const, ↓apply_ite State.rest, apply_ite Prod.fst, ite_self, ↓rest_leaf,
            ↓State.sliceRc_rest])
    | rfl)
theorem State.sliceRead_restP : ∀ {s : State} {p off size : Nat} {u : State} {res},
    s.sliceRead p off size = (u, res) → u.rest = s.rest := by
  intros
  rename_i h
  have h2 := congrArg (fun r => r.1.rest) h
  simp only [State.sliceRead_rest] at h2
  exact h2.symm

@[simp] theorem State.writeSflCtrl_rest : ∀ (s : State) (p : Nat) (v : Word), (s.writeSflCtrl p v).rest = s.rest := by
  intros
  simp only [State.writeSflCtrl, apply_ite State.rest, ite_self, rest_leaf, State.sflPassStart_rest,
      State.sflInit_rest, State.modSlice_rest]

@[simp] theorem State.writeHlcCtrl_rest : ∀ (s : State) (p : Nat) (v : Word), (s.writeHlcCtrl p v).rest = s.rest := by
  intros
  simp only [State.writeHlcCtrl, apply_ite State.rest, ite_self, rest_leaf, State.hlcInit_rest,
      State.hlcDisable_rest, State.modHlc_rest, State.hlcEnable_rest]

@[simp] theorem State.writeWays_rest : ∀ (s : State) (p : Nat) (v : Word), (s.writeWays p v).rest = s.rest := by
  intros
  unfold State.writeWays
  (repeat' first
    | with_reducible rfl
    | (with_reducible refine (foldl_keeps (State.rest) _ (fun _ _ => ?_) _ _).trans ?_)
    | (simp only [implies_true, forall_const, ↓apply_ite State.rest, apply_ite Prod.fst, ite_self, ↓rest_leaf,
            ↓State.hlcWayDisable_rest, ↓State.hlcWayEnable_rest]; done)
    | split
    | (simp only [implies_true, forall_const, ↓apply_ite State.rest, apply_ite Prod.fst, ite_self, ↓rest_leaf,
            ↓State.hlcWayDisable_rest, ↓State.hlcWayEnable_rest])
    | rfl)

@[simp] theorem State.writeFarCtrl_rest : ∀ (s : State) (p : Nat) (v : Word), (s.writeFarCtrl p v).rest = s.rest := by
  intros
  simp only [State.writeFarCtrl, apply_ite State.rest, ite_self, rest_leaf, State.farPredClr_rest,
      State.modSlice_rest]

@[simp] theorem State.sliceW1c_rest : ∀ (s : State) (p o : Nat) (b : Word), (s.sliceW1c p o b).rest = s.rest := by
  intros
  rfl

@[simp] theorem State.svcRsp_rest : ∀ (s : State) (p : Nat) (q : Msg) (stat : BitVec 4) (len : Nat) (data : LineData),
  (s.svcRsp p q stat len data).rest = s.rest := by
  intros
  rfl

@[simp] theorem State.svcReq_rest : ∀ (s : State) (p : Nat) (m : Msg) (go : State → Msg → State),
  (∀ (a : State) (a_1 : Msg), (go a a_1).rest = a.rest) → (s.svcReq p m go).rest = s.rest := by
  intros
  unfold State.svcReq
  (repeat' first
    | with_reducible rfl
    | (with_reducible refine (foldl_keeps (State.rest) _ (fun _ _ => ?_) _ _).trans ?_)
    | (simp only [*, implies_true, forall_const, ↓apply_ite State.rest, apply_ite Prod.fst, ite_self, ↓rest_leaf,
            ↓State.svcRsp_rest, ↓State.taking_rest]; done)
    | split
    | (simp only [*, implies_true, forall_const, ↓apply_ite State.rest, apply_ite Prod.fst, ite_self, ↓rest_leaf,
            ↓State.svcRsp_rest, ↓State.taking_rest])
    | rfl)

@[simp] theorem State.putLine_rest : ∀ (s : State) (p pos : Nat) (tag : BitVec 31) (data : LineData) (poison :
    BitVec 8) (dirty : Bool),
  (s.putLine p pos tag data poison dirty).rest = s.rest := by
  intros
  simp only [State.putLine, apply_ite State.rest, ite_self, rest_leaf, State.modHlc_rest]

@[simp] theorem State.dictMaint_rest : ∀ (s : State) (op : BitVec 4), (s.dictMaint op).rest = s.rest := by
  intros
  unfold State.dictMaint
  (repeat' first
    | with_reducible rfl
    | (with_reducible refine (foldl_keeps (State.rest) _ (fun _ _ => ?_) _ _).trans ?_)
    | (simp only [implies_true, forall_const, ↓apply_ite State.rest, apply_ite Prod.fst, ite_self, ↓rest_leaf,
            ↓State.modHlc_rest]; done)
    | split
    | (simp only [implies_true, forall_const, ↓apply_ite State.rest, apply_ite Prod.fst, ite_self, ↓rest_leaf,
            ↓State.modHlc_rest])
    | rfl)

@[simp] theorem State.dictMaintCmd_rest : ∀ (s : State) (op : BitVec 4), (s.dictMaintCmd op).rest = s.rest := by
  intros
  unfold State.dictMaintCmd
  split <;> first | rfl | simp only [rest_leaf, State.dictMaint_rest]

@[simp] theorem State.evacBegin_rest : ∀ (s : State) (l : BitVec 7) (target : Nat), (s.evacBegin l target).rest =
    s.rest := by
  intros
  rfl

@[simp] theorem State.evacCmd_rest : ∀ (s : State) (l : BitVec 7) (named : Nat), (s.evacCmd l named).1.rest = s.rest
    := by
  intros
  unfold State.evacCmd
  (repeat' split) <;> first | rfl | simp only [rest_leaf, State.modSpare_rest, State.evacBegin_rest]
theorem State.evacCmd_restP : ∀ {s : State} {l : BitVec 7} {named : Nat} {u : State} {res},
    s.evacCmd l named = (u, res) → u.rest = s.rest := by
  intros
  rename_i h
  have h2 := congrArg (fun r => r.1.rest) h
  simp only [State.evacCmd_rest] at h2
  exact h2.symm

@[simp] theorem State.spareCtrl_rest : ∀ (s : State) (v : BitVec 32), (s.spareCtrl v).rest = s.rest := by
  intros
  unfold State.spareCtrl
  split <;> first | rfl | simp only [rest_leaf, State.evacCmd_rest]

@[simp] theorem State.modEvac_rest : ∀ (s : State) (f : Evac → Evac), (s.modEvac f).rest = s.rest := by
  intros
  rfl

@[simp] theorem State.countStopped_rest : ∀ (s before : State), (s.countStopped before).rest = s.rest := by
  intros
  unfold State.countStopped
  (repeat' first
    | with_reducible rfl
    | (with_reducible refine (foldl_keeps (State.rest) _ (fun _ _ => ?_) _ _).trans ?_)
    | (simp only [implies_true, forall_const, ↓apply_ite State.rest, apply_ite Prod.fst, ite_self, ↓rest_leaf,
            ↓State.portEvent_rest]; done)
    | split
    | (simp only [implies_true, forall_const, ↓apply_ite State.rest, apply_ite Prod.fst, ite_self, ↓rest_leaf,
            ↓State.portEvent_rest])
    | rfl)

@[simp] theorem State.copyOne_rest : ∀ (s : State) (old new key : Nat), (s.copyOne old new key).rest = s.rest := by
  intros
  simp only [State.copyOne, rest_leaf, State.modSlice_rest, State.sfBlockCheck_rest]

@[simp] theorem State.copyLine_rest : ∀ (s : State) (old new pos : Nat), (s.copyLine old new pos).rest = s.rest := by
  intros
  simp only [State.copyLine, apply_ite State.rest, ite_self, rest_leaf, State.putLine_rest, State.hTagCheck_rest,
      State.hDataCheck_rest]

@[simp] theorem State.copySlice_rest : ∀ (s : State) (old new : Nat) (l : BitVec 7), (s.copySlice old new l).rest =
    s.rest := by
  intros
  unfold State.copySlice
  (repeat' first
    | with_reducible rfl
    | (with_reducible refine (foldl_keeps (State.rest) _ (fun _ _ => ?_) _ _).trans ?_)
    | (simp only [implies_true, forall_const, ↓apply_ite State.rest, apply_ite Prod.fst, ite_self, ↓rest_leaf,
            ↓State.writeFarCtrl_rest, ↓State.sflPassStart_rest, ↓State.writeWays_rest, ↓State.writeHlcCtrl_rest,
            ↓State.writeSflCtrl_rest, ↓State.copyLine_rest, ↓State.copyOne_rest, ↓State.modSlice_rest]; done)
    | split
    | (simp only [implies_true, forall_const, ↓apply_ite State.rest, apply_ite Prod.fst, ite_self, ↓rest_leaf,
            ↓State.writeFarCtrl_rest, ↓State.sflPassStart_rest, ↓State.writeWays_rest, ↓State.writeHlcCtrl_rest,
            ↓State.writeSflCtrl_rest, ↓State.copyLine_rest, ↓State.copyOne_rest, ↓State.modSlice_rest])
    | rfl)

@[simp] theorem State.evacRecord_rest : ∀ (s : State) (cls code old : Nat), (s.evacRecord cls code old).rest =
    s.rest := by
  intros
  simp only [State.evacRecord, rest_leaf, State.record_rest]

@[simp] theorem State.evacAgain_rest : ∀ (s : State), s.evacAgain.rest = s.rest := by
  intros
  unfold State.evacAgain
  (repeat' split) <;> first | rfl | simp only [rest_leaf, State.modSpare_rest, State.fire_rest]

@[simp] theorem State.discardTarget_rest : ∀ (s : State) (t : Nat), (s.discardTarget t).rest = s.rest := by
  intros
  rfl

@[simp] theorem State.modProbe_rest : ∀ (s : State) (p : Nat) (f : Probe → Probe), (s.modProbe p f).rest = s.rest :=
    by
  intros
  rfl

@[simp] theorem State.probeSend_rest : ∀ (s : State) (p step : Nat), (s.probeSend p step).rest = s.rest := by
  intros
  rfl

@[simp] theorem State.probeFail_rest : ∀ (s : State) (p : Nat) (step : BitVec 3), (s.probeFail p step).rest = s.rest
    := by
  intros
  simp only [State.probeFail, rest_leaf, State.record_rest, State.modProbe_rest, State.modSaf_rest]

@[simp] theorem State.probeTake_rest : ∀ (s : State) (p : Nat) (m : Msg), (s.probeTake p m).rest = s.rest := by
  intros
  rfl

@[simp] theorem State.checkerFail_rest : ∀ (s : State) (c : BitVec 16), (s.checkerFail c).rest = s.rest := by
  intros
  simp only [State.checkerFail, rest_leaf, State.record_rest]

@[simp] theorem State.clockRecord_rest : ∀ (s : State) (i : Nat), (s.clockRecord i).rest = s.rest := by
  intros
  rfl

@[simp] theorem State.poisonOut_rest : ∀ (s : State) (p : Nat) (a : LineAddr) (held : Option LineData), (s.poisonOut
    p a held).rest = s.rest := by
  intros
  unfold State.poisonOut
  (repeat' first
    | with_reducible rfl
    | (with_reducible refine (State.install_restP (by assumption)).trans ?_)
    | (with_reducible refine (foldl_keeps (State.rest) _ (fun _ _ => ?_) _ _).trans ?_)
    | (simp only [implies_true, forall_const, ↓apply_ite State.rest, apply_ite Prod.fst, ite_self, ↓rest_leaf,
            ↓State.setDir_rest, ↓State.install_rest, ↓State.modHlc_rest]; done)
    | split
    | (simp only [implies_true, forall_const, ↓apply_ite State.rest, apply_ite Prod.fst, ite_self, ↓rest_leaf,
            ↓State.setDir_rest, ↓State.install_rest, ↓State.modHlc_rest])
    | rfl)

@[simp] theorem State.kickEnd_rest : ∀ (s : State) (p t : Nat) (k : Trk), (s.kickEnd p t k).rest = s.rest := by
  intros
  unfold State.kickEnd
  (repeat' first
    | with_reducible rfl
    | (with_reducible refine (foldl_keeps (State.rest) _ (fun _ _ => ?_) _ _).trans ?_)
    | (simp only [implies_true, forall_const, ↓apply_ite State.rest, apply_ite Prod.fst, ite_self, ↓rest_leaf,
            ↓State.loadRecent_rest, ↓State.endWith_rest, ↓State.poisonOut_rest]; done)
    | split
    | (simp only [implies_true, forall_const, ↓apply_ite State.rest, apply_ite Prod.fst, ite_self, ↓rest_leaf,
            ↓State.loadRecent_rest, ↓State.endWith_rest, ↓State.poisonOut_rest])
    | rfl)

@[simp] theorem State.kickClean_rest : ∀ (s : State), s.kickClean.rest = s.rest := by
  intros
  unfold State.kickClean
  (repeat' first
    | with_reducible rfl
    | (with_reducible refine (foldl_keeps (State.rest) _ (fun _ _ => ?_) _ _).trans ?_)
    | (simp only [implies_true, forall_const, ↓apply_ite State.rest, apply_ite Prod.fst, ite_self, ↓rest_leaf,
            ↓State.modHlc_rest]; done)
    | split
    | (simp only [implies_true, forall_const, ↓apply_ite State.rest, apply_ite Prod.fst, ite_self, ↓rest_leaf,
            ↓State.modHlc_rest])
    | rfl)

@[simp] theorem State.activate_rest : ∀ (s : State), s.activate.rest = s.rest := by
  intros
  unfold State.activate
  exact foldl_keeps State.rest _ (fun _ _ => by first | rfl | simp only [rest_leaf, State.modSlice_rest]) _ _

@[simp] theorem State.grpWrite_rest : ∀ (s : State) (g : Nat) (v : Word), (s.grpWrite g v).1.rest = s.rest := by
  intros
  unfold State.grpWrite
  split <;> first | rfl | simp only [rest_leaf, State.modGrp_rest]
theorem State.grpWrite_restP : ∀ {s : State} {g : Nat} {v : Word} {u : State} {res},
    s.grpWrite g v = (u, res) → u.rest = s.rest := by
  intros
  rename_i h
  have h2 := congrArg (fun r => r.1.rest) h
  simp only [State.grpWrite_rest] at h2
  exact h2.symm

@[simp] theorem State.ovfClear_rest : ∀ (s : State) (w : Nat) (b : Word), (s.ovfClear w b).rest = s.rest := by
  intros
  rfl

@[simp] theorem State.pmcGctrl_rest : ∀ (s : State) (v : Word), (s.pmcGctrl v).rest = s.rest := by
  intros
  simp only [State.pmcGctrl, apply_ite State.rest, ite_self, rest_leaf, State.pmcSnapshot_rest,
      State.pmcFreeze_rest, State.modPmc_rest]

@[simp] theorem State.rasStore_rest : ∀ (s : State) (o : Nat) (new b : Word), (s.rasStore o new b).rest = s.rest := by
  intros
  simp only [State.rasStore, apply_ite State.rest, ite_self, rest_leaf, State.spareCtrl_rest, State.modRas_rest]

@[simp] theorem State.safStore_rest : ∀ (s : State) (who : Sys2Proof.Writer) (o : Nat) (new b : Word),
  (s.safStore who o new b).rest = s.rest := by
  intros
  simp only [State.safStore, apply_ite State.rest, ite_self, rest_leaf, State.modSaf_rest]

@[simp] theorem State.gatedAccess_rest : ∀ (s : State) (asleep : Bool), (s.gatedAccess asleep).rest = s.rest := by
  intros
  unfold State.gatedAccess
  split <;> first | rfl | simp only [rest_leaf]

@[simp] theorem endsLater_rest : ∀ (t : State) (runs : Bool) (k : AwaitKind), (endsLater t runs k).1.rest = t.rest
    := by
  intros
  rfl
theorem endsLater_restP : ∀ {t : State} {runs : Bool} {k : AwaitKind} {u : State} {res},
    endsLater t runs k = (u, res) → u.rest = t.rest := by
  intros
  rename_i h
  have h2 := congrArg (fun r => r.1.rest) h
  simp only [endsLater_rest] at h2
  exact h2.symm

@[simp] theorem State.allSlices_rest : ∀ (s : State) (f : Slice → Slice), (s.allSlices f).rest = s.rest := by
  intros
  unfold State.allSlices
  exact foldl_keeps State.rest _ (fun _ _ => by first | rfl | simp only [rest_leaf, State.modSlice_rest]) _ _

@[simp] theorem State.allHlc_rest : ∀ (s : State) (f : Hlc → Hlc), (s.allHlc f).rest = s.rest := by
  intros
  simp only [State.allHlc, rest_leaf, State.allSlices_rest]

@[simp] theorem State.evacKeep_rest : ∀ (s : State) (v : Evac), (s.evacKeep v).rest = s.rest := by
  intros
  rfl

@[simp] theorem State.spillRose_rest (s t : State) : (s.spillRose t).rest = t.rest := by
  unfold State.spillRose
  split <;> simp

@[simp] theorem State.missFirst_rest (s : State) (p : Nat) (l : List (Nat × Trk)) :
    (s.missFirst p l).rest = s.rest := by
  have keep : ∀ (l : List (Nat × Trk)) (r : State × Bool),
      (l.foldl (fun r e => if r.2 then r else r.1.missTry p e.1 e.2) r).1.rest = r.1.rest := by
    intro l
    induction l with
    | nil => exact fun _ => rfl
    | cons e l ih =>
      intro r
      rw [List.foldl_cons, ih]
      split
      · rfl
      · exact State.missTry_rest ..
  exact keep l (s, false)

theorem State.regWrite_rest (s : State) (f : State → State) (h : ∀ t, (f t).rest = t.rest) :
    (s.regWrite f).rest = s.rest := by
  unfold State.regWrite
  split
  · rfl
  · exact h s

@[simp] theorem State.missOpen_rest : ∀ (s : State) (p : Nat), (s.missOpen p).rest = s.rest := by
  intros
  simp only [State.missOpen, rest_leaf, State.missFirst_rest]

end Sys2Proof.Machine
end

