-- ==== Sys2Proof/Tests/Slice0.lean ====
section
/-! SUPPORT. Tests of commands on small states, ill-formed commands, and states that meet the hypotheses of the
statements. -/

namespace Sys2Proof.Tests

open Sys2Proof Sys2Proof.Machine

set_option linter.style.nameCheck false
set_option Elab.async false

/-- Region 0: every address, memory port 0 (Table 2.5). -/
def rgn0 : BitVec 64 := 0x80001FFFFFC00000

/-- The block in Run, `coherent_ready` high, the steward running, 2000 s after reset. -/
def up : State :=
  { time := 2000000000, rst := { released := true, phase := 7 }
    glb := { enabled := true, coherentReady := true, rgn := [(0, rgn0)] }, clk := { pllLock := true }, stw := { running := true } }

/-- Physical slice 1, which carries logical slice 0, in a state of the test's choice. -/
def withSlice (x : Slice) : State := { up with slices := [(1, x)] }
def sl : Slice := { lslice := 0, active := true }

/-- Engine 1 in a state of the test's choice. -/
def withEng (g : Eng) : State := { up with engines := [(1, g)] }

def withRing (x : Ring) : State := { up with rings := [(1, x)] }
def withPort (n : Nat) (x : Port) : State := { up with ports := [(n, x)] }
def withMpt (x : Mpt) : State := { up with mpts := [(1, x)] }

/-- What a command leaves, where it gives a next state. -/
def after (o : Out) : State :=
  match o with
  | .next t => t
  | _ => State.reset

/-- A request of caching agent 0 for line 0. -/
def req0 : Msg := { dst := 1023, txn := 5, len := 8, hint := 2 }

/-- A tracker of `req0`. -/
def trk0 (kind : ReqKind) (phase : Phase) : Trk := { req := req0, kind, phase, arr := 0 }
/-! Ill-formed commands: each check of WellFormed refuses one. -/

theorem test_wf_links :
    (Instr.flitIngress 20 {}).wf = false ∧ (Instr.flitIngress 19 {}).wf = true ∧ (Instr.flitIngress 48 {}).wf = false
    ∧ (Instr.linkFlitReceive (.port 31) (.slot 0)).wf = false ∧ (Instr.linkFlitReceive (.port 32) (.fdi 0)).wf = false ∧ (Instr.replayRequest (.port 31) 0).wf = false
    ∧ (Instr.linkAcknowledge (.port 49) 0).wf = false ∧ (Instr.replayAckTimeout (.port 20)).wf = false
    ∧ (Instr.linkActiveEntry 20).wf = false ∧ (Instr.linkActiveExit 31).wf = false ∧ (Instr.linkActiveTimeout 48).wf = false
    ∧ (Instr.linkDown 49).wf = false ∧ (Instr.deadAgentForward 20 {}).wf = false
    ∧ (Instr.dieLinkControlSlot 0 true [1, 2, 3, 4, 5]).wf = false ∧ (Instr.dieLinkControlSlot 20 true [1, 2, 3, 4, 5, 6]).wf = false := by
  decide

def badMsg : Msg := { opc := 0x3F }

theorem test_wf_messages :
    ∀ c ∈ ([.readShared 0 badMsg, .readOwn 0 badMsg, .upgrade 0 badMsg, .readNc 0 badMsg, .writeNcFull 0 badMsg,
      .writeNcPartial 0 badMsg, .atomicReq 0 badMsg, .farOp 0 badMsg, .writeback 0 badMsg, .evictClean 0 badMsg, .invAck 0 badMsg,
      .fwdDone 0 badMsg, .copyBack 0 badMsg, .recallData 0 badMsg, .memData 0 badMsg, .memAck 0 badMsg, .creditRequest 0 badMsg,
      .hlcMaintClean 0 badMsg, .hlcMaintInvalidate 0 badMsg, .hlcMaintCleanInvalidate 0 badMsg, .svcReqRegisterRead 0 badMsg,
      .svcReqRegisterWrite 0 badMsg, .svcReqDirectoryCopy 0 badMsg, .svcReqLineCopy 0 badMsg, .tlbInv badMsg, .tlbShoot 0 badMsg,
      .tlbShootAck badMsg] : List Instr), c.wf = false := by
  decide

/-- Opcode `0x3E` is no instruction's. -/
theorem test_wf_words :
    ∀ c ∈ ([.add, .sub, .and, .or, .xor, .sll, .srl, .sra, .mul, .slt, .sltu, .addi, .andi, .ori, .xori, .slli, .srli, .srai, .slti,
      .lui, .beq, .bne, .blt, .bge, .bltu, .bgeu, .jal, .jalr, .lb, .lh, .lw, .ld, .sb, .sh, .sw, .sd, .lr, .sc, .lbar, .sbar, .fbar,
      .wait, .iret, .syscall, .tlbi, .csrr, .csrw, .fret] : List (Fin 134 → BitVec 32 → Instr)), (c 0 0xF8000000).wf = false := by
  decide

theorem test_wf_images :
    (Instr.farLoadGo (.dict 0 [0])).wf = false ∧ (Instr.farLoadGo (.dict 0 (List.replicate 132 0))).wf = false
    ∧ (Instr.farLoadGo (.dict 0 (List.replicate 128 0))).wf = true
    ∧ (Instr.stewardImageWrite 0 [0]).wf = false ∧ (Instr.stewardImageWrite 66 [0]).wf = false
    ∧ (Instr.stewardImageWrite 65 (List.replicate 1025 0)).wf = false := by
  decide +kernel

theorem test_wf_sizes :
    (Instr.rpqPop 0 0 17).wf = false ∧ (Instr.lsliceWindowAccess 0 0 2 none).wf = false
    ∧ (Instr.registerWrite .host .bar0 0 3 (some 0) false).wf = false ∧ (Instr.portUp 48).wf = false ∧ (Instr.portDeadline 49).wf = false
    ∧ (Instr.clockMeasWindowEnd [2400000]).wf = false ∧ (Instr.ownerKeyWrite .mbx (List.replicate 1025 0)).wf = false
    ∧ (Instr.mctpPacket ⟨true, 0, 0, true, true, 0, List.replicate 65 0, true⟩).wf = false := by
  decide +kernel

theorem test_wf_forgopo :
    ∀ c ∈ ([.fgOpen, .fgClose, .fgRead, .fgWrite, .fgChallenge, .fgResponse, .fgResync, .fgDrop] :
      List (Route → List Byte → Instr)),
      (c .mbx ([1, 9] ++ List.replicate 10 0)).wf = false ∧ (c .mbx (List.replicate 1041 0)).wf = false := by
  decide +kernel

/-! The spec's worked examples. -/

/-- Line address `0x0_0123_4567_89C0` of Table 2.4. -/
def exLine : LineAddr := 0x48D159E27

theorem test_table_2_4 :
    lsliceOf exLine = 109 ∧ sfSetOf exLine = 1007 ∧ sfTagOf exLine = 0x48D1 ∧ hsetOf exLine = 0x04 ∧ htagOf exLine = 0x91A2B
    ∧ sfRecover 109 1007 0x48D1 = exLine ∧ hRecover 109 0x04 0x91A2B = exLine ∧ resetMap 109 = 112 ∧ predOf exLine = 899 := by
  decide

/-- Example of R27: MP0. -/
theorem test_memory_port : up.portOf exLine = some 0 := by decide

/-- Examples of Tables 2.1 and 2.2: agents 19, 46 and 261 are behind DP9, DP19 and IP12. -/
theorem test_agents : portOfNode 19 = some 9 ∧ portOfNode 46 = some 19 ∧ portOfNode 261 = some 44 := by decide

/-- Examples of R40 and Table 4.9: DP11 to DP2 on the three pairs, and DP9 to slice 112. -/
theorem test_paths :
    ({} : Ring).path (portPos 0 11) [portPos 0 2] false = some (47, false)
    ∧ ({} : Ring).path (portPos 1 11) [portPos 1 2] false = some (28, false)
    ∧ ({} : Ring).path (portPos 2 11) [portPos 2 2] false = some (23, false)
    ∧ ({} : Ring).path (portPos 2 9) [slicePos 112] false = some (19, false) ∧ portPos 2 9 = 33 ∧ slicePos 112 = 52 := by
  decide +kernel

/-- The `FarOp` of Table 4.9. -/
def exFarOp : Msg :=
  { cls := 0, opc := 7, src := 19, dst := 1023, reqid := 19, txn := 0x2A5, home := 0x6D, addr := exLine, aux := 12
    data := 0x000000000000271000000000000004E2 }

set_option maxRecDepth 100000 in
theorem test_table_4_9 :
    let v := packFlit (ringRouting { dkind := 0, dest := 112, orig := 33, dir1 := false, msg := exFarOp } 0) (msgBits exFarOp)
    v.extractLsb' 20 2 = 0 ∧ v.extractLsb' 22 10 = 112 ∧ v.extractLsb' 32 7 = 33 ∧ v.extractLsb' 48 3 = 0 ∧ v.extractLsb' 51 6 = 7
    ∧ v.extractLsb' 57 10 = 19 ∧ v.extractLsb' 67 10 = 1023 ∧ v.extractLsb' 77 10 = 19 ∧ v.extractLsb' 87 12 = 0x2A5
    ∧ v.extractLsb' 107 7 = 0x6D ∧ v.extractLsb' 114 46 = 0x48D159E27 ∧ v.extractLsb' 179 8 = 12
    ∧ v.extractLsb' 224 64 = 0x4E2 ∧ v.extractLsb' 288 64 = 0x2710 := by
  decide +kernel

/-- Check value of CRC-32C, and the example of FIPS 180-4 for SHA-256. -/
theorem test_crc32c : crc32c (bitsLsb [0x31, 0x32, 0x33, 0x34, 0x35, 0x36, 0x37, 0x38, 0x39]) = 0xE3069283 := by decide +kernel

set_option maxRecDepth 100000 in
theorem test_sha256 : (sha256 [0x61, 0x62, 0x63]).take 8 = [0xBA, 0x78, 0x16, 0xBF, 0x8F, 0x01, 0xCF, 0xEA] := by decide +kernel

/-! Slot 12 (Tables 10.7 and 12.8) -/

def slot12 : List (BitVec 32) :=
  [0x05204000, 0x89080004, 0x02100000, 0x00500000, 0xFC000000, 0x04490000, 0xFC000001]

theorem test_slot12_valid :
    farValidate slot12 = (0, 0, some 6) ∧ wordsLe [0x00, 0x40, 0x20, 0x05, 0x04, 0x00, 0x08, 0x89] = slot12.take 2 := by decide

/-- Engine 1 in slot 12 with amount 1,250, floor 10,000 and a balance, after `k` instructions. -/
def debit (balance g4 : Word) (k : Nat) : State :=
  { up with engines := [(1, { state := 1, fwOk := true, mode := .farOp, farSlot := 12, farLen := 7, farPc := BitVec.ofNat 64 (1536 + 4 * k)
                              bank := [(1, 1250), (2, 10000), (4, g4), (8, balance)] })] }

theorem test_slot12_sub : ((after (exec (.sub 1 0x05204000) (debit 12000 0 0))).eng 1).reg 4 = 10750 := by decide +kernel

theorem test_slot12_blt :
    ((after (exec (.blt 1 0x89080004) (debit 12000 10750 1))).eng 1).farPc = 1536 + 8
    ∧ ((after (exec (.blt 1 0x89080004) (debit 10750 9500 1))).eng 1).farPc = 1536 + 20 := by decide +kernel

theorem test_slot12_mov :
    ((after (exec (.add 1 0x02100000) (debit 12000 10750 2))).eng 1).bank.get zero64 8 = 10750 := by decide +kernel

theorem test_slot12_shortfall : ((after (exec (.sub 1 0x04490000) (debit 10750 9500 5))).eng 1).reg 1 = 500 := by decide +kernel

/-- Firmware of engine 1 with g1 and g2. -/
def regs (a b : Word) : State := { up with engines := [(1, { state := 1, fwOk := true, regs := [(1, a), (2, b)] })] }
def g3 (i : Instr) (a b : Word) : Word := ((after (exec i (regs a b))).eng 1).reg 3

/-- `op g3, g1, g2` and `op g3, g1, imm` of Table 12.6. -/
theorem test_register_ops :
    g3 (.add 1 0x00C48000) 0xFFFFFFFFFFFFFFFF 2 = 1 ∧ g3 (.sra 1 0x1CC48000) 0x8000000000000000 65 = 0xC000000000000000
    ∧ g3 (.mul 1 0x20C48000) 0x100000001 0x100000001 = 0x200000001 ∧ g3 (.slt 1 0x24C48000) 0xFFFFFFFFFFFFFFFF 0 = 1
    ∧ g3 (.sltu 1 0x28C48000) 0xFFFFFFFFFFFFFFFF 0 = 0 := by
  decide +kernel

theorem test_immediate_ops :
    g3 (.addi 1 0x40C7FFFF) 0 0 = 0xFFFFFFFFFFFFFFFF ∧ g3 (.slli 1 0x50C4003F) 3 0 = 0x8000000000000000
    ∧ g3 (.srai 1 0x58C40004) 0xFFFFFFFFFFFFFF00 0 = 0xFFFFFFFFFFFFFFF0 := by
  decide +kernel

/-- The leaf of the example of R270: `0x0000_0123_4567_040F` maps 64 KiB. -/
theorem test_leaf :
    pteFault 0x000001234567040F 3 = false
    ∧ (({} : Eng).fillTlb 0x4000123456 0x000001234567040F).tlb
        = [{ va := 0x4000120000, size := 16, pa := 0x12345670000, r := true, w := true, u := false, se := false }] := by
  decide +kernel

/-- The example of R300 on queue 5: five words, a fragment of two bytes, and three pops. -/
def queue5 : List RpqEnt :=
  [⟨1, 4, false⟩, ⟨2, 4, false⟩, ⟨3, 4, false⟩, ⟨4, 4, false⟩, ⟨5, 4, false⟩, ⟨0xBBAA, 2, false⟩]

theorem test_report_queue :
    let s := { up with rpq := [(5, { ents := queue5, seq := 7 })] }
    let t := after (exec (.rpqPop 5 0 16) s)
    let u := after (exec (.rpqPop 5 0 16) t)
    t.hfn.readData = 0x00070019000000030000000200000001 ∧ (t.rpqOf 5).ents.length = 3
    ∧ u.hfn.readData = 0x000800150000BBAA0000000500000004 ∧ (u.rpqOf 5).ents = []
    ∧ (after (exec (.rpqPop 5 0 16) u)).hfn.readData = 0x00090000000000000000000000000000 := by
  decide +kernel

/-! Witnesses: states and operands that meet the hypotheses of the statements, clause by clause. -/

/-- A `ReadNc` of I/O requester 64 to home 0, as its port 32 takes it. -/
def ncReq : Msg := { opc := 3, src := 64, dst := 1023, reqid := 64 }
def crReq : Msg := { cls := 4, opc := 0x2D, dst := 1023, aux := 1 }
def fwdAns : Msg := { cls := 4, opc := 0x2A, dst := 1023 }
def tlbDone : Msg := { cls := 4, opc := 0x33, src := 1020 }

def ringMsg : Msg := { cls := 4, opc := 0x2C, src := 1023, dst := 0 }
/-- A flit for slice stop 45 (pair 1, position 3) on ring 2, and one for port 0. -/
def flitTo (dkind : BitVec 2) (dest : BitVec 10) : Flit := { dkind, dest, orig := 0, dir1 := false, msg := ringMsg }
def rawTo (f : Flit) (q : BitVec 12) : BitVec 768 := packFlit (ringRouting f q) (msgBits f.msg)

def waitsNc : Port := { ncRes := [(0, 2)] }
def onHold : Port := { smap := [(0, { phys := 1, hold := true })] }

theorem witness_ingress :
    State.reset.takesFlits = false ∧ (up.takesFlits = true ∧ up.sourceOk 0 { src := 63 } = false)
    ∧ (up.takesFlits = true ∧ malformedFlit { opc := 0x3F } = true)
    ∧ (let s := { up with glb := { coherentReady := false } }; s.takesFlits = true ∧ s.glb.coherentReady = false ∧ isLinkPort 0 = true)
    ∧ up.glb.coherentReady = true
    ∧ ((withPort 32 onHold).takesFlits = true ∧ (withPort 32 onHold).sourceOk 32 ncReq = true ∧ malformedFlit ncReq = false
        ∧ (withPort 32 onHold).mustHold 32 ncReq = true)
    ∧ (let s := withPort 32 { held := [ncReq] }; s.sourceOk 32 ncReq = true ∧ (s.port 32).held ≠ [] ∧ heldByMap ncReq = true)
    ∧ (let s := withPort 32 { onHold with ncWait := [(0, ncReq)] }; s.ncStopped 32 ≠ [] ∧ s.mustHold 32 ncReq = true)
    ∧ (heldByMap tlbDone = false ∧ up.ncStopped 32 = [] ∧ (up.port 32).ncCommitted ncReq.home.toNat = 0
        ∧ isEngine fwdAns.src.toNat = false)
    ∧ (up.sourceOk 48 tlbDone = true ∧ malformedFlit tlbDone = false ∧ up.mustHold 48 tlbDone = false ∧ (up.port 48).held = []
        ∧ tlbDone.dst ≠ 1023)
    ∧ (up.sourceOk 0 fwdAns = true ∧ malformedFlit fwdAns = false ∧ up.mustHold 0 fwdAns = false ∧ (up.port 0).held = []
        ∧ fwdAns.dst = 1023 ∧ fwdAns.cls ≠ 0 ∧ fwdAns.opc ≠ 0x2D ∧ spendsMaint 0 fwdAns = false)
    ∧ (up.sourceOk 0 crReq = true ∧ malformedFlit crReq = false ∧ up.mustHold 0 crReq = false
        ∧ ((up.copy (copyOfPort 0)).entry crReq.home.toNat).hold = false)
    ∧ ((withPort 0 onHold).mustHold 0 crReq = false ∧ ((withPort 0 onHold).port 0).held = []
        ∧ (((withPort 0 onHold).copy (copyOfPort 0)).entry crReq.home.toNat).hold = true ∧ crReq.dst = 1023 ∧ crReq.cls ≠ 0)
    ∧ (up.sourceOk 32 ncReq = true ∧ up.mustHold 32 ncReq = false ∧ ncReq.dst = 1023 ∧ ncReq.cls = 0 ∧ isNCR ncReq.src.toNat = true
        ∧ (up.port 32).held = [] ∧ (up.port 32).ncFirst ncReq.home.toNat = none ∧ (up.port 32).ncCredit ncReq.home.toNat = some false)
    ∧ ((withPort 32 waitsNc).sourceOk 32 ncReq = true ∧ (withPort 32 waitsNc).mustHold 32 ncReq = false
        ∧ ((withPort 32 waitsNc).port 32).held = [] ∧ ((withPort 32 waitsNc).port 32).ncCredit ncReq.home.toNat = none) := by
  decide +kernel

/-- Slice stop 1 with a response for die port 0 to send. -/
def sender (x : Ring) : State :=
  { withSlice { sl with stop := { outbox := [flitTo 1 0] } } with rings := [(0, x), (1, x)] }
/-- What ring `r`'s transit buffer at slice stop 1 holds of the class and direction that the derailleur chose. -/
def senderAt (x : Ring) : Option (Nat × Bool × Bool) := (sender x).derail (.slice 1) (flitTo 1 0) 4

theorem witness_inject :
    (State.reset.fclkRuns = false ∧ up.fclkRuns = true) ∧ (sender {}).fclkRuns = true ∧ ((sender {}).ring 0).segOut = 0
    ∧ ((sender {}).ring 0).back = []
    ∧ up.nextFlit (.slice 1) (classCode .rsp) = none
    ∧ (sender {}).nextFlit (.slice 1) (classCode .rsp) = some (flitTo 1 0)
    ∧ ((sender {}).derail (.slice 1) (flitTo 1 0) (classCode .rsp)) = some (0, false, true)
    ∧ 2 ≤ ((sender {}).ring 0).freeSlots (stopPos 0 (.slice 1)) (classCode .rsp) false
    ∧ ((sender {}).ring (partner 0)).movesAt (stopPos 0 (.slice 1)) (classCode .rsp) false = false
    ∧ ((sender { mode := 2 }).nextFlit (.slice 1) (classCode .rsp) = some (flitTo 1 0)
        ∧ (sender { mode := 2 }).derail (.slice 1) (flitTo 1 0) (classCode .rsp) = none) := by
  decide +kernel

/-- Ring 0's buffer at slice stop 1 is full, or its partner's flits there are being moved. -/
def bufAt : Ring := ({} : Ring).setBuf (stopPos 0 (.slice 1)) (classCode .rsp) false [flitTo 1 0, flitTo 1 0]
def crowded : State := { sender {} with rings := [(0, bufAt), (1, { mode := 2 })] }
def giving : State := { sender {} with rings := [(1, { bufAt with shifting := some .command, draining := true })] }

theorem witness_inject_waits :
    (crowded.nextFlit (.slice 1) (classCode .rsp) = some (flitTo 1 0)
      ∧ ∃ d u, crowded.derail (.slice 1) (flitTo 1 0) (classCode .rsp) = some (0, d, u)
        ∧ (crowded.ring 0).freeSlots (stopPos 0 (.slice 1)) (classCode .rsp) d < 2)
    ∧ (giving.nextFlit (.slice 1) (classCode .rsp) = some (flitTo 1 0)
      ∧ giving.derail (.slice 1) (flitTo 1 0) (classCode .rsp) = some (0, false, false)
      ∧ 2 ≤ (giving.ring 0).freeSlots (stopPos 0 (.slice 1)) (classCode .rsp) false
      ∧ (giving.ring (partner 0)).movesAt (stopPos 0 (.slice 1)) (classCode .rsp) false = true) := by
  refine ⟨⟨by decide +kernel, false, false, by decide +kernel, by decide +kernel⟩, by decide +kernel⟩

/-- Segment 3 of ring 1 towards position 4: a flit for die port 0 stands at position 3; numbers 7 and on are next. -/
def hopState (again : Option (BitVec 12)) : State :=
  withRing ((({} : Ring).setBuf 3 4 false [flitTo 1 0]).modLink 3 .inc fun l =>
    { l with rx := { l.rx with exp := 7 }, tx := { l.tx with next := 7, again, replay := if again.isSome then [(7, flitTo 1 0)] else [] } })
def hopLink (s : State) : LinkSt := (s.ring 1).link 3 .inc

set_option maxRecDepth 100000 in
theorem witness_links :
    (rawGood (rawTo (flitTo 1 0) 7) = true ∧ rawGood 1 = false ∧ rawSeq (rawTo (flitTo 1 0) 7) = 7
      ∧ ringFlit (rawTo (flitTo 1 0) 7) = flitTo 1 0)
    ∧ (rawSeq (rawTo (flitTo 1 0) 6) = 6 ∧ rawGood (rawTo (flitTo 1 0) 6) = true ∧ (hopLink (hopState none)).rx.waiting = false
      ∧ ((hopLink (hopState none)).rx.exp - 6).toNat = 1)
    ∧ ((hopState none).ring 1).sends 1 3 .inc = some (7, flitTo 1 0)
    ∧ (hopLink (hopState none)).rx.exp = 7 ∧ (hopLink (hopState none)).tx.resending = none
    ∧ ((hopState (some 7)).ring 1).sends 1 3 .inc = some (7, flitTo 1 0) ∧ (hopLink (hopState (some 7))).rx.exp = 7
    ∧ (hopLink (hopState (some 7))).tx.resending.isSome = true
    ∧ (withRing (({} : Ring).modLink 93 .dec fun l => { l with rx := { l.rx with exp := 9, waiting := true } })).ring 1 ≠ {} := by
  decide +kernel

/-- The link direction waits for number 9: number 7 is neither accepted nor sent by its partner. -/
def waitingHop : State := withRing (({} : Ring).modLink 3 .inc fun l => { l with rx := { l.rx with exp := 9, waiting := true } })

set_option maxRecDepth 100000 in
theorem witness_links_unsent :
    (∀ f, ((hopState none).ring 1).sends 1 3 .inc ≠ some (6, f))
    ∧ (∀ f, (waitingHop.ring 1).sends 1 3 .inc ≠ some (7, f))
    ∧ (hopLink waitingHop).rx.waiting = true ∧ (7 : BitVec 12) ≠ (hopLink waitingHop).rx.exp := by
  refine ⟨fun f h => ?_, fun f h => ?_, by decide +kernel, by decide +kernel⟩
  · rw [show ((hopState none).ring 1).sends 1 3 .inc = some (7, flitTo 1 0) by decide +kernel] at h
    cases h
  · rw [show (waitingHop.ring 1).sends 1 3 .inc = none by decide +kernel] at h
    cases h

def rawMsg : BitVec 768 := packFlit (dieRouting 1 0 7 0 false false) (msgBits ringMsg)

set_option maxRecDepth 100000 in
theorem witness_port_slots :
    (up.port 0).active = false
    ∧ (let s := withPort 0 { active := true, rx := { exp := 7 } };
        (s.port 0).active = true ∧ (s.port 0).down = false ∧ (s.port 0).rx.exp = 7)
    ∧ (rawSlot 1 = 0 ∧ rawRchk 1 = false)
    ∧ (rawSlot (rawMsg ^^^ 1) ≠ 0 ∧ rawGood (rawMsg ^^^ 1) = false)
    ∧ (rawSlot rawMsg = 1 ∧ rawGood rawMsg = true ∧ rawSeq rawMsg = 7 ∧ rawMsg.getLsbD 44 = false ∧ rawMsg.getLsbD 45 = false) := by
  decide +kernel

def replaying : State :=
  withRing (({} : Ring).modLink 93 .dec fun l => { l with rx := { l.rx with exp := 6, any := true, requests := [5] }, tx := { l.tx with next := 6, replay := [(5, flitTo 1 0)] } })
def portReplaying : State := withPort 0 { tx := { next := 6, replay := [(5, .message 0 ringMsg)] } }

theorem witness_replays :
    (let l := (replaying.ring 1).link 93 .dec;
      l.rx.any = true ∧ (l.rx.exp - 1 - 5).toNat < 2048 ∧ 2048 ≤ (l.rx.exp - 1 - 6).toNat ∧ l.tx.replay = [(5, flitTo 1 0)]
        ∧ 5 ∈ l.rx.requests ∧ 6 ∉ l.rx.requests)
    ∧ ((up.ring 1).link 93 .dec).rx.any = false ∧ ((up.ring 1).link 93 .dec).tx.replay = []
    ∧ (up.port 0).active = false ∧ (up.port 0).tx.replay = []
    ∧ (portReplaying.port 0).tx.replay = [(5, .message 0 ringMsg)] := by
  decide +kernel

/-- Segment `k`'s sender has failed its eighth resend. -/
def failing (k : Nat) (x : Ring) : State := withRing (x.modLink k .dec fun l => { l with tx := { l.tx with fails := 8 } })
def losing93 (x : Ring) (ago : Nat) : Ring := { x with segLosing := [(93, up.time - ago)] }

theorem witness_segments :
    ((withRing { segOut := 8 }).ring 1).out 3 = true
    ∧ ((withRing (losing93 {} 0)).ring 1).losing 93 = true ∧ ((withRing { shifting := some .command }).ring 1).shifting.isSome = true
    ∧ (((up.ring 1).link 3 .inc).tx.fails < 8 ∧ ((up.ring 1).link 3 .dec).tx.fails < 8)
    ∧ (((failing 3 {}).ring 1).out 3 = false ∧ ((failing 3 {}).ring 1).losing 3 = false ∧ ((failing 3 {}).ring 1).shifting = none
        ∧ 8 ≤ (((failing 3 {}).ring 1).link 3 .dec).tx.fails)
    ∧ (let s := { failing 3 {} with rings := [(2, (({} : Ring).modLink 3 .inc fun l => { l with tx := { l.tx with fails := 8 } })), (3, { mode := 1 })] };
        8 ≤ ((s.ring 2).link 3 .inc).tx.fails ∧ (s.ring (partner 2)).mode = 1)
    ∧ (up.ring 1).losing 93 = false
    ∧ ({ losing93 {} 0 with segOut := (losing93 {} 0).segOut ||| BitVec.ofNat 94 (2 ^ 93) } : Ring).segsOut < 2
    ∧ (let s := withRing (losing93 { segOut := 8 } 2);
        (s.ring 1).losing 93 = true ∧ (s.ring 1).mode ≠ 2 ∧ (s.ring 1).shifting = none ∧ s.partnerGone 1 = false
        ∧ 2 ≤ ({ s.ring 1 with segOut := (s.ring 1).segOut ||| BitVec.ofNat 94 (2 ^ 93) } : Ring).segsOut
        ∧ (93, up.time - 2) ∈ (s.ring 1).segLosing ∧ up.time - 2 + 2 ≤ s.time)
    ∧ (∀ e ∈ ((withRing (losing93 {} 1)).ring 1).segLosing, e.1 = 93 → (withRing (losing93 {} 1)).time < e.2 + 2)
    ∧ up.ras.corrLog = true ∧ { up.ras with corrLog := false }.corrLog = false := by
  decide +kernel

/-- A flit for the own stop of slice 1 stands at its position on ring 1. -/
def arrived (q : List Ejected) : State :=
  { withRing (({} : Ring).setBuf 3 4 false [flitTo 0 1]) with
    slices := [(1, { sl with stop := { eject := if q = [] then [] else [(eKey 1 4, q)] } })] }
/-- A flit for die port 0, and a multicast to every agent of it, stand at port 0's stop on ring 1. -/
def arrivedPort (f : Flit) : State := withRing (({} : Ring).setBuf (portPos 0 0) 4 false [f])
def multi : Flit := { flitTo 2 0 with msg := { cls := 4, opc := 0x2C, src := 1023, dst := 1022, data := 7 } }

theorem witness_eject :
    (up.ring 1).buf 3 (classCode .rsp) (isDec .inc) = [] ∧ stopAt 1 3 = some (.slice 1)
    ∧ (flitTo 0 1).stopsHere 1 3 = true ∧ (flitTo 1 0).stopsHere 1 3 = false ∧ (flitTo 0 1).dkind ≠ 2 ∧ (flitTo 0 1).dkind ≠ 3
    ∧ ((arrived []).ring 1).buf 3 (classCode .rsp) (isDec .inc) = [flitTo 0 1]
    ∧ (((arrived []).slice 1).stop.eject.get noEjected (eKey 1 (classCode .rsp))).length < 8
    ∧ 8 ≤ (((arrived (List.replicate 8 ⟨0, ringMsg⟩)).slice 1).stop.eject.get noEjected (eKey 1 (classCode .rsp))).length
    ∧ ((arrivedPort (flitTo 1 0)).ring 1).buf (portPos 0 0) (classCode .rsp) (isDec .inc) = [flitTo 1 0]
    ∧ (∀ f ∈ [flitTo 1 0, multi], f.stopsHere 1 (portPos 0 0) = true
        ∧ consumed 0 f.msg = false ∧ isNCR f.msg.dst.toNat = false
        ∧ (((arrivedPort f).port 0).stop.eject.get noEjected (eKey 1 (classCode .rsp))).length + (copiesAt (.port 0) f).length ≤ 8)
    ∧ stopAt 1 (portPos 0 0) = some (.port 0)
    ∧ (up.port 0).active = false ∧ (up.port 0).down = false := by
  decide +kernel

theorem witness_rings :
    up.shiftCause 1 .secondSegment = false ∧ up.shiftCause 1 .controllerTimeout = false ∧ up.shiftCause 1 .chainFault = true
    ∧ (withRing (losing93 {} 2)).shiftCause 1 .controllerTimeout = true ∧ (withRing { segOut := 9 }).shiftCause 1 .secondSegment = true
    ∧ ((withRing { mode := 2 }).ring 1).mode = 2 ∧ ((withRing { shifting := some .command }).ring 1).shifting.isSome = true
    ∧ ((up.ring 1).mode ≠ 2 ∧ (up.ring 1).shifting = none ∧ up.partnerGone 1 = false)
    ∧ ({ up with rings := [(0, { mode := 2 })] }).partnerGone 1 = true
    ∧ (let s := { up with rings := [(3, { mode := 1 })] }; s.partnerGone 2 = false ∧ (s.ring (partner 2)).mode = 1)
    ∧ (let s := withRing { shifting := some .command, shiftBy := up.time };
        (s.ring 1).shifting.isSome = true ∧ (s.ring 1).empty = true ∧ (s.ring (partner 1)).mode ≠ 1 ∧ (s.ring (partner 1)).mode ≠ 3
        ∧ s.svc.await = none ∧ (s.ring 1).shiftBy ≤ s.time)
    ∧ (withRing { shifting := some .command, shiftBy := up.time + 1 }).time
        < ((withRing { shifting := some .command, shiftBy := up.time + 1 }).ring 1).shiftBy
    ∧ (5 < (6 : BitVec 3).toNat ∧ (5 : BitVec 3).toNat ≤ 5)
    ∧ (withRing { mode := 2 }).crgShiftOk 1 = false ∧ up.crgShiftOk 5 = true ∧ (up.ring 5).shifting = none
    ∧ up.crgReturnOk 5 = false ∧ (withRing { mode := 2 }).crgReturnOk 1 = true
    ∧ (up.ring 1).returning = false
    ∧ (let s := withRing { mode := 3, returning := true }; (s.ring 1).returning = true ∧ (s.ring 1).shifting = none ∧ s.svc.await = none)
    ∧ ({ ({} : Ring) with segOut := segsOf [0] }).segsOut ≤ 1 ∧ 1 < ({ ({} : Ring) with segOut := segsOf [0, 93] }).segsOut := by
  decide +kernel

/-- A REQ of age 255 waits at port 0 for slice 0, on pair 0. -/
def aged : State := withPort 0 { stop := { outbox := [{ dkind := 0, dest := 0, orig := 0, dir1 := false, msg := { age := 255 } }] } }
def drainingRing (x : Ring) (ago : Nat) : Ring := { x with draining := true, drainAt := up.time - ago }

theorem witness_consolidation :
    (let s := { up with crg := { winAt := [(0, up.time - 99)] } }; s.time < s.crg.winAt.get zeroNat (0 : Fin 3) + s.crg.windowUs.toNat)
    ∧ (let s := { up with crg := { winAt := [(0, up.time - 100)] } };
        s.crg.winAt.get zeroNat (0 : Fin 3) + s.crg.windowUs.toNat ≤ s.time ∧ s.pwr.state = 0 ∧ s.consFits (0 : Fin 3) = true)
    ∧ (let s := { up with crg := { winAt := [(0, up.time - 100)] }, rings := [(0, { carried := 1000000000 }), (1, { mode := 1 })] };
        (s.ring 1).mode = 1 ∧ s.crg.exitPct.toNat * (188 * (2400 * (s.time - s.crg.winAt.get zeroNat (0 : Fin 3)))) < (s.ring 0).carried * 100)
    ∧ ({ up with pwr := { state := 1 } }).pwr.state ≠ 0
    ∧ (let s := { up with crg := { qual := [(0, 4)] } };
        s.consFits (0 : Fin 3) = true ∧ s.crg.entryWin.toNat ≤ s.crg.qual.get zeroNat (0 : Fin 3) ∧ s.pwr.state = 0)
    ∧ (withRing { mode := 2 }).consFits 0 = false ∧ up.crg.qual.get zeroNat 0 < up.crg.entryWin.toNat
    ∧ (up.ring 1).gating = false
    ∧ (withRing (drainingRing {} 19)).time < ((withRing (drainingRing {} 19)).ring 1).drainAt + 20
    ∧ (((withRing (drainingRing {} 20)).ring 1).gating = true
        ∧ ((withRing (drainingRing {} 20)).ring 1).drainAt + 20 ≤ (withRing (drainingRing {} 20)).time)
    ∧ ((withRing (drainingRing (({} : Ring).setBuf 3 4 false [flitTo 0 1]) 0)).ring 1).empty = false
    ∧ (((withRing (drainingRing {} 0)).ring 1).empty = true ∧ (withRing (drainingRing {} 0)).wakeCause 0 = false)
    ∧ (let s := { withRing (drainingRing {} 0) with crg := { consEn := false } };
        (s.ring 1).gating = true ∧ (s.ring 1).empty = true ∧ s.wakeCause (0 : Fin 3) = true)
    ∧ ((up.ring 1).mode ≠ 1 ∧ (withRing { mode := 1 }).wakeCause 0 = false ∧ ((withRing { mode := 1 }).ring 1).mode = 1)
    ∧ (aged.agedFor 0 = true ∧ ({ up with crg := { consEn := false } }).crg.consEn = false
        ∧ ({ up with rings := [(0, losing93 {} 0)] }).ring 0 = losing93 {} 0)
    ∧ (((withRing { mode := 3 }).ring 1).mode = 3 ∧ ((withRing { mode := 3 }).ring 1).returning = false
        ∧ ((withRing { mode := 3 }).ring 1).shifting = none)
    ∧ ((withRing { mode := 3, returning := true }).ring 1).returning = true := by
  decide +kernel

/-- Port 0's link in Active with one message to send on class RSP. -/
def ejMsg : Ejected := { dest := 0, msg := ringMsg }
def oneOut : Port := { active := true, stop := { eject := [(3, [ejMsg])] } }

theorem witness_die_links :
    isLinkPort 20 = false ∧ (isLinkPort 19 = true ∧ isLinkPort 32 = true ∧ isLinkPort 47 = true ∧ isLinkPort 48 = false)
    ∧ (up.port 0).down = false ∧ (up.port 0).active = false ∧ ((withPort 0 { down := true }).port 0).down = true
    ∧ (((withPort 0 { active := true }).port 0).active = true ∧ ((withPort 0 { active := true }).port 0).stop.eject = [])
    ∧ (let x := (withPort 0 oneOut).port 0; x.active = true ∧ x.down = false ∧ x.stop.eject = [(3, [ejMsg])] ∧ x.owed = []
        ∧ x.oweInit = false ∧ x.tx.replay.length < 64 ∧ ejMsg.msg.cls.toNat < 6 ∧ isNCR ejMsg.msg.dst.toNat = false
        ∧ 0 < (0 : Nat) + [0, 0, 0, 0, 1, 0].getD ejMsg.msg.cls.toNat 0)
    ∧ (up.port 0).tx.replay = [] ∧ (portReplaying.port 0).tx.replay = (5, .message 0 ringMsg) :: []
    ∧ (portReplaying.port 0).active = false ∧ (up.port 0).exitAt = none
    ∧ (({ withPort 0 { exitAt := some 0 } with time := 99 }).port 0).exitAt = some 0
    ∧ ({ withPort 0 { exitAt := some 0 } with time := 99 }).time < 0 + 100
    ∧ ({ withPort 0 { exitAt := some 0 } with time := 100 }).pwr.state = 0
    ∧ ({ up with pwr := { state := 1 } }).pwr.state ≠ 0
    ∧ ((up.port 0).tx.fails < 8 ∧ (up.port 0).rx.fails < 8) ∧ 8 ≤ ((withPort 0 { rx := { fails := 8 } }).port 0).rx.fails := by
  decide +kernel

theorem witness_link_down :
    ((withPort 0 { rx := { fails := 8 } }).port 0).down = false ∧ isLinkPort 0 = true
    ∧ (∀ p, ((withPort 0 { rx := { fails := 8 } }).slice p).used = [])
    ∧ (∀ p, (({ withPort 0 { exitAt := some 0 } with time := 100 }).slice p).used = []) :=
  ⟨rfl, rfl, fun _ => rfl, fun _ => rfl⟩

/-- Die port 0 is down and holds one forward for agent 5. -/
def dead (m : Msg) : State := withPort 0 { down := true, stop := { eject := [(3, [⟨5, m⟩])] } }
def deadMsg (opc : BitVec 6) (dst : BitVec 10) : Msg := { opc, dst }

theorem witness_dead_agents :
    (∀ m ∈ [deadMsg 0x23 5, deadMsg 0x24 1022, deadMsg 0x24 5, deadMsg 0x25 5, deadMsg 0x21 5],
      ((dead m).port 0).down = true ∧ ((dead m).port 0).stop.eject = [(3, [⟨5, m⟩])]
      ∧ [(⟨5, m⟩ : Ejected)].find? (fun e => e.msg == m) = some ⟨5, m⟩)
    ∧ (deadMsg 0x21 5).reqid ≠ 1023 ∧ (up.port 0).down = false
    ∧ (∀ e ∈ ((dead (deadMsg 0x23 5)).port 0).stop.eject, ∀ x ∈ e.2, x.msg ≠ req0) := by
  decide +kernel
/-- Requests of caching agents 0 and 1, of I/O requester 64 and of engine 1 for line 0. -/
def req1 : Msg := { req0 with src := 1, txn := 6 }
def reqIo : Msg := { req0 with src := 64 }
def fresh : State := withSlice sl

/-- Message `m` stands behind `req1`'s form of it in the ejection queue that its class is taken from next. -/
def behind (m : Msg) (c : Nat) : State := withSlice { sl with stop := { eject := [(eKey 0 c, [⟨0, { m with src := 2 }⟩, ⟨0, m⟩])] } }

theorem witness_requests :
    (∀ opc < 8, ((behind (asOpc req0 opc) 0).slice 1).mayTake 1 (asOpc req0 opc) = false
      ∧ (fresh.slice 1).mayTake 1 (asOpc req0 opc) = true)
    ∧ (fresh.slice 1).allowed 1 { req0 with txn := 0x800 } = false
    ∧ ((fresh.slice 1).allowed 1 { req0 with home := 1 } = true ∧ homeMatches (fresh.slice 1) { req0 with home := 1 } true = false
        ∧ (∀ opc < 8, (fresh.slice 1).mayTake 1 (asOpc { req0 with home := 1 } opc) = true))
    ∧ (homeMatches (fresh.slice 1) req0 true = true ∧ (fresh.slice 1).allowed 1 req0 = true
        ∧ (fresh.slice 1).freeTrk = some 0 ∧ (∀ opc < 8, malformed (asOpc req0 opc) = false)
        ∧ ({ fresh with glb := {} }).portOf req0.addr = none ∧ (fresh.slice 1).crq = []) := by
  decide +kernel

theorem witness_fresh_slice : (fresh.slice 1).fresh ∧ ∀ opc < 8, fresh.accepts 1 (asOpc req0 opc) := by
  constructor
  · unfold Slice.fresh; decide +kernel
  · unfold State.accepts; decide +kernel

/-- Slot 0 holds a program and engine 1 serves programs. -/
def programs : State :=
  { withSlice { sl with far := { copyDone := true } } with
    loader := { master := [(0, [0xFC000000])] }, engines := [(1, { state := 1, fwOk := true })] }

theorem witness_fresh_slice_forms :
    (asOpc req0 0x06).hint = 2 ∧ isCA req0.src.toNat = true ∧ ({ req0 with hint := 1 } : Msg).hint = 1
    ∧ isCA reqIo.src.toNat = false ∧ req0.src ≠ BitVec.ofNat 10 (320 + 1)
    ∧ (req0.src.toNat < 64 ∧ fresh.glb.agents.getLsbD req0.src.toNat = true)
    ∧ programs.slotValid 1 0 = true ∧ programs.slotValid 1 1 = false := by
  decide +kernel

/-- The way entry at position 0 holds line 0 of slice 1, with directory state `st` and sharers `vec`. -/
def dirSlice (st : BitVec 2) (vec : BitVec 64) : State := withSlice (sl.setEnt 0 { tag := 0, vec, st })

set_option maxRecDepth 100000 in
theorem witness_directory_owned :
    ((dirSlice 2 (agentBit 3)).slice 1).finds 0 0 ∧ ((dirSlice 2 (agentBit 3)).slice 1).freeTrk = some 0
    ∧ (∀ opc ∈ [0x01, 0x00, 0x03], (dirSlice 2 (agentBit 3)).accepts 1 (asOpc req0 opc))
    ∧ (dirSlice 2 (agentBit 3)).chains 1 req0 0 ∧ ((dirSlice 2 (agentBit 3)).slice 1).line 0 = {} := by
  unfold Slice.finds State.accepts State.chains
  decide +kernel

set_option maxRecDepth 100000 in
theorem witness_directory_shared :
    (∀ v ∈ [agentBit 0 ||| agentBit 3, agentBit 3, agentBit 0],
      ((dirSlice 1 v).slice 1).finds 0 0 ∧ ((dirSlice 1 v).slice 1).freeTrk = some 0 ∧ ((dirSlice 1 v).slice 1).line 0 = {}
      ∧ (((dirSlice 1 v).slice 1).ent 0).st = 1 ∧ (((dirSlice 1 v).slice 1).ent 0).vec = v
      ∧ (∀ opc < 3, (dirSlice 1 v).accepts 1 (asOpc req0 opc)))
    ∧ (((dirSlice 1 (agentBit 0 ||| agentBit 3)).slice 1).ent 0).has req0.src.toNat = true
    ∧ (((dirSlice 1 (agentBit 3)).slice 1).ent 0).has req0.src.toNat = false
    ∧ (agentBit 0 ||| agentBit 3) &&& ~~~(agentBit req0.src.toNat) &&& fresh.glb.agents ≠ 0
    ∧ agentBit 0 &&& ~~~(agentBit req0.src.toNat) &&& fresh.glb.agents = 0 := by
  unfold Slice.finds State.accepts
  decide +kernel

set_option maxRecDepth 100000 in
theorem witness_writebacks_owned :
    (∀ st ∈ [1, 2], ((dirSlice st (agentBit 0)).slice 1).finds 0 0
      ∧ ((dirSlice st (agentBit 0)).slice 1).forwardAwaits 0 req0.src.toNat = false
      ∧ (((dirSlice st (agentBit 0)).slice 1).ent 0).has req0.src.toNat = true
      ∧ (((dirSlice st (agentBit 0)).slice 1).ent 0).st = st
      ∧ ∀ opc ∈ [0x10, 0x11], ((dirSlice st (agentBit 0)).slice 1).mayTake 1 (asOpc req0 opc) = true)
    ∧ homeMatches ((dirSlice 2 (agentBit 0)).slice 1) req0 true = true := by
  unfold Slice.finds
  decide +kernel

/-- Line 0 is open: tracker 3 is served for it. -/
def openLine (o : Olt) (k : Trk) : State := withSlice { sl with olt := [(0, o)], trks := [(3, some k)] }
def served : Olt := { mode := 2, serve := some 3 }

theorem witness_open_lines :
    ((openLine served { trk0 .readShared .gather with req := req1 }).slice 1).freeTrk = some 0
    ∧ (((openLine served { trk0 .readShared .gather with req := req1 }).slice 1).line 0).mode = 2
    ∧ (((openLine { served with mode := 3 } { trk0 .readShared .gather with req := req1 }).slice 1).line 0).mode = 3
    ∧ req0.age.toNat < ((openLine served { trk0 .readShared .gather with req := req1 }).slice 1).brkUs.toNat
    ∧ (∀ opc < 6, (openLine served { trk0 .readShared .gather with req := req1 }).accepts 1 (asOpc req0 opc))
    ∧ 0 ∉ (((openLine served { trk0 .readShared .gather with req := req1 }).slice 1).line 0).queue
    ∧ (∀ opc ∈ [0x10, 0x11], ((behind (asOpc req0 opc) 1).slice 1).mayTake 1 (asOpc req0 opc) = false
        ∧ (fresh.slice 1).mayTake 1 (asOpc req0 opc) = true
        ∧ (openLine served { trk0 .readShared .gather with req := req1 }).accepts 1 req0)
    ∧ homeMatches (fresh.slice 1) { req0 with home := 1 } true = false ∧ homeMatches (fresh.slice 1) req0 true = true
    ∧ ((openLine served { trk0 .readOwn .forward with req := req1, ownerForm := true, awaits := 1 }).slice 1).forwardAwaits 0
        0 = true := by
  unfold State.accepts
  decide +kernel

/-- An answer of agent 0 to tracker 3 about line 0. -/
def ans : Msg := { dst := 1023, htag := 3 }

def awaiting (o : Olt) (k : Trk) : Slice := (openLine o k).slice 1
def sharer : Slice := awaiting { served with ackcnt := 2 } { trk0 .readOwn .gather with awaits := 3 }
def chain : Slice := awaiting { mode := 1, depth := 2 } { trk0 .readOwn .chained with awaits := 1, ownerForm := true }
def copying : Slice := awaiting { served with pend := 1 } { trk0 .readShared .gather with awaits := 1, ownerForm := true }
def recalling : Slice := awaiting { served with ackcnt := 2 } { trk0 .readOwn .gather with awaits := 1, ownerForm := true }

theorem witness_answers :
    (∀ o ∈ [(0x29, 4), (0x2A, 4), (0x3B, 5), (0x3C, 5), (0x3E, 5), (0x35, 4)],
      ((behind (asOpc ans o.1) o.2).slice 1).mayTake 1 (asOpc ans o.1) = false ∧ (fresh.slice 1).mayTake 1 (asOpc ans o.1) = true)
    ∧ homeMatches (fresh.slice 1) { ans with home := 1 } true = false
    ∧ homeMatches (fresh.slice 1) ans true = true ∧ ans.stat ≠ 6
    ∧ (sharer.mayTake 1 (asOpc ans 0x29) = true ∧ homeMatches sharer ans true = true ∧ sharer.awaitsFrom 3 0 0 false = true
        ∧ (sharer.line 0).mode = 2 ∧ (sharer.line 0).serve = some ans.htag.toNat ∧ 2 ≤ (sharer.line 0).ackcnt
        ∧ (sharer.line 0).wbHeld = [])
    ∧ (chain.mayTake 1 (asOpc ans 0x2A) = true ∧ homeMatches chain ans true = true ∧ chain.awaitsFrom 3 0 0 true = true
        ∧ chain.trk ans.htag.toNat = some { trk0 .readOwn .chained with awaits := 1, ownerForm := true }
        ∧ (chain.line 0).mode = 1 ∧ 2 ≤ (chain.line 0).depth ∧ (chain.line 0).wbHeld = []
        ∧ (chain.line 0).serve ≠ some ans.htag.toNat ∧ chain.crq = [])
    ∧ (copying.mayTake 1 (asOpc ans 0x3B) = true ∧ homeMatches copying ans true = true ∧ copying.awaitsFrom 3 0 0 true = true
        ∧ copying.trk ans.htag.toNat = some { trk0 .readShared .gather with awaits := 1, ownerForm := true }
        ∧ (copying.line 0).mode = 2 ∧ (copying.line 0).pend = 1 ∧ (copying.line 0).serve = some ans.htag.toNat
        ∧ (copying.line 0).depth = 0 ∧ (copying.line 0).queue = [] ∧ (copying.line 0).wbHeld = [] ∧ copying.crq = [])
    ∧ (recalling.mayTake 1 (asOpc ans 0x3C) = true ∧ homeMatches recalling ans true = true ∧ recalling.awaitsFrom 3 0 0 true = true
        ∧ recalling.trk ans.htag.toNat = some { trk0 .readOwn .gather with awaits := 1, ownerForm := true }
        ∧ (recalling.line 0).mode = 2 ∧ (recalling.line 0).pend = 0 ∧ (recalling.line 0).serve = some ans.htag.toNat
        ∧ 2 ≤ (recalling.line 0).ackcnt ∧ (recalling.line 0).wbHeld = []) := by
  decide +kernel

def prefetching : State :=
  withSlice { sl with hlc := { mshrs := [{ idx := 3, addr := 0, demand := false, waiters := [.prefetch], sent := true, ord := 0 }] } }
def writing (sent : Bool) : State :=
  withSlice { sl with hlc := { writes := [{ evb := true, idx := 3, addr := 0, data := 7, poison := 0, sent, ord := 0 }] } }

theorem witness_memory_answers :
    (∃ r, (prefetching.slice 1).hlc.mshrs.find? (fun r => r.tag == ans.htag.toNat && r.addr == ans.addr && r.sent) = some r
        ∧ r.waiters = [.prefetch])
    ∧ (prefetching.slice 1).hlc.maint = [] ∧ (prefetching.slice 1).line 0 = {} ∧ (prefetching.slice 1).mayTake 1 (asOpc ans 0x3E) = true
    ∧ homeMatches (prefetching.slice 1) ans true = true
    ∧ (∃ w, ((writing true).slice 1).hlc.writes.find? (fun w => w.idx == ans.htag.toNat && w.addr == ans.addr && w.sent) = some w
        ∧ w.waiter = none)
    ∧ ((writing true).slice 1).mayTake 1 (asOpc ans 0x35) = true ∧ homeMatches ((writing true).slice 1) ans true = true
    ∧ ((writing true).slice 1).hlc.maint = [] := by
  refine ⟨⟨_, rfl, rfl⟩, by decide +kernel, by decide +kernel, by decide +kernel, by decide +kernel, ⟨_, rfl, rfl⟩, by decide +kernel,
    by decide +kernel, by decide +kernel⟩

def ask8 : Msg := { req0 with aux := 8 }
def spent : Slice := { sl with g := [(1, 144)] }

theorem witness_credits :
    ((behind (asOpc ask8 0x2D) 4).slice 1).mayTake 1 (asOpc ask8 0x2D) = false
    ∧ homeMatches (fresh.slice 1) { req0 with home := 1 } false = false
    ∧ (holderOf (1020 : BitVec 10).toNat = none ∧ fresh.ras.corrLog = true)
    ∧ (holderOf req0.src.toNat = some 0 ∧ 8 - poolSize 0 - ((withSlice { sl with g := [(0, 7)] }).slice 1).held 0 = 0)
    ∧ ((withSlice { sl with crq := [⟨0, 0, 1, 0, 0, true⟩] }).slice 1).crq.any (fun c => c.holder == 0) = true
    ∧ ((fresh.slice 1).mayTake 1 (asOpc ask8 0x2D) = true ∧ homeMatches (fresh.slice 1) ask8 false = true
        ∧ holderOf ask8.src.toNat = some 0 ∧ 1 ≤ ask8.aux.toNat ∧ 0 < (fresh.slice 1).sharedFree ∧ (fresh.slice 1).crq = []
        ∧ min 8 (8 - poolSize 0 - (fresh.slice 1).held 0) ≠ 0)
    ∧ (((withSlice spent).slice 1).mayTake 1 (asOpc ask8 0x2D) = true ∧ homeMatches ((withSlice spent).slice 1) ask8 false = true
        ∧ ((withSlice spent).slice 1).crq = [] ∧ ((withSlice spent).slice 1).sharedFree = 0
        ∧ min 8 (8 - poolSize 0 - ((withSlice spent).slice 1).held 0) ≠ 0)
    ∧ (∀ g ∈ [[], [(1, 144)]], let s := withSlice { sl with g, crq := [⟨0, 0, 3, 0, 0, true⟩] };
        s.pending = [] ∧ s.fclkRuns = true ∧ (s.slice 1).crq = [⟨0, 0, 3, 0, 0, true⟩]
        ∧ ((s.slice 1).sharedFree = 0 ↔ g ≠ [])) := by
  decide +kernel

def relay (req : Bool) : RelayEnt := { src := 321, txn := 5, home := 0, req, since := 0 }
def relaying (n : Nat) (req : Bool) : State := { up with stw := { running := true, relays := List.replicate n (relay req) } }

def mnt0 : Msg := { req0 with cls := 2, opc := 0x1A, src := 321 }

theorem witness_relay :
    (req0.dst = 1023 ∧ req0.cls = 0 ∧ 11 ≤ (relaying 11 true).portHolds 132 req0.home)
    ∧ (mnt0.dst = 1023 ∧ mnt0.cls ≠ 0 ∧ 4 ≤ (relaying 4 false).maintUsed 48 mnt0.home.toNat)
    ∧ ((relaying 10 true).portHolds 132 req0.home < 11 ∧ ((relaying 10 true).portTake 48 req0).mustWait 48 req0 = false
        ∧ ((relaying 10 true).port 48).held = [])
    ∧ ((relaying 3 false).maintUsed 48 mnt0.home.toNat < 4 ∧ ((relaying 3 false).portTake 48 mnt0).mustWait 48 mnt0 = false
        ∧ ((relaying 3 false).port 48).held = [] ∧ ((relaying 3 false).port 48).mntWait = [])
    ∧ (let s := { relaying 10 true with ports := [(48, { held := [req0] })] }; s.portHolds 132 req0.home < 11
        ∧ (s.portTake 48 req0).mustWait 48 req0 = true)
    ∧ ((relaying 1 true).port 48).mntWait = []
    ∧ (isEngine (320 : BitVec 10).toNat = true ∧ isEngine (451 : BitVec 10).toNat = true ∧ isEngine (452 : BitVec 10).toNat = false)
    := by
  decide +kernel

theorem witness_trackers :
    (fresh.slice 1).trk 255 = none
    ∧ (fresh.broke 1 (trk0 .readOwn .queued) = true ∧ fresh.broke 1 { trk0 .readOwn .queued with arr := 2000000000 } = false)
    ∧ (let s := openLine { served with serve := some 4, queue := [3] } (trk0 .readOwn .queued);
        (s.slice 1).trk 3 = some (trk0 .readOwn .queued) ∧ (trk0 .readOwn .queued).brk = false ∧ s.broke 1 (trk0 .readOwn .queued) = true)
    ∧ (let s := openLine served (trk0 .readOwn .allocWait);
        (s.slice 1).trk 3 = some (trk0 .readOwn .allocWait) ∧ s.broke 1 (trk0 .readOwn .allocWait) = true)
    ∧ (trk0 .readOwn .gather).phase ≠ .queued ∧ (trk0 .readOwn .gather).phase ≠ .allocWait
    ∧ (3 ∉ (fresh.slice 1).wdogDone ∧ (fresh.slice 1).wdogUs.toNat ≤ fresh.time - (trk0 .readOwn .queued).arr)
    ∧ (3 ∈ ((withSlice { sl with wdogDone := [3] }).slice 1).wdogDone) := by
  decide +kernel

/-- Every position that could take an entry of set 0 is pinned, and tracker 3 waits. -/
def noEntry : State :=
  withSlice { sl with
    olt := (setPositions 0 ++ ovfPositions).map fun q => (1000000 + q, { mode := 2, pos := some q })
    trks := [(3, some (trk0 .readOwn .allocWait))], sfl := { wait := [(0, [3])] } }

set_option maxRecDepth 100000 in
theorem witness_alloc_wait :
    (noEntry.slice 1).trk 3 = some (trk0 .readOwn .allocWait)
    ∧ (noEntry.slice 1).sfl.wait.get noNats (sfSetOf (trk0 .readOwn .allocWait).req.addr).toNat = [3]
    ∧ (noEntry.slice 1).allocate 0 = .full := by
  decide +kernel

/-- Tracker 3 is the head of set 0's wait list, young, for a `ReadShared`: without a way, or with way 0 reserved. -/
def waiting (resv : Option Nat) : Trk := { trk0 .readShared .allocWait with arr := 2000000000, resv }
def atHead (resv : Option Nat) (o : Olt) : State :=
  withSlice { sl with olt := [(0, o)], trks := [(3, some (waiting resv))], sfl := { wait := [(0, [3])] } }

theorem witness_alloc_wait_reserved :
    ((atHead (some 0) served).slice 1).trk 3 = some (waiting (some 0))
    ∧ (waiting (some 0)).brk = false ∧ (atHead (some 0) served).broke 1 (waiting (some 0)) = false
    ∧ ((atHead (some 0) served).slice 1).sfl.wait.get noNats (sfSetOf (waiting (some 0)).req.addr).toNat = [3]
    ∧ (((atHead (some 0) served).slice 1).line 0).mode = 2
    ∧ (((atHead (some 0) { served with mode := 3 }).slice 1).line 0).mode = 3
    ∧ ((atHead (some 0) {}).slice 1).sfl.blocks = []
    ∧ (((atHead (some 0) {}).slice 1).line 0 = {} ∧ (waiting (some 0)).req.opc = 0 ∧ (waiting (some 0)).have_ = false
        ∧ (atHead (some 0) {}).glb.agents.getLsbD (waiting (some 0)).req.src.toNat = true
        ∧ ((atHead (some 0) {}).slice 1).hlc.lines = [] ∧ ((atHead (some 0) {}).slice 1).hlc.mshrs = []
        ∧ ((atHead (some 0) {}).slice 1).hlc.writes = [] ∧ ((atHead (some 0) {}).slice 1).hlc.streams = []) := by
  decide +kernel

/-- Set 0 is full: every way holds an unpinned line of which agent 5 is the owner. -/
def fullSet : Slice :=
  { (setPositions 0).foldl (fun x q => x.setEnt q { tag := BitVec.ofNat 26 (q / 8192 + 1), vec := agentBit 5, st := 2 }) sl
    with trks := [(3, some (waiting none))] }
def atVictim : State := withSlice { fullSet with sfl := { fullSet.sfl with wait := [(0, [3])] } }

theorem witness_alloc_wait_victim :
    (atVictim.slice 1).trk 3 = some (waiting none) ∧ atVictim.broke 1 (waiting none) = false
    ∧ (atVictim.slice 1).sfl.wait.get noNats (sfSetOf (waiting none).req.addr).toNat = [3]
    ∧ (atVictim.slice 1).allocate 0 = .victim 0 ∧ ((atVictim.slice 1).ent 0).st = 2 ∧ isOvf 0 = false
    ∧ atVictim.glb.agents.getLsbD ((atVictim.slice 1).ent 0).owner = true := by
  decide +kernel

/-- Every way of set 0 and overflow entry but one is pinned; that one holds a line of agent 5. Tracker 3 waits in set 0, the
older tracker 4 in set 1. -/
def atOverflow : State :=
  withSlice { fullSet.setEnt 98304 { tag := 1, vec := agentBit 5, st := 2 } with
    olt := (setPositions 0 ++ ovfPositions.drop 1).map fun q => (1000000 + q, { mode := 2, pos := some q })
    trks := [(3, some (waiting none)), (4, some { waiting none with req := { req0 with addr := 0x80 }, arr := 1999999999 })]
    sfl := { (fullSet.setEnt 98304 { tag := 1, vec := agentBit 5, st := 2 }).sfl with wait := [(0, [3]), (1, [4])] } }

set_option maxRecDepth 100000 in
theorem witness_alloc_wait_overflow :
    (atOverflow.slice 1).trk 3 = some (waiting none) ∧ atOverflow.broke 1 (waiting none) = false
    ∧ (waiting none).phase = .allocWait ∧ (waiting none).resv = none ∧ (waiting none).victim = none
    ∧ (atOverflow.slice 1).sfl.wait.get noNats (sfSetOf (waiting none).req.addr).toNat = [3]
    ∧ (atOverflow.slice 1).allocate 0 = .victim 98304 ∧ isOvf 98304 = true ∧ atOverflow.eldest 1 ≠ some 3 := by
  decide +kernel

/-- A miss register for line 0, not sent, and a tracker that waits for one. -/
def missing : State :=
  withSlice { sl with hlc := { mshrs := [{ idx := 3, addr := 0, demand := true, waiters := [.tracker 3], ord := 0 }] } }
def missWait : Trk := { trk0 .readNc .gather with waitMiss := true }

theorem witness_memory_accesses :
    (∀ e ∈ (fresh.slice 1).used, e.2.waitMiss = false)
    ∧ ((fresh.slice 1).hlc.writes.find? (fun w => w.addr == 0 && !w.sent) = none)
    ∧ (((writing false).slice 1).hlc.writes.find? (fun w => w.addr == 0 && !w.sent)).isSome = true
    ∧ ((writing false).slice 1).hlc.lineBusy 0 0 = false ∧ ((writing true).slice 1).hlc.lineBusy 0 0 = true
    ∧ (writing false).portOf 0 = some 0 ∧ (writing false).writesAt 1 0 = 0 ∧ (writing true).writesAt 1 0 = 1
    ∧ ({ writing false with glb := {} }).portOf 0 = none
    ∧ (∃ w, ((writing false).slice 1).hlc.writes = [w] ∧ w.waiter = none) ∧ ((writing false).slice 1).hlc.maint = [] ∧ 0 < 12
    ∧ (let x := (withSlice { sl with trks := [(255, some missWait)] }).slice 1;
        x.trks = [(255, some missWait)] ∧ missWait.waitMiss = true ∧ missWait.pin = none ∧ x.hlc.lines = [] ∧ x.hlc.mshrs = []
        ∧ x.hlc.writes = [])
    ∧ (fresh.slice 1).hlc.mshrs = []
    ∧ (∃ r, (missing.slice 1).hlc.mshrs = [r] ∧ r.sent = false ∧ r.demand = true ∧ missing.portOf r.addr = some 0)
    ∧ (missing.slice 1).hlc.writes = [] := by
  refine ⟨by decide +kernel, by decide +kernel, by decide +kernel, by decide +kernel, by decide +kernel, by decide +kernel,
    by decide +kernel, by decide +kernel, by decide +kernel, ⟨_, rfl, rfl⟩, by decide +kernel, by decide +kernel, by decide +kernel,
    by decide +kernel, ⟨_, rfl, rfl, rfl, by decide +kernel⟩, by decide +kernel⟩

theorem witness_maintenance :
    (∀ aop ∈ [0, 1, 2], ((fresh.slice 1).mayTake 1 { asOpc req0 0x1A with aop } = true ∧ req0.aop.toNat ≤ 2)
      ∧ ((behind { asOpc req0 0x1A with aop } 2).slice 1).mayTake 1 { asOpc req0 0x1A with aop } = false)
    ∧ (fresh.slice 1).hlc.maintFull = false
    ∧ homeMatches (fresh.slice 1) { req0 with home := 1 } true = false
    ∧ (homeMatches (fresh.slice 1) { req0 with aux := 3 } true = true ∧ 2 < ({ req0 with aux := 3 } : Msg).aux.toNat)
    ∧ homeMatches (fresh.slice 1) { req0 with aux := 2 } false = true
    ∧ ((withSlice { sl with hlc := { state := 0 } }).slice 1).hlc.state = 0
    ∧ ((withSlice { sl with hlc := { wayEn := 0 } }).slice 1).hlc.wayEn = 0
    ∧ (({ req0 with aux := 2 } : Msg).aux = 2 ∧ (fresh.slice 1).hlc.state ≠ 0 ∧ (fresh.slice 1).hlc.wayEn ≠ 0)
    ∧ ((fresh.slice 1).hlc.maint.filter (fun m => m.waiting && decide (m.scope < 2))).length ≤ (0 : Fin 8).val
    ∧ (fresh.slice 1).hlc.walks = [] := by
  decide +kernel

/-- A maintenance operation waits, at a cache with these lines and walks; line 0 is stored dirty at position 0. -/
def oneMaint (scope : Nat) (op : BitVec 4) : Maint := { idx := 0, src := some { req0 with aux := 2 }, op, scope, addr := 0 }
def dirty0 : HLine := mkLine 0 7 0 true false
def eightMaints : Slice := { sl with hlc := { maint := List.replicate 8 (oneMaint 2 0) } }
def maintaining (m : List Maint) (walks : List Walk) (lines : List (Nat × HLine)) : State :=
  withSlice { sl with hlc := { maint := m, walks, lines } }
def walk0 (n : Option Nat) (next : Nat) : Walk := { maint := n, next }

theorem witness_maintenance_goes_on :
    ((withSlice eightMaints).slice 1).hlc.maintFull = true
    ∧ (((maintaining [oneMaint 0 2] [] []).slice 1).hlc.maint = [oneMaint 0 2] ∧ (oneMaint 0 2).waiting = true
        ∧ (oneMaint 0 2).src = some { req0 with aux := 2 } ∧ (oneMaint 0 2).acks = [] ∧ (oneMaint 0 2).scope = 0
        ∧ (∀ e ∈ ((maintaining [oneMaint 0 2] [] []).slice 1).used, e.2.pin = none))
    ∧ (((maintaining [oneMaint 0 2] [] [(0, dirty0)]).slice 1).hlc.find 0 = some 0
        ∧ ((maintaining [oneMaint 0 2] [] [(0, dirty0)]).slice 1).hlc.line 0 = dirty0
        ∧ ((maintaining [oneMaint 0 2] [] [(0, dirty0)]).slice 1).hPinned 0 = false)
    ∧ (((maintaining [] [walk0 none 4094] []).slice 1).hlc.walks = [walk0 none 4094] ∧ (walk0 none 4094).next < 4095
        ∧ ((maintaining [] [walk0 none 4094] []).slice 1).hPinned 4094 = false)
    ∧ (((maintaining [] [walk0 none 4095] []).slice 1).hPinned 4095 = false ∧ (walk0 none 4095).again = [])
    ∧ (((maintaining [oneMaint 2 1] [walk0 (some 0) 4095] []).slice 1).hlc.walks = [walk0 (some 0) 4095]
        ∧ (walk0 (some 0) 4095).maint = some (oneMaint 2 1).idx
        ∧ ((maintaining [oneMaint 2 1] [walk0 (some 0) 4095] []).slice 1).hPinned 4095 = false)
    ∧ ((oneMaint 2 1).scope = 2 ∧ (oneMaint 2 1).acks = [])
    ∧ (((maintaining [oneMaint 2 0] [walk0 (some 0) 0] [(0, dirty0)]).slice 1).hlc.line (walk0 (some 0) 0).next = dirty0
        ∧ ((maintaining [oneMaint 2 0] [walk0 (some 0) 0] [(0, dirty0)]).slice 1).hPinned 0 = false) := by
  decide +kernel

def shoot (slices : Nat) : ShootEnt := { idx := 3, src := 321, txn := 5, slices, agents := 0, since := 0 }
def shooting (n slices : Nat) : State := { up with stw := { running := true, shoots := List.replicate n (shoot slices) } }

theorem witness_service_and_tlb :
    3 < (4 : BitVec 4).toNat ∧ req0.aop.toNat ≤ 3 ∧ (fresh.slice 1).mayTake 1 (asOpc req0 0x1B) = true
    ∧ ((behind (asOpc req0 0x1B) 2).slice 1).mayTake 1 (asOpc req0 0x1B) = false
    ∧ (req0.addr = 0 ∧ req0.data.extractLsb' 8 24 = 0 ∧ ({ req0 with data := 0x100 } : Msg).data.extractLsb' 8 24 ≠ 0)
    ∧ (0x80 : LineAddr).toNat = 0x80 + (0 : Fin 80).val ∧ (0xCF : LineAddr).toNat = 0x80 + (79 : Fin 80).val
    ∧ (isCA req0.src.toNat && !tlbAll req0 && (decide (tlbSize req0 < 12) || decide (48 < tlbSize req0))) = true
    ∧ (isCA req0.src.toNat && !tlbAll { req0 with data := 0x0C00000000000000000000000000000000 }
        && (decide (tlbSize { req0 with data := 0x0C00000000000000000000000000000000 } < 12))) = false
    ∧ 197 ≤ (shooting 197 1).stw.shoots.length ∧ (shooting 196 1).stw.shoots.length < 197
    ∧ (∀ e ∈ (shooting 1 2).stw.shoots, e.idx ≠ 4 ∧ (e.slices ≠ 0 ∨ e.agents ≠ 0))
    ∧ (shooting 1 2).stw.shoots = [shoot 2] ∧ (shoot 2).idx = ans.htag.toNat ∧ 2 ≤ (shoot 2).slices
    ∧ (shooting 1 1).stw.shoots = [shoot 1] ∧ (shoot 1).agents = 0
    ∧ (let m : Msg := { cls := 2, opc := 0x19, src := 1020 };
        ((behind m 2).slice 1).mayTake 1 m = false ∧ (fresh.slice 1).mayTake 1 m = true)
    ∧ (shooting 1 1).stw.shoots.find? (fun e => e.idx == (4 : BitVec 8).toNat && !e.reported) = none
    ∧ (shooting 1 1).stw.shoots.find? (fun e => e.idx == (3 : BitVec 8).toNat && !e.reported) = some (shoot 1)
    ∧ (shooting 1 1).wdog ≤ (shooting 1 1).time - (shoot 1).since
    ∧ ({ shooting 1 1 with time := 499 }).time - (shoot 1).since < (shooting 1 1).wdog := by
  decide +kernel

theorem witness_far_operations :
    (fresh.slice 1).trk 3 = none
    ∧ ((openLine served (trk0 .farAtomic .farStart)).slice 1).trk 3 = some (trk0 .farAtomic .farStart)
    ∧ (((openLine served (trk0 .farAtomic .farStart)).slice 1).line 0).serve = some 3
    ∧ ({ openLine served (trk0 .farAtomic .farStart) with
          slices := [(1, { sl with olt := [(0, served)], trks := [(3, some (trk0 .farAtomic .farStart))], hlc := { state := 0 } })]
        }).farCheck 1 req0 {} = some 4
    ∧ (((openLine served (trk0 .farAtomic .farStart)).slice 1).line 0).queue = []
    ∧ (((openLine served (trk0 .farAtomic .farStart)).slice 1).line 0).depth = 0
    ∧ (fresh.slice 1).far.alu = [] ∧ NMap.rising (fresh.slice 1).far.pred = true ∧ fresh.pwr.state = 0
    ∧ (fresh.slice 1).far.ticks < fresh.time ∧ ({ fresh with time := 0 }).time ≤ (({ fresh with time := 0 }).slice 1).far.ticks
    ∧ programs.loader.fwWait ≠ some 1
    ∧ ((up.eng 1).state = 0 ∧ (programs.eng 1).state ≠ 0 ∧ programs.pwr.domOff 1 = false)
    ∧ ({ programs with pwr := { off := [1] } }).pwr.domOff 1 = true := by
  decide +kernel

/-- A far atomic at its service start; `ent` is the entry of its line at position 0. -/
def farStarting (ent : SfEnt) : State :=
  withSlice { sl.setEnt 0 ent with
    olt := [(0, { served with pos := some 0 })], trks := [(3, some (trk0 .farAtomic .farStart))] }

theorem witness_far_service_start :
    (farStarting {}).farCheck 1 req0 (((farStarting {}).slice 1).dir 0) = none
    ∧ ((farStarting {}).slice 1).maintOn 0 = false
    ∧ (farStarting {}).farReserve 1 0 = (farStarting {}, some 0)
    ∧ (((farStarting {}).slice 1).dir 0).st = 0
    ∧ (((farStarting { vec := agentBit 5, st := 2 }).slice 1).dir 0).st = 2
    ∧ (farStarting {}).glb.agents.getLsbD (((farStarting { vec := agentBit 5, st := 2 }).slice 1).dir 0).owner = true
    ∧ ((trk0 .farAtomic .farStart).have_ = false ∧ (trk0 .farAtomic .farStart).victim = none)
    ∧ ((farStarting { vec := agentBit 5, st := 2 }).slice 1).maintOn 0 = false
    ∧ (farStarting { vec := agentBit 5, st := 2 }).farCheck 1 req0
        (((farStarting { vec := agentBit 5, st := 2 }).slice 1).dir 0) = none
    ∧ (farStarting { vec := agentBit 5, st := 2 }).farReserve 1 0
        = (farStarting { vec := agentBit 5, st := 2 }, some 0) := by
  decide +kernel

/-- A far atomic of tracker 3 on position 5, ready to execute. -/
def atomicReady : State :=
  withSlice { sl with
    olt := [(0, served)], trks := [(3, some { trk0 .farAtomic .farReady with pin := some 5, have_ := true })]
    far := { queue := [3], alu := [3] }, hlc := { lines := [(5, { v := true })] } }

set_option maxRecDepth 100000 in
theorem witness_atomics :
    (atomicReady.slice 1).far.alu = [3]
    ∧ (atomicReady.slice 1).trk 3 = some { trk0 .farAtomic .farReady with pin := some 5, have_ := true }
    ∧ ((atomicReady.slice 1).line 0).mode = 2 ∧ ((atomicReady.slice 1).line 0).serve = some 3
    ∧ ((atomicReady.slice 1).line 0).queue = [] ∧ ((atomicReady.slice 1).line 0).depth = 0
    ∧ ((atomicReady.slice 1).hlc.line 5).v = true
    ∧ ((atomicReady.slice 1).hlc.line 5).dpar = dparOf ((atomicReady.slice 1).hlc.line 5).data
    ∧ (atomicReady.slice 1).hlc.maint = [] ∧ (atomicReady.slice 1).crq = [] := by
  decide +kernel

/-- A far program of tracker 3: ready, or running on engine 1. -/
def program (run : Option Nat) (ended : Option (Bool × BitVec 8)) (mode : EMode) (farFault : Option (BitVec 3)) : State :=
  { programs with
    slices := [(1, { sl with
      olt := [(0, served)], trks := [(3, some { trk0 .farProgram .farReady with pin := some 5, have_ := true })]
      far := { queue := [3], prog := if run.isSome then [] else [3], run, ended, copyDone := true }
      hlc := { lines := [(5, { v := true })] } })]
    engines := [(1, { state := 1, fwOk := true, mode, farFault })] }

set_option maxRecDepth 100000 in
theorem witness_programs :
    ((program none none .supervisor none).slice 1).far.run = none ∧ ((program none none .supervisor none).slice 1).far.prog = [3]
    ∧ (program none none .supervisor none).engineServes 1 = true
    ∧ ({ program none none .supervisor none with engines := [] }).engineServes 1 = false
    ∧ (((program none none .supervisor none).slice 1).hlc.line 5).v = true ∧ (program none none .farOp none).eng 1 ≠ {}
    ∧ ((program none none .farOp none).eng 1).mode = .farOp
    ∧ (((program none none .supervisor none).slice 1).hlc.line 5).dpar
        = dparOf (((program none none .supervisor none).slice 1).hlc.line 5).data
    ∧ ((program (some 3) none .farOp (some 2)).slice 1).far.run.isSome = true
    ∧ ((program (some 3) none .farOp (some 2)).eng 1).farFault = some 2
    ∧ ((program (some 3) none .farOp none).eng 1).farFault = none
    ∧ ((program (some 3) (some (true, 9)) .farOp none).slice 1).far.ended = some (true, 9)
    ∧ ((program (some 3) (some (false, 2)) .farOp (some 2)).slice 1).far.ended = some (false, 2)
    ∧ ((program (some 3) (some (true, 9)) .farOp none).eng 1).warm = false
    ∧ ((program (some 3) (some (true, 9)) .farOp none).eng 1).irq = none
    ∧ ((program (some 3) (some (true, 9)) .farOp none).eng 1).pendExc = none
    ∧ ((program (some 3) (some (true, 9)) .farOp none).eng 1).state = 1
    ∧ (((program (some 3) (some (true, 9)) .farOp none).slice 1).far.run = some 3
        ∧ ((program (some 3) none .farOp none).slice 1).far.ended = none)
    ∧ (((program (some 3) (some (true, 9)) .farOp none).slice 1).hlc.maint = []
        ∧ ((program (some 3) (some (true, 9)) .farOp none).slice 1).crq = []
        ∧ ((program (some 3) (some (true, 9)) .farOp none).slice 1).line 0 = served)
    ∧ ((program (some 3) (some (true, 9)) .farOp none).eng 1).lnWritten = false := by
  decide +kernel

/-- An image of one `FRET`, and one of an `ADD`, which does not end a program. -/
def fretImage : List Byte := [0x00, 0x00, 0x00, 0xFC]
def badImage : List Byte := [0x00, 0x00, 0x00, 0x00]
def loading (written : Bool) : State :=
  { up with loader := { busy := true, job := some (5, [0xFC000000]), written, blocked := [5] } }

theorem witness_far_loads :
    (loading false).loader.busy = true ∧ [(0 : Byte)].length % 4 ≠ 0
    ∧ (0x80000000 : BitVec 32).getLsbD 31 = true ∧ (0x7FFFFFFF : BitVec 32).getLsbD 31 = false
    ∧ ((0x80000000 : BitVec 32) &&& 0x7FFFC000 = 0 ∧ 128 < (List.replicate 132 (0 : Byte)).length)
    ∧ (up.stewardRuns = true ∧ State.reset.stewardRuns = false ∧ fretImage ≠ [] ∧ fretImage.length ≤ 128)
    ∧ (loading true).slotInUse 5 = false ∧ (loading true).pwr.state = 0
    ∧ (∃ j, ({ loading false with slices := [(1, { sl with trks := [(3, some { trk0 .farProgram .farStart with req := { req0 with aux := 5 } })] })] }).loader.job = some j
        ∧ j.1 = 5)
    ∧ (fretImage.length % 4 = 0 ∧ (farValidate (wordsLe fretImage)).1 = 0) ∧ (farValidate (wordsLe badImage)).1 ≠ 0
    ∧ up.loader.busy = false ∧ up.loader.job = none
    ∧ ((loading false).loader.job = some (5, [0xFC000000]) ∧ (loading false).loader.written = false
        ∧ (loading false).slotInUse 5 = false)
    ∧ ((loading true).loader.written = true ∧ (loading true).svc.await = none) := by
  decide +kernel
/-- Engine 1 as firmware runs it, and in far-op mode in a program of 32 instructions. -/
def eg : Eng := { state := 1, fwOk := true }
def fg : Eng := { eg with mode := .farOp, farLen := 32, farUsed := 36 }

/-- An instruction word from its fields (Table 12.5). -/
def iw (opc : Nat) (rd r1 : BitVec 4) (imm : BitVec 18) : BitVec 32 := (BitVec.ofNat 6 opc) ++ rd ++ r1 ++ imm

theorem witness_firmware_words : ∀ opc : Fin 64, (withEng eg).fwIssues 1 (iw opc 0 0 0) opc 0x3FFFFFF := by
  unfold State.fwIssues
  decide +kernel

theorem witness_program_words : ∀ opc : Fin 64, (withEng fg).farIssues 1 (iw opc 0 0 0) opc 0x3FFFFFF := by
  unfold State.farIssues
  decide +kernel

theorem witness_engine_words :
    (withEng eg).fwIssues 1 (iw 0 15 15 0x3C000) 0 0x3FFF ∧ (withEng fg).farIssues 1 (iw 0x10 15 15 0x3FFFF) 0x10 0
    ∧ wOpc (iw 0x3F 0 0 0) ≠ 0 := by
  unfold State.fwIssues State.farIssues
  decide +kernel

theorem witness_engine_commands :
    ((withEng {}).engResetOk 1 = false ∧ ((withEng { eg with held := true }).eng 1).held = true)
    ∧ ({ withEng eg with pwr := { state := 1 } }).pwr.state ≠ 0 ∧ (withEng eg).pwr.state = 0
    ∧ (∀ told ∈ [false, true], let s := withEng { eg with state := 3, held := true, haltTold := told };
        (s.eng 1).state = 3 ∧ (s.eng 1).sb = [] ∧ s.stewardRuns = true ∧ (s.eng 1).held = true ∧ s.ras.corrLog = true)
    ∧ ((withEng eg).engResetOk 1 = true ∧ ((withEng eg).slice 1).far.run = none ∧ ((withEng eg).slice 1).far.prog = []
        ∧ ((withEng eg).eng 1).sb = [] ∧ ((withEng eg).eng 1).held = false)
    ∧ (let s := withEng { eg with state := 3 };
        (s.eng 1).state = 3 ∧ (s.eng 1).sb = [] ∧ s.stewardRuns = true ∧ (s.eng 1).held = false ∧ s.ras.corrLog = true)
    ∧ (((withEng eg).eng 1).quiesceReq = false ∧ ((withEng eg).eng 1).state ≠ 3)
    ∧ (let s := withEng { eg with quiesceReq := true };
        (s.eng 1).quiesceReq = true ∧ (s.eng 1).quiesced = false ∧ (s.eng 1).state = 1 ∧ (s.eng 1).sb = [] ∧ (s.eng 1).stall = .none
        ∧ (s.eng 1).loads = [] ∧ (s.eng 1).mode ≠ .farOp ∧ (s.slice 1).far.run = none ∧ (s.slice 1).far.prog = []
        ∧ (s.eng 1).walk = none ∧ s.svc.await = none)
    ∧ State.reset.stewardRuns = false := by
  decide +kernel

/-- The image of one instruction, `LUI g0, 0`, with version 0 and entry 0. -/
def imageOf (code : List Byte) : List Byte :=
  [0x4B, 0x48, 0x46, 0x57, 1, 0, 0, 0, 0, 0, 0, 0] ++ leBytes 4 (crc32c (bitsLsb code)).toNat ++ code
def updating (rest : List Nat) (image : List Byte) : State :=
  { up with glb := {}, loader := { fwTodo := rest, image := [(1, image)] }, engines := [] }

/-- A rolling update has loaded engine 1 and waits for its far-store copy. -/
def rolling : State :=
  { withEng { eg with state := 0, held := true, quiesced := true } with loader := { fwTodo := [1], fwRolling := true, masterFw := [0x60000000] } }

theorem witness_firmware :
    (updating [5] []).loader.fwTodo ≠ [] ∧ up.glb.enabled = true ∧ State.reset.stewardRuns = false
    ∧ ({ up with loader := { fwWait := some 1 } }).loader.fwWait.isSome = true
    ∧ ((updating [] []).loader.fwTodo = [] ∧ (updating [] []).loader.fwWait = none
        ∧ ({ updating [] [] with rst := { released := true, restoreAt := some 0 } }).restoring = true ∧ up.restoring = false
        ∧ (updating [] []).stewardRuns = true ∧ (fwValidate (updating [] []).loader.image 8192).1 ≠ 0)
    ∧ ((fwValidate (updating [] (imageOf [0, 0, 0, 0x60])).loader.image 8192).1 = 0
        ∧ ((updating [] (imageOf [0, 0, 0, 0x60])).eng 0).state = 0)
    ∧ (∀ e : Fin 132, ((updating [] (imageOf [0, 0, 0, 0x60])).eng e).state = 0)
    ∧ ((updating [5] []).loads 0 = false ∧ ((withEng eg).eng 1).loadable = false)
    ∧ (∀ retried ∈ [[], [131]], let s := { updating [131] [] with loader := { (updating [131] []).loader with retried } };
        s.loads 131 = true ∧ (s.eng 131).loadable = true ∧ s.stewardRuns = true ∧ (131 ∈ s.loader.retried ↔ retried ≠ []))
    ∧ ((updating [131] []).loader.fwTodo = [(131 : Fin 132).val] ∧ ((updating [131] []).eng 131).loadable = true
        ∧ (updating [131] []).loader.fwRolling = false ∧ (updating [131] []).loader.fwWait = none)
    ∧ (rolling.loader.fwTodo = [(1 : Fin 132).val] ∧ (rolling.eng 1).loadable = true ∧ rolling.stewardRuns = true
        ∧ rolling.loader.fwRolling = true ∧ rolling.glb.enabled = true ∧ rolling.loader.fwWait = none ∧ rolling.svc.await = none ∧ rolling.pwr.domOff 1 = false ∧ rolling.pwr.domGated 1 = false)
    ∧ (let s := { withEng eg with loader := { fwWait := some 1 } };
        s.loader.fwWait = some (1 : Fin 132).val ∧ s.loader.fwTodo = [] ∧ (s.eng 1).state ≠ 0 ∧ s.pwr.domOff 1 = false) := by
  decide +kernel

theorem witness_branches :
    validPc 1 (((withEng eg).eng 1).pc + 4 * wImm (iw 0x20 0 0 0x1FFF)) = true
    ∧ validPc 1 (((withEng eg).eng 1).pc + 4 * wOff22 (iw 0x26 0 0 1)) = true
    ∧ validPc 1 (((withEng { eg with regs := [(2, 0xFFF8)] }).eng 1).reg (wR1 (iw 0x27 1 2 4)) + wImm (iw 0x27 1 2 4)) = true
    ∧ ((withEng fg).eng 1).farPc.toNat < (((withEng fg).eng 1).farPc + 4 * wImm (iw 0x20 0 0 31)).toNat
    ∧ (((withEng fg).eng 1).farPc + 4 * wImm (iw 0x20 0 0 31)).toNat < 128 * ((withEng fg).eng 1).farSlot + 4 * ((withEng fg).eng 1).farLen
    ∧ ((withEng fg).eng 1).farPc.toNat < (((withEng fg).eng 1).farPc + 4 * wOff22 (iw 0x26 0 0 31)).toNat
    ∧ (((withEng fg).eng 1).farPc + 4 * wOff22 (iw 0x26 0 0 31)).toNat < 128 * ((withEng fg).eng 1).farSlot + 4 * ((withEng fg).eng 1).farLen
    ∧ (((withEng eg).eng 1).reg 0 == ((withEng eg).eng 1).reg 0) = true
    ∧ (((withEng { eg with regs := [(1, 1)] }).eng 1).reg (wRd (iw 0x20 1 0 0)) == ((withEng { eg with regs := [(1, 1)] }).eng 1).reg
        (wR1 (iw 0x20 1 0 0))) = false := by
  decide +kernel

theorem witness_engine_memory :
    (∀ o ∈ [(0x7FFF, 1), (0x7FFE, 2), (0x7FFC, 4), (0x7FF8, 8)],
      (((withEng eg).eng 1).reg (wR1 (iw 0x28 1 0 (BitVec.ofNat 18 o.1))) + wImm (iw 0x28 1 0 (BitVec.ofNat 18 o.1))).toNat < dmemSize 1
      ∧ (((withEng eg).eng 1).reg (wR1 (iw 0x28 1 0 (BitVec.ofNat 18 o.1))) + wImm (iw 0x28 1 0 (BitVec.ofNat 18 o.1))).toNat % o.2 = 0
      ∧ wRd (iw 0x28 1 0 (BitVec.ofNat 18 o.1)) ≠ 0 ∧ o.1 / 8 ∉ ((withEng eg).eng 1).memBad
      ∧ o.1 / 8 ∉ ((withEng eg).eng 1).memDead)
    ∧ ((withEng eg).eng 1).mode = .supervisor ∧ ((withEng { eg with mode := .user, status := 0x20 }).eng 1).status.getLsbD 5 = true
    ∧ NMap.wf zero8 ((withEng eg).eng 1).mem = true := by
  decide +kernel

def load5 : PendLoad := { rd := 1, size := 8, addr := 0x40, pa := 0x40, txn := 5, pc := 0x8000 }
def buffered : SbEnt := { addr := 0x12, mask := 0xFF, data := 5 }
def outTxn (kind : OutKind) (timedOut : Bool) : OutTxn := { txn := 5, kind, addr := 0x40, own := true, sentAt := 0, timedOut }

/-- The main steward engine's push has not left the tandem. -/
def pushing : State := { up with engines := [(132, { Eng.reset 132 with state := 1, fwOk := true })]
                                 stw := { running := true, outMain := [.push 0 7 4] } }

theorem witness_pushes :
    (pushing.eng 132).sb = [] ∧ pushing.pushWaits 132 = true
    ∧ ∀ opc ∈ [0x33, 0x34, 0x3B], pushing.fwIssues 132 (iw opc 0 0 0) opc 0x3FFFFFF := by
  unfold State.fwIssues
  decide +kernel

theorem witness_barriers :
    (((withEng eg).eng 1).reg (wR1 (iw 0x30 1 2 0))).toNat < dmemSize 1 ∧ wRd (iw 0x31 1 2 0) ≠ 0
    ∧ ((withEng eg).eng 1).loadsDone = true ∧ ((withEng { eg with loads := [load5] }).eng 1).loadsDone = false
    ∧ ((withEng eg).eng 1).sb = [] ∧ ((withEng eg).eng 1).serrPending = false
    ∧ ((withEng { eg with sb := [buffered] }).eng 1).sb ≠ []
    ∧ (((withEng eg).eng 1).reg (wR1 (iw 0x30 1 2 0))).toNat / 8 ∉ ((withEng eg).eng 1).memDead
    ∧ (∀ opc ∈ [0x32, 0x34], (withEng { eg with loads := [load5] }).fwIssues 1 (iw opc 0 0 0) opc 0x3FFFFFF)
    ∧ (withEng { eg with sb := [buffered] }).fwIssues 1 (iw 0x34 0 0 0) 0x34 0x3FFFFFF ∧ (withEng eg).pushWaits 1 = false
    ∧ ((withEng { eg with sb := [buffered] }).fwIssues 1 (iw 0x33 0 0 0) 0x33 0x3FFFFFF) := by
  unfold State.fwIssues
  decide +kernel

theorem witness_engine_system :
    ((withEng eg).modEng 1 fun g => { g with pc := g.pc + 4, state := 2 }).wakeSrc 1 = none
    ∧ (((withEng eg).eng 1).slots = [] ∧ validPc 1 ((withEng { eg with epc := 0xFFFC }).eng 1).epc = true)
    ∧ ((withEng { eg with slots := [none, some 3] }).eng 1).slots.head? = some none
    ∧ (((withEng eg).eng 1).status.getLsbD 3 = false ∧ ((withEng eg).eng 1).loads = [] ∧ ((withEng eg).eng 1).sb = []
        ∧ validPc 1 (((withEng eg).eng 1).evbase + 256) = true ∧ validPc 1 (((withEng eg).eng 1).evbase + 192) = true)
    ∧ ((withEng eg).csrRead 1 0x110 = some 0 ∧ (withEng eg).csrRead 1 0x117 = some 0)
    ∧ (((withEng eg).eng 1).csrWrite 0 0x7F).isSome = true
    ∧ ((iw 0x3D 0 0 0).extractLsb' 0 12).toNat = 0 ∧ (0 : Word) &&& csrRsvd 0 = 0 ∧ (0xFF : Word) &&& csrRsvd 0 ≠ 0
    ∧ ((withEng eg).fwIssues 1 (iw 0x3A 0 0 0x3FFFF) 0x3A 0x3FC0000
        ∧ (withEng eg).fwIssues 1 (iw 0x3B 0 15 0x3C000) 0x3B 0x3C03FFF
        ∧ (withEng { eg with regs := [(1, 0xFF)] }).fwIssues 1 (iw 0x3D 0 1 0) 0x3D 0x3C00000
        ∧ (withEng fg).farIssues 1 (iw 0x3F 0 0 0xFF) 0x3F 0x3FFFF00) := by
  unfold State.fwIssues State.farIssues
  decide +kernel

/-- A `TLBI` of the main steward engine, alone, beside an equal one of the checker, or beside another message. -/
def tandem (out : List TandemOut) : State := { up with engines := [(132, { Eng.reset 132 with state := 1, fwOk := true })]
                                                       stw := { running := true, outCheck := out } }
def tandemMsg : Msg :=
  match (after (exec (.tlbi 132 (iw 0x3B 0 0 0)) (tandem []))).stw.outMain with
  | [.msg m _] => m
  | _ => {}
def tandemNext (m : Msg) : State := after (exec (.tlbi 132 (iw 0x3B 0 0 0)) { tandem [.msg m 0] with stw := { (tandem [.msg m 0]).stw with outCheck := [] } })

theorem witness_tandem :
    (∀ m ∈ [tandemMsg, { tandemMsg with txn := 9 }], (tandem [.msg m 0]).fwIssues 132 (iw 0x3B 0 0 0) 0x3B 0x3C03FFF
        ∧ ((tandem [.msg m 0]).eng 132).mode = .supervisor ∧ ((tandem [.msg m 0]).eng 132).sb = []
        ∧ ((tandem [.msg m 0]).eng 132).tlbTxn = none ∧ (tandem [.msg m 0]).pushWaits 132 = false
        ∧ (tandem [.msg m 0]).stw.lsMismatch = false ∧ (tandem [.msg m 0]).stw.outMain = []
        ∧ (tandem [.msg m 0]).stw.outCheck = [.msg m 0])
    ∧ (tandemNext tandemMsg).stw.outMain = [.msg tandemMsg (tandem []).time]
    ∧ (tandemNext { tandemMsg with txn := 9 }).stw.outMain ≠ [.msg { tandemMsg with txn := 9 } (tandem []).time]
    ∧ isSpoke 132 = false ∧ isSpoke 131 = true
    ∧ ((withEng { eg with tlbTxn := some 5 }).fwIssues 1 (iw 0x3B 0 0 0) 0x3B 0x3C03FFF
        ∧ ((withEng { eg with tlbTxn := some 5 }).eng 1).tlbTxn ≠ none ∧ ((withEng eg).eng 1).tlbTxn = none) := by
  unfold State.fwIssues
  decide +kernel

theorem witness_illegal :
    (wOpc (iw 0x3F 0 0 0) ≠ BitVec.ofNat 6 0x3D ∧ definedOpc (wOpc (iw 0x3F 0 0 0)).toNat = true)
    ∧ (definedOpc (wOpc (iw 0x3E 0 0 0)).toNat = false ∧ iw 0 0 0 1 &&& 0x3FFF ≠ 0 ∧ wOpc (iw 0 0 0 1) = BitVec.ofNat 6 0)
    ∧ (((withEng fg).eng 1).mode = .farOp ∧ ((withEng fg).eng 1).farFault = none ∧ ((withEng fg).eng 1).farDone = false)
    ∧ (let s := withEng { eg with mode := .user };
        (s.eng 1).mode = .user ∧ (s.eng 1).issues = true ∧ (s.eng 1).loads = [] ∧ s.evacHeld 1 = false ∧ s.fetchGood 1 = true
        ∧ s.engStopped 1 = false ∧ s.noEntry 1 = true ∧ (s.eng 1).status.getLsbD 3 = false ∧ (s.eng 1).sb = [] ∧ (s.eng 1).slots = []
        ∧ validPc 1 ((s.eng 1).evbase + 192) = true) := by
  decide +kernel

/-- A leaf entry of 4 KiB at level 3, and an answer that carries it at the walk's address. -/
def leaf : Word := 0x307
def walkAns : Msg := { opc := 0x3E, txn := 5, data := leaf.setWidth 512 }
def errAns : Msg := { walkAns with opc := 0x31, cret := true }
def walkOf (level : Nat) : PtWalk := { va := 0, level, table := 0x40, txn := some 5 }
def walkEnt (level : Nat) : Word :=
  BitVec.ofNat 64 (lineBytes walkAns.data (((walkOf level).table + 8 * (((walkOf level).va >>> (39 - 9 * level)) &&& 0x1FF)).toNat % 64) 8)

def noneOut : Eng := { eg with stale := [9] }
def loadOut : Eng := { eg with out := [outTxn .load false], loads := [load5] }
def lateOut : Eng := { eg with out := [outTxn .store true] }
def sentEnt : SbEnt := { buffered with sending := true, inflight := [5] }
def storeOut : Eng := { eg with out := [outTxn .store false], sb := [sentEnt] }
def scOut : Eng := { eg with out := [outTxn .sc false], stall := .sc 1 5 }
def oneStore : Eng := { eg with out := [outTxn .store false] }
def walkOut (walk : Option PtWalk) : Eng := { eg with out := [outTxn .walk false], walk }
def tlbiWait : Eng := { eg with stall := .tlbi 5, tlbTxn := some 5 }

theorem witness_load_answers :
    (9 ∈ noneOut.stale ∧ walkAns.txn ∉ noneOut.stale ∧ noneOut.out = [] ∧ noneOut.loads = [] ∧ noneOut.sb = []
      ∧ noneOut.walk = none ∧ (withEng noneOut).noEntry 1 = true)
    ∧ (walkAns.txn ∉ loadOut.stale ∧ loadOut.out = [outTxn .load false] ∧ (outTxn .load false).txn = walkAns.txn
        ∧ loadOut.loads = [load5] ∧ load5.txn = walkAns.txn ∧ loadOut.sb = [] ∧ loadOut.walk = none)
    ∧ (walkAns.opc ≠ 0x2F ∧ walkAns.opc ≠ 0x31 ∧ walkAns.poison = 0 ∧ load5.rd ≠ 0 ∧ (withEng loadOut).noEntry 1 = true)
    ∧ (errAns.txn = load5.txn ∧ errAns.opc = 0x31 ∧ errAns.opc ≠ 0x2F ∧ loadOut.mode ≠ .farOp ∧ loadOut.status.getLsbD 3 = false
        ∧ loadOut.slots = [] ∧ validPc 1 (loadOut.evbase + 704) = true) := by
  decide +kernel

theorem witness_store_answers :
    (walkAns.txn ∉ lateOut.stale ∧ lateOut.out = [outTxn .store true] ∧ (outTxn .store true).txn = walkAns.txn
      ∧ lateOut.walk = none ∧ lateOut.warm = false ∧ (outTxn .store true).timedOut = true ∧ (outTxn .store true).got = false ∧ lateOut.sb = [])
    ∧ ({ outTxn .store false with got := true }.got = true ∧ ({ eg with out := [{ outTxn .store false with got := true }] } : Eng).sb = [])
    ∧ (storeOut.out = [outTxn .store false] ∧ (outTxn .store false).timedOut = false ∧ storeOut.stall = .none
        ∧ storeOut.sb = [sentEnt] ∧ sentEnt.sending = true ∧ sentEnt.unsent = [] ∧ sentEnt.inflight = [walkAns.txn])
    ∧ (scOut.out = [outTxn .sc false] ∧ walkAns.txn ∉ ((withEng scOut).slice 1).scFailed ∧ scOut.sb = [] ∧ scOut.stall = .sc 1 walkAns.txn
        ∧ (withEng scOut).noEntry 1 = true ∧ validPc 1 (scOut.pc + 4) = true) := by
  decide +kernel

theorem witness_store_timeouts :
    lateOut.out.find? (fun o => o.txn == 5 && (o.kind == .store || o.kind == .sc) && !o.timedOut && !o.got) = none
    ∧ oneStore.out.find? (fun o => o.txn == 5 && (o.kind == .store || o.kind == .sc) && !o.timedOut && !o.got) = some (outTxn .store false)
    ∧ 49 - (outTxn .store false).sentAt < oneStore.storeTo.toNat
    ∧ (oneStore.storeTo.toNat ≤ (withEng oneStore).time - (outTxn .store false).sentAt ∧ oneStore.stall = .none ∧ oneStore.sb = []
        ∧ oneStore.walk = none ∧ oneStore.warm = false ∧ oneStore.state ≠ 3) := by
  decide +kernel

theorem witness_walk_answers :
    ((walkOut none).out = [outTxn .walk false] ∧ (outTxn .walk false).txn = walkAns.txn ∧ (walkOut none).sb = []
      ∧ (withEng (walkOut none)).noEntry 1 = true ∧ (walkOut none).walk = none)
    ∧ ((walkOut (some (walkOf 3))).walk = some (walkOf 3) ∧ (walkOf 3).txn = some walkAns.txn ∧ (walkOf 3).again = false
        ∧ pteFault (walkEnt 3) (walkOf 3).level = false ∧ (walkEnt 3).getLsbD 1 = true)
    ∧ (tlbiWait.stall = .tlbi walkAns.txn ∧ tlbiWait.tlbTxn = some walkAns.txn ∧ (withEng tlbiWait).noEntry 1 = true ∧ validPc 1 (tlbiWait.pc + 4) = true) := by
  decide +kernel

/-- A full line in the store buffer of engine 1, whose slice carries logical slice 0, and one of another slice's. -/
def fullLine (a : LineAddr) : SbEnt := { addr := a, mask := 0xFFFFFFFFFFFFFFFF, data := 5 }
def storing (b : SbEnt) (out : List OutTxn) : State := { withEng { eg with sb := [b], out } with fclk := 1000000, slices := [(1, sl)] }

def credits : List OutTxn := List.replicate 4 (outTxn .load false) ++ List.replicate 2 { outTxn .load false with own := false }
def noCredit : State := storing buffered credits

theorem witness_store_buffer :
    (∀ b ∈ ((storing buffered []).eng 1).sb, b.sending = false ∧ b.addr ≠ 0x13 ∧ b.unsent = [])
    ∧ (∀ b ∈ (({ storing buffered [] with fclk := 0 }).eng 1).sb, ({ storing buffered [] with fclk := 0 }).eclk < b.since + 64)
    ∧ ((noCredit.eng 1).sb = [buffered] ∧ buffered.sending = false ∧ buffered.since + 64 ≤ noCredit.eclk ∧ (noCredit.eng 1).walk = none
        ∧ noCredit.engCredit 1 buffered.addr = false) := by
  decide +kernel

def full1 : State := storing (fullLine 1) []
def full0 : State := storing (fullLine 0) []

theorem witness_store_buffer_full :
    ((full1.eng 1).sb = [fullLine 1] ∧ full1.engCredit 1 1 = true ∧ full1.evacHeld 1 = false ∧ (full1.eng 1).loads = []
        ∧ (full1.eng 1).walk = none ∧ (full1.eng 1).out = [])
    ∧ ((full0.eng 1).sb = [fullLine 0] ∧ full0.engCredit 1 0 = true ∧ full0.evacHeld 1 = false)
    ∧ (fullLine 1).since + 64 ≤ full1.eclk
    ∧ (∀ o ∈ (full1.eng 1).out, o.timedOut = false) ∧ ({ tlbiWait with stall := .none }.tlbTxn = some walkAns.txn)
    ∧ full0.ownLine 1 0 = true ∧ full1.ownLine 1 1 = false ∧ isSpoke 1 = true := by
  decide +kernel

theorem witness_store_buffer_mask : (fullLine 1).mask = BitVec.allOnes 64 := by
  simp [fullLine, BitVec.allOnes]

/-- Engine 1 with logical address `a` in `g1`, and an entry of the store buffer for line 0x400. -/
def atAddr (a : Word) (g : Eng) : State := withEng { g with regs := [(1, a)] }
def lineEnt (sending : Bool) : SbEnt := { addr := 0x400, mask := 0xFF, data := 5, sending }
def page : TlbEnt := { va := 0x10000, size := 12, pa := 0x20000, r := true, w := false, u := false, se := false }
def atMem (g : Eng) : State := atAddr 0x10000 g

theorem witness_stores_coherent :
    (∀ o ∈ [(0x2C, 1), (0x2D, 2), (0x2E, 4), (0x2F, 8)],
      ((atMem eg).eng 1).reg (wR1 (iw o.1 2 1 0)) + wImm (iw o.1 2 1 0) = 0x10000
      ∧ (∀ sb ∈ [[], [lineEnt false], [lineEnt true], List.replicate 8 (lineEnt true)],
          (atMem { eg with sb }).fwIssues 1 (iw o.1 2 1 0) o.1 0 ∧ (atMem { eg with sb }).resolve 1 0x10000 o.2 true = .coh 0x10000 false)
      ∧ (lineEnt false).mask ||| BitVec.ofNat 64 ((2 ^ o.2 - 1) * 2 ^ ((0x10000 : Word).toNat % 64)) ≠ BitVec.allOnes 64)
    ∧ ((lineEnt false).addr = (0x10000 : Word).extractLsb' 6 46 ∧ (lineEnt false).sending = false)
    ∧ (∀ sb ∈ [[], [lineEnt true], List.replicate 7 (lineEnt true)], (∀ b ∈ ((atMem { eg with sb }).eng 1).sb, b.sending = true)
        ∧ ((atMem { eg with sb }).eng 1).sb.length < 8)
    ∧ (∀ tryAt ∈ [none, some 7], let s := atMem { eg with sb := List.replicate 8 (lineEnt true), tryAt };
        (∀ b ∈ (s.eng 1).sb, b.sending = true) ∧ 8 ≤ (s.eng 1).sb.length ∧ (s.eng 1).tryAt = tryAt) := by
  unfold State.fwIssues
  decide +kernel

def noCreditLoad : State := { atMem { eg with out := credits } with slices := [(1, sl)] }

def bufEng (mask : BitVec 64) : Eng := { eg with sb := [{ lineEnt false with mask }] }

theorem witness_loads_buffered : ∀ o ∈ [(0x28, 1), (0x29, 2), (0x2A, 4), (0x2B, 8)],
    (∀ rd ∈ [(0 : BitVec 4), 2], (atMem (bufEng 0xFF)).fwIssues 1 (iw o.1 rd 1 0) o.1 0)
    ∧ (atMem (bufEng 0xFF)).resolve 1 0x10000 o.2 false = .coh 0x10000 false := by
  unfold State.fwIssues
  decide +kernel

theorem witness_buffered_bytes :
    (∀ size ∈ [1, 2, 4, 8], ((bufEng 0xFF).sbLoad 0x10000 size).1.isSome = true ∧ (bufEng 0).sbLoad 0x10000 size = (none, false))
    ∧ (∀ size ∈ [2, 4, 8], (bufEng 1).sbLoad 0x10000 size = (none, true)) := by
  decide +kernel

theorem witness_loads_sent : ∀ o ∈ [(0x28, 1), (0x29, 2), (0x2A, 4), (0x2B, 8)], ∀ rd ∈ [(0 : BitVec 4), 2], ∀ s ∈ [noCreditLoad, atMem eg],
    s.fwIssues 1 (iw o.1 rd 1 0) o.1 0 ∧ s.resolve 1 0x10000 o.2 false = .coh 0x10000 false
    ∧ (s.eng 1).sbLoad 0x10000 o.2 = (none, false) ∧ (s.eng 1).loading 0x10000 o.2 = false
    ∧ s.engCredit 1 ((0x10000 : Word).extractLsb' 6 46) = (s.eng 1).out.isEmpty := by
  unfold State.fwIssues
  decide +kernel

theorem witness_loads_refused :
    ((atMem { eg with sb := [{ lineEnt false with mask := 1 }] }).eng 1).sbLoad 0x10000 2 = (none, true)
    ∧ noCreditLoad.ownLine 1 0x400 = false ∧ ({ noCreditLoad with slices := [(1, { sl with lslice := lsliceOf 0x400 })] }).ownLine 1 0x400 = true
    ∧ (atMem { eg with sereg := [(0, 0x10001), (1, 0x10000)] }).resolve 1 0x10000 8 false = .coh 0x10000 true
    ∧ ((atAddr 0x10001 eg).resolve 1 0x10001 8 false = .exc 5 ∧ (atMem { eg with status := 0x10 }).resolve 1 0x10000 8 false = .walk)
    ∧ (let s := atMem { eg with status := 0x10, specFill := true };
        (s.eng 1).wcFind 0x10000 = none ∧ (s.eng 1).specFill = true ∧ (s.eng 1).sb = []
        ∧ inWindow ((s.eng 1).ptbase + 8 * (((0x10000 : Word) >>> 39) &&& 0x1FF)) = false
        ∧ (s.eng 1).inSereg ((s.eng 1).ptbase + 8 * (((0x10000 : Word) >>> 39) &&& 0x1FF)) = false) := by
  decide +kernel

theorem witness_resolving :
    (∀ size ∈ [1, 2, 4, 8], (0x10000 : Word).toNat % size = 0) ∧ 0x10000 ≤ (0x10000 : Word).toNat
    ∧ ((atMem eg).eng 1).mode = .supervisor ∧ ((atMem eg).eng 1).status.getLsbD 4 = false ∧ (0x10000 : Word).extractLsb' 52 12 = 0
    ∧ ((atMem { eg with mode := .user }).eng 1).mode = .user ∧ ((atMem { eg with status := 0x10 }).eng 1).status.getLsbD 4 = true
    ∧ (0x10000 : Word).extractLsb' 48 16 = 0 ∧ ((atMem { eg with mode := .user }).eng 1).tlbFind 0x10000 = none
    ∧ ((atMem { eg with mode := .user, tlb := [page] }).eng 1).tlbFind 0x10000 = some page
    ∧ inWindow (page.pa + BitVec.ofNat 64 ((0x10000 : Word).toNat % 2 ^ page.size)) = false
    ∧ page.forbids true true = true ∧ page.forbids false false = false := by
  decide +kernel

def windowAt (off v : Word) : Eng := { eg with regs := [(1, 0xFFFFFC0000000 + off), (2, v)] }
def windowMain : State :=
  { pushing with stw := { running := true }
                 engines := [(132, { Eng.reset 132 with state := 1, fwOk := true, regs := [(1, 0xFFFFFC0000010)] })] }

theorem witness_window :
    ((withEng (windowAt 16 0)).resolve 1 0xFFFFFC0000010 4 true = .win 16
      ∧ (withEng (windowAt 16 0)).fwIssues 1 (iw 0x2E 2 1 0) 0x2E 0)
    ∧ (∀ n ∈ [0x3000000, 0, 0x4000000], (withEng (windowAt 24 (BitVec.ofNat 64 n))).resolve 1 0xFFFFFC0000018 8 true = .win 24
        ∧ (withEng (windowAt 24 (BitVec.ofNat 64 n))).fwIssues 1 (iw 0x2F 2 1 0) 0x2F 0
        ∧ ((withEng (windowAt 24 (BitVec.ofNat 64 n))).eng 1).reg (wRd (iw 0x2F 2 1 0)) = BitVec.ofNat 64 n) := by
  unfold State.fwIssues
  decide +kernel

theorem witness_window_main :
    windowMain.resolve 132 0xFFFFFC0000010 4 true = .win 16 ∧ windowMain.fwIssues 132 (iw 0x2E 2 1 0) 0x2E 0
    ∧ (windowMain.eng 132).mode = .supervisor ∧ (windowMain.eng 132).status.getLsbD 4 = false
    ∧ windowMain.stw.lsMismatch = false ∧ windowMain.stw.outCheck = [] := by
  unfold State.fwIssues
  decide +kernel

theorem witness_window_queue :
    (up.rpqOf 1).ents.length < 1024
    ∧ 1024 ≤ (({ up with rpq := [(1, { ents := List.replicate 1024 { val := 0, n := 4, loss := false } })] }).rpqOf 1).ents.length := by
  decide +kernel
/-- Source 5 of group 3: enabled, to vector 9 of the host, or to engine 1 with its handler at 0x8000. -/
def srcHost : BitVec 32 := 0x1827
def srcEng : BitVec 32 := 0x40001805
def withSrc (x : Src) (arrived : List Nat) : State := { up with iag := { srcs := [(5, x)], arrived, grps := [(3, {})] } }
def openGrp (caught ticks : Nat) : State :=
  { up with iag := { srcs := [(5, { cfg := srcHost, pend := true })], grps := [(3, { isOpen := true, caught, ticks })] } }

theorem witness_events :
    5 ∉ up.iag.arrived ∧ (withSrc { cfg := srcHost } [4, 5]).iagStopped = false ∧ 5 ∈ (withSrc { cfg := srcHost } [4, 5]).iag.arrived
    ∧ ((withSrc { cfg := srcHost } []).src 5).en = true ∧ (up.src 5).en = false
    ∧ (up.grp 3).expired = false ∧ ((openGrp 1 0).grp 3).expired = true ∧ ((openGrp 0 1).grp 3).expired = true
    ∧ ((openGrp 0 0).grp 3).expired = false
    ∧ ({ up with pwr := { gated := [321] } }).iagStopped = true ∧ (openGrp 1 0).iagStopped = false
    ∧ (up.readySrcs false 0).head? ≠ some 5 := by
  decide +kernel

def readySrc (cfg : BitVec 32) : State :=
  { withSrc { cfg, pend := true, ready := true } [] with
    engines := [(1, { state := 1, fwOk := true, status := 2 })]
    hfn := { bme := true, msixEn := true, msix := [(9, { addr := 0x1000, data := 9, mask := false })] } }

theorem witness_commits :
    ((readySrc srcHost).readySrcs ((readySrc srcHost).src 5).host ((readySrc srcHost).src 5).target).head? = some (5 : Fin 1536).val
    ∧ ((readySrc srcHost).src 5).host = true ∧ (readySrc srcHost).hfn.inReset = false
    ∧ (readySrc srcHost).hfn.msixOpen ((readySrc srcHost).src 5).target = true ∧ up.hfn.msixOpen 9 = false
    ∧ ((readySrc srcEng).readySrcs ((readySrc srcEng).src 5).host ((readySrc srcEng).src 5).target).head? = some (5 : Fin 1536).val
    ∧ ((readySrc srcEng).src 5).host = false ∧ ((readySrc srcEng).src 5).target < 132
    ∧ (readySrc srcEng).canTake ((readySrc srcEng).src 5).target = true
    ∧ ((readySrc srcEng).eng ((readySrc srcEng).src 5).target).slots = []
    ∧ validPc ((readySrc srcEng).src 5).target (BitVec.ofNat 64 (4 * ((readySrc srcEng).src 5).handler)) = true
    ∧ (withSrc { cfg := srcEng, pend := true, ready := true } []).canTake 1 = false := by
  decide +kernel

/-- The steward engines wait: a source has come for the main one, or it has left its wait before the checker. -/
def wakes132 : State :=
  { withSrc { cfg := 0x40001A11, pend := true, ready := true } [] with
    engines := [(132, { state := 2, fwOk := true, steps := 2 }), (133, { state := 2, fwOk := true, steps := 1 })] }
def wakes133 : State :=
  { up with stw := { running := true, entries := [(2, none)] }, engines := [(133, { state := 2, fwOk := true, steps := 2 })] }

theorem witness_aggregator :
    (((withSrc { cfg := srcHost, act := true } []).src (5 : BitVec 11).toNat).host = true
        ∧ ((withSrc { cfg := srcHost, act := true } []).src (5 : BitVec 11).toNat).act = true)
    ∧ (up.src 5).host = false ∧ (133 : BitVec 8).toNat ≤ 133 ∧ 133 < (134 : BitVec 8).toNat
    ∧ ((0x100001826 : Word).extractLsb' 34 30 = 0
        ∧ (0x100001826 : Word).extractLsb' 0 32 ||| 1 = ((withSrc { cfg := srcHost } []).src 5).cfg ||| 1)
    ∧ ((0x1827 : Word).extractLsb' 0 32 ||| 1 ≠ (up.src 5).cfg ||| 1 ∧ up.srcCfgOk 5 ((0x1827 : Word).extractLsb' 0 32) = true)
    ∧ (withSrc { cfg := srcHost } []).srcCfgOk 5 ((0x1825 : Word).extractLsb' 0 32) = false
    ∧ (up.eng 1).state ≠ 2 ∧ (withEng { eg with state := 2 }).wakeSrc 1 = none
    ∧ ({ readySrc srcEng with engines := [(1, { eg with state := 2 })] }).wakeSrc 1 = some 5
    ∧ (({ readySrc srcEng with engines := [(1, { eg with state := 2 })] }).eng 1).status.getLsbD 1 = false ∧ isSpoke 1 = true
    ∧ (wakes132.wakeSrc 132 = some 5 ∧ (wakes132.eng 132).state = 2 ∧ wakes132.iagStopped = false
        ∧ (wakes132.eng 132).status.getLsbD 1 = false ∧ wakes132.stw.entries = [] ∧ (wakes132.eng 133).steps < (wakes132.eng 132).steps)
    ∧ (up.checkDue = false ∧ wakes133.stw.entries = [(2, none)] ∧ 2 ≤ (wakes133.eng 133).steps ∧ (wakes133.eng 133).state = 2
        ∧ wakes133.iagStopped = false ∧ (wakes133.eng 133).atBoundary = true)
    ∧ up.pwr.state = 0 ∧ ({ up with pwr := { state := 2 } }).pwr.state ≠ 0 := by
  decide +kernel

def waitingHost : State := { up with hfn := { waits := [⟨.bar2, 0x1000, 16, none, false⟩] } }

theorem witness_report_queues :
    (up.hfnTakes = true ∧ up.hfn.waits = [] ∧ up.pwr.state = 0 ∧ (16 : Nat) ≠ 0)
    ∧ (({ up with hfn := { d3hot := true } }).hfnTakes = false ∧ ({ up with hfn := { d3hot := true } }).hfn.waits = []
        ∧ up.rst.released = true ∧ up.rst.phase ≠ 0)
    ∧ (({ up with hfn := { inReset := true } }).hfnTakes = false)
    ∧ waitingHost.hfn.waits ≠ []
    ∧ (let s := { up with pwr := { state := 1 } }; s.hfnTakes = true ∧ s.hfn.waits = [] ∧ s.pwr.state ≠ 0)
    ∧ (up.rpqOf 31).ents = []
    ∧ (({ up with rpq := [(31, { ents := [⟨5, 4, false⟩] })] }).rpqOf 31).ents ≠ [] := by
  decide +kernel

theorem witness_counters :
    ((0x00E00000 : BitVec 32).extractLsb' 26 6 = 0 ∧ pmcSelOk 1583 0x00E00000 = true) ∧ pmcSelOk 1056 0x00C00000 = false
    ∧ (0x00C00000 : BitVec 32).extractLsb' 26 6 = 0 ∧ up.pmc.snapBusy = false
    ∧ ({ up with pmc := { snapBusy := true, wrapped := [3, 1583] } }).pmc.snapBusy = true
    ∧ (1583 : Fin 1584).val ∈ ({ up with pmc := { snapBusy := true, wrapped := [3, 1583] } }).pmc.wrapped
    ∧ (0 : Fin 1584).val ∉ up.pmc.wrapped ∧ ({ up with pmc := { snapBusy := true } }).svc.await = none := by
  decide +kernel

/-- Way 0 is being flushed; a far operation has pinned a position of it or not. -/
def flushing (pin : Option Nat) : Slice :=
  { sl with hlc := { flushes := [{ way := 0, hw := false }] }, trks := [(3, some { trk0 .farAtomic .farReady with pin })] }

theorem witness_caches :
    fresh.pwr.state = 0 ∧ ({ fresh with pwr := { state := 1 } }).pwr.state ≠ 0 ∧ fresh.svc.await = none
    ∧ ((flushing none).hlc.flushes = [{ way := 0, hw := false }])
    ∧ (∃ e ∈ (flushing (some 0)).used, e.2.pin.isSome = true)
    ∧ (fresh.slice 1).hlc.state = 1 ∧ ((withSlice { sl with hlc := { state := 0 } }).slice 1).hlc.state = 0
    ∧ (((withSlice { sl with hlc := { state := 2 } }).slice 1).hlc.state = 2
        ∧ (∀ k ∈ ((withSlice { sl with hlc := { state := 2 } }).slice 1).hlc.walks, k.maint ≠ none)
        ∧ ((withSlice { sl with hlc := { state := 2 } }).slice 1).hlc.evbs = []
        ∧ (∀ e ∈ ((withSlice { sl with hlc := { state := 2 } }).slice 1).used, e.2.pin = none))
    ∧ ((withSlice { sl with hlc := { writes := [{ evb := true, idx := 0, addr := 0, data := 0, poison := 0, ord := 0 }] } }).slice 1).hlc.evbs ≠ []
    ∧ (∃ k ∈ ((withSlice { sl with hlc := { state := 2, walks := [{ maint := none }] } }).slice 1).hlc.walks, k.maint = none)
    ∧ ((up.slice 0).active = false ∧ (up.slice 0).quiet = true ∧ (up.slice 0).sfl.pass = none ∧ (up.slice 0).hlc.evbs = [])
    ∧ ((fresh.slice 1).hlc.flushes = [] ∧ (fresh.slice 1).hlc.wayOn 15 = true ∧ (fresh.slice 1).hlc.lines = [])
    ∧ ((withSlice { sl with hlc := { wayEn := 0x7FFF } }).slice 1).hlc.wayOn 15 = false
    ∧ ((withSlice { sl with hlc := { flushes := [{ way := 15, hw := false }] } }).slice 1).hlc.flushes
        = [{ way := (15 : Fin 16).val, hw := false }]
    ∧ (fresh.slice 1).hlc.leak.get zeroNat (15 : Fin 16) = 0
    ∧ (let s := { withSlice { sl with hlc := { leak := [(15, 1)], leakAt := [(15, 0)] } } with time := 86400000000 };
        (s.slice 1).hlc.leak.get zeroNat (15 : Fin 16) ≠ 0
        ∧ (s.slice 1).hlc.leakH.toNat * 60 ≤ (s.time - (s.slice 1).hlc.leakAt.get zeroNat (15 : Fin 16)) / 60000000)
    ∧ (let s := { withSlice { sl with hlc := { leak := [(15, 1)], leakAt := [(15, 0)] } } with time := 86399999999 };
        (s.time - (s.slice 1).hlc.leakAt.get zeroNat (15 : Fin 16)) / 60000000 < (s.slice 1).hlc.leakH.toNat * 60) := by
  decide +kernel

theorem witness_patrol :
    ((fresh.slice 1).hlc.flushes = [] ∧ (fresh.slice 1).hlc.wayOn 15 = true ∧ (fresh.slice 1).hlc.lines = [])
    ∧ (∀ f ∈ (fresh.slice 1).hlc.flushes, f.way ≠ (0 : Fin 16).val) ∧ State.reset.slices = [] ∧ State.reset.stewardRuns = false
    ∧ ((flushing none).hlc.flushes = [{ way := 0, hw := false }] ∧ (flushing none).hlc.lines = [] ∧ (flushing none).wayPinned 0 = false)
    ∧ ((flushing (some 0)).hlc.flushes = [{ way := 0, hw := false }] ∧ (flushing (some 0)).wayPinned 0 = true)
    ∧ (fresh.stewardRuns = true ∧ fresh.dictMaintBusy = false ∧ (fresh.slice 1).active = true ∧ (fresh.slice 1).hlc.isOff = false)
    ∧ ((withSlice { sl with hlc := { state := 0 } }).slice 1).hlc.isOff = true
    ∧ ((fresh.slice 0).active = false ∧ (fresh.slice 0).quiet = true ∧ (fresh.slice 0).sfl.pass = none)
    ∧ (fresh.slice 1).sfl.pass = none
    ∧ (((withSlice { sl with sfl := { pass := some 13824 } }).slice 1).sfl.pass = some 13824
        ∧ ∀ e ∈ ((withSlice { sl with sfl := { pass := some 13824 } }).slice 1).sfl.blocks, e.1 < 13824) := by
  decide +kernel

/-- Block 0 of the snoop filter holds entry `e` in row 0, with the bits of `d` wrong; a patrol pass has begun. -/
def badBlock (e d : SfEnt) : SfBlock :=
  { ({} : SfBlock).write 0 (bitsOfEnt e) with
    rows := [(0, { data := bitsOfEnt e ^^^ bitsOfEnt d, rp := parity (bitsOfEnt e) })] }
def patrolled (b : SfBlock) (rest : List (Nat × SfBlock)) : State :=
  withSlice { sl with sfl := { pass := some 0, blocks := (0, b) :: rest } }
def owned5 : SfEnt := { tag := 1, vec := agentBit 5, st := 2 }

set_option maxRecDepth 100000 in
theorem witness_patrol_repairs :
    (∀ d ∈ [({} : SfEnt), { vec := 1 }, { vec := 7 }, { tag := 7 }],
      ((patrolled (badBlock owned5 d) []).slice 1).sfl.pass = some 0 ∧ (patrolled (badBlock owned5 d) []).sliceStopped 1 = false
      ∧ ((patrolled (badBlock owned5 d) []).slice 1).sfl.blocks.find? (fun x => decide (0 ≤ x.1) && x.2.written)
          = some (0, badBlock owned5 d)
      ∧ ((patrolled (badBlock owned5 d) []).slice 1).sfBlock 0 = badBlock owned5 d)
    ∧ (badBlock owned5 {}).syndrome = .clean ∧ (badBlock owned5 { vec := 1 }).syndrome = .corrected 0 0
    ∧ (∀ b ∈ [badBlock owned5 { vec := 7 }, badBlock owned5 { tag := 7 }, badBlock {} { vec := 7 }],
        b.syndrome = .uncorrectable ∧ b.badRows = [0] ∧ b.badCols ≠ 0)
    ∧ rowFate 0 (badBlock owned5 { vec := 7 }).badCols ((badBlock owned5 { vec := 7 }).row 0).data up.glb.agents
        = .marked (bitsOfEnt { owned5 with st := 3, vec := agentBit 5 ||| 7, poison := true })
    ∧ rowFate 0 (badBlock owned5 { tag := 7 }).badCols ((badBlock owned5 { tag := 7 }).row 0).data up.glb.agents = .tagSuspect
    ∧ rowFate 0 (badBlock {} { vec := 7 }).badCols ((badBlock {} { vec := 7 }).row 0).data up.glb.agents = .zeroed
    ∧ (∃ x ∈ ((patrolled (badBlock owned5 {}) [(9, badBlock owned5 {})]).slice 1).sfl.blocks, 0 < x.1 ∧ x.2.written = true)
    ∧ ((patrolled (badBlock owned5 { vec := 1 }) []).slice 1).sfl.capValid = false := by
  refine ⟨by decide +kernel, by decide +kernel, by decide +kernel, by decide +kernel, by decide +kernel, by decide +kernel,
    by decide +kernel, ⟨(9, badBlock owned5 {}), by decide +kernel, by decide +kernel, by decide +kernel⟩, by decide +kernel⟩

theorem witness_patrol_stops :
    ({ fresh with pwr := { gated := [1] } }).sliceStopped 1 = true ∧ fresh.sliceStopped 1 = false := by
  decide +kernel

/-- Slice 0 is a ready spare; slice 1 carries logical slice 0 and has lost four ways. -/
def sparing : State :=
  { up with
    slices := [(0, { lslice := 0, far := { copyDone := true } }), (1, { sl with hlc := { hwDis := 0xF } })]
    engines := [(0, { fwOk := true })], spare := { ready := [0] }, loader := { masterFw := [0x60000000] } }

/-- An evacuation of logical slice 0 from slice 1 to slice 0, `step` of R30 complete, begun `ago` ticks before. -/
def evac (step ago : Nat) (due : Bool) : Evac :=
  { lslice := 0, old := 1, target := 0, step, since := up.time - ago, attempts := 0, due }
def evacuating (step ago : Nat) (due : Bool) : State :=
  { fresh with spare := { run := some (evac step ago due), ready := [0] } }

theorem witness_evacuation :
    (up.spare.run = none ∧ up.spare.abandoned = none)
    ∧ (let s := { sparing with spare := { ready := [0], abandoned := some (evac 2 1000 false) } };
        s.spare.run = none ∧ s.spare.abandoned = some (evac 2 1000 false) ∧ s.stewardRuns = true ∧ s.inRun = true
        ∧ (evac 2 1000 false).attempts < 8 ∧ (evac 2 1000 false).since + 1000 ≤ s.time
        ∧ s.chooseSpare (evac 2 1000 false).old = some 0)
    ∧ ({ evac 1 60 false with attempts := 8 }.attempts ≥ 8)
    ∧ ((evac 0 0 true).step = 0 ∧ (evacuating 0 0 true).stewardRuns = true ∧ (evac 0 0 true).due = true
        ∧ (evacuating 0 0 true).inRun = true ∧ (evacuating 0 0 true).evacReady (evac 0 0 true) = true)
    ∧ ({ evacuating 0 0 true with engines := [(1, { eg with quiesceReq := true })] }).evacReady (evac 0 0 true) = false
    ∧ (({ evacuating 0 0 true with engines := [(1, { eg with quiesceReq := true })] }).eng (evac 0 0 true).old).quiesceReq = true
    ∧ ((evacuating 1 59 false).evacQuiet (evac 1 59 false) = true ∧ (evac 1 59 false).old ≠ (evac 1 59 false).target)
    ∧ (let s := { evacuating 1 60 false with slices := [(1, { sl with olt := [(0, served)] })] };
        s.evacQuiet (evac 1 60 false) = false ∧ (evac 1 60 false).since + 60 ≤ s.time ∧ (evac 1 60 false).attempts < 8)
    ∧ (evacuating 1 59 false).time < (evac 1 59 false).since + 60
    ∧ (evac 0 1000 false).since + 1000 ≤ (evacuating 0 1000 false).time
    ∧ (evacuating 0 999 false).time < (evac 0 999 false).since + 1000
    ∧ (evac 3 115 false).since + 115 ≤ (evacuating 3 115 false).time
    ∧ (evacuating 3 114 false).time < (evac 3 114 false).since + 115
    ∧ (evac 2 115 false).asked = false ∧ (evac 3 0 false).step ≠ 2
    ∧ ((evacuating 3 0 false).hfn.waits = [] ∧ (evacuating 3 0 false).relayed = [] ∧ (evacuating 4 0 false).stewardRuns = true)
    ∧ ((evac 1 115 false).asked = false ∧ (evac 1 115 false).since + 115 ≤ (evacuating 1 115 false).time) := by
  decide +kernel

theorem witness_sparing :
    ((0x7F : BitVec 32).getLsbD 31 = false ∧ (0x7F : BitVec 32) &&& 0x7FFF0080 = 0 ∧ (0x7FFFFFFF : BitVec 32) &&& 0x7FFF0080 ≠ 0)
    ∧ ((0x80000000 : BitVec 32).getLsbD 31 = true ∧ (0x80000000 : BitVec 32) &&& 0x7FFF0080 = 0)
    ∧ 128 ≤ (128 : Byte).toNat ∧ State.reset.stewardRuns = false
    ∧ (sparing.pwr.state = 0 ∧ sparing.readySpares = [0] ∧ up.readySpares = [] ∧ (evacuating 0 0 true).spare.run.isSome = true)
    ∧ (((0x80000000 : BitVec 32).extractLsb' 8 8).toNat ∈ sparing.readySpares
        ∧ ((0x80000500 : BitVec 32).extractLsb' 8 8).toNat ∉ sparing.readySpares ∧ (0x80000500 : BitVec 32) &&& 0x7FFF0080 = 0
        ∧ sparing.chooseSpare (sparing.stwCopy.entry ((0x80000500 : BitVec 32).extractLsb' 0 7).toNat).phys = some 0)
    ∧ ((127 : Byte).toNat < 128 ∧ sparing.chooseSpare (sparing.stwCopy.entry (0 : Byte).toNat).phys = some 0 ∧ sparing.spare.run = none
        ∧ sparing.inRun = true ∧ (sparing.slice (sparing.stwCopy.entry (0 : Byte).toNat).phys).active = true)
    ∧ up.spare.ready = [] ∧ up.sparesItself 1 = false
    ∧ (sparing.ras.autoSpare = true ∧ sparing.sparesItself 1 = true ∧ sparing.stewardRuns = true ∧ sparing.chooseSpare 1 = some 0)
    ∧ sparing.isSpare 1 = false ∧ (0 : Fin 132).val ∈ sparing.readySpares
    ∧ (sparing.isSpare 131 = true ∧ (131 : Fin 132).val ∉ sparing.readySpares ∧ sparing.loader.masterFw ≠ []
        ∧ sparing.glb.enabled = true ∧ (sparing.eng 131).held = false ∧ up.loader.masterFw = [])
    ∧ (∀ c < 52, up.copy c = up.stwCopy)
    ∧ (let s := withPort 0 { smap := [(127, { phys := 0, hold := false })] };
        (s.stwCopy.entry 127).hold = false ∧ (s.copy (copyOfPort 0)).entry 127 ≠ s.stwCopy.entry 127) := by
  decide +kernel
/-- A power transition in progress since `ago` ticks. -/
def trans (goal origin : BitVec 2) (phase : PwrPhase) (ago : Nat) (acked : Bool) : PwrTrans :=
  { goal, origin, phase, since := up.time - ago, acked }
def moving (x : PwrTrans) : State := { up with pwr := { state := x.origin, trans := some x } }
def inState (n : BitVec 2) : State := { up with pwr := { state := n } }

theorem witness_power_commands :
    (moving (trans 1 0 .drain 0 false)).pwr.trans.isSome = true ∧ ({ up with saf := { kick := .window } }).saf.kick ≠ .none
    ∧ (up.rst.released = true ∧ State.reset.rst.released = false ∧ up.loader.fwWait = none
        ∧ ({ up with loader := { fwWait := some 3 } }).loader.fwWait.isSome = true)
    ∧ (∀ s ∈ [evacuating 0 0 true, loading false, updating [131] [], withRing { returning := true }],
        s.pwr.state = 0 ∧ s.pwr.trans = none ∧ s.saf.kick = .none ∧ s.rst.released = true
        ∧ ∀ e < 132, (s.eng e).unquiesced = false)
    ∧ (up.pwr.trans = none ∧ up.saf.kick = .none ∧ up.pwr.state = 0 ∧ up.spare.run = none ∧ (∀ r < 6, (up.ring r).busy = false)
        ∧ up.loader.busy = false ∧ up.loader.fwTodo = [] ∧ (∀ e < 132, (up.eng e).unquiesced = false))
    ∧ (inState 1).pwr.state = 1 ∧ (inState 2).pwr.state = 2 ∧ (evacuating 0 0 true).spare.run.isSome = true
    ∧ (∃ r < 6, ((withRing { returning := true }).ring r).busy = true) ∧ (loading false).loader.busy = true
    ∧ (updating [131] []).loader.fwTodo ≠ [] ∧ (∃ e < 132, ((withEng eg).eng e).unquiesced = true)
    ∧ ((moving (trans 1 0 .drain 0 false)).drained = true ∧ fresh.drained = true ∧ (relaying 1 true).drained = false)
    ∧ ((moving (trans 1 0 .drain 499 false)).time - (trans 1 0 .drain 499 false).since
        < (moving (trans 1 0 .drain 499 false)).pwr.drainUs.toNat)
    ∧ ((moving (trans 1 0 .drain 500 false)).pwr.drainUs.toNat
        ≤ (moving (trans 1 0 .drain 500 false)).time - (trans 1 0 .drain 500 false).since) := by
  decide +kernel

theorem witness_power_handshakes :
    (moving (trans 2 0 .entryBias 9 false)).time - (trans 2 0 .entryBias 9 false).since < (trans 2 0 .entryBias 9 false).bound
    ∧ (trans 2 0 .entryBias 10 false).bound ≤ (moving (trans 2 0 .entryBias 10 false)).time - (trans 2 0 .entryBias 10 false).since
    ∧ (trans 1 0 .entryBias 1 false).bound ≤ (moving (trans 1 0 .entryBias 1 false)).time - (trans 1 0 .entryBias 1 false).since
    ∧ (trans 0 2 .exitAck 5 false).bound ≤ (moving (trans 0 2 .exitAck 5 false)).time - (trans 0 2 .exitAck 5 false).since
    ∧ (trans 0 1 .exitBias 0 false).origin = 1 ∧ (trans 2 0 .entryBias 0 true).acked = true
    ∧ (trans 0 2 .exitBias 0 true).acked = true ∧ (trans 2 0 .entryBias 0 false).acked = false
    ∧ ((moving (trans 0 1 .exitBias 0 false)).saf.kick = .none
        ∧ ({ moving (trans 0 1 .exitBias 0 false) with saf := { kick := .waking } }).saf.kick = .waking)
    ∧ (let s := { up with pwr := { edgeHold := true, held := [0, 1, 133] }, spare := { retired := [1] } };
        s.pwr.edgeHold = true ∧ (∀ x ∈ s.pwr.held, x = (0 : BitVec 16).toNat ∨ (x < 264 ∧ x % 132 ∈ s.spare.retired))
        ∧ s.pwr.domOff (0 : BitVec 16).toNat = false ∧ s.wakes (0 : BitVec 16).toNat = false ∧ s.saf.kick = .none)
    ∧ (∃ x ∈ ({ up with pwr := { edgeHold := true, held := [0, 320] } }).pwr.held, x ≠ (0 : BitVec 16).toNat ∧ 264 ≤ x)
    ∧ ({ up with pwr := { railOk := 0xE } }).pwr.railOk.getLsbD 0 = false ∧ up.pwr.railOk.getLsbD 3 = true
    ∧ (inState 2).pwr.state = 2 ∧ (0 : Fin 4) ≠ 2
    ∧ 323 < (324 : BitVec 16).toNat ∧ ((323 : BitVec 16).toNat ≤ 323 ∧ up.pwr.domOff 323 = false ∧ up.wakes 323 = false ∧ up.pwr.edgeHold = false)
    ∧ (withRing { mode := 3 }).wakes 265 = true
    ∧ ({ up with pwr := { off := [0] } }).pwr.domOff (0 : BitVec 16).toNat = true := by
  decide +kernel

/-- Memory port 1 with one read command of tag 5, transferred or not. -/
def cmd5 (xfer : Option Nat) : MptCmd := { tag := 5, wr := false, msg := { opc := 8 }, lane := some 0, xfer }
def memory (cmds : List MptCmd) : Mpt := { cmds, ready := true }

theorem witness_memory_ports :
    up.mptSilent 1 = false ∧ (up.mpt 1).freeTag = some 0 ∧ ((withMpt { down := true }).mpt 1).down = true
    ∧ ((memory [cmd5 none]).offered.length < 16 ∧ (memory []).offered = []
        ∧ 16 ≤ (memory ((List.range 16).map fun i => { cmd5 none with tag := BitVec.ofNat 10 i })).offered.length)
    ∧ (memory [cmd5 none]).offered.find? (fun c => c.lane == some (0 : Fin 2).val && c.tag == 5) = some (cmd5 none)
    ∧ (∀ c ∈ (memory [cmd5 none]).offered, c.lane ≠ some (1 : Fin 2).val ∨ c.tag ≠ 5)
    ∧ ({ up with clk := { lost := [23] } }).mptSilent 1 = true
    ∧ (memory [cmd5 (some 9)]).cmds.find? (fun k => k.tag == 5 && k.late 96009) = some (cmd5 (some 9))
    ∧ (∀ k ∈ (memory [cmd5 (some 9)]).cmds, k.tag ≠ 5 ∨ ∀ at_, k.xfer = some at_ → 96008 < at_ + 96000)
    ∧ ((memory [cmd5 (some 9)]).cmds.find? (fun k => k.tag == 5 && k.xfer.isSome && k.wr == false) = some (cmd5 (some 9)))
    ∧ ((memory [cmd5 none]).cmds.find? (fun k => k.tag == 5 && k.xfer.isSome && k.wr == false) = none)
    ∧ (memory []).waiting = [] ∧ ({ memory [] with quar := [(5, 0, false)] }).quar.any (fun q => q.1 == 5) = true
    ∧ (∃ q ∈ ({ memory [] with quar := [(5, up.time - 1000, false)] }).quar, q.1 = 5 ∧ q.2.1 + 1000 ≤ up.time ∧ q.2.2 = false)
    ∧ (∀ q ∈ ({ memory [] with quar := [(5, up.time - 999, false)] }).quar, q.1 = 5 → up.time < q.2.1 + 1000 ∨ q.2.2 = true)
    ∧ (up.mpt 1).ready = false ∧ ((withMpt (memory [])).mpt 1).ready = true
    ∧ (({ withMpt (memory [cmd5 none]) with ports := [(21, { up := true })] }).port (20 + (1 : Fin 12).val)).up = true := by
  decide +kernel

/-- With every tag outstanding no tag is free. -/
def withTags (n : Nat) : Mpt := memory ((List.range n).map fun i => { cmd5 none with tag := BitVec.ofNat 10 i })

theorem withTags_tag (n i : Nat) (hi : i < n) : (withTags n).cmds.any (fun c => c.tag == BitVec.ofNat 10 i) = true :=
  List.any_eq_true.mpr ⟨_, List.mem_map.mpr ⟨i, List.mem_range.mpr hi, rfl⟩, by simp⟩

theorem witness_no_free_tag : (withTags 1024).freeTag = none := by
  simp only [Mpt.freeTag, List.find?_eq_none, List.mem_map, List.mem_range]
  rintro t ⟨i, hi, rfl⟩
  simp [Mpt.tagFree, withTags_tag 1024 i hi]

/-- The probe of slice 1, for logical slice 0, waiting for step `n` since `ago` ticks, with its answer in the slice. -/
def probing (n ago : Nat) (m : List Msg) : State :=
  { withSlice { sl with local_ := m } with
    saf := { probeEn := true, probes := [(1, { n := 1, step := n, since := up.time - ago })] } }
def probeAns (n : Nat) : Msg :=
  if n = 1 then { opc := 0x28, dst := 461, txn := 1 }
  else if n = 3 then { opc := 0x3D, dst := 461, txn := 3 }
  else { opc := 0x3A, dst := 461, txn := BitVec.ofNat 12 n, data := probePattern 0 0 + (if n = 2 then 0 else 1) }

theorem witness_probes :
    up.probeDue 1 = false ∧ (probing 0 250 []).probeDue 1 = true ∧ (probing 0 249 []).probeDue 1 = false
    ∧ ((up.slice 1).local_.contains (probeAns 1) = false)
    ∧ (∀ n ∈ [1, 2, 3, 4], ((probing n 0 [probeAns n]).slice 1).local_.contains (probeAns n) = true
        ∧ (probeAns n).dst = BitVec.ofNat 10 (460 + (1 : Fin 132).val) ∧ ((probing n 0 [probeAns n]).probe 1).step = n
        ∧ (probeAns n).txn = BitVec.ofNat 12 n ∧ (probing n 0 [probeAns n]).probeGood 1 n (probeAns n) = true
        ∧ (probing n 0 [{ probeAns n with opc := 0x31 }]).probeGood 1 n { probeAns n with opc := 0x31 } = false
        ∧ ((probing n 0 [{ probeAns n with opc := 0x31 }]).slice 1).local_.contains { probeAns n with opc := 0x31 } = true)
    ∧ (probing 1 99 []).time < ((probing 1 99 []).probe 1).since + 100
    ∧ ((probing 1 100 []).probe 1).since + 100 ≤ (probing 1 100 []).time
    ∧ (up.saf.selfTest = true ∧ up.pwr.state = 0 ∧ up.rst.phase = 7)
    ∧ ((877 : BitVec 16).toNat < 878 ∧ up.saf.testDue.get zeroNat (877 : BitVec 16).toNat ≤ up.time
        ∧ ({ up with saf := { testDue := [(877, up.time + 1)] } }).time
            < ({ up with saf := { testDue := [(877, up.time + 1)] } }).saf.testDue.get zeroNat (877 : BitVec 16).toNat)
    ∧ (3 ≤ ({ up with rst := { released := true, phase := 6 } }).rst.phase.toNat
        ∧ ({ up with rst := { released := true, phase := 6 } }).rst.phase.toNat ≤ 6)
    ∧ State.reset.stewardRuns = false ∧ up.stewardRuns = true ∧ ({ up with time := 199 }).time < ({ up with time := 199 }).saf.kickedAt + 200
    ∧ ({ up with time := 200 }).saf.kickedAt + 200 ≤ ({ up with time := 200 }).time := by
  decide +kernel

def killed (kick : Kick) (ago : Nat) : State :=
  { up with saf := { fatal := some { code := 0x48, unit := 0, index := 1, seq := none }, kick, kickAt := up.time - ago } }

theorem witness_kickstand :
    State.reset.rst.released = false ∧ up.rst.released = true ∧ (35 : Fin 36).val ∉ up.clk.lost
    ∧ (1 : Fin 36).val < 2 ∧ up.glb.coherentReady = true ∧ State.reset.glb.coherentReady = false
    ∧ (35 : Fin 36).val ∈ ({ up with clk := { lost := [35] } }).clk.lost
    ∧ (State.reset.rst.phase ≠ 8 ∧ ({ up with rst := { released := true, phase := 8 }, glb := {} }).glb.coherentReady = false)
    ∧ (2 ≤ (21 : Fin 36).val ∧ (21 : Fin 36).val < 22 ∧ ((withPort 19 { active := true }).port 19).down = false)
    ∧ (22 ≤ (23 : Fin 36).val ∧ (23 : Fin 36).val < 34 ∧ ((withMpt (memory [cmd5 none])).mpt 1).cmds = [cmd5 none]
        ∧ ((withMpt (memory [])).mpt 1).cmds = [] ∧ ((withMpt (memory [])).mpt 1).waiting = [] ∧ (cmd5 none).wr = false)
    ∧ (∀ k ∈ [PwrPhase.exitBias, .exitAck], let s := { killed .waking 0 with pwr := { state := 1, trans := some (trans 0 1 k 11 false) } };
        s.saf.kick = .waking ∧ s.wakeLate = true)
    ∧ (killed .waking 0).wakeLate = false
    ∧ (let s := { killed .none 0 with pwr := { state := 1, trans := some (trans 0 1 .exitBias 0 false) } };
        s.saf.kick = .none ∧ s.rst.phase ≠ 8 ∧ s.rst.released = true ∧ s.pwr.state = 1 ∧ s.pwr.trans.isSome = true
        ∧ s.saf.fatal.map (fun (f : Fatal) => f.code) = some 0x48)
    ∧ (({ killed .none 0 with pwr := { state := 1 } }).pwr.state = 1 ∧ ({ killed .none 0 with pwr := { state := 1 } }).pwr.trans = none)
    ∧ ({ up with saf := { fatal := some { code := 0x50, unit := 0, index := 1, seq := none } } }).saf.fatal.map (fun (f : Fatal) => f.code) = some 0x50
    ∧ (({ killed .none 0 with pwr := { trans := some (trans 1 0 .drain 0 false) } }).pwr.trans = some (trans 1 0 .drain 0 false))
    ∧ up.saf.fatal = none ∧ ((killed .none 0).saf.fatal.isSome = true ∧ (killed .none 0).saf.kick = .none
        ∧ (killed .none 0).rst.phase ≠ 8 ∧ (killed .none 0).pwr.state = 0 ∧ (killed .none 0).pwr.trans = none)
    ∧ ({ killed .none 0 with pwr := { state := 2 } }).pwr.state = 2
    ∧ (killed .window 0).workOpen = false
    ∧ ({ killed .window 150 with slices := [(1, { sl with trks := [(0, some (trk0 .readOwn .queued))] })] }).workOpen = true
    ∧ (killed .window 149).time < (killed .window 149).saf.kickAt + 150 ∧ (killed .window 150).saf.kickAt + 150 ≤ (killed .window 150).time
    ∧ (killed .flushing 9999).time < (killed .flushing 9999).saf.kickAt + 10000
    ∧ (killed .flushing 10000).saf.kickAt + 10000 ≤ (killed .flushing 10000).time
    ∧ (killed .flushing 0).slices.all (fun e => e.2.flushed) = true := by
  decide +kernel

/-- The block in an earlier phase. -/
def atPhase (n : BitVec 4) : State := { up with rst := { released := true, phase := n, phase4At := up.time - 30000 }, glb := {} }

theorem witness_start_up :
    (atPhase 0).rst.released = true ∧ (atPhase 0).rst.phase = 0 ∧ ({ atPhase 0 with time := 199 }).time < 200
    ∧ (atPhase 1).rst.phase = 1 ∧ (List.range 4).length ≤ 4
    ∧ (4 < ([0, 1, 2, 3, 131] : List (Fin 132)).length ∧ ([0, 1, 2, 3, 131] : List (Fin 132)).Nodup)
    ∧ (∀ r < 6, ((atPhase 3).ring r).mode ≠ 2)
    ∧ (atPhase 2).rst.phase = 2
    ∧ ((atPhase 4).bringUp 47 = true ∧ (atPhase 4).bringUp 48 = false ∧ (atPhase 4).linkReady 47 = false)
    ∧ (({ atPhase 4 with ports := [(47, { active := true, creds := [(0, 8)] })] }).bringUp 47 = true
        ∧ ({ atPhase 4 with ports := [(47, { active := true, creds := [(0, 8)] })] }).linkReady 47 = true)
    ∧ (atPhase 4).rst.phase4At + 30000 ≤ (atPhase 4).time
    ∧ ({ atPhase 4 with time := 29999, rst := { released := true, phase := 4 } }).time
        < ({ atPhase 4 with time := 29999, rst := { released := true, phase := 4 } }).rst.phase4At + 30000
    ∧ (atPhase 6).glb.enabled = false ∧ ({ atPhase 6 with glb := { enabled := true } }).glb.enabled = true
    ∧ (∀ e < 132, ((atPhase 6).eng e).state = 0 ∨ ((atPhase 6).slice e).far.copyDone = true)
    ∧ (∃ e < 132, ((withEng eg).eng e).state ≠ 0 ∧ ((withEng eg).slice e).far.copyDone = false) := by
  decide +kernel

theorem witness_training : ∀ r : Fin 6, r.val / 2 = 2 → (0 : Fin 94) ≠ 93
    ∧ (r, (0 : Fin 94)) ∈ ([(4, 0), (4, 93), (5, 0), (5, 93)] : List (Fin 6 × Fin 94))
    ∧ (r, (93 : Fin 94)) ∈ ([(4, 0), (4, 93), (5, 0), (5, 93)] : List (Fin 6 × Fin 94)) := by
  decide +kernel

/-- Ring 0 has two segments that fail and is shifted off, ring 3 one. -/
def failedSegs : List (Fin 6 × Fin 94) := [(0, 3), (0, 93), (3, 0)]

theorem witness_training_segments :
    (∀ k, k < 3 → ∃ r : Fin 6, r.val / 2 = k ∧ ∀ a b, (r, a) ∈ failedSegs → (r, b) ∈ failedSegs → a = b)
    ∧ (∃ a b : Fin 94, a ≠ b ∧ ((0 : Fin 6), a) ∈ failedSegs ∧ ((0 : Fin 6), b) ∈ failedSegs) := by
  refine ⟨fun k hk => ?_, 3, 93, by decide, by decide, by decide⟩
  have h : k = 0 ∨ k = 1 ∨ k = 2 := by omega
  rcases h with rfl | rfl | rfl
  · exact ⟨1, rfl, by simp [failedSegs]⟩
  · exact ⟨3, rfl, by simp [failedSegs]⟩
  · exact ⟨5, rfl, by simp [failedSegs]⟩

def restoring (ago : Nat) : State := { atPhase 5 with rst := { released := true, phase := 5, restoreAt := some (up.time - ago) } }
def stale (ago : Nat) : State := { up with stw := { running := true, relays := [{ relay true with since := up.time - ago }] } }

theorem witness_restore :
    State.reset.rst.restoreAt = none ∧ ({ restoring 0 with stw := {} }).stewardRuns = false ∧ (restoring 0).stewardRuns = true ∧ ((restoring 0).rst.restoreAt = some (up.time - 0) ∧ (restoring 0).rst.restoreClosed = false)
    ∧ (restoring 7999).time < up.time - 7999 + 8000 ∧ up.time - 8000 + 8000 ≤ (restoring 8000).time
    ∧ (3 : BitVec 4).toNat < 4 ∧ 65 < 66 ∧ 1024 < (List.replicate 1025 (0 : Byte)).length
    ∧ (let s := { atPhase 4 with stw := {} }; 4 ≤ s.rst.phase.toNat ∧ s.inKickstand = false ∧ s.stw.running = false
        ∧ ((s.loader.stwImage.get noBytes 1).length ≠ 1024))
    ∧ imageDue (imageOf [0, 0, 0, 0x60]).dropLast = false
    ∧ (∀ r ∈ (stale 499).stw.relays, r.reported = true ∨ (stale 499).time - r.since < (stale 499).wdog)
    ∧ (∃ r ∈ (stale 500).stw.relays, r.reported = false ∧ (stale 500).wdog ≤ (stale 500).time - r.since)
    ∧ up.debugOpen = false
    ∧ ({ up with svc := { sessions := [⟨1, none, 1, 1, [], 1, 0, 2, 0, none⟩] } }).debugOpen = true := by
  decide +kernel

/-- A packet of endpoint 8, and the start of a message of its tag 0. -/
def pkt (som eom : Bool) (seq : BitVec 2) (n : Nat) : MctpPkt :=
  { pecOk := true, src := 8, tag := 0, som, eom, seq, payload := [0x7E, 0, 0] ++ List.replicate n 0 }
def bus (reasm : List Reasm) : State := { up with svc := { dynAddr := some 9, reasm } }

theorem witness_service_port :
    State.reset.islandUp = false ∧ up.islandUp = true ∧ up.svc.dynAddr = none ∧ (bus []).svc.dynAddr.isSome = true
    ∧ (1 : BitVec 7) ≠ up.straps.i3cSa ∧ (1 : Byte).toNat ≤ 1 ∧ (1 : Byte) ≠ 0 ∧ (0xFE : Byte) ≠ 0xFF ∧ 1 < (2 : Byte).toNat
    ∧ (∀ som ∈ [false, true], (bus []).svc.reasmOf 8 0 = none ∧ (pkt som false 0 61).owner = true ∧ (pkt som false 0 61).payload.length = 64)
    ∧ ((pkt true true 0 61).payload.take 3 = (bus []).vdmHead ∧ 64 < (pkt true true 0 62).payload.length
        ∧ (pkt true false 0 60).payload.length ≠ 64 ∧ { pkt true true 0 61 with owner := false }.owner = false)
    ∧ ((bus [⟨8, 0, 3, []⟩]).svc.reasmOf 8 0 = some ⟨8, 0, 3, []⟩ ∧ (pkt false false 1 61).seq ≠ 3 + 1
        ∧ (pkt false false 0 61).seq = 3 + 1 ∧ (List.replicate 979 (0 : Byte)).length + (pkt false false 0 61).payload.length ≤ 1043)
    ∧ (up.svc.mwl.toNat = 69 ∧ (68 : BitVec 16).toNat < 69 ∧ 69 ≤ (69 : BitVec 16).toNat
        ∧ ({ up with svc := { outbox := [(8, 0, [1])] } }).svc.outbox = [(8, 0, [1])])
    ∧ (∀ ty ∈ [(1 : Byte), 0x7F, 0xFE], ty ≠ 0 ∧ ty ≠ 0x7E ∧ ty ≠ 0xFF) ∧ (3 : Byte) ≠ 0 := by
  decide +kernel

/-- A message of session 5 of endpoint 8, its numbers next, and the session at a level. -/
def fgOf (ty : Byte) (n tx rx : BitVec 16) (body : List Byte) : List Byte :=
  [1, ty] ++ leBytes 2 n.toNat ++ leBytes 2 tx.toNat ++ leBytes 2 rx.toNat ++ leBytes 2 body.length ++ [0, 0] ++ body
def session (level : Byte) (nonce : Option (Bool × BitVec 128)) : Session :=
  { n := 5, owner := some 8, lastRx := 7, lastTx := 9, answer := [1], lastType := 3, lastStatus := 0, level, lastNew := 0, nonce }
def ses (level : Byte) : State := { up with svc := { sessions := [session level none] } }

theorem witness_new_requests :
    (∀ r ∈ ([(3, [1, 0x10, 1, 0]), (4, [1, 0x10, 1, 0]), (5, [1]), (6, List.replicate 32 0), (8, []), (2, [])] : List (Byte × List Byte)),
      NewRequest (ses 0) (.svc 8) (fgOf r.1 5 8 9 r.2) r.1 (session 0 none)) := by
  unfold NewRequest Taken
  decide +kernel

theorem witness_dictionary_requests :
    dictRow (fgIndex (fgOf 3 5 8 9 [1, 0x0F, 1, 0])) (fgSub (fgOf 3 5 8 9 [1, 0x0F, 1, 0])) = none
    ∧ ((dictRow 0x1001 1).map (·.acc) = some 0 ∧ (dictRow 0x1101 1).map (·.acc) = some 2)
    ∧ ((dictRow 0x2001 2).map (fun r => (r.acc, r.lvl, r.ty)) = some (3, 1, 2) ∧ (session 0 none).level = 0)
    ∧ tyFits 2 1 = false ∧ tyFits 2 2 = true ∧ (session 1 none).level ≠ 0
    ∧ (ses 0).writeWaits (fgOf 4 5 8 9 [1, 0x10, 1, 0]) = false ∧ (ses 0).inKickstand = false ∧ (killed .window 0).inKickstand = true
    ∧ (((ses 1).begun (.svc 8) (fgOf 4 5 8 9 [1, 0x20, 2, 2, 0xFF, 0xFF])).dictWrite 0x2001 2 2 [0xFF, 0xFF]).2 = .ok
    ∧ ((ses 1).dictWrite 0x3401 2 1 [1]).2 = .later .snapshot
    ∧ ((ses 1).dictWrite 0x3602 1 1 [128]).2 = .refused 0 ∧ ((ses 1).dictWrite 0x3602 1 1 [0]).2 = .refused 2 := by
  decide +kernel

def locked (ago : Nat) : State := { up with svc := { lockout := some (up.time - ago) } }
def keyed : State := { up with svc := { ownerKey := some (List.replicate 32 0x0B), sessions := [session 0 (some (false, 3))] } }

set_option maxRecDepth 100000 in
theorem witness_unlocking :
    (locked 59999999).lockLeft = some 1 ∧ (locked 60000000).lockLeft = none ∧ up.lockLeft = none
    ∧ up.svc.key false = none ∧ (keyed.svc.key false).isSome = true
    ∧ keyed.macMatch (session 0 (some (false, 3))) (keyed.macOf (List.replicate 32 0x0B) 3 5) = some 1
    ∧ (keyed.macOf (List.replicate 32 0x0B) 3 5).length = 32
    ∧ (ses 0).macMatch (session 0 none) (List.replicate 32 0) = none
    ∧ (locked 59999999).time < up.time - 59999999 + 60000000 ∧ up.time - 60000000 + 60000000 ≤ (locked 60000000).time := by
  decide +kernel

/-- The mailbox with an OPEN request behind GO. -/
def mbx : State := { up with svc := { req := [(0, 0x101), (1, 1)], busy := true } }

theorem witness_sessions :
    (fgGate [] = 1 ∧ 1 < fgGate (fgOf 9 5 8 9 []) ∧ fgGate (fgOf 1 0 1 0 []) = 0)
    ∧ mbx.svc.mbxMsg = fgOf 1 0 1 0 [] ∧ mbx.svc.busy = true ∧ up.svc.busy = false
    ∧ (ses 0).session (.svc 8) 6 = none ∧ (ses 0).session (.svc 8) 5 = some (session 0 none) ∧ (ses 0).awaited 5 = false
    ∧ fgTx (fgOf 3 5 7 9 [1, 0x10, 1, 0]) = (session 0 none).lastRx ∧ fgTx (fgOf 3 5 9 9 [1, 0x10, 1, 0]) ≠ nextSeq (session 0 none).lastRx
    ∧ fgRx (fgOf 3 5 8 8 [1, 0x10, 1, 0]) ≠ (session 0 none).lastTx ∧ nextSeq 0xFFFF = 1
    ∧ (fgTx (fgOf 1 0 1 0 []) = 1 ∧ fgRx (fgOf 1 0 1 0 []) = 0 ∧ up.sessionFree .mbx = true)
    ∧ ({ up with svc := { sessions := List.replicate 4 (session 0 none) } }).sessionFree (.svc 8) = false
    ∧ ({ up with svc := { sessions := List.replicate 4 (session 0 none) ++ List.replicate 4 { session 0 none with owner := some 9 } } }).sessionFree
        (.svc 7) = false
    ∧ (fgGate (fgOf 7 5 0 0 []) = 0 ∧ fgSession (fgOf 7 5 0 0 []) ≠ 0)
    ∧ ((ses 0).svc.sessions.find? (fun x => x.n == 5)).isSome = true ∧ (session 0 none).lastNew + 1800000000 ≤ (ses 0).time
    ∧ (∀ x ∈ ({ ses 0 with time := 1799999999 }).svc.sessions, x.n = 5 → 1799999999 < x.lastNew + 1800000000)
    ∧ (up.inKickstand = false ∧ (Route.svc 8) ≠ .mbx ∧ up.svc.ownerKey = none ∧ (List.replicate 32 (0 : Byte)).length = 32)
    ∧ (waitingHost.hfn.waits ≠ [] ∧ up.hfn.waits = [] ∧ up.islandUp = true ∧ State.reset.hfn.waits = [])
    ∧ (up.hfnTakes = true ∧ State.reset.hfnTakes = false ∧ up.svc.rspReady = false
        ∧ fgGate ({ mbx with svc := { mbx.svc with busy := false } }).svc.mbxMsg ≠ 1)
    ∧ (({ up with svc := { rspReady := true } }).svc.rspReady = true ∧ mbx.svc.rspReady = false)
    ∧ (({ up with hfn := { d3hot := true } }).hfnTakes = false ∧ up.rst.phase ≠ 0 ∧ ({ up with hfn := { d3hot := true } }).hfn.inReset = false
        ∧ ({ up with hfn := { d3hot := true } }).hfn.d3hot = true ∧ State.reset.hfn.d3hot = false)
    ∧ (let s := { ses 0 with svc := { sessions := [session 0 none]
                                      await := some ⟨⟨.svc 8, 0⟩, 5, 8, .snapshot, up.time - 100000⟩ } };
        (∀ a, s.svc.await = some a → a.since + 100000 ≤ s.time ∧ s.session a.peer.rt a.n = some (session 0 none)))
    ∧ (∀ a, ({ ses 0 with svc := { await := some ⟨⟨.svc 8, 0⟩, 5, 8, .snapshot, up.time - 99999⟩ } }).svc.await = some a →
        up.time < a.since + 100000) := by
  decide +kernel

/-- Records on their way and in the log of slice 1. -/
def recOf (cls : BitVec 2) : ErrRec := { cls, unit := 0, index := 1, code := 0x20 }
def logged (n : Nat) (cls : BitVec 2) : State :=
  { up with ras := { inflight := [recOf 0], logs := [(1, { recs := List.replicate n (recOf cls) })] } }

theorem witness_records :
    up.ras.inflight = [] ∧ (logged 0 0).ras.inflight = recOf 0 :: [] ∧ logOf (recOf 0) = 1
    ∧ logOf { recOf 0 with index := 132 } = 132 ∧ ({ up with ras := { frozen := true } }).ras.frozen = true ∧ up.ras.frozen = false
    ∧ ((logged 15 2).log 1).recs.length < 16 ∧ 16 ≤ ((logged 16 2).log 1).recs.length
    ∧ (∀ r ∈ ((logged 16 2).log 1).recs, r.cls = 2) ∧ (∃ r ∈ ((logged 16 1).log 1).recs, r.cls ≠ 2)
    ∧ recNext [recOf 1, { recOf 0 with unit := 2 }, recOf 0, { recOf 2 with eclk := 1 }]
        = some (recOf 1, [{ recOf 0 with unit := 2 }, recOf 0, { recOf 2 with eclk := 1 }])
    ∧ recNext [{ recOf 0 with index := 2 }, recOf 1] = some (recOf 1, [{ recOf 0 with index := 2 }]) := by
  decide +kernel

def spilling (en : Bool) (wr rd : BitVec 32) (buf : List ErrRec) : State :=
  { up with stw := {}, hfn := { bme := true, spillEn := en, spillWr := wr, spillRd := rd, spillBuf := buf } }

/-- As `spilling`, with LEVEL 1. -/
def levelled (wr rd : BitVec 32) : State :=
  { up with stw := {}, hfn := { bme := true, spillEn := true, spillWr := wr, spillRd := rd, spillLevel := 1, spillBuf := [recOf 0] } }

theorem witness_spill :
    (spilling true 5 5 [recOf 0]).stewardRuns = false ∧ (spilling true 5 5 []).hfn.spillBuf = []
    ∧ (spilling true 64 0 [recOf 0]).hfn.spillN ≤ (spilling true 64 0 [recOf 0]).hfn.spillFill
    ∧ ((spilling true 63 0 [recOf 0]).hfn.spillBuf = recOf 0 :: [] ∧ (spilling true 63 0 [recOf 0]).hfn.sends = true
        ∧ (spilling true 63 0 [recOf 0]).hfn.spillFill < (spilling true 63 0 [recOf 0]).hfn.spillN)
    ∧ (spilling true 5 0 []).hfn.spillN < ((spilling true 5 0 []).hfn.spillWr - (6 : BitVec 32)).toNat
    ∧ ((spilling true 64 0 []).hfn.spillWr - (0 : BitVec 32)).toNat ≤ (spilling true 64 0 []).hfn.spillN
    ∧ ((14 : BitVec 32).extractLsb' 22 10 = 0 ∧ (14 : BitVec 32).extractLsb' 1 5 ≠ (spilling true 5 5 []).hfn.spillSize)
    ∧ ((0x123000 : Word) &&& 0xFFF = 0 ∧ (spilling true 5 5 []).hfnTakes = true)
    ∧ ((0x21 : BitVec 32).extractLsb' 22 10 = 0 ∧ 6 ≤ ((0x21 : BitVec 32).extractLsb' 1 5).toNat
        ∧ ((0x21 : BitVec 32).extractLsb' 1 5).toNat ≤ 16 ∧ (0x21 : BitVec 32).getLsbD 0 = true
        ∧ (spilling false 5 5 [recOf 0]).hfn.spillWr = (spilling false 5 5 [recOf 0]).hfn.spillRd
        ∧ (spilling false 5 5 [recOf 0]).hfn.spillBuf.length ≤ 64)
    ∧ (let s := levelled 5 5; s.hfn.spillFill < s.hfn.spillLevel.toNat
        ∧ s.hfn.spillLevel.toNat ≤ (s.hfn.spillWr + 1 - s.hfn.spillRd).toNat ∧ s.hfn.spillLevel.toNat ≤ (s.hfn.spillWr - (4 : BitVec 32)).toNat
        ∧ (s.hfn.spillWr - (5 : BitVec 32)).toNat < s.hfn.spillLevel.toNat)
    ∧ (levelled 6 5).hfn.spillLevel.toNat ≤ (levelled 6 5).hfn.spillFill := by
  decide +kernel

/-- The command ring of 16 descriptors from HEAD, with reads outstanding. -/
def ring (head tail : BitVec 16) (reads : List HfnRead) : State :=
  { up with hfn := { bme := true, cmdEn := true, head, tail, fetch := head, reads } }
def read5 (drop : Bool) : HfnRead := { tag := 5, first := 0, n := 1, sentAt := 0, drop }

theorem witness_host_function :
    (((0x10 : BitVec 32).extractLsb' 0 16 - (ring 0 0 []).hfn.head).toNat ≤ (ring 0 0 []).hfn.cmdN
        ∧ (ring 0 0 []).hfn.cmdN < ((0x11 : BitVec 32).extractLsb' 0 16 - (ring 0 0 []).hfn.head).toNat
        ∧ (0x10 : BitVec 32).extractLsb' 16 16 = 0)
    ∧ ((ring 0 0 []).hfn.fetches = true ∧ (ring 0 0 []).hfn.fetch ≠ (0x10 : BitVec 32).extractLsb' 0 16 ∧ up.hfn.fetches = false)
    ∧ up.hfn.aborted = false ∧ ({ up with hfn := { aborted := true } }).hfn.aborted = true
    ∧ (up.hfnTakes = true ∧ State.reset.hfnTakes = false ∧ up.cfgTakes = true
        ∧ ({ up with hfn := { cfgAt := up.time + 1 } }).cfgTakes = false)
    ∧ ((ring 0 0 []).hfn.reads = [] ∧ (ring 0 0 []).hfn.quar = [] ∧ (ring 0 0 []).hfnTakes = true ∧ (ring 0 1 []).cfgTakes = true)
    ∧ (∀ reads ∈ [[], [read5 false]], let s := { up with hfn := { arrived := [(0, 1)], tail := 1, reads } };
        s.hfn.head ≠ s.hfn.tail ∧ s.hfn.reads = reads ∧ s.hfn.inReset = false ∧ (∃ r ∈ s.hfn.arrived, r.1 = s.hfn.head) ∧ s.hfn.cause = 0 ∧ s.hfn.aborted = false ∧ s.pwr.state = 0
        ∧ s.hfn.bar0Ok = true ∧ 0x1840000 ≤ descOff 0x0401840000 ∧ descOff 0x0401840000 < 0x2000000)
    ∧ up.hfn.quar.any (fun q => q.1 == 5) = false ∧ up.hfn.fetches = false
    ∧ (∀ r ∈ up.hfn.arrived, r.1 ≠ up.hfn.head) ∧ (∃ r ∈ ({ up with hfn := { arrived := [(0, 1)] } }).hfn.arrived, r.1 = 0)
    ∧ descBad 0 = true ∧ descBad 0x0401840000 = false ∧ descOff 0x0401840000 = 0x1840000 ∧ descBad 0x0400060000 = true
    ∧ (up.hfn.reads.find? (fun r => r.tag == 5) = none ∧ ({ up with hfn := { quar := [(5, 0)] } }).hfn.quar.any (fun q => q.1 == 5) = true)
    ∧ ((ring 0 1 [read5 false]).hfn.reads.find? (fun r => r.tag == 5) = some (read5 false) ∧ (read5 false).drop = false
        ∧ (ring 0 1 [read5 false]).hfn.cause = 0)
    ∧ (read5 true).drop = true ∧ ({ ring 0 1 [read5 false] with time := 49999 }).time < (read5 false).sentAt + (ring 0 1 []).hfn.timeout
    ∧ (read5 false).sentAt + (ring 0 1 []).hfn.timeout ≤ ({ ring 0 1 [read5 false] with time := 50000 }).time
    ∧ ({ up with hfn := { inReset := true } }).hfn.inReset = true ∧ up.hfn.bme = false
    ∧ ((ring 0 1 []).hfn.bme = true ∧ (ring 0 1 []).hfn.cmdEn = true ∧ (ring 0 1 []).hfn.head ≠ (ring 0 1 []).hfn.tail)
    ∧ (ring 1 1 []).hfn.head = (ring 1 1 []).hfn.tail ∧ up.hfn.cmdEn = false := by
  decide +kernel

theorem witness_host_forms :
    ((ring 1 1 [read5 false]).hfn.reads ≠ [] ∧ (ring 1 1 [read5 false]).hfn.cause = 0 ∧ (ring 1 1 []).hfn.arrived = [])
    ∧ (let s := { up with hfn := { d3hot := true } }; s.hfnTakes = false ∧ s.hfn.waits = [] ∧ s.rst.released = true ∧ s.rst.phase ≠ 0
        ∧ s.hfn.inReset = false ∧ s.hfn.d3hot = true)
    ∧ (State.reset.hfnTakes = false ∧ State.reset.rst.released = false ∧ State.reset.cfgTakes = false ∧ waitingHost.hfn.waits ≠ [])
    ∧ (let s := { up with hfn := { cfgAt := up.time + 1 } }; s.cfgTakes = false ∧ s.hfn.waits = [] ∧ s.rst.released = true ∧ s.hfn.inReset = false)
    ∧ ((ring 0 0 []).hfn.fetch - (ring 0 0 []).hfn.head).toNat < ((0x10 : BitVec 32).extractLsb' 0 16 - (ring 0 0 []).hfn.head).toNat
    ∧ (let s := { up with hfn := { cause := 1, reads := [read5 true] } }; s.hfn.cause ≠ 0 ∧ s.hfn.aborted = false ∧ s.hfn.arrived = []
        ∧ s.hfn.reads.filter (fun q => q.tag != 5) = [])
    ∧ ({ up with hfn := { reads := [read5 false] } }).hfn.fetches = false ∧ (read5 false).got = 0 ∧ 0 < (read5 false).n
    ∧ (0 < 15 ∧ (read5 false).got + 15 < 16 * (read5 false).n ∧ ({ read5 false with n := 2, got := 15 }.got + 1) / 16 = 1) := by
  decide +kernel

theorem witness_register_accesses :
    (State.reset.hfnTakes = false ∧ State.reset.stewardRuns = false ∧ State.reset.hfn.waits = [] ∧ waitingHost.hfn.waits ≠ [])
    ∧ (up.stewardRuns = true ∧ Bar.bar2 ≠ .bar0 ∧ Bar.bar2 ≠ .config ∧ up.hfn.waits = [])
    ∧ ((4 : Word).getLsbD 2 = true ∧ (0 : Word).getLsbD 2 = false)
    ∧ (up.hfnTakes = true ∧ up.hfn.bar0Ok = true ∧ up.pwr.state = 0)
    ∧ bar0Shape 2 4 = false ∧ bar0Shape 0 4 = true ∧ bar2Shape 0 8 (bar2Loc 0) = false
    ∧ (∀ off ∈ [2, 0x70002], bar0Shape off 4 = false ∧ bar0Awake off = false) ∧ bar2Awake (bar2Loc 0x100000) = true
    ∧ (let s := { inState 1 with hfn := { bar0Ok := false } }; s.hfn.bar0Ok = false ∧ bar0Open 0x50000 = false ∧ s.pwr.state ≠ 0
        ∧ bar0Awake 0x50000 = false ∧ bar0Shape 0x50000 4 = true)
    ∧ (let s := { up with hfn := { d3hot := true } }; s.hfnTakes = false ∧ s.hfn.inReset = false ∧ s.hfn.d3hot = true ∧ Bar.bar2 ≠ .config)
    ∧ (bar0Open 0x50000 = false ∧ bar0Open 0x60000 = true ∧ bar0Awake 0x80000 = true ∧ bar0Awake 0x70000 = false)
    ∧ ({ up with hfn := { bar0Ok := false } }).hfn.bar0Ok = false ∧ (inState 1).pwr.state ≠ 0
    ∧ (bar0Shape 0x1840000 8 = true ∧ bar0Shape 0x2800000 8 = true)
    ∧ (0x3F0A : Word) &&& 0xFFFFC000 = 0 ∧ up.hfn.inReset = false
    ∧ (({ up with hfnCopy := { smap := [(127, { phys := 0, hold := true })] } }).hfnCopy.entry (127 : Fin 128)).hold = true := by
  decide +kernel
theorem witness_start_order : keyed.startOk ∧ ∃ t, step { keyed with pending := [.timeBaseTick] } = .next t := by
  refine ⟨⟨by decide, by decide, by decide, by decide, by decide, fun k h => ?_⟩, _, rfl⟩
  cases h
  rfl

theorem witness_session_bounds : keyed.sessionsOk ∧ ∃ t, step { keyed with pending := [.timeBaseTick] } = .next t := by
  refine ⟨⟨by unfold Session.ok; decide, fun o => ?_, by decide⟩, _, rfl⟩
  exact Nat.le_trans (List.length_filter_le _ _) (by decide)

theorem witness_commands : startUpCommand (.timeBaseTick) = false ∧ ∃ t, exec .timeBaseTick up = .next t := ⟨rfl, _, rfl⟩

theorem witness_slice_commands : sliceCommand (.readOwn 1 req0) = true ∧ ∃ t, exec (.readOwn 1 req0) fresh = .next t := ⟨rfl, _, rfl⟩

theorem witness_idle_queue : State.reset.pending = [] := rfl

end Sys2Proof.Tests
end

section
/-! SUPPORT. One step of the block, the FCLK that passes on an empty queue, and the reset state (R1, R91, R395). -/

namespace Sys2Proof.Machine

open Sys2Proof

/-! What the credits of an FCLK change -/

/-- The state without its slices, its performance counters and the count of FCLK cycles. -/
def State.outsideSlices (s : State) : State := { s with slices := [], pmc := {}, fclk := 0 }

theorem eq_of_outsideSlices_eq {s t : State} (h : t.outsideSlices = s.outsideSlices) :
    { t with slices := s.slices, pmc := s.pmc, fclk := s.fclk } = s :=
  congrArg (fun x : State => { x with slices := s.slices, pmc := s.pmc, fclk := s.fclk }) h

theorem slice_count_ne (s : State) {p q : Nat} (c : Cnt) (h : q ≠ p) : (s.count q c).slice p = s.slice p := by
  unfold State.count
  split <;> simp [h]

theorem outsideSlices_count (s : State) (p : Nat) (c : Cnt) : (s.count p c).outsideSlices = s.outsideSlices := by
  unfold State.count
  split <;> rfl

/-- A grant is made to the first of the waiting requests; without one, or with an empty pool, nothing changes (R91). -/
theorem outsideSlices_grantOne (s : State) (p : Nat) : (s.grantOne p).outsideSlices = s.outsideSlices := by
  unfold State.grantOne
  dsimp only
  split
  · rfl
  · split <;> rfl

theorem slice_emit_ne (s : State) {p q : Nat} (m : Msg) (h : q ≠ p) : (s.emit q m).slice p = s.slice p := by
  simp [State.emit, h]

theorem slice_grantOne_ne (s : State) {p q : Nat} (h : q ≠ p) : (s.grantOne q).slice p = s.slice p := by
  unfold State.grantOne
  dsimp only
  split
  · rfl
  · split
    · rfl
    · rw [slice_emit_ne _ _ h]; simp [h]

theorem outsideSlices_creditCycle (s : State) (p : Nat) : (s.creditCycle p).outsideSlices = s.outsideSlices :=
  calc (s.creditCycle p).outsideSlices
      = (s.grants p).outsideSlices := foldl_keeps State.outsideSlices _ (fun t _ => outsideSlices_count t p _) _ _
    _ = s.outsideSlices := foldl_keeps State.outsideSlices _ (fun t _ => outsideSlices_grantOne t p) _ _

theorem slice_creditCycle_ne (s : State) {p q : Nat} (h : q ≠ p) : (s.creditCycle q).slice p = s.slice p := by
  have granted : (s.grants q).slice p = s.slice p :=
    foldl_keeps (·.slice p) _ (fun t _ => slice_grantOne_ne t h) _ _
  have counted := foldl_keeps (·.slice p) (fun (t : State) (_ : Crq) => t.count q .crqWait)
    (fun t _ => slice_count_ne t _ h) (((s.grants q).slice q).crq.filter (·.fresh)) (s.grants q)
  simp only [State.creditCycle, slice_modSlice, h, if_false]
  exact counted.trans granted

/-- A slice without a waiting credit request grants and counts nothing (R91). -/
theorem slice_creditCycle_idle (s : State) (p : Nat) (h : (s.slice p).crq = []) : (s.creditCycle p).slice p = s.slice p := by
  have hg : s.grants p = s := by simp [State.grants, h]
  simp only [State.creditCycle, hg, h, List.filter_nil, List.foldl_nil, slice_modSlice, if_true, List.map_nil]
  rw [← h]

theorem slice_creditCycles (s : State) (p : Nat) (h : (s.slice p).crq = []) :
    s.creditCycles.slice p = s.slice p := by
  refine foldl_inv (fun t => t.slice p = s.slice p) _ (fun t e ht => ?_) _ _ rfl
  split
  · exact ht
  · by_cases hp : e.1 = p
    · subst hp
      exact (slice_creditCycle_idle t _ (by rw [ht, h])).trans ht
    · exact (slice_creditCycle_ne t hp).trans ht

theorem outsideSlices_creditCycles (s : State) : s.creditCycles.outsideSlices = s.outsideSlices := by
  refine foldl_keeps State.outsideSlices _ (fun t e => ?_) _ _
  split
  · rfl
  · exact outsideSlices_creditCycle t e.1

theorem slice_pmcTick (s : State) (p : Nat) : s.pmcTick.slice p = s.slice p := by
  unfold State.pmcTick
  split <;> rfl

theorem outsideSlices_pmcTick (s : State) : s.pmcTick.outsideSlices = s.outsideSlices := by
  unfold State.pmcTick
  split <;> rfl

theorem idleCycle_of_stopped (s : State) (h : s.fclkRuns = false) : s.idleCycle = s := by
  simp [State.idleCycle, h]

theorem idleCycle_of_running (s : State) (h : s.fclkRuns = true) :
    s.idleCycle = { s.creditCycles.pmcTick with fclk := s.fclk + 1 } := by
  simp [State.idleCycle, h]

theorem slice_idleCycle (s : State) (p : Nat) (h : (s.slice p).crq = []) : s.idleCycle.slice p = s.slice p := by
  cases hr : s.fclkRuns with
  | false => rw [idleCycle_of_stopped s hr]
  | true =>
    rw [idleCycle_of_running s hr]
    exact (slice_pmcTick s.creditCycles p).trans (slice_creditCycles s p h)

theorem outsideSlices_idleCycle (s : State) : s.idleCycle.outsideSlices = s.outsideSlices := by
  cases hr : s.fclkRuns with
  | false => rw [idleCycle_of_stopped s hr]
  | true =>
    rw [idleCycle_of_running s hr]
    exact (outsideSlices_pmcTick s.creditCycles).trans (outsideSlices_creditCycles s)

theorem step_of_empty_queue (s : State) (h : s.pending = []) : step s = .next s.idleCycle := by
  simp [step, h]

/-- Settles O54: `step` reads the queue alone, and an idle FCLK changes what its grants and its counters change. -/
theorem stepTakesTheFrontCommand : Obligations.StepTakesTheFrontCommand := by
  unfold Obligations.StepTakesTheFrontCommand
  refine ⟨fun c rest s => rfl, fun s hs => ⟨s.idleCycle, step_of_empty_queue s hs, idleCycle_of_stopped s, ?_, ?_, ?_⟩⟩
  · intro hr
    rw [idleCycle_of_running s hr]
  · exact fun p hp => slice_idleCycle s p hp
  · exact eq_of_outsideSlices_eq (outsideSlices_idleCycle s)

/-! The reset state (R395) -/

theorem startOk_reset : State.reset.startOk := by
  refine ⟨by decide, ?_, ?_, ?_, fun _ => rfl, ?_⟩
  · intro h; cases h
  · intro h; cases h
  · decide
  · intro k h; cases h

theorem sessionsOk_reset : State.reset.sessionsOk :=
  ⟨fun _ hx => absurd hx List.not_mem_nil, fun _ => Nat.zero_le _, Nat.zero_le _⟩

/-- Every slice-map copy names the reset slices, with no HOLD (R28, R29). -/
theorem entry_copy_reset (c l : Nat) : (State.reset.copy c).entry l = { phys := resetMap l, hold := false } := by
  unfold State.copy
  split
  · rfl
  · split <;> rfl

/-- Settles O55: each register of the reset state reads its default, since no table lists an entry. -/
theorem resetLeavesTheBlockUnderReset : Obligations.ResetLeavesTheBlockUnderReset := by
  refine ⟨rfl, rfl, rfl, rfl, rfl, rfl, rfl, rfl, rfl, rfl, rfl, rfl, rfl, rfl, rfl, rfl, rfl, entry_copy_reset, ?_,
    fun _ => rfl, fun _ => rfl, startOk_reset, sessionsOk_reset⟩
  intro n
  have unwritten : State.reset.src n = {} := rfl
  rw [unwritten]
  decide

end Sys2Proof.Machine
end

section
/-! SUPPORT. Service requests to a slice (R68, R73, R109, R373) and the broadcasts of the steward port relay (R274, R275). -/

namespace Sys2Proof.Machine

open Sys2Proof

/-! Taking and sending messages (R9, R109) -/

/-- Taking a message changes only where the slice's messages stand. -/
theorem slice_takeMsg (s : State) (p : Nat) (m : Msg) : (s.takeMsg p m).slice p = { s.slice p with
    stop := ((s.takeMsg p m).slice p).stop, alt := ((s.takeMsg p m).slice p).alt
    overRing := ((s.takeMsg p m).slice p).overRing, local_ := ((s.takeMsg p m).slice p).local_ } := by
  simp only [State.takeMsg, slice_modSlice, if_true]
  split
  · rfl
  · split
    · rfl
    · split <;> rfl

@[simp] theorem glb_takeMsg (s : State) (p : Nat) (m : Msg) : (s.takeMsg p m).glb = s.glb := rfl
@[simp] theorem lslice_takeMsg (s : State) (p : Nat) (m : Msg) :
    ((s.takeMsg p m).slice p).lslice = (s.slice p).lslice := by rw [slice_takeMsg]
@[simp] theorem active_takeMsg (s : State) (p : Nat) (m : Msg) :
    ((s.takeMsg p m).slice p).active = (s.slice p).active := by rw [slice_takeMsg]
@[simp] theorem trks_takeMsg (s : State) (p : Nat) (m : Msg) :
    ((s.takeMsg p m).slice p).trks = (s.slice p).trks := by rw [slice_takeMsg]
@[simp] theorem sfl_takeMsg (s : State) (p : Nat) (m : Msg) :
    ((s.takeMsg p m).slice p).sfl = (s.slice p).sfl := by rw [slice_takeMsg]
@[simp] theorem hlc_takeMsg (s : State) (p : Nat) (m : Msg) :
    ((s.takeMsg p m).slice p).hlc = (s.slice p).hlc := by rw [slice_takeMsg]
@[simp] theorem logicalReg_takeMsg (s : State) (p : Nat) (m : Msg) :
    ((s.takeMsg p m).slice p).logicalReg = (s.slice p).logicalReg := by simp [Slice.logicalReg]

/-- Sending a message changes only the slice's stop and what stands between it and its own engine and probe (R9). -/
theorem slice_emit (s : State) (p : Nat) (m : Msg) : (s.emit p m).slice p = { s.slice p with
    stop := ((s.emit p m).slice p).stop, local_ := ((s.emit p m).slice p).local_ } := by
  simp only [State.emit, slice_modSlice, if_true]
  split <;> rfl

theorem slice_emit_congr {s t : State} {p : Nat} (h : s.slice p = t.slice p) (m : Msg) :
    (s.emit p m).slice p = (t.emit p m).slice p := by
  simp [State.emit, h]

/-- The state without its slices and its engines. -/
def State.besidesEngines (s : State) : State := { s with slices := [], engines := [] }

theorem eq_of_besidesEngines_eq {s t : State} (h : t.besidesEngines = s.besidesEngines) :
    { t with slices := s.slices, engines := s.engines } = s :=
  congrArg (fun x : State => { x with slices := s.slices, engines := s.engines }) h

@[simp] theorem besidesEngines_modEng (s : State) (e : Nat) (f : Eng → Eng) :
    (s.modEng e f).besidesEngines = s.besidesEngines := rfl
@[simp] theorem besidesEngines_modSlice (s : State) (p : Nat) (f : Slice → Slice) :
    (s.modSlice p f).besidesEngines = s.besidesEngines := rfl
@[simp] theorem besidesEngines_takeMsg (s : State) (p : Nat) (m : Msg) :
    (s.takeMsg p m).besidesEngines = s.besidesEngines := rfl
@[simp] theorem besidesEngines_emit (s : State) (p : Nat) (m : Msg) :
    (s.emit p m).besidesEngines = s.besidesEngines := rfl

/-- The state without its slices. -/
def State.besidesSlices (s : State) : State := { s with slices := [] }

theorem eq_of_besidesSlices_eq {s t : State} (h : t.besidesSlices = s.besidesSlices) :
    { t with slices := s.slices } = s :=
  congrArg (fun x : State => { x with slices := s.slices }) h

@[simp] theorem besidesSlices_modSlice (s : State) (p : Nat) (f : Slice → Slice) :
    (s.modSlice p f).besidesSlices = s.besidesSlices := rfl
@[simp] theorem besidesSlices_takeMsg (s : State) (p : Nat) (m : Msg) : (s.takeMsg p m).besidesSlices = s.besidesSlices := rfl
@[simp] theorem besidesSlices_emit (s : State) (p : Nat) (m : Msg) : (s.emit p m).besidesSlices = s.besidesSlices := rfl

/-! Service requests -/

theorem exec_svcReqRegisterRead (p : Fin 132) (m : Msg) (s : State) :
    exec (.svcReqRegisterRead p m) s = execSvcReqRegisterRead p m s := rfl
theorem exec_svcReqRegisterWrite (p : Fin 132) (m : Msg) (s : State) :
    exec (.svcReqRegisterWrite p m) s = execSvcReqRegisterWrite p m s := rfl
theorem exec_svcReqDirectoryCopy (p : Fin 132) (m : Msg) (s : State) :
    exec (.svcReqDirectoryCopy p m) s = execSvcReqDirectoryCopy p m s := rfl
theorem exec_svcReqLineCopy (p : Fin 132) (m : Msg) (s : State) :
    exec (.svcReqLineCopy p m) s = execSvcReqLineCopy p m s := rfl

@[simp] theorem aop_asOpc (m : Msg) (opc : Nat) : (asOpc m opc).aop = m.aop := rfl
@[simp] theorem addr_asOpc (m : Msg) (opc : Nat) : (asOpc m opc).addr = m.addr := rfl
@[simp] theorem poison_asOpc (m : Msg) (opc : Nat) : (asOpc m opc).poison = m.poison := rfl
@[simp] theorem data_asOpc (m : Msg) (opc : Nat) : (asOpc m opc).data = m.data := rfl

theorem slice_svcRsp (s : State) (p : Nat) (q : Msg) (stat : BitVec 4) (len : Nat) (d : LineData) :
    (s.svcRsp p q stat len d).slice p = { s.slice p with
      stop := ((s.svcRsp p q stat len d).slice p).stop, local_ := ((s.svcRsp p q stat len d).slice p).local_ } :=
  slice_emit s p _

theorem svcReq_of_waiting (s : State) (p : Nat) (m : Msg) (go : State → Msg → State)
    (h : (s.slice p).mayTake p (asOpc m 0x1B) = false) : s.svcReq p m go = s := by
  simp [State.svcReq, State.taking, h]

theorem svcReq_of_invalid (s : State) (p : Nat) (m : Msg) (go : State → Msg → State)
    (h : (s.slice p).mayTake p (asOpc m 0x1B) = true) (ha : 3 < m.aop.toNat) :
    s.svcReq p m go = (s.takeMsg p (asOpc m 0x1B)).svcRsp p (asOpc m 0x1B) 7 0 0 := by
  simp [State.svcReq, State.taking, h, ha]

theorem svcReq_of_valid (s : State) (p : Nat) (m : Msg) (go : State → Msg → State)
    (h : (s.slice p).mayTake p (asOpc m 0x1B) = true) (ha : m.aop.toNat ≤ 3) :
    s.svcReq p m go = go (s.takeMsg p (asOpc m 0x1B)) (asOpc m 0x1B) := by
  simp [State.svcReq, State.taking, h, Nat.not_lt.mpr ha]

/-- The four rows of `SvcReq` differ in what they do with a request that is taken and valid. -/
theorem exec_svcReq_row (p : Fin 132) (m : Msg) (s : State) :
    ∀ e ∈ ([.svcReqRegisterRead, .svcReqRegisterWrite, .svcReqDirectoryCopy, .svcReqLineCopy] :
      List (Fin 132 → Msg → Instr)), ∃ go, exec (e p m) s = .next (s.svcReq p m go) := by
  simp only [List.forall_mem_cons]
  exact ⟨⟨_, rfl⟩, ⟨_, rfl⟩, ⟨_, rfl⟩, ⟨_, rfl⟩, fun _ h => absurd h List.not_mem_nil⟩

/-- A 64-bit value below 2^32 is its own low half. -/
theorem and_low_half (v : Word) (h : v.toNat < 2 ^ 32) : v &&& 0xFFFFFFFF = v := by
  apply BitVec.eq_of_toNat_eq
  rw [BitVec.toNat_and]
  exact (Nat.and_two_pow_sub_one_eq_mod v.toNat 32).trans (Nat.mod_eq_of_lt h)

theorem logicalReg_toNat (x : Slice) : x.logicalReg.toNat < 2 ^ 32 := by
  have := x.lslice.isLt
  simp only [Slice.logicalReg, BitVec.toNat_ofNat]
  split <;> omega

/-- Register 0 of the slice window is `SLC_LOGICAL`, which has no read-clear field (Table 2.7). -/
theorem sliceRead_logical (s : State) (p size : Nat) :
    s.sliceRead p 0 size = (s, some (s.slice p).logicalReg) := by
  have image : s.sliceImage p (0 / 8 * 8) = some (false, (s.slice p).logicalReg.toNat) := by simp [State.sliceImage]
  simp only [State.sliceRead, image, BitVec.ofNat_toNat, BitVec.setWidth_eq]
  refine Prod.ext rfl (congrArg some ?_)
  unfold slotOut
  split
  · rfl
  · exact and_low_half _ (logicalReg_toNat _)

theorem exec_svcReqRegisterRead_logical (p : Fin 132) (m : Msg) (s : State)
    (h : (s.slice p).mayTake p (asOpc m 0x1B) = true) (ha : m.aop.toNat ≤ 3) (h0 : m.addr = 0) :
    exec (.svcReqRegisterRead p m) s = .next ((s.takeMsg p (asOpc m 0x1B)).svcRsp p (asOpc m 0x1B) 0
      (svcSize (asOpc m 0x1B)) ((s.slice p).logicalReg.setWidth 512)) := by
  have place : 8 * m.addr.toNat = 0 := by rw [h0]; rfl
  simp only [exec_svcReqRegisterRead, execSvcReqRegisterRead, svcReq_of_valid s p m _ h ha, addr_asOpc, place, sliceRead_logical,
    logicalReg_takeMsg, Option.getD_some]

/-- A register write at a place that a service request alone reaches (R30, R373). -/
theorem exec_svcReqRegisterWrite_of_svcStore (p : Fin 132) (m : Msg) (s : State)
    (h : (s.slice p).mayTake p (asOpc m 0x1B) = true) (ha : m.aop.toNat ≤ 3) {u : State}
    (hu : (s.takeMsg p (asOpc m 0x1B)).svcStore p (8 * m.addr.toNat) (m.data.extractLsb' 0 64) = some u) :
    exec (.svcReqRegisterWrite p m) s = .next (u.svcRsp p (asOpc m 0x1B) 0 0 0) := by
  simp only [exec_svcReqRegisterWrite, execSvcReqRegisterWrite, svcReq_of_valid s p m _ h ha, addr_asOpc, data_asOpc, hu]

theorem extractLsb'_extractLsb'_zero {w : Nat} (d : BitVec w) (n i l : Nat) (h : i + l ≤ n) :
    (d.extractLsb' 0 n).extractLsb' i l = d.extractLsb' i l := by
  apply BitVec.eq_of_getLsbD_eq
  intro j hj
  simp only [BitVec.getLsbD_extractLsb', Nat.zero_add, hj, decide_true, Bool.true_and]
  rw [decide_eq_true (by omega), Bool.true_and]

theorem getLsbD_low_ones (n i : Nat) : (BitVec.ofNat 64 (2 ^ n - 1)).getLsbD i = (decide (i < 64) && decide (i < n)) := by
  simp [BitVec.getLsbD_ofNat, Nat.testBit_two_pow_sub_one]

/-- The reserved bits of `SLC_LOGICAL` are bits 31:8 (R6, Table 2.7). -/
theorem reserved_logical (d : LineData) :
    (d.extractLsb' 0 64 &&& 0xFFFFFFFF &&& ~~~(sliceDefined 0) : Word) = (d.extractLsb' 8 24).setWidth 64 <<< 8 := by
  have low32 : ∀ i, (0xFFFFFFFF : Word).getLsbD i = (decide (i < 64) && decide (i < 32)) := getLsbD_low_ones 32
  have low8 : ∀ i, (sliceDefined 0).getLsbD i = (decide (i < 64) && decide (i < 8)) := getLsbD_low_ones 8
  apply BitVec.eq_of_getLsbD_eq
  intro i hi
  simp only [BitVec.getLsbD_and, BitVec.getLsbD_not, low32, low8, BitVec.getLsbD_extractLsb', BitVec.getLsbD_shiftLeft,
    BitVec.getLsbD_setWidth, Nat.zero_add, hi, decide_true, Bool.true_and]
  by_cases h8 : i < 8
  · simp [h8]
  · have : 8 + (i - 8) = i := by omega
    by_cases h32 : i < 32
    · simp [h8, h32, this, show i - 8 < 24 by omega, show i - 8 < 64 by omega]
    · simp [h8, h32, show ¬ i - 8 < 24 by omega]

theorem svcStore_logical (s : State) (p : Nat) (d : LineData) :
    s.svcStore p 0 (d.extractLsb' 0 64) = some ((s.noteRsvd (d.extractLsb' 8 24 != 0)).modSlice p fun x =>
      { x with lslice := d.extractLsb' 0 7, active := d.getLsbD 7 }) := by
  have reserved : ((d.extractLsb' 0 64 &&& 0xFFFFFFFF &&& ~~~(sliceDefined 0) : Word) != 0) = (d.extractLsb' 8 24 != 0) := by
    rw [reserved_logical, Bool.eq_iff_iff, bne_iff_ne, bne_iff_ne, not_iff_not]
    bv_omega
  have active : (d.extractLsb' 0 64 : Word).getLsbD 7 = d.getLsbD 7 := by simp
  simp only [State.svcStore, reserved, extractLsb'_extractLsb'_zero d 64 0 7 (by omega), active, if_true]

theorem svcStore_holder (s : State) (p : Nat) (v : Word) {h : Nat} (hh : h < 80) :
    s.svcStore p (0x400 + 8 * h) v
      = some ((s.noteRsvd ((v &&& 0xFFFFFFFF &&& ~~~(sliceDefined (0x400 + 8 * h))) != 0)).modSlice p fun x =>
          { x with g := x.g.set zeroNat h (v.extractLsb' 2 4).toNat }) := by
  have place : (0x400 + 8 * h - 0x400) / 8 = h := by omega
  rw [State.svcStore, if_neg (by omega), if_pos (by omega), place]

@[simp] theorem slice_noteRsvd (s : State) (b : Bool) (p : Nat) : (s.noteRsvd b).slice p = s.slice p := by
  cases b <;> rfl

theorem noteRsvd_frame (s : State) (b : Bool) :
    { (s.noteRsvd b).besidesSlices with glb := {} } = { s.besidesSlices with glb := {} } := by
  cases b <;> rfl

theorem svcStore_frame (s : State) (p : Nat) (b : Bool) (f : Slice → Slice) (m q : Msg) (stat : BitVec 4) (len : Nat)
    (d : LineData) : { (((s.takeMsg p m).noteRsvd b).modSlice p f).svcRsp p q stat len d with
      slices := s.slices, glb := s.glb } = s := by
  have stored : ((((s.takeMsg p m).noteRsvd b).modSlice p f).svcRsp p q stat len d).besidesSlices
      = ((s.takeMsg p m).noteRsvd b).besidesSlices := by simp [State.svcRsp]
  have frame := (congrArg (fun x : State => { x with glb := {} }) stored).trans (noteRsvd_frame (s.takeMsg p m) b)
  exact congrArg (fun x : State => { x with slices := s.slices, glb := s.glb }) frame

/-- A copied entry goes into the snoop filter by what stands there alone. -/
theorem sfl_setEnt_congr {x y : Slice} (h : x.sfl = y.sfl) (pos : Nat) (e : SfEnt) :
    (x.setEnt pos e).sfl = (y.setEnt pos e).sfl := by
  have block : x.sfBlock (pos / 8) = y.sfBlock (pos / 8) := congrArg (fun f : Sfl => f.blocks.get SfBlock.dflt (pos / 8)) h
  unfold Slice.setEnt
  rw [block]
  dsimp only [Slice.setBlock]
  rw [h]
  split <;> rfl

theorem sfl_putEntries_congr {x y : Slice} (h : x.sfl = y.sfl) (agents : BitVec 64) (key half : Nat) (d : LineData) :
    (x.putEntries agents key half d).sfl = (y.putEntries agents key half d).sfl := by
  unfold Slice.putEntries
  generalize List.range 4 = l
  induction l generalizing x y with
  | nil => exact h
  | cons i l ih => exact ih (sfl_setEnt_congr h _ _)

@[simp] theorem hlc_setEnt (x : Slice) (pos : Nat) (e : SfEnt) : (x.setEnt pos e).hlc = x.hlc := by
  unfold Slice.setEnt
  dsimp only
  split <;> rfl

@[simp] theorem hlc_putEntries (x : Slice) (agents : BitVec 64) (key half : Nat) (d : LineData) :
    (x.putEntries agents key half d).hlc = x.hlc := by
  unfold Slice.putEntries
  generalize List.range 4 = l
  induction l generalizing x with
  | nil => rfl
  | cons i l ih => exact (ih _).trans (hlc_setEnt _ _ _)

/-- A copied line goes into the cache by the cache and the slice's number alone. -/
theorem hlc_putLine_congr {s t : State} {p : Nat} (hh : (s.slice p).hlc = (t.slice p).hlc)
    (hl : (s.slice p).lslice = (t.slice p).lslice) (pos : Nat) (tag : BitVec 31) (data : LineData) (poison : BitVec 8)
    (dirty : Bool) :
    ((s.putLine p pos tag data poison dirty).slice p).hlc = ((t.putLine p pos tag data poison dirty).slice p).hlc := by
  simp only [State.putLine, State.modHlc, hh, hl]
  split
  · simp [Slice.modHlc, hh]
  · split
    · simp [Slice.modHlc, hh]
    · exact hh

theorem sfl_putLine (s : State) (p pos : Nat) (tag : BitVec 31) (data : LineData) (poison : BitVec 8) (dirty : Bool) :
    ((s.putLine p pos tag data poison dirty).slice p).sfl = (s.slice p).sfl := by
  simp only [State.putLine, State.modHlc]
  split
  · simp [Slice.modHlc]
  · split
    · simp [Slice.modHlc]
    · rfl

@[simp] theorem besidesSlices_putLine (s : State) (p pos : Nat) (tag : BitVec 31) (data : LineData) (poison : BitVec 8)
    (dirty : Bool) : (s.putLine p pos tag data poison dirty).besidesSlices = s.besidesSlices := by
  simp only [State.putLine, State.modHlc]
  split
  · rfl
  · split <;> rfl

/-! Broadcasts of the steward port relay -/

/-- What taking a message at a port changes: its ejection queues and counters. -/
theorem portTake_eq (s : State) (n : Nat) (m : Msg) :
    s.portTake n m = { s with ports := (s.portTake n m).ports, pmc := (s.portTake n m).pmc } := by
  unfold State.portTake
  split <;> rfl

theorem outbox_pull {x y : StopSt} {m : Msg} {e : Ejected} (h : x.pull m = some (e, y)) : y.outbox = x.outbox := by
  unfold StopSt.pull at h
  split at h
  · obtain ⟨_, _, h⟩ := Option.map_eq_some_iff.mp h
    cases h
    rfl
  · cases h

theorem outbox_portTake (s : State) (n : Nat) (m : Msg) :
    ((s.portTake n m).port n).stop.outbox = (s.port n).stop.outbox := by
  unfold State.portTake
  split
  · rename_i h
    simpa using outbox_pull h
  · rfl

theorem portTake_frame (s : State) (n : Nat) (m : Msg) : { s.portTake n m with ports := s.ports, pmc := s.pmc } = s := by
  rw [portTake_eq]

@[simp] theorem stw_portTake (s : State) (n : Nat) (m : Msg) : (s.portTake n m).stw = s.stw := by rw [portTake_eq]
@[simp] theorem glb_portTake (s : State) (n : Nat) (m : Msg) : (s.portTake n m).glb = s.glb := by rw [portTake_eq]
@[simp] theorem time_portTake (s : State) (n : Nat) (m : Msg) : (s.portTake n m).time = s.time := by rw [portTake_eq]
@[simp] theorem eng_portTake (s : State) (n : Nat) (m : Msg) (e : Nat) : (s.portTake n m).eng e = s.eng e := by
  rw [portTake_eq]; rfl

/-- The state without what the steward port relay works on: ports, the steward and performance counters. -/
def State.besidesRelay (s : State) : State := { s with ports := [], stw := {}, pmc := {} }

theorem eq_of_besidesRelay_eq {s t : State} (h : t.besidesRelay = s.besidesRelay) :
    { t with ports := s.ports, stw := s.stw, pmc := s.pmc } = s :=
  congrArg (fun x : State => { x with ports := s.ports, stw := s.stw, pmc := s.pmc }) h

@[simp] theorem besidesRelay_portTake (s : State) (n : Nat) (m : Msg) : (s.portTake n m).besidesRelay = s.besidesRelay := by
  rw [portTake_eq]
  rfl
@[simp] theorem besidesRelay_modStw (s : State) (f : Steward → Steward) : (s.modStw f).besidesRelay = s.besidesRelay := rfl
@[simp] theorem besidesRelay_portEvent (s : State) (n c a : Nat) : (s.portEvent n c a).besidesRelay = s.besidesRelay := rfl
@[simp] theorem besidesRelay_modPort (s : State) (n : Nat) (f : Port → Port) : (s.modPort n f).besidesRelay = s.besidesRelay := rfl
@[simp] theorem besidesRelay_tlbDone (s : State) (dst : BitVec 10) (txn : BitVec 12) (stat : BitVec 4) :
    (s.tlbDone dst txn stat).besidesRelay = s.besidesRelay :=
  (besidesRelay_modPort _ _ _).trans (besidesRelay_portEvent _ _ _ _)

@[simp] theorem stw_modStw (s : State) (f : Steward → Steward) : (s.modStw f).stw = f s.stw := rfl
@[simp] theorem stw_tlbDone (s : State) (dst : BitVec 10) (txn : BitVec 12) (stat : BitVec 4) :
    (s.tlbDone dst txn stat).stw = s.stw := rfl

theorem outbox_tlbDone (s : State) (dst : BitVec 10) (txn : BitVec 12) (stat : BitVec 4) :
    ((s.tlbDone dst txn stat).port 48).stop.outbox
      = (s.port 48).stop.outbox ++ [flitOf { mkMsg 0x33 1020 dst with txn, stat } 0] := by
  simp [State.tlbDone, State.sendNode]

/-- A size that R74 does not allow, of a caching agent that does not name all addresses. -/
def tlbSizeBad (m : Msg) : Bool := isCA m.src.toNat && !tlbAll m && (decide (tlbSize m < 12) || decide (48 < tlbSize m))

theorem exec_tlbInv (m : Msg) (s : State) : exec (.tlbInv m) s = execTlbInv m s := rfl

theorem exec_tlbInv_bad (m : Msg) (s : State) (h : tlbSizeBad m = true) :
    exec (.tlbInv m) s = .next (((s.portTake 48 m).modStw fun x => { x with shootsBad := x.shootsBad + 1 }).tlbDone
      m.src m.txn 7) := by
  have bad := h
  unfold tlbSizeBad at bad
  simp only [exec_tlbInv, execTlbInv, bad, if_true]

theorem tlbInv_bad (m : Msg) (s : State) (h : tlbSizeBad m = true) : Ends (.tlbInv m) s fun t =>
    t.stw.shoots = s.stw.shoots ∧ t.stw.shootsBad = s.stw.shootsBad + 1
      ∧ (t.port 48).stop.outbox = (s.port 48).stop.outbox ++ [flitOf { mkMsg 0x33 1020 m.src with txn := m.txn, stat := 7 } 0]
      ∧ { t with ports := s.ports, stw := s.stw, pmc := s.pmc } = s := by
  have taken := stw_portTake s 48 m
  refine ends_next (exec_tlbInv_bad m s h) ⟨?_, ?_, ?_, ?_⟩
  · rw [stw_tlbDone, stw_modStw, taken]
  · rw [stw_tlbDone, stw_modStw, taken]
  · exact (outbox_tlbDone ..).trans (congrArg (· ++ _) (outbox_portTake s 48 m))
  · exact eq_of_besidesRelay_eq (by simp)

theorem tlbInv_full (m : Msg) (s : State) (h : tlbSizeBad m = false) (hf : 197 ≤ s.stw.shoots.length) :
    exec (.tlbInv m) s = .next (s.portTake 48 m) := by
  unfold tlbSizeBad at h
  simp [exec_tlbInv, execTlbInv, h, hf]

/-- The collection entry of a broadcast, and its `TlbShoot` on pair `q` (R74, R274). -/
def State.shootEnt (s : State) (m : Msg) : ShootEnt :=
  { idx := leastFree (s.stw.shoots.map (·.idx)), src := m.src, txn := m.txn, slices := 132
    agents := s.stw.shootMask &&& s.glb.agents, since := s.time }
def State.shootFlit (s : State) (m : Msg) (q : Nat) : Flit :=
  { flitOf { mkMsg 0x19 1020 1022 with
      htag := BitVec.ofNat 8 (s.shootEnt m).idx
      data := ((m.data.extractLsb' 64 80).setWidth 512 <<< 64) ||| (s.shootEnt m).agents.setWidth 512 } 0 with
    orig := BitVec.ofNat 7 q }

/-- A flit from the steward port. -/
def State.stwOut (s : State) (f : Flit) : State := (s.portEvent 48 0x01).modPort 48 fun x =>
  { x with stop := { x.stop with outbox := x.stop.outbox ++ [f] } }

theorem stw_stwOut (s : State) (f : Flit) : (s.stwOut f).stw = s.stw := rfl
theorem eng_stwOut (s : State) (f : Flit) (e : Nat) : (s.stwOut f).eng e = s.eng e := rfl
@[simp] theorem besidesRelay_stwOut (s : State) (f : Flit) : (s.stwOut f).besidesRelay = s.besidesRelay :=
  (besidesRelay_modPort _ _ _).trans (besidesRelay_portEvent _ _ _ _)
theorem outbox_stwOut (s : State) (f : Flit) : ((s.stwOut f).port 48).stop.outbox = (s.port 48).stop.outbox ++ [f] := by
  simp [State.stwOut]

/-- The `TlbShoot`s of broadcast `m` on the three pairs. -/
def State.shootFlits (s : State) (m : Msg) : List Flit := [s.shootFlit m 0, s.shootFlit m 1, s.shootFlit m 2]

/-- The broadcast `m` opened: its entry stands, one flit a pair is out, and the steward engines are invalidated. -/
def State.openShoot (s : State) (m : Msg) : State :=
  (((s.shootFlits m).foldl State.stwOut (s.modStw fun x => { x with shoots := x.shoots ++ [s.shootEnt m] })).modEng 132
    (·.invalidate m)).modEng 133 (·.invalidate m)

theorem exec_tlbInv_open (m : Msg) (s : State) (h : tlbSizeBad m = false) (hf : s.stw.shoots.length < 197) :
    exec (.tlbInv m) s = .next ((s.portTake 48 m).openShoot m) := by
  have room : ¬ 197 ≤ (s.portTake 48 m).stw.shoots.length := by rw [stw_portTake]; omega
  exact congrArg Host.Outcome.next ((if_neg (Bool.eq_false_iff.mp h)).trans (if_neg room))

theorem stw_openShoot (s : State) (m : Msg) :
    (s.openShoot m).stw = { s.stw with shoots := s.stw.shoots ++ [s.shootEnt m] } := by
  have sent := foldl_keeps State.stw State.stwOut stw_stwOut (s.shootFlits m)
    (s.modStw fun x => { x with shoots := x.shoots ++ [s.shootEnt m] })
  exact sent

theorem openShoot_frame (s : State) (m : Msg) :
    { (s.openShoot m).besidesRelay with engines := [] } = { s.besidesRelay with engines := [] } := by
  have sent := foldl_keeps State.besidesRelay State.stwOut besidesRelay_stwOut (s.shootFlits m)
    (s.modStw fun x => { x with shoots := x.shoots ++ [s.shootEnt m] })
  exact congrArg (fun x : State => { x with engines := [] }) sent

theorem eng_openShoot (s : State) (m : Msg) {e : Nat} (he : e = 132 ∨ e = 133) :
    (s.openShoot m).eng e = (s.eng e).invalidate m := by
  have sent := foldl_keeps (·.eng e) State.stwOut (fun u f => eng_stwOut u f e) (s.shootFlits m)
    (s.modStw fun x => { x with shoots := x.shoots ++ [s.shootEnt m] })
  have same : (s.modStw fun x => { x with shoots := x.shoots ++ [s.shootEnt m] }).eng e = s.eng e := rfl
  rw [State.openShoot]
  rcases he with rfl | rfl
  · simp [sent, same]
  · simp [sent, same]

theorem outbox_openShoot (s : State) (m : Msg) :
    ((s.openShoot m).port 48).stop.outbox = (s.port 48).stop.outbox ++ s.shootFlits m := by
  have same : (s.modStw fun x => { x with shoots := x.shoots ++ [s.shootEnt m] }).port 48 = s.port 48 := rfl
  simp [State.openShoot, State.shootFlits, outbox_stwOut, same]

theorem tlbInv_opens (m : Msg) (s : State) (h : tlbSizeBad m = false) (hf : s.stw.shoots.length < 197) :
    Ends (.tlbInv m) s fun t =>
      (∃ e, t.stw.shoots = s.stw.shoots ++ [e] ∧ e.src = m.src ∧ e.txn = m.txn ∧ e.slices = 132
        ∧ e.agents = s.stw.shootMask &&& s.glb.agents ∧ e.since = s.time)
      ∧ t.eng 132 = (s.eng 132).invalidate m ∧ t.eng 133 = (s.eng 133).invalidate m
      ∧ (t.port 48).stop.outbox.length = (s.port 48).stop.outbox.length + 3
      ∧ { t with ports := s.ports, stw := s.stw, engines := s.engines, pmc := s.pmc } = s := by
  refine ends_next (exec_tlbInv_open m s h hf) ⟨⟨(s.portTake 48 m).shootEnt m, ?_, rfl, rfl, rfl, ?_, ?_⟩, ?_, ?_, ?_, ?_⟩
  · rw [stw_openShoot, stw_portTake]
  · simp [State.shootEnt]
  · simp [State.shootEnt]
  · rw [eng_openShoot _ _ (.inl rfl), eng_portTake]
  · rw [eng_openShoot _ _ (.inr rfl), eng_portTake]
  · rw [outbox_openShoot, outbox_portTake, List.length_append]
    rfl
  · have frame := (openShoot_frame (s.portTake 48 m) m).trans
      (congrArg (fun x : State => { x with engines := [] }) (besidesRelay_portTake s 48 m))
    exact congrArg (fun x : State => { x with ports := s.ports, stw := s.stw, engines := s.engines, pmc := s.pmc }) frame

/-! Answers to a broadcast -/

/-- What the answer `m` leaves of a collection entry, and that nobody is left who has not answered (R274). -/
def ShootEnt.answered (m : Msg) (e : ShootEnt) : ShootEnt :=
  if e.idx ≠ m.htag.toNat then e
  else if m.src = 1023 then { e with slices := e.slices - 1 }
  else { e with agents := e.agents &&& ~~~(agentBit m.src.toNat) }
def ShootEnt.done (e : ShootEnt) : Bool := e.slices == 0 && e.agents == 0

/-- The steward port after the answer `m`: what is done is taken out and counted. -/
def State.shootAcked (s : State) (m : Msg) : State :=
  s.modStw fun x => { x with
    shoots := (s.stw.shoots.map (·.answered m)).filter fun e => !e.done
    shootsDone := x.shootsDone + BitVec.ofNat 32 ((s.stw.shoots.map (·.answered m)).filter (·.done)).length }

theorem exec_tlbShootAck (m : Msg) (s : State) :
    exec (.tlbShootAck m) s = .next (((s.stw.shoots.map (·.answered m)).filter (·.done)).foldl
      (fun s e => (s.glbEvent 0x04).tlbDone e.src e.txn 0) ((s.portTake 48 m).shootAcked m)) := by
  have taken := stw_portTake s 48 m
  rw [← taken]
  rfl

/-- An answer that ends no broadcast counts and sends nothing. -/
theorem exec_tlbShootAck_open (m : Msg) (s : State) (h : (s.stw.shoots.map (·.answered m)).filter (·.done) = []) :
    exec (.tlbShootAck m) s = .next ((s.portTake 48 m).shootAcked m) := by
  rw [exec_tlbShootAck, h, List.foldl_nil]

theorem answered_of_ne {m : Msg} {e : ShootEnt} (h : e.idx ≠ m.htag.toNat) : e.answered m = e := if_pos h

theorem answered_of_slice {m : Msg} {e : ShootEnt} (h : e.idx = m.htag.toNat) (hs : m.src = 1023) :
    e.answered m = { e with slices := e.slices - 1 } := by
  simp [ShootEnt.answered, h, hs]

theorem done_eq_false {e : ShootEnt} (h : e.slices ≠ 0 ∨ e.agents ≠ 0) : e.done = false := by
  rcases h with h | h
  · simp [ShootEnt.done, h]
  · exact Bool.and_eq_false_iff.mpr (.inr (beq_eq_false_iff_ne.mpr h))

/-- An answer that names no open broadcast changes none (R274). -/
theorem tlbShootAck_stray (m : Msg) (s : State)
    (h : ∀ e ∈ s.stw.shoots, e.idx ≠ m.htag.toNat ∧ (e.slices ≠ 0 ∨ e.agents ≠ 0)) :
    Ends (.tlbShootAck m) s fun t => t.stw.shoots = s.stw.shoots ∧ t.stw.shootsDone = s.stw.shootsDone := by
  have same : s.stw.shoots.map (·.answered m) = s.stw.shoots :=
    (List.map_congr_left fun e he => answered_of_ne (h e he).1).trans (List.map_id _)
  have none_done : s.stw.shoots.filter (·.done) = [] := by
    simp only [List.filter_eq_nil_iff]
    exact fun e he => by simp [done_eq_false (h e he).2]
  have all_open : s.stw.shoots.filter (fun e => !e.done) = s.stw.shoots :=
    List.filter_eq_self.mpr fun e he => by simp [done_eq_false (h e he).2]
  refine ends_next (exec_tlbShootAck_open m s (by rw [same, none_done])) ⟨?_, ?_⟩
  · simp only [State.shootAcked, State.modStw, stw_portTake, same, all_open]
  · simp only [State.shootAcked, State.modStw, stw_portTake, same, none_done, List.length_nil]
    exact BitVec.add_zero _

/-- A slice's answer while others are awaited lowers the count of the entry it names (R274). -/
theorem tlbShootAck_counts (m : Msg) (s : State) (e : ShootEnt) (hs : s.stw.shoots = [e]) (hi : e.idx = m.htag.toNat)
    (hm : m.src = 1023) (h : 2 ≤ e.slices) : Ends (.tlbShootAck m) s fun t =>
      t.stw.shoots = [{ e with slices := e.slices - 1 }] ∧ t.stw.shootsDone = s.stw.shootsDone
        ∧ t = { s.portTake 48 m with stw := t.stw } := by
  have answered : s.stw.shoots.map (·.answered m) = [{ e with slices := e.slices - 1 }] := by
    rw [hs, List.map_singleton, answered_of_slice hi hm]
  have open_ : ShootEnt.done { e with slices := e.slices - 1 } = false :=
    done_eq_false (.inl (by dsimp only; omega))
  refine ends_next (exec_tlbShootAck_open m s (by simp [answered, open_])) ⟨?_, ?_, rfl⟩
  · simp [State.shootAcked, answered, open_]
  · simp [State.shootAcked, answered, open_]

/-- The last answer ends the broadcast: its sender gets `TlbInvDone` (R274). -/
theorem tlbShootAck_ends (m : Msg) (s : State) (e : ShootEnt) (hs : s.stw.shoots = [e]) (hi : e.idx = m.htag.toNat)
    (hm : m.src = 1023) (h1 : e.slices = 1) (h0 : e.agents = 0) : Ends (.tlbShootAck m) s fun t =>
      t.stw.shoots = [] ∧ t.stw.shootsDone = s.stw.shootsDone + 1
        ∧ (t.port 48).stop.outbox = (s.port 48).stop.outbox
            ++ [flitOf { mkMsg 0x33 1020 e.src with txn := e.txn, stat := 0 } 0] := by
  have answered : s.stw.shoots.map (·.answered m) = [{ e with slices := 0 }] := by
    rw [hs, List.map_singleton, answered_of_slice hi hm, h1]
  have done : ShootEnt.done { e with slices := 0 } = true := by simp [ShootEnt.done, h0]
  have run : exec (.tlbShootAck m) s = .next ((((s.portTake 48 m).shootAcked m).glbEvent 0x04).tlbDone e.src e.txn 0) := by
    simp [exec_tlbShootAck, answered, done]
  refine ends_next run ⟨?_, ?_, (outbox_tlbDone ..).trans (congrArg (· ++ _) (outbox_portTake s 48 m))⟩
  · change ((s.portTake 48 m).shootAcked m).stw.shoots = []
    simp [State.shootAcked, answered, done]
  · change ((s.portTake 48 m).shootAcked m).stw.shootsDone = s.stw.shootsDone + 1
    simp [State.shootAcked, answered, done]

/-! A broadcast at a slice, and its watchdog -/

theorem exec_tlbShoot (p : Fin 132) (m : Msg) (s : State) : exec (.tlbShoot p m) s = execTlbShoot p m s := rfl
theorem exec_tlbCollectionTimeout (i : BitVec 8) (s : State) :
    exec (.tlbCollectionTimeout i) s = execTlbCollectionTimeout i s := rfl

theorem tlbShoot_waits (p : Fin 132) (m : Msg) (s : State) (h : (s.slice p).mayTake p m = false) :
    Idles (.tlbShoot p m) s := by
  simp [Idles, exec_tlbShoot, execTlbShoot, State.taking, h]

theorem tlbShoot_invalidates (p : Fin 132) (m : Msg) (s : State) (h : (s.slice p).mayTake p m = true) :
    Ends (.tlbShoot p m) s fun t => t.eng p = (s.eng p).invalidate m
      ∧ Sent (s.takeMsg p m) t p { mkMsg 0x32 1023 1020 with htag := m.htag }
      ∧ { t with slices := s.slices, engines := s.engines } = s := by
  have run : exec (.tlbShoot p m) s = .next (((s.takeMsg p m).modEng p fun g => g.invalidate m).emit p
      { mkMsg 0x32 1023 1020 with htag := m.htag }) := by
    simp [exec_tlbShoot, execTlbShoot, State.taking, h]
  have unmoved : ((s.takeMsg p m).modEng p fun g => g.invalidate m).slice p = (s.takeMsg p m).slice p := rfl
  have sent := slice_emit_congr unmoved { mkMsg 0x32 1023 1020 with htag := m.htag }
  refine ends_next run ⟨?_, ⟨by rw [sent], by rw [sent]⟩, eq_of_besidesEngines_eq (by simp)⟩
  have taken : (s.takeMsg p m).eng p = s.eng p := rfl
  change (((s.takeMsg p m).modEng p fun g => g.invalidate m)).eng p = _
  rw [eng_modEng, if_pos rfl, taken]

/-- A contained error of a port is recorded: nothing but the records changes (R364). -/
theorem record_contained (s : State) (e : ErrRec) (hc : e.cls = 1) (hm : e.code ≠ 0x02) :
    s.record e = s.modRas fun x => { x with inflight := x.inflight ++ [{ e with time := s.time, eclk := s.eclk }] } := by
  have notCorrected : ¬(e.cls = 0 ∧ s.ras.corrLog = false) := by simp [hc]
  have notFatal : ¬ e.cls = 2 := by simp [hc]
  simp only [State.record, notCorrected, notFatal, hm, if_false]

/-- The entry marked as reported, so that the timeout reports it once (R274). -/
def State.shootReported (s : State) (e : ShootEnt) : State :=
  s.modStw fun y => { y with shoots := y.shoots.map fun x => if x.idx = e.idx then { x with reported := true } else x }

theorem shootReported_reports (s : State) (e : ShootEnt) :
    ∀ x ∈ (s.shootReported e).stw.shoots, x.idx = e.idx → x.reported = true := by
  intro x hx hi
  obtain ⟨y, -, rfl⟩ := List.mem_map.mp hx
  by_cases hy : y.idx = e.idx
  · simp [hy]
  · simp [hy] at hi

theorem tlbCollectionTimeout_idles (i : BitVec 8) (s : State) (e : ShootEnt)
    (hf : s.stw.shoots.find? (fun e => e.idx == i.toNat && !e.reported) = some e) (h : s.time - e.since < s.wdog) :
    Idles (.tlbCollectionTimeout i) s := by
  simp [Idles, exec_tlbCollectionTimeout, execTlbCollectionTimeout, hf, h]

theorem tlbCollectionTimeout_reports (i : BitVec 8) (s : State) (e : ShootEnt)
    (hf : s.stw.shoots.find? (fun e => e.idx == i.toNat && !e.reported) = some e) (h : s.wdog ≤ s.time - e.since) :
    Ends (.tlbCollectionTimeout i) s fun t => Recorded s t 1 0x14 48 ∧ t.iag.arrived = s.iag.arrived ++ [1455]
      ∧ (∀ x ∈ t.stw.shoots, x.idx = e.idx → x.reported = true)
      ∧ { t with stw := s.stw, ras := s.ras, iag := s.iag } = s := by
  have run : exec (.tlbCollectionTimeout i) s = .next (((s.shootReported e).record
      { cls := 1, unit := 2, index := 48, code := 0x14, agent := some e.src, detail := e.agents }).fire 1455) := by
    simp only [exec_tlbCollectionTimeout, execTlbCollectionTimeout, hf, Nat.not_lt.mpr h, if_false]
    rfl
  rw [record_contained _ _ rfl (show (0x14 : BitVec 8) ≠ 0x02 by decide)] at run
  exact ends_next run ⟨⟨_, rfl, rfl, rfl, rfl, rfl⟩, rfl, shootReported_reports s e, rfl⟩

/-! The obligation -/

/-- A write of `SLC_LOGICAL` by a service request (R30, R68). -/
theorem exec_svcReqRegisterWrite_logical (p : Fin 132) (m : Msg) (s : State)
    (h : (s.slice p).mayTake p (asOpc m 0x1B) = true) (ha : m.aop.toNat ≤ 3) (h0 : m.addr = 0) :
    exec (.svcReqRegisterWrite p m) s
      = .next ((((s.takeMsg p (asOpc m 0x1B)).noteRsvd (m.data.extractLsb' 8 24 != 0)).modSlice p fun x =>
          { x with lslice := m.data.extractLsb' 0 7, active := m.data.getLsbD 7 }).svcRsp p (asOpc m 0x1B) 0 0 0) := by
  refine exec_svcReqRegisterWrite_of_svcStore p m s h ha ?_
  have place : 8 * m.addr.toNat = 0 := by rw [h0]; rfl
  rw [place, svcStore_logical]

theorem svcReqRegisterWrite_logical_reserved (p : Fin 132) (m : Msg) (s : State)
    (h : (s.slice p).mayTake p (asOpc m 0x1B) = true) (ha : m.aop.toNat ≤ 3) (h0 : m.addr = 0)
    (hr : m.data.extractLsb' 8 24 ≠ 0) : Ends (.svcReqRegisterWrite p m) s fun t =>
      (t.slice p).lslice = m.data.extractLsb' 0 7 ∧ (t.slice p).active = m.data.getLsbD 7
        ∧ t.glb.rsvdWr = (if s.glb.rsvdWr = 0xFFFF then 0xFFFF else s.glb.rsvdWr + 1) := by
  have run := exec_svcReqRegisterWrite_logical p m s h ha h0
  rw [bne_iff_ne.mpr hr] at run
  refine ends_next run ⟨?_, ?_, rfl⟩
  · rw [slice_svcRsp]; simp
  · rw [slice_svcRsp]; simp

theorem svcReqRegisterWrite_holder (p : Fin 132) (m : Msg) (s : State)
    (hq : (s.slice p).mayTake p (asOpc m 0x1B) = true) (ha : m.aop.toNat ≤ 3) (h : Fin 80)
    (hp : m.addr.toNat = 0x80 + h.val) : Ends (.svcReqRegisterWrite p m) s fun t =>
      (t.slice p).held h = (m.data.extractLsb' 2 4).toNat ∧ (t.slice p).trks = (s.slice p).trks
        ∧ { t with slices := s.slices, glb := s.glb } = s := by
  have place : 8 * m.addr.toNat = 0x400 + 8 * h.val := by omega
  have run := exec_svcReqRegisterWrite_of_svcStore p m s hq ha
    (by rw [place]; exact svcStore_holder (s.takeMsg p (asOpc m 0x1B)) p _ h.isLt)
  refine ends_next run ⟨?_, ?_, ?_⟩
  · rw [slice_svcRsp]
    simp [Slice.held, extractLsb'_extractLsb'_zero m.data 64 2 4 (by omega)]
  · rw [slice_svcRsp]
    simp
  · exact svcStore_frame s p _ _ _ _ _ _ _

theorem svcReqDirectoryCopy_writes (p : Fin 132) (m : Msg) (s : State)
    (h : (s.slice p).mayTake p (asOpc m 0x1B) = true) (ha : m.aop.toNat ≤ 3) : Ends (.svcReqDirectoryCopy p m) s fun t =>
      (t.slice p).sfl = ((s.slice p).putEntries s.glb.agents (copyBlock m.addr) (copyHalf m.addr) m.data).sfl
        ∧ (t.slice p).hlc = (s.slice p).hlc ∧ { t with slices := s.slices } = s := by
  have run : exec (.svcReqDirectoryCopy p m) s = .next (((s.takeMsg p (asOpc m 0x1B)).modSlice p fun x =>
      x.putEntries s.glb.agents (copyBlock m.addr) (copyHalf m.addr) m.data).svcRsp p (asOpc m 0x1B) 0 0 0) := by
    simp only [exec_svcReqDirectoryCopy, execSvcReqDirectoryCopy, svcReq_of_valid s p m _ h ha, addr_asOpc, data_asOpc, glb_takeMsg]
  refine ends_next run ⟨?_, ?_, eq_of_besidesSlices_eq (by simp [State.svcRsp])⟩
  · rw [slice_svcRsp, slice_modSlice, if_pos rfl]
    exact sfl_putEntries_congr (sfl_takeMsg s p _) _ _ _ _
  · rw [slice_svcRsp]
    simp

theorem svcReqLineCopy_writes (p : Fin 132) (m : Msg) (s : State)
    (h : (s.slice p).mayTake p (asOpc m 0x1B) = true) (ha : m.aop.toNat ≤ 3) : Ends (.svcReqLineCopy p m) s fun t =>
      (t.slice p).hlc = ((s.putLine p (16 * (m.addr.extractLsb' 0 8).toNat + (m.addr.extractLsb' 8 4).toNat)
          (m.addr.extractLsb' 12 31) m.data m.poison (m.addr.getLsbD 43)).slice p).hlc
        ∧ (t.slice p).sfl = (s.slice p).sfl ∧ { t with slices := s.slices } = s := by
  have run : exec (.svcReqLineCopy p m) s = .next (((s.takeMsg p (asOpc m 0x1B)).putLine p
      (16 * (m.addr.extractLsb' 0 8).toNat + (m.addr.extractLsb' 8 4).toNat) (m.addr.extractLsb' 12 31) m.data m.poison
      (m.addr.getLsbD 43)).svcRsp p (asOpc m 0x1B) 0 0 0) := by
    simp only [exec_svcReqLineCopy, execSvcReqLineCopy, svcReq_of_valid s p m _ h ha, addr_asOpc, data_asOpc, poison_asOpc]
  refine ends_next run ⟨?_, ?_, ?_⟩
  · rw [slice_svcRsp]
    exact hlc_putLine_congr (hlc_takeMsg s p _) (lslice_takeMsg s p _) _ _ _ _ _
  · rw [slice_svcRsp]
    exact (sfl_putLine ..).trans (sfl_takeMsg s p _)
  · exact eq_of_besidesSlices_eq (by simp [State.svcRsp])

/-- Settles O20: each row by the lemma above that says what it does in that case. -/
theorem serviceRequestsAndTlbBroadcasts : Obligations.ServiceRequestsAndTlbBroadcasts := by
  unfold Obligations.ServiceRequestsAndTlbBroadcasts
  refine ⟨fun p m s => ⟨fun e he => ?_, fun h ha => ⟨exec_svcReqRegisterRead_logical p m s h ha, fun h0 hr => ?_,
      svcReqRegisterWrite_logical_reserved p m s h ha, svcReqRegisterWrite_holder p m s h ha,
      svcReqDirectoryCopy_writes p m s h ha, svcReqLineCopy_writes p m s h ha⟩⟩,
    ⟨fun m s => ⟨tlbInv_bad m s, fun h => ⟨fun hf => ends_next (tlbInv_full m s h hf) rfl, tlbInv_opens m s h⟩,
      tlbShootAck_stray m s, fun e hs hi hm => ⟨tlbShootAck_counts m s e hs hi hm, tlbShootAck_ends m s e hs hi hm⟩⟩,
      tlbShoot_waits, tlbShoot_invalidates,
      fun i s => ⟨fun hf => ?_, fun e hf => ⟨tlbCollectionTimeout_idles i s e hf, tlbCollectionTimeout_reports i s e hf⟩⟩⟩⟩
  · obtain ⟨go, row⟩ := exec_svcReq_row p m s e he
    exact ⟨fun h => row.trans (congrArg Host.Outcome.next (svcReq_of_waiting s p m go h)),
      fun h ha => row.trans (congrArg Host.Outcome.next (svcReq_of_invalid s p m go h ha))⟩
  · have run := exec_svcReqRegisterWrite_logical p m s h ha h0
    rwa [hr, bne_self_eq_false] at run
  · simp [Idles, exec_tlbCollectionTimeout, execTlbCollectionTimeout, hf]

end Sys2Proof.Machine
end

section
/-! SUPPORT. Register accesses of the host and of the steward (R5, R250, R330, R333 to R338, R344, R355). -/

namespace Sys2Proof.Machine

open Sys2Proof

/-! A host request (R333, R336) -/

theorem exec_registerWrite_host (b : Bar) (off size : Nat) (wr : Option Word) (p : Bool) (s : State) :
    exec (.registerWrite .host b off size wr p) s = .next (s.hostReq { bar := b, off, size, wr, poisoned := p }) := rfl

theorem exec_lsliceWindowAccess (l : Fin 128) (o : BitVec 16) (size : Nat) (wr : Option Word) (s : State) :
    exec (.lsliceWindowAccess l o size wr) s
      = exec (.registerWrite .host .bar0 (0x2000000 + 0x10000 * l.val + o.toNat) size wr false) s := rfl

theorem exec_registerWrite_steward (off size : Nat) (wr : Option Word) (p : Bool) (s : State) :
    exec (.registerWrite .steward .bar0 off size wr p) s = .next (s.stewardAccess off size wr) := rfl

/-- A request behind ones that wait waits in its turn. -/
theorem hostReq_of_waiting (s : State) (q : HostReq) (h : s.hfn.waits ≠ []) :
    s.hostReq q = { s with hfn := { s.hfn with waits := s.hfn.waits ++ [q] } } := by
  simp [State.hostReq, h, State.modHfn]

theorem hostReq_of_done (s : State) (q : HostReq) {t : State} (h : s.hfn.waits = []) (hd : s.hostDo q = some t) :
    s.hostReq q = t := by
  simp [State.hostReq, h, hd]

/-- A request that HOLD stops waits. -/
theorem hostReq_of_held (s : State) (q : HostReq) (h : s.hfn.waits = []) (hd : s.hostDo q = none) :
    s.hostReq q = { s with hfn := { s.hfn with waits := [q] } } := by
  simp [State.hostReq, h, hd, State.modHfn]

/-- A finished request of the host is the command's next state. -/
theorem exec_host_of_done {s t : State} {b : Bar} {off size : Nat} {wr : Option Word} {p : Bool} (h : s.hfn.waits = [])
    (hd : s.hostDo { bar := b, off, size, wr, poisoned := p } = some t) :
    exec (.registerWrite .host b off size wr p) s = .next t := by
  rw [exec_registerWrite_host, hostReq_of_done s _ h hd]

/-! The function's gates, in their order (R332, R334, R337, R355) -/

theorem hostDo_not_taken (s : State) {b : Bar} (off size : Nat) (wr : Option Word) (p : Bool) (hb : b ≠ .config)
    (h : s.hfnTakes = false) :
    s.hostDo { bar := b, off, size, wr, poisoned := p } = some (s.notTaken wr.isSome) := by
  cases b with
  | config => exact absurd rfl hb
  | bar0 => cases wr <;> simp [State.hostDo, h]
  | bar2 => cases wr <;> simp [State.hostDo, h]

theorem notTaken_of_not_d3hot (s : State) (write : Bool)
    (h : s.rst.released = false ∨ s.rst.phase = 0 ∨ s.hfn.inReset = true ∨ s.hfn.d3hot = false) :
    s.notTaken write = s := by
  have idle : (s.rst.released && s.rst.phase != 0 && !s.hfn.inReset && s.hfn.d3hot) = false := by
    rcases h with h | h | h | h
    all_goals simp [h]
  rw [State.notTaken, idle]
  rfl

theorem notTaken_of_d3hot (s : State) (hr : s.rst.released = true) (hp : s.rst.phase ≠ 0) (hi : s.hfn.inReset = false)
    (hd : s.hfn.d3hot = true) :
    s.notTaken true = { s with hfn := { s.hfn with aer := s.hfn.aer ||| 0x100000 } }
      ∧ s.notTaken false = { s with hfn := { s.hfn with up := s.hfn.up ++ [.unsupported] } } := by
  have asked : (s.rst.released && s.rst.phase != 0 && !s.hfn.inReset && s.hfn.d3hot) = true := by
    rw [hr, hi, hd, bne_iff_ne.mpr hp]
    rfl
  rw [State.notTaken, State.notTaken, asked]
  exact ⟨rfl, rfl⟩

theorem hostDo_poisoned (s : State) {b : Bar} (off size : Nat) (v : Word) (hb : b ≠ .config) (h : s.hfnTakes = true) :
    s.hostDo { bar := b, off, size, wr := some v, poisoned := true }
      = some { s with hfn := { s.hfn with aer := s.hfn.aer ||| 0x1000 } } := by
  cases b with
  | config => exact absurd rfl hb
  | bar0 => simp [State.hostDo, h, State.modHfn, aerPoisoned]
  | bar2 => simp [State.hostDo, h, State.modHfn, aerPoisoned]

theorem hostDo_bar0_write (s : State) (off size : Nat) (v : Word) (h : s.hfnTakes = true) :
    s.hostDo { bar := .bar0, off, size, wr := some v, poisoned := false } = s.bar0Write off size v := by
  simp [State.hostDo, h]

theorem hostDo_bar0_read (s : State) (off size : Nat) (h : s.hfnTakes = true) :
    s.hostDo { bar := .bar0, off, size, wr := none, poisoned := false }
      = (s.bar0Read off size).map fun r => r.1.hostAnswer (r.2.setWidth 128) := by
  simp [State.hostDo, h]

theorem hostDo_bar2_write (s : State) (off size : Nat) (v : Word) (h : s.hfnTakes = true) :
    s.hostDo { bar := .bar2, off, size, wr := some v, poisoned := false } = some (s.bar2Write off size v) := by
  simp [State.hostDo, h]

/-- Coast or Freewheel discards an access at `off` of BAR0 (R355). -/
def State.bar0Asleep (s : State) (off : Nat) : Bool := s.pwr.state != 0 && !(bar0Awake off)

theorem bar0Asleep_eq_false (s : State) {off : Nat} (h : s.pwr.state = 0 ∨ bar0Awake off = true) :
    s.bar0Asleep off = false := by
  rcases h with h | h <;> simp [State.bar0Asleep, h]

theorem bar0Asleep_eq_true (s : State) {off : Nat} (hs : s.pwr.state ≠ 0) (h : bar0Awake off = false) :
    s.bar0Asleep off = true := by
  rw [State.bar0Asleep, bne_iff_ne.mpr hs, h]
  rfl

/-- `0x3803:01` closes a write at `off` of BAR0 (R337). -/
def State.bar0Closed (s : State) (off : Nat) : Bool := !s.hfn.bar0Ok && !(bar0Open off)

theorem bar0Write_bad (s : State) (off size : Nat) (v : Word) (h : bar0Shape off size = false) :
    s.bar0Write off size v = some (s.gatedAccess (s.bar0Asleep off)).badAccess := by
  simp [State.bar0Write, State.bar0Asleep, h]

theorem bar0Read_bad (s : State) (off size : Nat) (h : bar0Shape off size = false) :
    s.bar0Read off size = some ((s.gatedAccess (s.bar0Asleep off)).badAccess, 0) := by
  simp [State.bar0Read, State.bar0Asleep, h]

theorem bar0Read_shaped (s : State) (off size : Nat) (h : bar0Shape off size = true) :
    s.bar0Read off size = if s.bar0Asleep off then some (s.gatedAccess true, 0) else s.bar0Load off size := by
  rw [State.bar0Read, h]
  rfl

/-- The count of what `0x3803:01` closes (R337). -/
def State.closedAccess (s : State) : State := { s with hfn := { s.hfn with gated := satInc16 s.hfn.gated } }

/-- A write that `0x3803:01` closes counts in GATED, and in GATED_ACC where it is discarded too (R337, R355). -/
theorem bar0Write_closed (s : State) (off size : Nat) (v : Word) (h : bar0Shape off size = true)
    (hc : s.hfn.bar0Ok = false) (ho : bar0Open off = false) :
    s.bar0Write off size v = some (s.closedAccess.gatedAccess (s.bar0Asleep off)) := by
  have closed : s.bar0Closed off = true := by simp [State.bar0Closed, hc, ho]
  unfold State.bar0Closed at closed
  simp only [State.bar0Write, h, closed, Bool.not_true, Bool.false_eq_true, if_false, if_true, Bool.true_or]
  rfl

theorem bar0Write_open (s : State) (off size : Nat) (v : Word) (h : bar0Shape off size = true)
    (ho : s.hfn.bar0Ok = true ∨ bar0Open off = true) : s.bar0Write off size v
      = if s.bar0Asleep off then some (s.gatedAccess (s.bar0Asleep off))
        else (s.gatedAccess (s.bar0Asleep off)).bar0Store .host off size v := by
  have passes : s.bar0Closed off = false := by rcases ho with ho | ho <;> simp [State.bar0Closed, ho]
  unfold State.bar0Closed at passes
  simp only [State.bar0Write, h, passes, Bool.not_true, Bool.false_eq_true, if_false, Bool.false_or]
  rfl

theorem bar0Write_awake (s : State) (off size : Nat) (v : Word) (h : bar0Shape off size = true)
    (ho : s.hfn.bar0Ok = true ∨ bar0Open off = true) (ha : s.bar0Asleep off = false) :
    s.bar0Write off size v = s.bar0Store .host off size v := by
  rw [bar0Write_open s off size v h ho, ha]
  rfl

theorem bar2Write_bad (s : State) (off size : Nat) (v : Word) (h : bar2Shape off size (bar2Loc off) = false)
    (ha : s.pwr.state = 0 ∨ bar2Awake (bar2Loc off) = true) : s.bar2Write off size v = s.badAccess := by
  have awake : (s.pwr.state != 0 && !(bar2Awake (bar2Loc off))) = false := by rcases ha with ha | ha <;> simp [ha]
  simp only [State.bar2Write, h, awake, if_true]
  rfl

/-! Places without a register, and slice windows (R5, R335, R336) -/

/-- BAR0 offsets between and above the slice windows. -/
theorem not_inSliceWindow {off : Nat} (h : (0x1840000 ≤ off ∧ off < 0x2000000) ∨ 0x2800000 ≤ off) :
    inSliceWindow off = false := by
  simp [inSliceWindow]
  omega

theorem bar0Store_hole (s : State) (who : Writer) {off : Nat} (size : Nat) (v : Word)
    (h : (0x1840000 ≤ off ∧ off < 0x2000000) ∨ 0x2800000 ≤ off) : s.bar0Store who off size v = some s.undefAccess := by
  have above : ¬ off < 0x1000000 := by omega
  simp [State.bar0Store, above, not_inSliceWindow h]

theorem bar0Load_hole (s : State) {off : Nat} (size : Nat)
    (h : (0x1840000 ≤ off ∧ off < 0x2000000) ∨ 0x2800000 ≤ off) : s.bar0Load off size = some (s.undefAccess, 0) := by
  have above : ¬ off < 0x1000000 := by omega
  simp [State.bar0Load, above, not_inSliceWindow h]

theorem bar0Load_held (s : State) (l : Fin 128) (o : BitVec 16) (size : Nat) (h : (s.hfnCopy.entry l).hold = true) :
    s.bar0Load (0x2000000 + 0x10000 * l.val + o.toNat) size = none := by
  have ho := o.isLt
  have hl := l.isLt
  have above : ¬ 0x2000000 + 0x10000 * l.val + o.toNat < 0x1000000 := by omega
  have inside : inSliceWindow (0x2000000 + 0x10000 * l.val + o.toNat) = true := by simp [inSliceWindow]; omega
  have logical : ¬ 0x2000000 + 0x10000 * l.val + o.toNat < 0x1840000 := by omega
  have number : (0x2000000 + 0x10000 * l.val + o.toNat - 0x2000000) / 0x10000 = l.val := by omega
  simp [State.bar0Load, above, inside, State.bar0Slice, logical, number, State.hostSlice, h]

theorem bar0Shape_window (l : Fin 128) (o : BitVec 16) (size : Nat) :
    bar0Shape (0x2000000 + 0x10000 * l.val + o.toNat) size = bar0Shape o.toNat size := by
  have by4 : (0x2000000 + 0x10000 * l.val + o.toNat) % 4 = o.toNat % 4 := by omega
  have by8 : (0x2000000 + 0x10000 * l.val + o.toNat) % 8 = o.toNat % 8 := by omega
  simp only [bar0Shape, by4, by8]

theorem bar0Awake_window (l : Fin 128) (o : BitVec 16) :
    bar0Awake (0x2000000 + 0x10000 * l.val + o.toNat) = false := by
  simp [bar0Awake]
  omega

/-! `RAS_LOG_SEL` and `HFN_ERR_CNT` (Tables 18.7 and 20.8) -/

/-- The image of `RAS_LOG_SEL` (Table 20.8). -/
def Ras.logSelImage (r : Ras) : Nat := r.logSel.toNat + 2 ^ 8 * r.logPos.toNat

theorem logSelImage_lt (r : Ras) : r.logSelImage < 2 ^ 14 := by
  have := r.logSel.isLt
  have := r.logPos.isLt
  unfold Ras.logSelImage
  omega

theorem glbImage_logSel (s : State) : s.glbImage 0x90010 = some (false, s.ras.logSelImage) := rfl

theorem glbImage_errCnt (s : State) : s.glbImage 0x60008 = some (true, s.hfn.errCnt) := rfl

theorem glbRead_logSel (s : State) : s.glbRead 0x90010 4 = (s, some (BitVec.ofNat 64 s.ras.logSelImage)) := by
  have small : BitVec.ofNat 64 s.ras.logSelImage &&& 0xFFFFFFFF = BitVec.ofNat 64 s.ras.logSelImage :=
    and_low_half _ (by have := logSelImage_lt s.ras; rw [BitVec.toNat_ofNat]; omega)
  exact Prod.ext rfl (congrArg some small)

theorem logSel_of_image (r : Ras) : (BitVec.ofNat 64 r.logSelImage).extractLsb' 0 8 = r.logSel
    ∧ (BitVec.ofNat 64 r.logSelImage).extractLsb' 8 6 = r.logPos := by
  have := r.logSel.isLt
  have := r.logPos.isLt
  constructor
  · apply BitVec.eq_of_toNat_eq
    simp only [BitVec.extractLsb'_toNat, BitVec.toNat_ofNat, Ras.logSelImage, Nat.shiftRight_eq_div_pow]
    omega
  · apply BitVec.eq_of_toNat_eq
    simp only [BitVec.extractLsb'_toNat, BitVec.toNat_ofNat, Ras.logSelImage, Nat.shiftRight_eq_div_pow]
    omega

theorem errCnt_fields (h : Hfn) : ((BitVec.ofNat 64 h.errCnt).setWidth 128).extractLsb' 0 16 = h.cto
    ∧ ((BitVec.ofNat 64 h.errCnt).setWidth 128).extractLsb' 16 16 = h.late
    ∧ ((BitVec.ofNat 64 h.errCnt).setWidth 128).extractLsb' 32 16 = h.gated := by
  have := h.cto.isLt
  have := h.late.isLt
  have := h.gated.isLt
  refine ⟨?_, ?_, ?_⟩
  all_goals
    apply BitVec.eq_of_toNat_eq
    simp only [BitVec.extractLsb'_toNat, BitVec.toNat_setWidth, BitVec.toNat_ofNat, Hfn.errCnt,
      Nat.shiftRight_eq_div_pow]
    omega

/-- The running steward reads `RAS_LOG_SEL` (R250). -/
theorem steward_reads_logSel (p : Bool) (s : State) (h : s.stewardRuns = true) :
    Ends (.registerWrite .steward .bar0 0x90010 4 none p) s fun t =>
      t.stw.readData.extractLsb' 0 8 = s.ras.logSel ∧ t.stw.readData.extractLsb' 8 6 = s.ras.logPos
        ∧ { t with stw := s.stw } = s := by
  have load : s.bar0Load 0x90010 4 = some (s, BitVec.ofNat 64 s.ras.logSelImage) := by
    simp [State.bar0Load, glbRead_logSel, State.readEnd]
  have run : exec (.registerWrite .steward .bar0 0x90010 4 none p) s
      = .next (s.modStw fun w => { w with readData := BitVec.ofNat 64 s.ras.logSelImage }) := by
    simp [exec_registerWrite_steward, State.stewardAccess, h, load, bar0Shape]
  obtain ⟨sel, pos⟩ := logSel_of_image s.ras
  exact ends_next run ⟨sel, pos, rfl⟩

/-- A write of the low half of a slot puts the written bits there (R334). -/
theorem low_half_written (old v : Word) {i l : Nat} (h : i + l ≤ 32) :
    ((old &&& ~~~(0xFFFFFFFF : Word)) ||| ((v &&& 0xFFFFFFFF) &&& 0xFFFFFFFF)).extractLsb' i l = v.extractLsb' i l := by
  have low32 : ∀ j, (0xFFFFFFFF : Word).getLsbD j = (decide (j < 64) && decide (j < 32)) := getLsbD_low_ones 32
  apply BitVec.eq_of_getLsbD_eq
  intro j hj
  have here : i + j < 32 := by omega
  have within : i + j < 64 := by omega
  simp only [BitVec.getLsbD_extractLsb', BitVec.getLsbD_or, BitVec.getLsbD_and, BitVec.getLsbD_not, low32, hj, here, within,
    decide_true, Bool.true_and, Bool.and_true, Bool.not_true, Bool.and_false, Bool.false_or]

/-- The written bits that `RAS_LOG_SEL` reserves (R6, Table 20.8). -/
theorem reserved_logSel (v : Word) (h : v &&& 0xFFFFC000 = 0) :
    (v &&& 0xFFFFFFFF) &&& 0xFFFFFFFF &&& ~~~(glbDefined 0x90010) = 0 := by
  have mask : (0xFFFFFFFF : Word) &&& (0xFFFFFFFF &&& ~~~(glbDefined 0x90010)) = 0xFFFFC000 := by decide
  rw [BitVec.and_assoc, BitVec.and_assoc, mask, h]

theorem glbWrite_logSel (s : State) (v : Word) (h : v &&& 0xFFFFC000 = 0) :
    s.glbWrite .host 0x90010 4 v = { s with ras := { s.ras with
      logSel := v.extractLsb' 0 8, logPos := v.extractLsb' 8 6 } } := by
  have store : s.glbWrite .host 0x90010 4 v
      = (s.noteRsvd (((v &&& 0xFFFFFFFF) &&& 0xFFFFFFFF &&& ~~~(glbDefined 0x90010)) != 0)).rasStore 0x10
          ((BitVec.ofNat 64 s.ras.logSelImage &&& ~~~(0xFFFFFFFF : Word)) ||| ((v &&& 0xFFFFFFFF) &&& 0xFFFFFFFF))
          ((v &&& 0xFFFFFFFF) &&& 0xFFFFFFFF) := rfl
  rw [store, reserved_logSel v h]
  simp only [State.rasStore, low_half_written _ v (show 0 + 8 ≤ 32 by omega),
    low_half_written _ v (show 8 + 6 ≤ 32 by omega)]
  rfl

theorem readClear_errCnt (h : Hfn) :
    h.readClear 0x08 (BitVec.allOnes 64) = { h with cto := 0, late := 0, gated := 0 } := rfl

theorem glbRead_errCnt (s : State) : s.glbRead 0x60008 8
    = ({ s with hfn := { s.hfn with cto := 0, late := 0, gated := 0 } }, some (BitVec.ofNat 64 s.hfn.errCnt)) := rfl

/-- A read of `HFN_ERR_CNT` answers its counts and clears them (R344, Table 18.7). -/
theorem host_reads_errCnt (s : State) (h : s.hfnTakes = true) (hw : s.hfn.waits = []) :
    Ends (.registerWrite .host .bar0 0x60008 8 none false) s fun t =>
      t.hfn.readData.extractLsb' 0 16 = s.hfn.cto ∧ t.hfn.readData.extractLsb' 16 16 = s.hfn.late
        ∧ t.hfn.readData.extractLsb' 32 16 = s.hfn.gated ∧ t.hfn.up = s.hfn.up ++ [.completion t.hfn.readData]
        ∧ t.hfn.cto = 0 ∧ t.hfn.late = 0 ∧ t.hfn.gated = 0 ∧ t.hfn.badAcc = s.hfn.badAcc ∧ { t with hfn := s.hfn } = s := by
  have load : s.bar0Load 0x60008 8
      = some ({ s with hfn := { s.hfn with cto := 0, late := 0, gated := 0 } }, BitVec.ofNat 64 s.hfn.errCnt) := rfl
  have done := hostDo_bar0_read s 0x60008 8 h
  rw [bar0Read_shaped s _ _ rfl, bar0Asleep_eq_false s (.inr rfl), if_neg Bool.false_ne_true, load] at done
  obtain ⟨cto, late, gated⟩ := errCnt_fields s.hfn
  exact ends_next (exec_host_of_done hw done) ⟨cto, late, gated, rfl, rfl, rfl, rfl, rfl, rfl⟩

/-! The mailbox and configuration space (R330, R332, R345) -/

theorem bar2Loc_mbxReq {i : Nat} (h : i < 260) : bar2Loc (0x101000 + 4 * i) = .mbxReq i := by
  have low : ¬ 0x101000 + 4 * i < 0x20000 := by omega
  have ctrl : ¬ (0x100000 ≤ 0x101000 + 4 * i ∧ 0x101000 + 4 * i < 0x100004) := by omega
  have stat : ¬ (0x100008 ≤ 0x101000 + 4 * i ∧ 0x101000 + 4 * i < 0x10000C) := by omega
  have here : 0x101000 ≤ 0x101000 + 4 * i ∧ 0x101000 + 4 * i < 0x101410 := by omega
  have index : (0x101000 + 4 * i - 0x101000) / 4 = i := by omega
  rw [bar2Loc, if_neg low, if_neg ctrl, if_neg stat, if_pos here, index]

theorem bar2Write_mbxReq (s : State) {i : Nat} (v : Word) (h : i < 260) :
    s.bar2Write (0x101000 + 4 * i) 4 v = s.mbxReqWrite i (v.setWidth 32) := by
  have shape : bar2Shape (0x101000 + 4 * i) 4 (bar2Loc (0x101000 + 4 * i)) = true := by
    rw [bar2Loc_mbxReq h]
    simp [bar2Shape, shape4]
  have awake : (s.pwr.state != 0 && !(bar2Awake (bar2Loc (0x101000 + 4 * i)))) = false := by
    rw [bar2Loc_mbxReq h]
    exact Bool.and_false _
  simp only [State.bar2Write, shape, awake, Bool.true_eq_false, Bool.false_eq_true, if_false]
  rw [bar2Loc_mbxReq h]
  rfl

theorem cfgStore_command (s : State) (new b : BitVec 32) :
    s.cfgStore 0x04 new b = if new.getLsbD 2 then s.bmeSet else s.bmeClear := rfl

/-- The bytes that a configuration write names have the written value (Table 18.1; log 40). -/
theorem cfg_written_bit (old m b : BitVec 32) {i : Nat} (hm : m.getLsbD i = true) :
    ((old &&& ~~~m) ||| (b &&& m)).getLsbD i = b.getLsbD i := by
  simp [hm]

/-- The bits that a configuration write of `size` bytes at byte `at_` of a dword names. -/
def cfgMask (at_ size : Nat) : BitVec 32 := BitVec.ofNat 32 ((2 ^ (8 * size) - 1) * 2 ^ (8 * at_))

/-- A write of Command acts on its bit 2 alone (R345). -/
theorem cfgWrite_command (s : State) (v : Word) {size : Nat} (h : size = 1 ∨ size = 4) :
    s.cfgWrite 0x04 size v = if v.getLsbD 2 then s.bmeSet else s.bmeClear := by
  have fits : (size = 1 ∨ size = 2 ∨ size = 4) ∧ 0x04 % 4 + size ≤ 4 := by omega
  have named : (cfgMask 0 size).getLsbD 2 = true := by
    rcases h with rfl | rfl
    · decide
    · decide
  have store : s.cfgWrite 0x04 size v = s.cfgStore 0x04
      ((s.cfgImage 0x04 &&& ~~~(cfgMask 0 size)) ||| ((v.setWidth 32 <<< 0) &&& cfgMask 0 size))
      ((v.setWidth 32 <<< 0) &&& cfgMask 0 size) := if_pos fits
  rw [store, cfgStore_command, cfg_written_bit _ _ _ named]
  simp

/-- Two writes of Command with the same bit 2 act alike (R345). -/
theorem hostDo_command_congr (s : State) {v w : Word} (h : v.getLsbD 2 = w.getLsbD 2) :
    s.hostDo { bar := .config, off := 0x04, size := 4, wr := some v, poisoned := false }
      = s.hostDo { bar := .config, off := 0x04, size := 1, wr := some w } := by
  simp only [State.hostDo, State.cfgReq, cfgWrite_command _ _ (Or.inl rfl), cfgWrite_command _ _ (Or.inr rfl), h]

theorem hostDo_command_isSome (s : State) (off size : Nat) (wr : Option Word) (p : Bool) :
    s.hostDo { bar := .config, off, size, wr, poisoned := p } = some (s.cfgReq off size wr) := by
  cases wr <;> rfl

theorem exec_busMasterEnable (s : State) : exec .busMasterEnable s
    = exec (.registerWrite .host .config 0x04 1 (some 4) false) s := rfl
theorem exec_busMasterDisable (s : State) : exec .busMasterDisable s
    = exec (.registerWrite .host .config 0x04 1 (some 0) false) s := rfl

theorem exec_command_congr (s : State) {v w : Word} (hw : s.hfn.waits = []) (h : v.getLsbD 2 = w.getLsbD 2) :
    exec (.registerWrite .host .config 0x04 4 (some v) false) s
      = exec (.registerWrite .host .config 0x04 1 (some w) false) s := by
  rw [exec_host_of_done hw (hostDo_command_isSome s 0x04 1 (some w) false),
    exec_host_of_done hw ((hostDo_command_congr s h).trans (hostDo_command_isSome s 0x04 1 (some w) false))]

/-! The obligation -/

/-- A register access in D3hot or before the function takes any (R332). -/
theorem registerAccess_not_taken (off size : Nat) (v : Word) (s : State) (ht : s.hfnTakes = false) (hw : s.hfn.waits = []) :
    ((s.rst.released = false ∨ s.rst.phase = 0 ∨ s.hfn.inReset = true ∨ s.hfn.d3hot = false) →
        ∀ p wr, Idles (.registerWrite .host .bar0 off size wr p) s
          ∧ Idles (.registerWrite .host .bar2 off size wr p) s ∧ ∀ l o, Idles (.lsliceWindowAccess l o size wr) s)
      ∧ (s.rst.released = true → s.rst.phase ≠ 0 → s.hfn.inReset = false → s.hfn.d3hot = true →
          ∀ b, b ≠ .config → ∀ p,
            exec (.registerWrite .host b off size (some v) p) s = .next { s with hfn := { s.hfn with
              aer := s.hfn.aer ||| 0x100000 } }
            ∧ exec (.registerWrite .host b off size none p) s = .next { s with hfn := { s.hfn with
              up := s.hfn.up ++ [.unsupported] } }) := by
  refine ⟨fun h p wr => ?_, fun hr hp hi hd b hb p => ?_⟩
  · have idles : ∀ b, b ≠ .config → ∀ o p', Idles (.registerWrite .host b o size wr p') s := fun b hb o p' => by
      have done := hostDo_not_taken s o size wr p' hb ht
      rw [notTaken_of_not_d3hot s _ h] at done
      exact exec_host_of_done hw done
    exact ⟨idles .bar0 (by decide) off p, idles .bar2 (by decide) off p, fun l o => idles .bar0 (by decide) _ false⟩
  · obtain ⟨write, read⟩ := notTaken_of_d3hot s hr hp hi hd
    have doneWrite := hostDo_not_taken s off size (some v) p hb ht
    have doneRead := hostDo_not_taken s off size none p hb ht
    rw [Option.isSome_some, write] at doneWrite
    rw [Option.isSome_none, read] at doneRead
    exact ⟨exec_host_of_done hw doneWrite, exec_host_of_done hw doneRead⟩

theorem steward_idles (off size : Nat) (s : State) (b : Bar) (p : Bool) (wr : Option Word)
    (h : s.stewardRuns = false ∨ b ≠ .bar0 ∨ bar0Shape off size = false) :
    Idles (.registerWrite .steward b off size wr p) s := by
  cases b with
  | config => rfl
  | bar2 => rfl
  | bar0 =>
    have refused : (!s.stewardRuns || !(bar0Shape off size)) = true := by
      rcases h with h | h | h
      · simp [h]
      · exact absurd rfl h
      · simp [h]
    simp only [Idles, exec_registerWrite_steward, State.stewardAccess, refused, if_true]

section Taken

/-! Accesses that the function takes at once. -/

variable {s : State} {off size : Nat} {v : Word} (ht : s.hfnTakes = true) (hw : s.hfn.waits = [])
include ht hw

theorem exec_bar0_write {t : State} (h : s.bar0Write off size v = some t) :
    exec (.registerWrite .host .bar0 off size (some v) false) s = .next t :=
  exec_host_of_done hw ((hostDo_bar0_write s off size v ht).trans h)

theorem exec_bar0_read {t : State} {d : Word} (h : s.bar0Read off size = some (t, d)) :
    exec (.registerWrite .host .bar0 off size none false) s = .next (t.hostAnswer (d.setWidth 128)) := by
  have done := hostDo_bar0_read s off size ht
  rw [h] at done
  exact exec_host_of_done hw done

theorem exec_bar2_write : exec (.registerWrite .host .bar2 off size (some v) false) s = .next (s.bar2Write off size v) :=
  exec_host_of_done hw (hostDo_bar2_write s off size v ht)

end Taken

/-- The gates of a BAR0 write whose location takes its shape (R5, R337, R355). -/
theorem bar0_write_gates (off size : Nat) (v : Word) (s : State) (ht : s.hfnTakes = true) (hw : s.hfn.waits = [])
    (h : bar0Shape off size = true) :
    (s.hfn.bar0Ok = false → bar0Open off = false → (s.pwr.state = 0 ∨ bar0Awake off = true) →
        exec (.registerWrite .host .bar0 off size (some v) false) s
          = .next { s with hfn := { s.hfn with gated := satInc16 s.hfn.gated } })
      ∧ ((s.hfn.bar0Ok = true ∨ bar0Open off = true) → s.pwr.state ≠ 0 → bar0Awake off = false →
        exec (.registerWrite .host .bar0 off size (some v) false) s
          = .next { s with pwr := { s.pwr with gatedAcc := satInc16 s.pwr.gatedAcc } })
      ∧ (s.hfn.bar0Ok = false → bar0Open off = false → s.pwr.state ≠ 0 → bar0Awake off = false →
        exec (.registerWrite .host .bar0 off size (some v) false) s = .next { s with
          hfn := { s.hfn with gated := satInc16 s.hfn.gated }
          pwr := { s.pwr with gatedAcc := satInc16 s.pwr.gatedAcc } })
      ∧ (s.pwr.state = 0 → ((0x1840000 ≤ off ∧ off < 0x2000000) ∨ 0x2800000 ≤ off) →
        (s.hfn.bar0Ok = true → exec (.registerWrite .host .bar0 off size (some v) false) s
          = .next { s with glb := { s.glb with undefAcc := satInc16 s.glb.undefAcc } })
        ∧ exec (.registerWrite .host .bar0 off size none false) s
          = .next { s with
            glb := { s.glb with undefAcc := satInc16 s.glb.undefAcc }
            hfn := { s.hfn with readData := 0, up := s.hfn.up ++ [.completion 0] } }) := by
  refine ⟨fun hc ho ha => exec_bar0_write ht hw ?_, fun ho hs ha => exec_bar0_write ht hw ?_,
    fun hc ho hs ha => exec_bar0_write ht hw ?_, fun hs hh => ⟨fun hb => exec_bar0_write ht hw ?_, ?_⟩⟩
  · rw [bar0Write_closed s off size v h hc ho, bar0Asleep_eq_false s ha]
    rfl
  · rw [bar0Write_open s off size v h ho, bar0Asleep_eq_true s hs ha]
    rfl
  · rw [bar0Write_closed s off size v h hc ho, bar0Asleep_eq_true s hs ha]
    rfl
  · rw [bar0Write_awake s off size v h (.inl hb) (bar0Asleep_eq_false s (.inl hs)), bar0Store_hole s .host size v hh]
    rfl
  · have read : s.bar0Read off size = some (s.undefAccess, 0) := by
      rw [bar0Read_shaped s off size h, bar0Asleep_eq_false s (.inl hs), if_neg Bool.false_ne_true, bar0Load_hole s size hh]
    exact exec_bar0_read ht hw read

/-- A read of a logical slice's window waits while HOLD is set, and is discarded in Coast and Freewheel (R336, R355). -/
theorem lsliceWindow_read (size : Nat) (s : State) (ht : s.hfnTakes = true) (hw : s.hfn.waits = []) (l : Fin 128)
    (o : BitVec 16) (h : bar0Shape o.toNat size = true) :
    (s.pwr.state = 0 → (s.hfnCopy.entry l).hold = true →
        exec (.lsliceWindowAccess l o size none) s = .next { s with hfn := { s.hfn with
          waits := [{ bar := .bar0, off := 0x2000000 + 0x10000 * l.val + o.toNat, size, wr := none }] } })
      ∧ (s.pwr.state ≠ 0 → exec (.lsliceWindowAccess l o size none) s = .next { s with
          pwr := { s.pwr with gatedAcc := satInc16 s.pwr.gatedAcc }
          hfn := { s.hfn with readData := 0, up := s.hfn.up ++ [.completion 0] } }) := by
  have shape := (bar0Shape_window l o size).trans h
  refine ⟨fun hs hold => ?_, fun hs => ?_⟩
  · have held := hostDo_bar0_read s (0x2000000 + 0x10000 * l.val + o.toNat) size ht
    rw [bar0Read_shaped s _ _ shape, bar0Asleep_eq_false s (.inl hs), if_neg Bool.false_ne_true,
      bar0Load_held s l o size hold] at held
    rw [exec_lsliceWindowAccess, exec_registerWrite_host, hostReq_of_held s _ hw held]
  · have read := bar0Read_shaped s _ _ shape
    rw [bar0Asleep_eq_true s hs (bar0Awake_window l o), if_pos rfl] at read
    exact exec_bar0_read ht hw read

/-- Settles O53: the gates one after another, and then each register by its lemma above. -/
theorem registerAccessesReachTheirRegisters : Obligations.RegisterAccessesReachTheirRegisters := by
  unfold Obligations.RegisterAccessesReachTheirRegisters
  refine fun off size v s => ⟨registerAccess_not_taken off size v s, fun b p wr h => ?_,
    fun b p wr h => steward_idles off size s b p wr h, steward_reads_logSel (s := s),
    fun ht hw => ⟨fun b hb => exec_host_of_done hw (hostDo_poisoned s off size v hb ht),
      fun h hs ha => exec_bar0_write ht hw ?_,
      fun h ha => ⟨exec_bar0_write ht hw ?_, ?_⟩,
      fun h ha => (exec_bar2_write ht hw).trans (congrArg _ (bar2Write_bad s off size v h ha)),
      bar0_write_gates off size v s ht hw, fun hb hs hv => exec_bar0_write ht hw ?_, host_reads_errCnt s ht hw,
      fun i hi => (exec_bar2_write ht hw).trans (congrArg _ (bar2Write_mbxReq s v hi)),
      fun l o => ⟨fun h => (lsliceWindow_read size s ht hw l o h).1, fun h => (lsliceWindow_read size s ht hw l o h).2⟩⟩,
    fun l o wr => exec_lsliceWindowAccess l o size wr s,
    fun hw => ⟨fun h => exec_command_congr s hw h, fun h => exec_command_congr s hw h⟩⟩
  · rw [exec_registerWrite_host, hostReq_of_waiting s _ h]
  · rw [bar0Write_bad s off size v h, bar0Asleep_eq_true s hs ha]
    rfl
  · rw [bar0Write_bad s off size v h, bar0Asleep_eq_false s ha]
    rfl
  · have read := bar0Read_bad s off size h
    rw [bar0Asleep_eq_false s ha] at read
    exact exec_bar0_read ht hw read
  · rw [bar0Write_awake s _ _ v rfl (.inl hb) (bar0Asleep_eq_false s (.inl hs))]
    exact congrArg some (glbWrite_logSel s v hv)

end Sys2Proof.Machine
end

section
/-! SUPPORT. Loads and stores of an engine (chapter 13): an access that two pages of the TLB cover. -/
namespace Sys2Proof.Machine
open Sys2Proof

/-- The page of 4 KiB at `0x10000`, filled first, maps to `0x100000`. -/
def smallPage : TlbEnt := { va := 0x10000, size := 12, pa := 0x100000, r := true, w := true, u := true, se := false }

/-- The page of 2 MiB at 0, filled while the page of 4 KiB stayed in the TLB, maps to `0x200000`. -/
def largePage : TlbEnt := { va := 0, size := 21, pa := 0x200000, r := true, w := true, u := true, se := false }

/-- Engine 1 translates, and both pages cover the address in `g1`. -/
def overlapped : State :=
  { engines := [(1, { Eng.reset 1 with
      state := 1, status := 0x10, regs := [(1, 0x10000)], tlb := [smallPage, largePage] })] }

/-- `SB g0, 0(g1)`. -/
def storeByte : BitVec 32 := 0xB0040000

theorem fwIssues_overlapped : overlapped.fwIssues 1 storeByte 0x2C 0 := by
  unfold State.fwIssues; decide

/-- Before the access the page filled first translates. -/
theorem resolve_overlapped : overlapped.resolve 1 0x10000 1 true = .coh 0x100000 false := by decide

/-- The store itself goes through the other page: making the first one most recently used has put it behind. -/
theorem storeByte_overlapped :
    ∃ t, exec (.sb 1 storeByte) overlapped = .next t ∧ (t.eng 1).sb.map (·.addr) = [0x8400] :=
  ⟨_, rfl, by decide⟩

/-- Refutes O28: where two pages of the TLB cover the address, the statement takes the translation from the TLB as it
stands (`resolve` of the present state), and `touchTlb` first moves that page behind the other, through which the access
then goes (`0x210000` and not `0x100000`). -/
theorem not_engineLoadsAndStores : ¬ Obligations.EngineLoadsAndStores := by
  intro h
  obtain ⟨stores, -⟩ := h.2 1 storeByte overlapped 0x10000 0x100000 (by decide)
  obtain ⟨-, opens, -⟩ := stores (.sb, 0x2C, 1) List.mem_cons_self false fwIssues_overlapped resolve_overlapped
  have claimed := opens _ (fun _ hb => absurd hb List.not_mem_nil) (by decide) rfl
  obtain ⟨t, run, line⟩ := storeByte_overlapped
  rw [run] at claimed
  injection claimed with claimed
  rw [claimed] at line
  exact absurd line (by decide)

end Sys2Proof.Machine
end

section
/-! SUPPORT. An engine's instruction as it issues (R243, R244, R246): what the fetch, the entries and the exception of an
engine with nothing in hand come to, and what an issued instruction leaves. -/
namespace Sys2Proof.Machine
open Sys2Proof

/-! Changes of one engine -/

theorem modEng_modEng (s : State) (e : Nat) (f g : Eng → Eng) :
    (s.modEng e f).modEng e g = s.modEng e fun x => g (f x) := by
  simp [State.modEng, State.eng]

theorem modEng_congr {s : State} {e : Nat} {f g : Eng → Eng} (h : f (s.eng e) = g (s.eng e)) :
    s.modEng e f = s.modEng e g := by
  simp only [State.modEng, h]

@[simp] theorem stw_modEng (s : State) (e : Nat) (f : Eng → Eng) : (s.modEng e f).stw = s.stw := rfl
@[simp] theorem stw_modSlice (s : State) (p : Nat) (f : Slice → Slice) : (s.modSlice p f).stw = s.stw := rfl

/-- The slice's watch is broken (R267). -/
def State.unwatch (s : State) (e : Nat) : State :=
  if isSpoke e then s.modSlice e fun x => { x with watch := none } else s

theorem unwatch_modEng (s : State) (e : Nat) (f : Eng → Eng) : (s.modEng e f).unwatch e = (s.unwatch e).modEng e f := by
  unfold State.unwatch; split <;> rfl

@[simp] theorem eng_unwatch (s : State) (e j : Nat) : (s.unwatch e).eng j = s.eng j := by
  unfold State.unwatch; split <;> rfl

@[simp] theorem stw_unwatch (s : State) (e : Nat) : (s.unwatch e).stw = s.stw := by
  unfold State.unwatch; split <;> rfl

@[simp] theorem besidesEngines_unwatch (s : State) (e : Nat) : (s.unwatch e).besidesEngines = s.besidesEngines := by
  unfold State.unwatch; split <;> rfl

theorem dropRsv_eq (s : State) (e : Nat) : s.dropRsv e
    = (s.unwatch e).modEng e fun g => { g with rsvValid := false, rsvRemote := false, rsvLine := 0 } := by
  unfold State.dropRsv State.unwatch; split <;> rfl

/-! Fetch and entries -/

theorem fetch_of_good {s : State} {e : Nat} (h : s.fetchGood e = true) : s.fetch e = (s, true) := by
  unfold State.fetchGood at h
  unfold State.fetch
  by_cases spoke : isSpoke e = true
  · rw [if_pos spoke, Bool.not_eq_true'] at h
    simp only [if_pos spoke, h, Bool.false_eq_true, if_false]
  · rw [if_neg spoke, Bool.and_eq_true, Bool.not_eq_true', Bool.not_eq_true'] at h
    simp only [if_neg spoke, h.1, h.2, Bool.false_eq_true, if_false]

theorem noEntry_congr {s t : State} {e : Nat} (irq : (t.eng e).irq = (s.eng e).irq)
    (entries : t.stw.entries = s.stw.entries) : t.noEntry e = s.noEntry e := by
  simp only [State.noEntry, irq, entries]

theorem noEntry_main {s : State} {e : Nat} (h : s.noEntry e = true) : (s.eng e).irq = none :=
  Option.isNone_iff_eq_none.mp (Bool.and_eq_true_iff.mp h).1

theorem checkDue_of_noEntry {s : State} (h : s.noEntry 133 = true) : s.checkDue = false := by
  have entries : s.stw.entries = [] := by simpa [State.noEntry] using (Bool.and_eq_true_iff.mp h).2
  simp only [State.checkDue, entries]

theorem checkEntry_of_noEntry {s : State} (h : s.noEntry 133 = true) : s.checkEntry = s := by
  simp only [State.checkEntry, checkDue_of_noEntry h, Bool.false_and, Bool.not_false, if_true]

theorem entering_of_noEntry {s : State} {e : Nat} (h : s.noEntry e = true) : s.entering e = false := by
  unfold State.entering
  split
  · subst e; exact checkDue_of_noEntry h
  · simp [noEntry_main h]

theorem boundary_of_noEntry {s : State} {e : Nat} (h : s.noEntry e = true) : s.boundary e = s := by
  unfold State.boundary
  split
  · subst e; exact checkEntry_of_noEntry h
  · simp only [noEntry_main h]

/-! The next instruction -/

theorem gotoPc_valid {s : State} {e : Nat} {a : Word} (h : validPc e a = true) :
    s.gotoPc e a = s.modEng e fun g => g.goto e a := if_pos h

theorem advance_valid {s : State} {e : Nat} (mode : (s.eng e).mode ≠ .farOp) (next : validPc e ((s.eng e).pc + 4) = true) :
    s.advance e = s.modEng e fun g => g.goto e (g.pc + 4) := by
  rw [State.advance, if_neg mode]
  exact gotoPc_valid next

theorem entered_eq_false {g g' : Eng} (running : g'.state ≠ 3) (eip : g'.eip = true → g.eip = true) :
    g'.entered g = false := by
  unfold Eng.entered
  rw [Bool.or_eq_false_iff, beq_eq_false_iff_ne]
  refine ⟨running, ?_⟩
  cases h : g'.eip
  · rfl
  · simp [eip h]

/-! Issue -/

theorem issues_iff (g : Eng) : g.issues = true ↔ g.state = 1 ∧ g.quiesced = false ∧ g.quiesceReq = false
    ∧ g.warm = false ∧ g.stall = .none ∧ g.walk = none := by
  simp only [Eng.issues, Bool.and_eq_true, beq_iff_eq, Bool.not_eq_true', Option.isNone_iff_eq_none, and_assoc]

theorem insn_of_other_row {s : State} {e : Nat} {w : BitVec 32} {opc : Nat} {zero : BitVec 32} {far user : Bool}
    {body : State → State} (row : wOpc w ≠ BitVec.ofNat 6 opc) (defined : definedOpc (wOpc w).toNat = true) :
    s.insn e w opc zero far user body = s :=
  if_pos ⟨row, by rw [defined]; rfl⟩

/-- The word is one that Table 12.6 does not define, or this row's with what `bad` says. -/
def rowOrUndefined (w : BitVec 32) (opc : Nat) (bad : Prop) : Prop :=
  definedOpc (wOpc w).toNat = false ∨ (wOpc w = BitVec.ofNat 6 opc ∧ bad)

theorem not_other_row {w : BitVec 32} {opc : Nat} {bad : Prop} (h : rowOrUndefined w opc bad) :
    ¬ (wOpc w ≠ BitVec.ofNat 6 opc ∧ (!definedOpc (wOpc w).toNat) = false) := by
  rintro ⟨other, defined⟩
  rcases h with undef | ⟨row, -⟩
  · rw [undef] at defined; exact absurd defined (by decide)
  · exact other row

/-- In far-op mode a word that is not defined, or has a zero bit set, fails the run-time check of code 2 (R210). -/
theorem insn_far_illegal {s : State} {e : Nat} {w : BitVec 32} {opc : Nat} {zero : BitVec 32} {far user : Bool}
    {body : State → State} (bad : rowOrUndefined w opc (w &&& zero ≠ 0)) (mode : (s.eng e).mode = .farOp)
    (fault : (s.eng e).farFault = none) (more : (s.eng e).farDone = false) :
    s.insn e w opc zero far user body = s.farFail e 2 := by
  unfold State.insn
  rw [if_neg (not_other_row bad), if_pos mode, if_neg (by rw [fault, more]; decide)]
  refine if_pos ?_
  rcases bad with undef | ⟨-, zeros⟩
  · simp [undef]
  · rw [bne_iff_ne.mpr zeros]; simp

/-- What lets firmware issue a word, whichever row's it is. -/
structure State.FwReady (s : State) (e : Nat) (w : BitVec 32) : Prop where
  mode : (s.eng e).mode ≠ .farOp
  issues : (s.eng e).issues = true
  awaits : (s.eng e).awaits w = false
  evac : s.evacHeld e = false
  stopped : s.engStopped e = false
  noEntry : s.noEntry e = true
  good : s.fetchGood e = true

theorem fwIssues_iff (s : State) (e : Nat) (w : BitVec 32) (opc : Nat) (zero : BitVec 32) :
    s.fwIssues e w opc zero ↔ wOpc w = BitVec.ofNat 6 opc ∧ w &&& zero = 0 ∧ s.FwReady e w
      ∧ validPc e ((s.eng e).pc + 4) = true := by
  constructor
  · rintro ⟨opcode, zeros, mode, issues, awaits, evac, good, entry, stopped, next⟩
    exact ⟨opcode, zeros, ⟨mode, issues, awaits, evac, stopped, entry, good⟩, next⟩
  · rintro ⟨opcode, zeros, ready, next⟩
    exact ⟨opcode, zeros, ready.mode, ready.issues, ready.awaits, ready.evac, ready.good, ready.noEntry, ready.stopped, next⟩

/-- An engine that is ready acts on the word or takes the exception of an illegal one; with a load pending an entry or a
halt that would come of it waits (R246, log 24). -/
theorem insn_ready {s t : State} {e : Nat} {w : BitVec 32} {opc : Nat} {zero : BitVec 32} {far user : Bool}
    {body : State → State} {bad : Prop} (row : rowOrUndefined w opc bad) (ready : s.FwReady e w)
    (acts : (if !(definedOpc (wOpc w).toNat) || (w &&& zero) != 0 || ((s.eng e).mode == .user && !user) || opc == 0x3F
      then s.exc e 3 (s.eng e).pc (w.setWidth 64) else body s) = t) :
    s.insn e w opc zero far user body =
      if !(s.eng e).loads.isEmpty && (t.eng e).entered (s.eng e) then s else t.boundary e := by
  unfold State.insn
  rw [if_neg (not_other_row row), if_neg ready.mode, if_neg (by
    rw [ready.issues, ready.awaits, ready.evac, ready.stopped, entering_of_noEntry ready.noEntry]; decide),
    fetch_of_good ready.good]
  dsimp only
  rw [acts]

/-- What the instruction does neither enters nor halts behind a pending load, and leaves no entry to take. -/
def State.Quiet (s t : State) (e : Nat) : Prop :=
  ((s.eng e).loads = [] ∨ (t.eng e).entered (s.eng e) = false) ∧ t.noEntry e = s.noEntry e

theorem boundary_of_quiet {s t : State} {e : Nat} (quiet : s.Quiet t e) (none : s.noEntry e = true) :
    (if !(s.eng e).loads.isEmpty && (t.eng e).entered (s.eng e) then s else t.boundary e) = t := by
  obtain ⟨calm, entry⟩ := quiet
  rw [if_neg]
  · exact boundary_of_noEntry (entry.trans none)
  · rcases calm with loads | calm
    · simp [loads]
    · simp [calm]

/-- An instruction that firmware issues and that raises nothing does what its row says. -/
theorem insn_acts {s t : State} {e : Nat} {w : BitVec 32} {opc : Nat} {zero : BitVec 32} {far user : Bool}
    {body : State → State} (h : s.fwIssues e w opc zero) (defined : definedOpc (BitVec.ofNat 6 opc).toNat = true)
    (fret : (opc == 0x3F) = false) (allowed : (s.eng e).mode = .supervisor ∨ user = true)
    (acts : body s = t) (quiet : s.Quiet t e) : s.insn e w opc zero far user body = t := by
  obtain ⟨opcode, zeros, ready, -⟩ := (fwIssues_iff s e w opc zero).mp h
  have user_ok : ((s.eng e).mode == .user && !user) = false := by
    rcases allowed with mode | user
    · rw [mode]; rfl
    · rw [user, Bool.not_true, Bool.and_false]
  rw [insn_ready (.inr ⟨opcode, trivial⟩) ready
    (Eq.trans (if_neg (by rw [opcode, defined, zeros, user_ok, fret]; decide)) acts)]
  exact boundary_of_quiet quiet ready.noEntry

/-! Exceptions of an engine with nothing buffered -/

theorem pump_idle {s : State} {e : Nat} (sb : (s.eng e).sb = []) (walk : (s.eng e).walk = none) : s.pump e = s := by
  unfold State.pump
  simp only [sb, walk, List.map_nil, List.sum_nil, List.range_zero, List.foldl_nil, ite_self]

/-- The engine as an exception of its own leaves it (R246). -/
def Eng.raised (g : Eng) (cause : Nat) (epc eaddr target : Word) : Eng :=
  { g with
    slots := [none], rsvValid := false, rsvRemote := false, rsvLine := 0, tryAt := none
    epc, eaddr, ecause := BitVec.ofNat 64 cause, mode := .supervisor, state := 1, pc := target
    status := (g.status &&& 0x70) ||| (if g.mode = .user then 1 else 0) ||| (if g.ie then 4 else 0) ||| 8 }

/-- Nothing of the engine is in hand that an exception would send, end or push out. -/
def Eng.unencumbered (g : Eng) : Prop := g.sb = [] ∧ g.walk = none ∧ g.slots = []

theorem enter_raises {s : State} {e : Nat} (cause : Nat) (epc eaddr : Word) {target : Word}
    (free : (s.eng e).unencumbered) (valid : validPc e target = true) :
    s.enter e cause epc eaddr target none = (s.unwatch e).modEng e fun g => g.raised cause epc eaddr target := by
  obtain ⟨sb, walk, slots⟩ := free
  have pushed : s.pushSlot e none = s.modEng e fun g => { g with slots := [none] } := by
    simp only [State.pushSlot, slots]; rfl
  unfold State.enter
  dsimp only
  rw [pushed, dropRsv_eq, unwatch_modEng, modEng_modEng, modEng_modEng, pump_idle, if_pos valid, modEng_modEng]
  · exact modEng_congr (by simp [Eng.raised, Eng.startSend, Eng.ie, sb])
  · simp [Eng.startSend, sb]
  · simp [Eng.startSend, walk]

theorem exc_raises {s : State} {e : Nat} (cause : Nat) (epc eaddr : Word) (mode : (s.eng e).mode ≠ .farOp)
    (eip : (s.eng e).status.getLsbD 3 = false) (free : (s.eng e).unencumbered)
    (valid : validPc e ((s.eng e).evbase + BitVec.ofNat 64 (64 * cause)) = true) :
    s.exc e cause epc eaddr = (s.unwatch e).modEng e fun g =>
      g.raised cause epc eaddr ((s.eng e).evbase + BitVec.ofNat 64 (64 * cause)) := by
  unfold State.exc Eng.eip
  rw [if_neg mode, eip]
  exact enter_raises cause epc eaddr free valid

theorem noEntry_raised (s : State) (e cause : Nat) (epc eaddr target : Word) :
    ((s.unwatch e).modEng e fun g => g.raised cause epc eaddr target).noEntry e = s.noEntry e :=
  noEntry_congr (by simp [Eng.raised]) (by simp)

/-- A word firmware may not issue takes ILLEGAL at its own address (R243, Table 12.7). -/
theorem insn_illegal {s : State} {e : Nat} {w : BitVec 32} {opc : Nat} {zero : BitVec 32} {far user : Bool}
    {body : State → State}
    (bad : rowOrUndefined w opc (w &&& zero ≠ 0 ∨ opc = 0x3F ∨ ((s.eng e).mode = .user ∧ user = false)))
    (ready : s.FwReady e w) (loads : (s.eng e).loads = []) (eip : (s.eng e).status.getLsbD 3 = false)
    (sb : (s.eng e).sb = []) (slots : (s.eng e).slots = []) (valid : validPc e ((s.eng e).evbase + 192) = true) :
    s.insn e w opc zero far user body = (s.unwatch e).modEng e fun g =>
      g.raised 3 (s.eng e).pc (w.setWidth 64) ((s.eng e).evbase + 192) := by
  have refused : (!(definedOpc (wOpc w).toNat) || (w &&& zero) != 0 || ((s.eng e).mode == .user && !user)
      || opc == 0x3F) = true := by
    rcases bad with undef | ⟨-, zeros | fret | ⟨mode, user⟩⟩
    · simp [undef]
    · rw [bne_iff_ne.mpr zeros]; simp
    · simp [fret]
    · simp [mode, user]
  obtain ⟨-, -, -, -, -, walk⟩ := (issues_iff _).mp ready.issues
  rw [insn_ready bad ready ((if_pos refused).trans (exc_raises 3 _ _ ready.mode eip ⟨sb, walk, slots⟩ valid))]
  exact boundary_of_quiet ⟨.inl loads, noEntry_raised ..⟩ ready.noEntry

end Sys2Proof.Machine
end

section
/-! SUPPORT. What WAIT, IRET, SYSCALL, TLBI, CSRR, CSRW and FRET do (R242, R246, R247, R250, R274, R289, R210), and the
illegal words (R243). -/
namespace Sys2Proof.Machine
open Sys2Proof

theorem fwIssues_next {s : State} {e : Nat} {w : BitVec 32} {opc : Nat} {zero : BitVec 32} (h : s.fwIssues e w opc zero) :
    validPc e ((s.eng e).pc + 4) = true := by
  obtain ⟨-, -, -, next⟩ := (fwIssues_iff ..).mp h
  exact next

theorem fwIssues_ready {s : State} {e : Nat} {w : BitVec 32} {opc : Nat} {zero : BitVec 32} (h : s.fwIssues e w opc zero) :
    s.FwReady e w := by
  obtain ⟨-, -, ready, -⟩ := (fwIssues_iff ..).mp h
  exact ready

theorem state_of_issues {g : Eng} (h : g.issues = true) : g.state = 1 := ((issues_iff g).mp h).1

theorem not_far_of_supervisor {m : EMode} (h : m = .supervisor) : m ≠ .farOp := by
  rw [h]; decide

/-- A change of the engine that keeps its committed source, does not halt it and sets no EIP is quiet. -/
theorem quiet_modEng {s : State} {e : Nat} {f : Eng → Eng} (irq : (f (s.eng e)).irq = (s.eng e).irq)
    (calm : (s.eng e).loads = [] ∨ ((f (s.eng e)).state ≠ 3 ∧ ((f (s.eng e)).eip = true → (s.eng e).eip = true))) :
    s.Quiet (s.modEng e f) e := by
  refine ⟨calm.imp_right fun ⟨running, eip⟩ => entered_eq_false ?_ ?_, noEntry_congr ?_ rfl⟩
  · rwa [eng_modEng, if_pos rfl]
  · rwa [eng_modEng, if_pos rfl]
  · rwa [eng_modEng, if_pos rfl]

/-! WAIT and IRET -/

theorem exec_wait (e : Fin 134) (w : BitVec 32) (s : State) : exec (.wait e w) s = execWait e w s := rfl
theorem exec_iret (e : Fin 134) (w : BitVec 32) (s : State) : exec (.iret e w) s = execIret e w s := rfl

/-- The engine waits at the next instruction. -/
def Eng.waiting (g : Eng) (e : Nat) : Eng := { g.goto e (g.pc + 4) with state := 2 }

theorem wake_of_none {s : State} {e : Nat} (entry : s.noEntry e = true) (h : e = 133 ∨ s.wakeSrc e = none) : s.wake e = s := by
  unfold State.wake
  by_cases checker : e = 133
  · subst checker
    rw [if_pos rfl]
    exact checkEntry_of_noEntry entry
  · rw [if_neg checker, h.resolve_left checker]

theorem exec_wait_waits {e : Fin 134} {w : BitVec 32} {s : State} (h : s.fwIssues e w 0x38 0x3FFFFFF)
    (mode : (s.eng e).mode = .supervisor) (none : e.val = 133 ∨ (s.modEng e fun g => g.waiting e).wakeSrc e = none) :
    exec (.wait e w) s = .next (s.modEng e fun g => g.waiting e) := by
  have ready := fwIssues_ready h
  have quiet : s.Quiet (s.modEng e fun g => g.waiting e) e :=
    quiet_modEng rfl (.inr ⟨(by decide : (2 : BitVec 2) ≠ 3), id⟩)
  rw [exec_wait, execWait]
  refine congrArg Host.Outcome.next (insn_acts h rfl rfl (.inl mode) ?_ quiet)
  rw [advance_valid (not_far_of_supervisor mode) (fwIssues_next h)]
  dsimp only
  rw [if_pos (by rw [eng_modEng, if_pos rfl]; exact state_of_issues ready.issues), modEng_modEng]
  exact wake_of_none (quiet.2.trans ready.noEntry) none

/-- The engine returns to EPC, the top slot of its record popped. -/
def Eng.iretState (g : Eng) : Eng :=
  { g with
    slots := g.slots.drop 1, mode := (if g.status.getLsbD 0 then .user else .supervisor)
    status := (g.status &&& 0x75) ||| (if g.status.getLsbD 2 then 2 else 0) }

theorem eip_iretState (g : Eng) : g.iretState.eip = false := by
  unfold Eng.iretState Eng.eip
  cases h : g.status.getLsbD 2 <;> simp

theorem exec_iret_returns {e : Fin 134} {w : BitVec 32} {s : State} (h : s.fwIssues e w 0x39 0x3FFFFFF)
    (mode : (s.eng e).mode = .supervisor) (none : (s.eng e).slots = [] ∨ (s.eng e).slots.head? = some none)
    (valid : validPc e (s.eng e).epc = true) :
    exec (.iret e w) s = .next (s.modEng e fun g => g.iretState.goto e g.epc) := by
  have running : (s.eng e).state ≠ 3 := ne_of_eq_of_ne (state_of_issues (fwIssues_ready h).issues) (by decide)
  have quiet : s.Quiet (s.modEng e fun g => g.iretState.goto e g.epc) e :=
    quiet_modEng rfl (.inr ⟨running, fun eip => absurd ((eip_iretState _).symm.trans eip) (by decide)⟩)
  rw [exec_iret, execIret]
  refine congrArg Host.Outcome.next (insn_acts h rfl rfl (.inl mode) ?_ quiet)
  dsimp only
  refine (congrArg (fun u : State => (u.modEng e Eng.iretState).gotoPc e (s.eng e).epc) (?_ : _ = s)).trans ?_
  · split
    · next n rest top => simp [top] at none
    · rfl
  · rw [gotoPc_valid valid, modEng_modEng]
    exact modEng_congr rfl

/-! SYSCALL and the illegal words -/

theorem exec_syscall (e : Fin 134) (w : BitVec 32) (s : State) : exec (.syscall e w) s = execSyscall e w s := rfl

theorem exec_syscall_raises {e : Fin 134} {w : BitVec 32} {s : State} (h : s.fwIssues e w 0x3A 0x3FC0000)
    (eip : (s.eng e).status.getLsbD 3 = false) (sb : (s.eng e).sb = []) (loads : (s.eng e).loads = [])
    (slots : (s.eng e).slots = []) (valid : validPc e ((s.eng e).evbase + 256) = true) :
    exec (.syscall e w) s = .next ((s.unwatch e).modEng e fun g => g.raised 4 ((s.eng e).pc + 4)
      ((w.extractLsb' 0 18).setWidth 64) ((s.eng e).evbase + 256)) := by
  have ready := fwIssues_ready h
  obtain ⟨-, -, -, -, -, walk⟩ := (issues_iff _).mp ready.issues
  rw [exec_syscall, execSyscall]
  exact congrArg Host.Outcome.next (insn_acts h rfl rfl (.inr rfl)
    (exc_raises 4 _ _ ready.mode eip ⟨sb, walk, slots⟩ valid) ⟨.inl loads, noEntry_raised ..⟩)

/-! CSRR, CSRW and FRET -/

theorem exec_csrr (e : Fin 134) (w : BitVec 32) (s : State) : exec (.csrr e w) s = execCsrr e w s := rfl
theorem exec_csrw (e : Fin 134) (w : BitVec 32) (s : State) : exec (.csrw e w) s = execCsrw e w s := rfl
theorem exec_fret (e : Fin 134) (w : BitVec 32) (s : State) : exec (.fret e w) s = execFret e w s := rfl

/-- A write of rd leaves alone what steers the engine. -/
theorem setReg_keeps (g : Eng) (n : Nat) (v : Word) : (g.setReg n v).mode = g.mode ∧ (g.setReg n v).pc = g.pc
    ∧ (g.setReg n v).irq = g.irq ∧ (g.setReg n v).state = g.state ∧ (g.setReg n v).status = g.status := by
  unfold Eng.setReg
  split
  · trivial
  · split <;> trivial

theorem retire_valid {s : State} {e : Nat} (rd : Nat) (v : Word) (mode : (s.eng e).mode ≠ .farOp)
    (next : validPc e ((s.eng e).pc + 4) = true) :
    s.retire e rd v = s.modEng e fun g => (g.setReg rd v).goto e (g.pc + 4) := by
  obtain ⟨mode', pc', -⟩ := setReg_keeps (s.eng e) rd v
  unfold State.retire
  rw [advance_valid, modEng_modEng]
  · exact modEng_congr (congrArg (fun pc => ((s.eng e).setReg rd v).goto e (pc + 4)) pc')
  · rwa [eng_modEng, if_pos rfl, mode']
  · rwa [eng_modEng, if_pos rfl, pc']

theorem exec_csrr_reads {e : Fin 134} {w : BitVec 32} {s : State} {v : Word} (h : s.fwIssues e w 0x3C 0x3FF000)
    (mode : (s.eng e).mode = .supervisor) (listed : s.csrRead e (w.extractLsb' 0 12).toNat = some v) :
    exec (.csrr e w) s = .next (s.modEng e fun g => (g.setReg (wRd w) v).goto e (g.pc + 4)) := by
  obtain ⟨-, -, irq, state, status⟩ := setReg_keeps (s.eng e) (wRd w) v
  have running : ((s.eng e).setReg (wRd w) v).state ≠ 3 :=
    ne_of_eq_of_ne (state.trans (state_of_issues (fwIssues_ready h).issues)) (by decide)
  have quiet : s.Quiet (s.modEng e fun g => (g.setReg (wRd w) v).goto e (g.pc + 4)) e :=
    quiet_modEng irq (.inr ⟨running, fun eip => (congrArg (·.getLsbD 3) status).symm.trans eip⟩)
  rw [exec_csrr, execCsrr]
  refine congrArg Host.Outcome.next (insn_acts h rfl rfl (.inl mode) ?_ quiet)
  dsimp only
  rw [listed, mode]
  exact retire_valid (wRd w) v (not_far_of_supervisor mode) (fwIssues_next h)

/-- A write of a control register leaves alone what steers the engine, but that the status register has EIP. -/
theorem csrWrite_keeps {g g' : Eng} {n : Nat} {v : Word} (h : g.csrWrite n v = some g') :
    g'.mode = g.mode ∧ g'.pc = g.pc ∧ g'.irq = g.irq ∧ g'.state = g.state ∧ (n ≠ 0 → g'.status = g.status) := by
  unfold Eng.csrWrite at h
  split at h
  · cases h; exact ⟨rfl, rfl, rfl, rfl, fun _ => rfl⟩
  · split at h
    case h_1 => cases h; exact ⟨rfl, rfl, rfl, rfl, fun status => absurd rfl status⟩
    all_goals cases h
    all_goals exact ⟨rfl, rfl, rfl, rfl, fun _ => rfl⟩

@[simp] theorem eng_noteRsvd (s : State) (b : Bool) (e : Nat) : (s.noteRsvd b).eng e = s.eng e := by
  unfold State.noteRsvd; split <;> rfl

@[simp] theorem stw_noteRsvd (s : State) (b : Bool) : (s.noteRsvd b).stw = s.stw := by
  unfold State.noteRsvd; split <;> rfl

/-- CSRW of a register that can be written; of the tandem the main engine's reserved bits count (R6, R277). -/
theorem exec_csrw_writes {e : Fin 134} {w : BitVec 32} {s : State} {g' : Eng} (h : s.fwIssues e w 0x3D 0x3C00000)
    (mode : (s.eng e).mode = .supervisor)
    (listed : (s.eng e).csrWrite (w.extractLsb' 0 12).toNat ((s.eng e).reg (wR1 w)) = some g')
    (calm : (s.eng e).loads = [] ∨ w.extractLsb' 0 12 ≠ 0) :
    exec (.csrw e w) s = .next ((s.noteRsvd (e.val != 133
        && ((s.eng e).reg (wR1 w) &&& csrRsvd (w.extractLsb' 0 12).toNat) != 0)).modEng e fun g => g'.goto e (g.pc + 4)) := by
  obtain ⟨mode', pc', irq, state, status⟩ := csrWrite_keeps listed
  have running : g'.state ≠ 3 := ne_of_eq_of_ne (state.trans (state_of_issues (fwIssues_ready h).issues)) (by decide)
  have eip (n : w.extractLsb' 0 12 ≠ 0) : g'.eip = true → (s.eng e).eip = true := fun eip =>
    (congrArg (·.getLsbD 3) (status fun zero => n (BitVec.eq_of_toNat_eq zero))).symm.trans eip
  have quiet (b : Bool) : s.Quiet ((s.noteRsvd b).modEng e fun g => g'.goto e (g.pc + 4)) e := by
    refine ⟨calm.imp_right fun n => ?_, noEntry_congr ?_ (by simp)⟩
    · rw [eng_modEng, if_pos rfl]
      exact entered_eq_false running (eip n)
    · rw [eng_modEng, if_pos rfl]
      exact irq
  rw [exec_csrw, execCsrw]
  refine congrArg Host.Outcome.next (insn_acts h rfl rfl (.inl mode) ?_ (quiet _))
  dsimp only
  rw [listed]
  dsimp only
  rw [advance_valid, modEng_modEng]
  · exact modEng_congr (by simp [pc'])
  · rw [eng_modEng, if_pos rfl, mode', mode]; decide
  · rw [eng_modEng, if_pos rfl, pc']; exact fwIssues_next h

/-- FRET ends the program with its status, within the budget (R207, R208, R210). -/
theorem exec_fret_ends {e : Fin 134} {w : BitVec 32} {s : State} (h : s.farIssues e w 0x3F 0x3FFFF00) :
    exec (.fret e w) s = .next ((s.modEng e fun g => { g with farUsed := g.farUsed + 1, farDone := true }).modSlice e
      fun x => { x with far := { x.far with ended := some (true, w.extractLsb' 0 8) } }) := by
  obtain ⟨row, zeros, mode, fault, more, used, place⟩ := h
  rw [exec_fret, execFret]
  refine congrArg Host.Outcome.next ?_
  unfold State.insn
  rw [if_neg (by rw [row]; simp), if_pos mode, if_neg (by rw [fault, more]; decide), if_neg (by
    rw [row, zeros, decide_eq_false (by omega)]; decide)]
  dsimp only
  rw [modEng_modEng]
  have inBudget : ((s.eng e).farUsed + 1 ≤ 40) := by omega
  simp [State.farBudget, fault, inBudget]

end Sys2Proof.Machine
end

section
/-! SUPPORT. The tandem's held outputs and TLBI (R250, R274). -/
namespace Sys2Proof.Machine
open Sys2Proof

/-! The outputs of the tandem -/

/-- What an output of the tandem leaves alone: the engines, and the entries the checker engine is to follow. -/
def State.tandemKept (s : State) : NMap Eng × List (Nat × Option (Nat × Word)) := (s.engines, s.stw.entries)

/-- The record of a divergence (R250, Table 20.2). -/
def State.divergeRec (s : State) : ErrRec :=
  let s := { s with stw := { s.stw with lsMismatch := true, outMain := [], outCheck := [] } }
  { cls := 2, unit := 4, index := 0, code := 0x38, agent := some 452, detail := s.stwStat.setWidth 64, time := s.time,
    eclk := s.eclk }

/-- A divergence stops the tandem's outputs and is recorded. -/
theorem diverge_eq (s : State) : s.diverge = { s with
    stw := { s.stw with lsMismatch := true, outMain := [], outCheck := [] }
    ras := { s.ras with inflight := s.ras.inflight ++ [s.divergeRec] }
    saf := s.diverge.saf, spare := s.diverge.spare } :=
  record_eq { s with stw := { s.stw with lsMismatch := true, outMain := [], outCheck := [] } } _
    (.inl (show (2 : BitVec 2) ≠ 0 by decide))

theorem tandemKept_diverge (s : State) : s.diverge.tandemKept = s.tandemKept := by
  rw [diverge_eq]; rfl

theorem tandemKept_glbEvent (s : State) (code : Nat) : (s.glbEvent code).tandemKept = s.tandemKept := rfl

theorem tandemKept_rpqLevel (s : State) (q before : Nat) : (s.rpqLevel q before).tandemKept = s.tandemKept := by
  unfold State.rpqLevel; dsimp only; split <;> rfl

theorem tandemKept_rpqPush (s : State) (q : Nat) (v : BitVec 32) (n : Fin 5) :
    (s.rpqPush q v n).tandemKept = s.tandemKept := by
  unfold State.rpqPush
  dsimp only
  split
  · exact tandemKept_glbEvent ..
  · exact tandemKept_rpqLevel ..

theorem tandemKept_tandemLeaves (s : State) (o : TandemOut) : (s.tandemLeaves o).tandemKept = s.tandemKept := by
  cases o with
  | msg m since => rfl
  | push q v n => exact tandemKept_rpqPush s q v n

theorem tandemKept_tandemOut (s : State) (e : Nat) (o : TandemOut) : (s.tandemOut e o).tandemKept = s.tandemKept := by
  unfold State.tandemOut
  split
  · rfl
  · have held : (if e = 132 then s.modStw fun x => { x with outMain := x.outMain ++ [o] }
        else s.modStw fun x => { x with outCheck := x.outCheck ++ [o] }).tandemKept = s.tandemKept := by
      split <;> rfl
    dsimp only
    rw [← held]
    split
    · split
      · exact tandemKept_tandemLeaves ..
      · exact tandemKept_diverge _
    · rfl

/-- With nothing of the other engine to compare it with, an output is held. -/
theorem tandemOut_held {s : State} {e : Nat} (o : TandemOut) (same : s.stw.lsMismatch = false)
    (main : s.stw.outMain = []) (check : s.stw.outCheck = []) :
    s.tandemOut e o = s.modStw fun x =>
      if e = 132 then { x with outMain := [o] } else { x with outCheck := [o] } := by
  unfold State.tandemOut
  rw [same]
  split
  · contradiction
  · split <;> simp [State.modStw, main, check]

/-- The main engine's output is one the checker engine has made: it leaves. -/
theorem tandemOut_same {s : State} (m : Msg) (since before : Nat) (same : s.stw.lsMismatch = false)
    (main : s.stw.outMain = []) (check : s.stw.outCheck = [.msg m before]) :
    s.tandemOut 132 (.msg m since)
      = (s.modStw fun x => { x with outMain := [], outCheck := [] }).tandemLeaves (.msg m since) := by
  unfold State.tandemOut
  simp [same, main, check, State.modStw, TandemOut.same]

/-- The main engine's output is not the one the checker engine has made. -/
theorem tandemOut_differs {s : State} {m m' : Msg} (since before : Nat) (same : s.stw.lsMismatch = false)
    (main : s.stw.outMain = []) (check : s.stw.outCheck = [.msg m before]) (differ : m' ≠ m) :
    s.tandemOut 132 (.msg m' since) = (s.modStw fun x => { x with outMain := [.msg m' since] }).diverge := by
  unfold State.tandemOut
  simp [same, main, check, State.modStw, TandemOut.same, differ]

theorem stw_diverge (s : State) : s.diverge.stw = { s.stw with lsMismatch := true, outMain := [], outCheck := [] } := by
  rw [diverge_eq]

theorem ports_diverge (s : State) : s.diverge.ports = s.ports := by
  rw [diverge_eq]

theorem recorded_diverge (s : State) : Recorded s s.diverge 2 0x38 0 :=
  ⟨s.divergeRec, by rw [diverge_eq], rfl, rfl, rfl, rfl⟩

/-! TLBI -/

theorem exec_tlbi (e : Fin 134) (w : BitVec 32) (s : State) : exec (.tlbi e w) s = execTlbi e w s := rfl

/-- The data of `TlbInv`: the address, the size brought within 12 to 48, and ALL (R274). -/
def tlbiData (va r2 : Word) : LineData :=
  (va.setWidth 512 <<< 64) ||| (BitVec.ofNat 512 (if (r2.extractLsb' 0 6).toNat < 12 then 12
      else if 48 < (r2.extractLsb' 0 6).toNat then 48 else (r2.extractLsb' 0 6).toNat) <<< 128)
    ||| (if r2.getLsbD 8 then BitVec.ofNat 512 1 <<< 136 else 0)

/-- What stands above bit 127 leaves the address alone. -/
theorem extractLsb'_low (va : Word) (x y : LineData) (low : ∀ i < 128, y.getLsbD i = false) :
    ((va.setWidth 512 <<< 64) ||| (x <<< 128) ||| y).extractLsb' 64 64 = va := by
  refine BitVec.eq_of_getLsbD_eq fun i hi => ?_
  have below : 64 + i < 128 := by omega
  have width : 64 + i < 512 := by omega
  rw [BitVec.getLsbD_extractLsb', BitVec.getLsbD_or, low _ below]
  simp [hi, below, width]

theorem extractLsb'_tlbiData (va r2 : Word) : (tlbiData va r2).extractLsb' 64 64 = va := by
  refine extractLsb'_low va _ _ fun i hi => ?_
  have below : i < 136 := by omega
  split
  · rw [BitVec.getLsbD_shiftLeft, decide_eq_true below]
    simp only [Bool.not_true, Bool.and_false, Bool.false_and]
  · exact BitVec.getLsbD_zero

/-- `TlbInv` as the engine sends it. -/
def tlbiMsg (g : Eng) (e : Nat) (w : BitVec 32) : Msg :=
  { mkMsg 0x18 (engAgent e) 1020 with txn := g.freeTxn, data := tlbiData (g.reg (wR1 w)) (g.reg (wR2 w)) }

/-- The engine stalls for its `TlbInvDone`, its TLB credit spent. -/
def State.tlbiStall (s : State) (e : Nat) : State :=
  s.modEng e fun g => { g with stall := .tlbi (s.eng e).freeTxn, tlbTxn := some (s.eng e).freeTxn }

/-- The engine has sent its `TlbInv`. -/
def State.tlbiSent (s : State) (e : Nat) (w : BitVec 32) : State :=
  (s.tlbiStall e).engSend e (tlbiMsg (s.eng e) e w)

theorem exec_tlbi_waits {e : Fin 134} {w : BitVec 32} {s : State} (h : s.fwIssues e w 0x3B 0x3C03FFF)
    (mode : (s.eng e).mode = .supervisor) (sb : (s.eng e).sb = [])
    (busy : s.pushWaits e = true ∨ (s.eng e).tlbTxn ≠ none) : exec (.tlbi e w) s = .next s := by
  have ready := fwIssues_ready h
  have waits : (s.pushWaits e || (s.eng e).tlbTxn.isSome) = true := by
    rw [Bool.or_eq_true, Option.isSome_iff_ne_none]; exact busy
  have running : (s.eng e).state ≠ 3 := ne_of_eq_of_ne (state_of_issues ready.issues) (by decide)
  rw [exec_tlbi, execTlbi]
  refine congrArg Host.Outcome.next (insn_acts h rfl rfl (.inl mode) ?_ ⟨.inr (entered_eq_false running id), rfl⟩)
  dsimp only
  rw [if_neg (not_not_intro sb), if_pos waits]

theorem exec_tlbi_sends {e : Fin 134} {w : BitVec 32} {s : State} (h : s.fwIssues e w 0x3B 0x3C03FFF)
    (mode : (s.eng e).mode = .supervisor) (sb : (s.eng e).sb = []) (push : s.pushWaits e = false)
    (credit : (s.eng e).tlbTxn = none)
    (sent : (s.tlbiSent e w).tandemKept = (s.tlbiStall e).tandemKept) :
    exec (.tlbi e w) s = .next (s.tlbiSent e w) := by
  have ready := fwIssues_ready h
  have engine : (s.tlbiSent e w).eng e = (s.tlbiStall e).eng e :=
    congrArg (fun k => k.1.get Eng.reset e) sent
  have stalled : (s.tlbiStall e).eng e
      = { s.eng e with stall := .tlbi (s.eng e).freeTxn, tlbTxn := some (s.eng e).freeTxn } := by
    rw [State.tlbiStall, eng_modEng, if_pos rfl]
  have running : (s.eng e).state ≠ 3 := ne_of_eq_of_ne (state_of_issues ready.issues) (by decide)
  rw [exec_tlbi, execTlbi]
  refine congrArg Host.Outcome.next (insn_acts h rfl rfl (.inl mode) ?_ ⟨.inr ?_, noEntry_congr ?_ (congrArg Prod.snd sent)⟩)
  · dsimp only
    rw [if_neg (not_not_intro sb), push, credit]
    rfl
  · rw [engine, stalled]
    exact entered_eq_false running id
  · rw [engine, stalled]

/-- A spoke engine's message to the steward port leaves through its slice's stop (R9). -/
theorem engSend_relay {s : State} {e : Nat} {m : Msg} (spoke : isSpoke e = true) (cls : m.cls ≠ 0) (dst : m.dst = 1020) :
    s.engSend e m = s.modSlice e fun x => { x with stop := { x.stop with
      outbox := x.stop.outbox ++ [{ flitOf m 0 with dkind := 1, dest := 1020 }] } } := by
  have below : ¬ 132 ≤ e := by simpa [isSpoke] using spoke
  unfold State.engSend
  rw [if_neg (fun h => cls h.1 : ¬ (m.cls = 0 ∧ isSpoke e = true)), if_neg below]
  dsimp only
  rw [if_neg (fun h => absurd (dst.symm.trans h.1) (by decide))]

theorem engSend_tandem {s : State} {e : Nat} {m : Msg} (steward : isSpoke e = false) :
    s.engSend e m = s.tandemOut e (.msg m s.time) := by
  have above : 132 ≤ e := by simpa [isSpoke] using steward
  unfold State.engSend
  rw [if_neg (fun h => absurd (steward.symm.trans h.2) (by decide) : ¬ (m.cls = 0 ∧ isSpoke e = true)), if_pos above]

theorem tlbiMsg_cls (g : Eng) (e : Nat) (w : BitVec 32) : (tlbiMsg g e w).cls ≠ 0 :=
  show (mkMsg 0x18 0 1020).cls ≠ 0 by decide

theorem tandemKept_tlbi (s : State) (e : Nat) (w : BitVec 32) :
    (s.tlbiSent e w).tandemKept = (s.tlbiStall e).tandemKept := by
  unfold State.tlbiSent
  cases spoke : isSpoke e
  · rw [engSend_tandem spoke]; exact tandemKept_tandemOut ..
  · rw [engSend_relay spoke (tlbiMsg_cls _ _ _) rfl]; rfl

end Sys2Proof.Machine
end

section
/-! SUPPORT. The system instructions and the illegal words of every row (R242, R243, R246, R247, R250, R274). -/
namespace Sys2Proof.Machine
open Sys2Proof

/-! TLBI and the tandem -/

theorem eng_of_tandemKept {s t : State} (h : t.tandemKept = s.tandemKept) (e : Nat) : t.eng e = s.eng e :=
  congrArg (fun k => k.1.get Eng.reset e) h

theorem flitOf_msg (m : Msg) (p : Nat) : (flitOf m p).msg = m := by
  unfold flitOf; split
  · rfl
  · split <;> rfl

/-- What TLBI leaves of the engine itself. -/
theorem eng_tlbi (s : State) (e : Nat) (w : BitVec 32) : (s.tlbiSent e w).eng e
    = { s.eng e with stall := .tlbi (s.eng e).freeTxn, tlbTxn := some (s.eng e).freeTxn } := by
  rw [eng_of_tandemKept (tandemKept_tlbi s e w), State.tlbiStall, eng_modEng, if_pos rfl]

/-- A spoke engine's `TlbInv` goes to the steward port. -/
theorem tlbi_spoke (s : State) (e : Nat) (w : BitVec 32) (spoke : isSpoke e = true) :
    { s.tlbiSent e w with engines := s.engines, slices := s.slices } = s
    ∧ ∃ f, ((s.tlbiSent e w).slice e).stop.outbox = (s.slice e).stop.outbox ++ [f]
      ∧ f.dest = 1020 ∧ f.msg.opc = 0x18 ∧ f.msg.src = engAgent e ∧ f.msg.dst = 1020 ∧ f.msg.txn = (s.eng e).freeTxn
      ∧ f.msg.data.extractLsb' 64 64 = (s.eng e).reg (wR1 w) := by
  rw [State.tlbiSent, engSend_relay spoke (tlbiMsg_cls _ _ _) rfl]
  refine ⟨eq_of_besidesEngines_eq (by simp [State.tlbiStall]),
    { flitOf (tlbiMsg (s.eng e) e w) 0 with dkind := 1, dest := 1020 }, ?_, rfl, ?_⟩
  · rw [slice_modSlice, if_pos rfl]; rfl
  · dsimp only
    rw [flitOf_msg]
    exact ⟨rfl, rfl, rfl, rfl, extractLsb'_tlbiData ..⟩

/-- A steward engine's `TlbInv` is held until the other engine has made its own. -/
theorem tlbi_steward {s : State} {e : Nat} (w : BitVec 32) (steward : isSpoke e = false) (same : s.stw.lsMismatch = false)
    (main : s.stw.outMain = []) (check : s.stw.outCheck = []) :
    s.tlbiSent e w = (s.tlbiStall e).modStw fun x =>
      if e = 132 then { x with outMain := [.msg (tlbiMsg (s.eng e) e w) s.time] }
      else { x with outCheck := [.msg (tlbiMsg (s.eng e) e w) s.time] } := by
  rw [State.tlbiSent, engSend_tandem steward]
  exact tandemOut_held (s := s.tlbiStall e) _ same main check

theorem modStw_modEng_frame (s : State) (e : Nat) (f : Eng → Eng) (g : Steward → Steward) :
    { (s.modEng e f).modStw g with engines := s.engines, stw := s.stw } = s := by
  cases s; rfl

theorem tlbi_steward_holds {s : State} {e : Nat} (w : BitVec 32) (steward : isSpoke e = false)
    (same : s.stw.lsMismatch = false) (main : s.stw.outMain = []) (check : s.stw.outCheck = []) :
    { s.tlbiSent e w with engines := s.engines, stw := s.stw } = s
    ∧ (if e = 132 then (s.tlbiSent e w).stw.outMain
        else (s.tlbiSent e w).stw.outCheck).length = 1
    ∧ (if e = 132 then (s.tlbiSent e w).stw.outCheck
        else (s.tlbiSent e w).stw.outMain) = [] := by
  rw [tlbi_steward w steward same main check]
  refine ⟨modStw_modEng_frame .., ?_⟩
  by_cases h : e = 132
  · simp [h, State.modStw, State.tlbiStall, check]
  · simp [h, State.modStw, State.tlbiStall, main]

/-- The main engine's `TlbInv` behind the one the checker engine has made: it leaves into the steward port, or the two
differ and none leaves (R250). -/
theorem tlbi_tandem {s : State} {e : Nat} {m : Msg} {since : Nat} (w : BitVec 32) (tandem : e = 132)
    (same : s.stw.lsMismatch = false) (main : s.stw.outMain = []) (check : s.stw.outCheck = [.msg m since]) :
    let u := s.tlbiSent e w
    (tlbiMsg (s.eng e) e w = m → u.stw.outMain = [] ∧ u.stw.outCheck = [] ∧ u.stw.lsMismatch = false
      ∧ (u.port 48).ingress = (s.port 48).ingress ++ [m])
    ∧ (tlbiMsg (s.eng e) e w ≠ m → u.stw.outMain = [] ∧ u.stw.outCheck = [] ∧ u.stw.lsMismatch = true
      ∧ u.ports = s.ports ∧ Recorded s u 2 0x38 0) := by
  subst tandem
  dsimp only
  rw [State.tlbiSent, engSend_tandem rfl]
  refine ⟨fun equal => ?_, fun differ => ?_⟩
  · rw [equal, tandemOut_same (s := s.tlbiStall 132) m _ since same main check]
    refine ⟨rfl, rfl, same, ?_⟩
    unfold State.tandemLeaves
    dsimp only
    rw [if_neg (equal ▸ tlbiMsg_cls _ _ _), port_modPort, if_pos rfl]
    rfl
  · rw [tandemOut_differs (s := s.tlbiStall 132) _ since same main check differ, stw_diverge, ports_diverge]
    exact ⟨rfl, rfl, rfl, rfl, recorded_diverge _⟩

theorem pushWaits_main {s : State} {e : Nat} (tandem : e = 132) (main : s.stw.outMain = []) : s.pushWaits e = false := by
  simp [State.pushWaits, main, tandem]

/-- The state before the checker engine has made an output. -/
def State.checkerSilent (s : State) : State := { s with stw := { s.stw with outCheck := [] } }

theorem outMain_of_tlbi {s t : State} {e : Fin 134} {w : BitVec 32} (tandem : e.val = 132)
    (h : s.fwIssues e w 0x3B 0x3C03FFF) (mode : (s.eng e).mode = .supervisor) (sb : (s.eng e).sb = [])
    (credit : (s.eng e).tlbTxn = none) (same : s.stw.lsMismatch = false) (main : s.stw.outMain = [])
    (run : exec (.tlbi e w) s.checkerSilent = .next t) :
    t.stw.outMain = [.msg (tlbiMsg (s.eng e) e w) s.time] := by
  rw [exec_tlbi_sends (s := s.checkerSilent) h mode sb (pushWaits_main tandem main) credit (tandemKept_tlbi ..),
    tlbi_steward (s := s.checkerSilent) w (by simp [isSpoke, tandem]) same main rfl] at run
  injection run with run
  rw [← run, tandem]
  rfl

/-! Rows -/

/-- A row of Table 12.6 issues by its opcode, its zero bits and whether user mode may use it. -/
def EngineRow (o : (Fin 134 → BitVec 32 → Instr) × Nat × BitVec 32 × Bool) : Prop :=
  ∃ user, (∀ e w s, ∃ far body, exec (o.1 e w) s = .next (s.insn e w o.2.1 o.2.2.1 far user body))
    ∧ (o.2.2.2 = false → user = false)

/-- A word of another row's opcode is not this row's. -/
theorem EngineRow.idles {o : (Fin 134 → BitVec 32 → Instr) × Nat × BitVec 32 × Bool} (row : EngineRow o) {e : Fin 134}
    {w : BitVec 32} {s : State} (other : wOpc w ≠ BitVec.ofNat 6 o.2.1) (defined : definedOpc (wOpc w).toNat = true) :
    Idles (o.1 e w) s := by
  obtain ⟨user, issue, -⟩ := row
  obtain ⟨far, body, run⟩ := issue e w s
  rw [Idles, run, insn_of_other_row other defined]

/-- An illegal word of a program fails its check of code 2 (R210). -/
theorem EngineRow.farFault {o : (Fin 134 → BitVec 32 → Instr) × Nat × BitVec 32 × Bool} (row : EngineRow o) {e : Fin 134}
    {w : BitVec 32} {s : State} (bad : rowOrUndefined w o.2.1 (w &&& o.2.2.1 ≠ 0)) (mode : (s.eng e).mode = .farOp)
    (fault : (s.eng e).farFault = none) (more : (s.eng e).farDone = false) :
    exec (o.1 e w) s = .next (s.modEng e fun g => { g with farFault := some 2 }) := by
  obtain ⟨user, issue, -⟩ := row
  obtain ⟨far, body, run⟩ := issue e w s
  rw [run, insn_far_illegal bad mode fault more]
  rfl

/-- An illegal word of firmware takes the exception (R243, R246). -/
theorem EngineRow.illegal {o : (Fin 134 → BitVec 32 → Instr) × Nat × BitVec 32 × Bool} (row : EngineRow o) {e : Fin 134}
    {w : BitVec 32} {s : State}
    (bad : rowOrUndefined w o.2.1 (w &&& o.2.2.1 ≠ 0 ∨ o.2.1 = 0x3F ∨ ((s.eng e).mode = .user ∧ o.2.2.2 = false)))
    (ready : s.FwReady e w) (loads : (s.eng e).loads = []) (eip : (s.eng e).status.getLsbD 3 = false)
    (sb : (s.eng e).sb = []) (slots : (s.eng e).slots = []) (valid : validPc e ((s.eng e).evbase + 192) = true) :
    exec (o.1 e w) s = .next ((s.unwatch e).modEng e fun g =>
      g.raised 3 (s.eng e).pc (w.setWidth 64) ((s.eng e).evbase + 192)) := by
  obtain ⟨user, issue, users⟩ := row
  obtain ⟨far, body, run⟩ := issue e w s
  have bad' := bad.imp_right (And.imp_right (Or.imp_right (Or.imp_right (And.imp_right users))))
  rw [run, insn_illegal bad' ready loads eip sb slots valid]

theorem awaits_of_no_loads {g : Eng} (w : BitVec 32) (h : g.loads = []) : g.awaits w = false := by
  rw [Eng.awaits, h]; rfl

/-- What an exception leaves of the engine, and of the block besides it and its slice. -/
theorem raised_state (s : State) (e cause : Nat) (epc eaddr target : Word) :
    ((s.unwatch e).modEng e fun g => g.raised cause epc eaddr target).eng e = (s.eng e).raised cause epc eaddr target
    ∧ { (s.unwatch e).modEng e fun g => g.raised cause epc eaddr target with
        engines := s.engines, slices := s.slices } = s :=
  ⟨by rw [eng_modEng, if_pos rfl, eng_unwatch], eq_of_besidesEngines_eq (by simp)⟩

/-- A write of reserved bits changes its engine and the count of such writes. -/
theorem csrw_reserved (s : State) (e : Nat) (f : Eng → Eng) :
    ((s.noteRsvd true).modEng e f).eng e = f (s.eng e)
    ∧ { (s.noteRsvd true).modEng e f with engines := s.engines, glb := s.glb } = s
    ∧ ((s.noteRsvd true).modEng e f).glb
      = { s.glb with rsvdWr := if s.glb.rsvdWr = 0xFFFF then 0xFFFF else s.glb.rsvdWr + 1 } := by
  refine ⟨?_, ?_, rfl⟩
  · rw [eng_modEng, if_pos rfl, eng_noteRsvd]
  · cases s; rfl

/-- Settles O30: each instruction from what its row does to an engine that issues it, the exceptions from what an engine
with nothing in hand comes to, and the illegal words from the row's opcode and zero bits alone. -/
theorem engineSystemAndIllegalInstructions : Obligations.EngineSystemAndIllegalInstructions := by
  unfold Obligations.EngineSystemAndIllegalInstructions
  refine ⟨fun e w s => ⟨?wait, ?iret, ?syscall, ?waits, ?tlbi, ?tandem, ?csrr, ?csrw, ?fret⟩, ?rows⟩
  case wait => exact exec_wait_waits
  case iret => exact exec_iret_returns
  case waits => exact exec_tlbi_waits
  case csrr => exact fun v => exec_csrr_reads
  case syscall =>
    intro h eip sb loads slots valid
    obtain ⟨engine, rest⟩ := raised_state s e 4 ((s.eng e).pc + 4) ((w.extractLsb' 0 18).setWidth 64) ((s.eng e).evbase + 256)
    exact ends_next (exec_syscall_raises h eip sb loads slots valid)
      ⟨engine.trans (by rw [Eng.raised, ← state_of_issues (fwIssues_ready h).issues]; rfl), rest⟩
  case tlbi =>
    intro h mode sb push credit
    refine ends_next (exec_tlbi_sends h mode sb push credit (tandemKept_tlbi s e w)) ?_
    have engine := eng_tlbi s e w
    exact ⟨by rw [engine], by rw [engine], by rw [engine], by rw [engine], tlbi_spoke s e w,
      fun steward => tlbi_steward_holds w steward⟩
  case tandem =>
    intro t m since tandem h mode sb credit same main check first
    rw [outMain_of_tlbi tandem h mode sb credit same main first, List.cons.injEq, TandemOut.msg.injEq]
    obtain ⟨leaves, differs⟩ := tlbi_tandem w tandem same main check
    have run := exec_tlbi_sends h mode sb (pushWaits_main tandem main) credit (tandemKept_tlbi s e w)
    exact ⟨fun ⟨⟨equal, _⟩, _⟩ => ends_next run (leaves equal),
      fun held => ends_next run (differs fun equal => held (by rw [equal]))⟩
  case csrw =>
    intro g' h mode listed calm
    have run := exec_csrw_writes h mode listed calm
    refine ⟨fun zero => ?_, fun reserved main => ends_next run ?_⟩
    · rw [run, bne_eq_false_iff_eq.mpr zero, Bool.and_false]; rfl
    · rw [bne_iff_ne.mpr reserved, bne_iff_ne.mpr main]
      exact csrw_reserved s e fun g => g'.goto e (g.pc + 4)
  case fret =>
    intro h
    refine ends_next (exec_fret_ends h) ⟨?_, ?_, eq_of_besidesEngines_eq (by simp)⟩
    · rw [eng_modSlice, eng_modEng, if_pos rfl]
    · rw [slice_modSlice, if_pos rfl]
  case rows =>
    refine fun o ho e w s => ?_
    have row : EngineRow o := by
      clear e w s
      revert o
      simp only [List.forall_mem_cons, List.not_mem_nil, false_implies, implies_true, and_true]
      and_intros <;> exact ⟨_, fun _ _ _ => ⟨_, _, rfl⟩, by decide⟩
    refine ⟨row.idles, row.farFault, fun bad mode issues loads evac stopped entry good eip sb slots valid => ?_⟩
    obtain ⟨engine, rest⟩ := raised_state s e 3 (s.eng e).pc (w.setWidth 64) ((s.eng e).evbase + 192)
    refine ends_next (row.illegal bad ⟨mode, issues, awaits_of_no_loads w loads, evac, stopped, entry, good⟩ loads eip sb slots
      valid) ?_
    rw [engine]
    exact ⟨rfl, rfl, rfl, rfl, rfl, rfl, rfl, rest⟩

end Sys2Proof.Machine
end

section
/-! SUPPORT. A command of a slice keeps everything outside slices, counters, events and records (R9, R68, R109). -/

namespace Sys2Proof.Machine

open Sys2Proof

/-! Requests of a slice -/

@[simp] theorem State.arrive_rest (s : State) (p t : Nat) : (s.arrive p t).rest = s.rest := by
  unfold State.arrive
  split
  · rfl
  · simp

@[simp] theorem State.release_rest (s : State) (p t : Nat) : (s.release p t).rest = s.rest := by
  unfold State.release
  dsimp only
  split
  · rfl
  · split
    · rfl
    · split
      · simp
      · split
        · split <;> simp
        · rw [State.startHead_rest]
          split
          · simp
          · split <;> simp

/-- A request keeps what its service `go` keeps (R73, R92, R109). -/
theorem State.request_rest (s : State) (p : Nat) (m : Msg) (go : State → Nat → State)
    (h : ∀ t k, (go t k).rest = t.rest) : (s.request p m go).rest = s.rest := by
  refine State.taking_rest s p m _ fun u => ?_
  have noted : (if homeMatches (u.slice p) m true = true then (u.noteTaken p m).slcEvent p 0x01 else u).rest = u.rest := by
    split <;> simp
  have broken (v : State) (t : Nat) (k : Trk) : (if v.broke p k = true then v.breakOut p t else v).rest = v.rest := by
    split <;> simp
  have served (v : State) (t : Nat) (keep : v.rest = u.rest) :
      (if malformed m = true then v.endErr p t 7
        else if (v.portOf m.addr).isNone = true then (v.sliceErr p 1 0x19 (some m.addr) (some m.src)).endErr p t 5
        else go v t).rest = u.rest := by
    split
    · simp [keep]
    · split <;> simp [keep, h]
  dsimp only
  split
  · rw [State.beyondAllowance_rest, noted]
  · split
    · rw [State.beyondAllowance_rest, noted]
    · split
      · rw [State.homeMismatch_rest, noted]
      · exact served _ _ (by rw [broken, State.modSlice_rest, noted])

/-! The commands -/

/-- Wherever command `c` answers a next state, that state has the rest of the one before. -/
def KeepsRest (c : Instr) : Prop := ∀ s t, exec c s = .next t → t.rest = s.rest

/-- A row that always answers the next state `f s`. -/
theorem keepsRest_of_next {c : Instr} (f : State → State) (row : ∀ s, exec c s = .next (f s))
    (keeps : ∀ s, (f s).rest = s.rest) : KeepsRest c := by
  intro s t run
  rw [row s, Host.Outcome.next.injEq] at run
  rw [← run, keeps]

/-- A request row. -/
theorem keepsRest_of_request {c : Instr} (p : Nat) (m : Msg) (go : State → Nat → State)
    (row : ∀ s, exec c s = .next (s.request p m go)) (h : ∀ t k, (go t k).rest = t.rest) : KeepsRest c :=
  keepsRest_of_next _ row fun s => State.request_rest s p m go h

/-- The row of a message that is an answer. -/
theorem keepsRest_of_answer {c : Instr} (p : Nat) (m : Msg) (go : State → State)
    (row : ∀ s, exec c s = .next (s.answerTake p m go)) (h : ∀ t, (go t).rest = t.rest) : KeepsRest c :=
  keepsRest_of_next _ row fun s => State.answerTake_rest s p m go h

/-- A register row, discarded outside the run state (R355). -/
theorem keepsRest_of_regWrite {c : Instr} (f : State → State) (row : ∀ s, exec c s = .next (s.regWrite f))
    (h : ∀ t, (f t).rest = t.rest) : KeepsRest c :=
  keepsRest_of_next _ row fun s => State.regWrite_rest s f h

/-- A service request (R68). -/
theorem keepsRest_of_svcReq {c : Instr} (p : Nat) (m : Msg) (go : State → Msg → State)
    (row : ∀ s, exec c s = .next (s.svcReq p m go)) (h : ∀ t q, (go t q).rest = t.rest) : KeepsRest c :=
  keepsRest_of_next _ row fun s => State.svcReq_rest s p m go h

theorem keepsRest_atomicReq (p : Fin 132) (m : Msg) : KeepsRest (.atomicReq p m) := by
  refine keepsRest_of_request p (asOpc m 0x06) _ (fun _ => rfl) fun s t => ?_
  dsimp only
  simp only [apply_ite State.rest]
  split <;> simp [apply_ite State.rest]

theorem keepsRest_farOp (p : Fin 132) (m : Msg) : KeepsRest (.farOp p m) :=
  keepsRest_of_request p (asOpc m 0x07) _ (fun _ => rfl) fun s t => by simp

theorem keepsRest_creditRequest (p : Fin 132) (m : Msg) : KeepsRest (.creditRequest p m) :=
  keepsRest_of_next (fun s => s.taking p (asOpc m 0x2D) _) (fun _ => rfl) fun s =>
    State.taking_rest s p _ _ fun u => by simp [apply_ite State.rest]

theorem keepsRest_allocWaitRelease (p : Fin 132) (t : Fin 256) : KeepsRest (.allocWaitRelease p t) := by
  refine keepsRest_of_next _ (fun _ => rfl) fun s => ?_
  split
  · rfl
  · simp [apply_ite State.rest]

theorem keepsRest_breakaway (p : Fin 132) (t : Fin 256) : KeepsRest (.breakaway p t) := by
  refine keepsRest_of_next _ (fun _ => rfl) fun s => ?_
  split
  · rfl
  · simp [apply_ite State.rest]

theorem keepsRest_trackerWatchdogExpiry (p : Fin 132) (t : Fin 256) : KeepsRest (.trackerWatchdogExpiry p t) := by
  refine keepsRest_of_next _ (fun _ => rfl) fun s => ?_
  split
  · rfl
  · simp [apply_ite State.rest]

theorem keepsRest_hlcMaintResume (p : Fin 132) (k : Fin 8) : KeepsRest (.hlcMaintResume p k) := by
  refine keepsRest_of_next _ (fun _ => rfl) fun s => ?_
  split
  · rfl
  · exact State.maintTry_rest ..

theorem keepsRest_sflPatrolCheck (p : Fin 132) : KeepsRest (.sflPatrolCheck p) := by
  refine keepsRest_of_next _ (fun _ => rfl) fun s => ?_
  split
  · rfl
  · split
    · rfl
    · dsimp only
      split
      · rfl
      · split <;> simp

theorem keepsRest_probeStep (p : Fin 132) (m : Msg) : KeepsRest (.probeStep p m) :=
  keepsRest_of_next _ (fun _ => rfl) fun s => by simp [apply_ite State.rest]

/-- Every command that `sliceCommand` lists keeps the rest of the block. -/
theorem keepsRest_of_sliceCommand (c : Instr) (h : sliceCommand c = true) : KeepsRest c := by
  have arrives : ∀ {c : Instr} (p : Nat) (m : Msg),
      (∀ s, exec c s = .next (s.request p m fun s t => s.arrive p t)) → KeepsRest c :=
    fun p m row => keepsRest_of_request p m _ row fun s t => State.arrive_rest s p t
  cases c with
  | readShared p m => exact arrives p (asOpc m 0x00) fun _ => rfl
  | readOwn p m => exact arrives p (asOpc m 0x01) fun _ => rfl
  | upgrade p m => exact arrives p (asOpc m 0x02) fun _ => rfl
  | readNc p m => exact arrives p (asOpc m 0x03) fun _ => rfl
  | writeNcFull p m => exact arrives p (asOpc m 0x04) fun _ => rfl
  | writeNcPartial p m => exact arrives p (asOpc m 0x05) fun _ => rfl
  | atomicReq p m => exact keepsRest_atomicReq p m
  | farOp p m => exact keepsRest_farOp p m
  | writeback p m => exact keepsRest_of_next _ (fun _ => rfl) fun s => State.wbTake_rest s p _ _ fun _ _ => by simp
  | evictClean p m => exact keepsRest_of_next _ (fun _ => rfl) fun s => State.wbTake_rest s p _ _ fun _ _ => by simp
  | invAck p m => exact keepsRest_of_answer p (asOpc m 0x29) _ (fun _ => rfl) fun t => State.invAck_rest ..
  | fwdDone p m => exact keepsRest_of_answer p (asOpc m 0x2A) _ (fun _ => rfl) fun t => State.fwdDone_rest ..
  | copyBack p m => exact keepsRest_of_answer p (asOpc m 0x3B) _ (fun _ => rfl) fun t => State.copyBack_rest ..
  | recallData p m => exact keepsRest_of_answer p (asOpc m 0x3C) _ (fun _ => rfl) fun t => State.recallData_rest ..
  | memData p m => exact keepsRest_of_answer p (asOpc m 0x3E) _ (fun _ => rfl) fun t => State.memData_rest ..
  | memAck p m => exact keepsRest_of_answer p (asOpc m 0x35) _ (fun _ => rfl) fun t => State.memAck_rest ..
  | creditRequest p m => exact keepsRest_creditRequest p m
  | allocWaitRelease p t => exact keepsRest_allocWaitRelease p t
  | breakaway p t => exact keepsRest_breakaway p t
  | trackerWatchdogExpiry p t => exact keepsRest_trackerWatchdogExpiry p t
  | missRegisterOpen p => exact keepsRest_of_next _ (fun _ => rfl) fun s => State.missOpen_rest s p
  | missRegisterSend p => exact keepsRest_of_next _ (fun _ => rfl) fun s => State.missSend_rest s p
  | evictionWriteSend p a => exact keepsRest_of_next _ (fun _ => rfl) fun s => State.writeSend_rest s p a
  | hlcMaintClean p m => exact keepsRest_of_next _ (fun _ => rfl) fun s => State.hlcMaint_rest s p _
  | hlcMaintInvalidate p m => exact keepsRest_of_next _ (fun _ => rfl) fun s => State.hlcMaint_rest s p _
  | hlcMaintCleanInvalidate p m => exact keepsRest_of_next _ (fun _ => rfl) fun s => State.hlcMaint_rest s p _
  | hlcMaintResume p k => exact keepsRest_hlcMaintResume p k
  | hlcWalkerVisit p => exact keepsRest_of_next _ (fun _ => rfl) fun s => State.walkVisit_rest s p
  | farServiceStart p t => exact keepsRest_of_next _ (fun _ => rfl) fun s => State.farStart_rest s p t
  | atomicAluExecute p => exact keepsRest_of_next _ (fun _ => rfl) fun s => State.aluExecute_rest s p
  | predictorRecentTick p => exact keepsRest_of_next _ (fun _ => rfl) fun s => by simp [apply_ite State.rest]
  | farPredClr p => exact keepsRest_of_regWrite _ (fun _ => rfl) fun s => State.farPredClr_rest s p
  | hlcDisable p => exact keepsRest_of_regWrite _ (fun _ => rfl) fun s => State.hlcDisable_rest s p
  | hlcEnable p => exact keepsRest_of_regWrite _ (fun _ => rfl) fun s => State.hlcEnable_rest s p
  | hlcInit p => exact keepsRest_of_regWrite _ (fun _ => rfl) fun s => State.hlcInit_rest s p
  | hlcWayDisable p w => exact keepsRest_of_regWrite _ (fun _ => rfl) fun s => State.hlcWayDisable_rest s p w
  | hlcWayEnable p w => exact keepsRest_of_regWrite _ (fun _ => rfl) fun s => State.hlcWayEnable_rest s p w
  | hlcLeakDecay p w => exact keepsRest_of_next _ (fun _ => rfl) fun s => by simp [apply_ite State.rest]
  | sflInit p => exact keepsRest_of_regWrite _ (fun _ => rfl) fun s => State.sflInit_rest s p
  | sflPassStart p => exact keepsRest_of_regWrite _ (fun _ => rfl) fun s => State.sflPassStart_rest s p
  | sflPatrolCheck p => exact keepsRest_sflPatrolCheck p
  | slotRecopy p k => exact keepsRest_of_next _ (fun _ => rfl) fun s => State.modSlice_rest s p _
  | svcReqRegisterRead p m => exact keepsRest_of_svcReq p m _ (fun _ => rfl) fun t q => by simp
  | svcReqDirectoryCopy p m => exact keepsRest_of_svcReq p m _ (fun _ => rfl) fun t q => by simp
  | svcReqLineCopy p m => exact keepsRest_of_svcReq p m _ (fun _ => rfl) fun t q => by simp
  | hlcDictCleanAll => exact keepsRest_of_next _ (fun _ => rfl) fun s => State.dictMaintCmd_rest s 0
  | hlcDictInvalidateAll => exact keepsRest_of_next _ (fun _ => rfl) fun s => State.dictMaintCmd_rest s 1
  | hlcDictCleanInvalidateAll => exact keepsRest_of_next _ (fun _ => rfl) fun s => State.dictMaintCmd_rest s 2
  | probeStart p => exact keepsRest_of_next _ (fun _ => rfl) fun s => by simp [apply_ite State.rest]
  | probeStep p m => exact keepsRest_probeStep p m
  | probeTimeout p => exact keepsRest_of_next _ (fun _ => rfl) fun s => by simp [apply_ite State.rest]
  | _ => exact absurd h Bool.false_ne_true

/-- Settles O59: what a slice command keeps, row by row, is the rest of the block. -/
theorem sliceCommandsChangeOnlySlices : Obligations.SliceCommandsChangeOnlySlices := by
  unfold Obligations.SliceCommandsChangeOnlySlices
  exact fun c s t listed run => (onlySlices_iff s t).mpr (keepsRest_of_sliceCommand c listed s t run)

end Sys2Proof.Machine
end

section
/-! SUPPORT. Flushing a way, the whole-cache operations of the dictionary and the registers of the snoop filter (R16, R193,
R227, R230, R232, R237, R350, R355). -/

namespace Sys2Proof.Machine

open Sys2Proof

/-! Register rows and the cache of a slice -/

theorem regWrite_of_awake {s : State} (h : s.pwr.state = 0) (f : State → State) : s.regWrite f = f s := by
  simp [State.regWrite, h]

/-- Outside the run state a register row only counts a gated access (R355). -/
theorem regWrite_of_asleep {s : State} (h : s.pwr.state ≠ 0) (f : State → State) : s.regWrite f = { s with
    pwr := { s.pwr with gatedAcc := if s.pwr.gatedAcc = 0xFFFF then 0xFFFF else s.pwr.gatedAcc + 1 } } := by
  have counted : satInc16 s.pwr.gatedAcc = if s.pwr.gatedAcc = 0xFFFF then 0xFFFF else s.pwr.gatedAcc + 1 := by
    unfold satInc16
    split
    · assumption
    · rfl
  simp only [State.regWrite, bne_iff_ne.mpr h, if_true]
  exact congrArg (fun v => { s with pwr := { s.pwr with gatedAcc := v } }) counted

@[simp] theorem slice_modHlc (s : State) (p q : Nat) (f : Hlc → Hlc) :
    (s.modHlc p f).slice q = if p = q then (s.slice p).modHlc f else s.slice q := slice_modSlice ..

theorem flushWay_of_no_lines {s : State} {p : Nat} (h : (s.slice p).hlc.lines = []) (w : Nat) : s.flushWay p w = s := by
  simp [State.flushWay, Hlc.wayLines, h]

theorem waysOver_of_no_await {s : State} (h : s.svc.await = none) (p : Nat) : s.waysOver p = s := by
  simp [State.waysOver, State.awaitEnd, h]

/-! The end of a way's flush (R232, R237) -/

theorem hlcWayDisable_starts {p : Fin 132} {w : Fin 16} {s : State} (awake : s.pwr.state = 0)
    (idle : (s.slice p).hlc.flushes = []) (on : (s.slice p).hlc.wayOn w = true) (empty : (s.slice p).hlc.lines = []) :
    Ends (.hlcWayDisable p w) s fun t => (t.slice p).hlc = (s.slice p).hlc.startFlush w false
      ∧ { t with slices := s.slices } = s := by
  have started : s.hlcWayDisable p w = s.modHlc p fun h => h.startFlush w false := by
    have none_left : ((s.modHlc p fun h => h.startFlush w false).slice p).hlc.lines = [] := by
      simpa [Slice.modHlc, Hlc.startFlush] using empty
    simp only [State.hlcWayDisable, idle, on, List.any_nil, Bool.false_eq_true, if_false, if_true]
    exact flushWay_of_no_lines none_left w
  refine ends_next (congrArg Host.Outcome.next ((regWrite_of_awake awake _).trans started)) ⟨?_, eq_of_besidesSlices_eq rfl⟩
  simp [Slice.modHlc]

theorem hlcWayFlushDone_without_flush {p : Fin 132} {w : Fin 16} {s : State}
    (none_of_way : ∀ f ∈ (s.slice p).hlc.flushes, f.way ≠ w.val) : Idles (.hlcWayFlushDone p w) s := by
  have not_found : (s.slice p).hlc.flushes.find? (fun f => f.way == w.val) = none := by simpa using none_of_way
  simp only [Idles, exec, execHlcWayFlushDone, not_found]

/-- What the end of a commanded flush leaves of the cache: no flush, and its way as the pending enable says. -/
def Hlc.flushEnded (h : Hlc) (w : Nat) (pendEnable : Bool) : Hlc :=
  if pendEnable then { h with flushes := [] }.enableWay w else { h with flushes := [] }

section
variable {p : Fin 132} {w : Fin 16} {s : State} {f : Flush}

theorem hlcWayFlushDone_pinned (running : (s.slice p).hlc.flushes = [f]) (way : f.way = w.val)
    (empty : (s.slice p).hlc.lines = []) (pinned : (s.slice p).wayPinned w = true) : Idles (.hlcWayFlushDone p w) s := by
  simp [Idles, exec, execHlcWayFlushDone, running, way, flushWay_of_no_lines empty, pinned]

theorem exec_hlcWayFlushDone_ends (running : (s.slice p).hlc.flushes = [f]) (way : f.way = w.val)
    (commanded : f.hw = false) (empty : (s.slice p).hlc.lines = []) (silent : s.svc.await = none)
    (free : (s.slice p).wayPinned w = false) :
    ∃ t, exec (.hlcWayFlushDone p w) s = .next t ∧ t.besidesSlices = s.besidesSlices
      ∧ (t.slice p).hlc = (s.slice p).hlc.flushEnded w f.pendEnable := by
  have left : ((s.slice p).hlc.flushes.filter fun f => f.way != w.val) = [] := by simp [running, way]
  have found : (s.slice p).hlc.flushes.find? (fun f => f.way == w.val) = some f := by simp [running, way]
  have no_lines : ((s.slice p).hlc.wayLines w).isEmpty = true := by simp [Hlc.wayLines, empty]
  simp only [exec, execHlcWayFlushDone, found, flushWay_of_no_lines empty, no_lines, free, commanded, Bool.not_false,
    Bool.and_self, if_true, Bool.false_eq_true, if_false]
  refine ⟨_, rfl, ?_⟩
  cases f.pendEnable
  all_goals
    rw [waysOver_of_no_await (by exact silent)]
    exact ⟨rfl, by simp [Slice.modHlc, Hlc.flushEnded, left]⟩

theorem hlcWayFlushDone_ends (running : (s.slice p).hlc.flushes = [f]) (way : f.way = w.val)
    (commanded : f.hw = false) (empty : (s.slice p).hlc.lines = []) (silent : s.svc.await = none)
    (free : (s.slice p).wayPinned w = false) : Ends (.hlcWayFlushDone p w) s fun t => (t.slice p).hlc.flushes = []
      ∧ (f.pendEnable = false → (t.slice p).hlc.wayEn = (s.slice p).hlc.wayEn)
      ∧ (f.pendEnable = true → (t.slice p).hlc.wayEn = (s.slice p).hlc.wayEn ||| BitVec.ofNat 16 (2 ^ w.val))
      ∧ { t with slices := s.slices } = s := by
  obtain ⟨t, run, same, cache⟩ := exec_hlcWayFlushDone_ends running way commanded empty silent free
  refine ends_next run ⟨?_, fun pend => ?_, fun pend => ?_, eq_of_besidesSlices_eq same⟩
  · rw [cache]
    cases f.pendEnable <;> rfl
  · rw [cache, pend]; rfl
  · rw [cache, pend]; rfl

end

/-! Whole-cache operations of the dictionary (R227, R230) -/

/-- A slice after a whole-cache operation is queued there: unchanged if it is inactive or its cache is off. -/
def Slice.dictQueued (op : BitVec 4) (x : Slice) : Slice :=
  if !x.active || x.hlc.isOff then x
  else x.modHlc fun h => { h with
    maint := h.maint ++ [{ idx := h.maintNext, src := none, op, scope := 2, addr := 0 }], maintNext := h.maintNext + 1
    walks := h.walks ++ [{ maint := some h.maintNext }] }

/-- The operation queued at one slice. -/
def State.dictQueue (op : BitVec 4) (s : State) (p : Nat) : State :=
  if !(s.slice p).active || (s.slice p).hlc.isOff then s else s.modSlice p (Slice.dictQueued op)

theorem slice_dictQueue (op : BitVec 4) (s : State) (q p : Nat) :
    (s.dictQueue op q).slice p = if q = p then (s.slice p).dictQueued op else s.slice p := by
  unfold State.dictQueue
  split
  · split
    · subst_vars; simp_all [Slice.dictQueued]
    · rfl
  · rw [slice_modSlice]
    split
    · subst_vars; rfl
    · rfl

theorem besidesSlices_dictQueue (op : BitVec 4) (s : State) (q : Nat) :
    (s.dictQueue op q).besidesSlices = s.besidesSlices := by
  unfold State.dictQueue
  split <;> rfl

/-- A fold over different slices, each step changing its own slice by `g`, changes each slice of the list by `g`. -/
theorem slice_foldl_own {f : State → Nat → State} {g : Slice → Slice}
    (own : ∀ s q p, (f s q).slice p = if q = p then g (s.slice p) else s.slice p) (l : List Nat) (distinct : l.Nodup)
    (s : State) (p : Nat) : (l.foldl f s).slice p = if p ∈ l then g (s.slice p) else s.slice p := by
  induction l generalizing s with
  | nil => simp
  | cons q l ih =>
    obtain ⟨fresh, distinct⟩ := List.nodup_cons.mp distinct
    rw [List.foldl_cons, ih distinct, own]
    by_cases same : q = p
    · subst same; simp [fresh]
    · simp [same, Ne.symm same]

theorem dictMaintCmd_queues {s : State} (runs : s.stewardRuns = true) (idle : s.dictMaintBusy = false) (op : BitVec 4) :
    s.dictMaintCmd op = (List.range 132).foldl (State.dictQueue op) s := by
  simp only [State.dictMaintCmd, State.dictMaint, runs, idle, if_true, Bool.false_eq_true, if_false]
  refine congrArg (fun f => List.foldl f s (List.range 132)) (funext fun t => funext fun p => ?_)
  unfold State.dictQueue
  split
  · rfl
  · next taken => simp only [State.modHlc, State.modSlice, Slice.dictQueued, taken]; rfl

/-- A slice that holds nothing is inactive, so without slices no walk is queued. -/
theorem dictMaintCmd_of_no_slices {s : State} (h : s.slices = []) (op : BitVec 4) : s.dictMaintCmd op = s := by
  have inactive : ∀ p, (s.slice p).active = false := fun p => by simp [State.slice, h, Slice.reset]
  unfold State.dictMaintCmd State.dictMaint
  split
  · split
    · rfl
    · exact List.foldl_fixed' (fun p => by simp [inactive]) _
  · rfl

/-- The three rows and the operation that each queues. -/
theorem exec_hlcDictRow (o : Instr × BitVec 4) (ho : o ∈ ([(.hlcDictCleanAll, 0), (.hlcDictInvalidateAll, 1),
    (.hlcDictCleanInvalidateAll, 2)] : List (Instr × BitVec 4))) (s : State) :
    exec o.1 s = .next (s.dictMaintCmd o.2) := by
  simp only [List.mem_cons, List.not_mem_nil, or_false] at ho
  obtain rfl | rfl | rfl := ho <;> rfl

theorem dictMaintCmd_idles {s : State} (h : s.slices = [] ∨ s.stewardRuns = false) (op : BitVec 4) :
    s.dictMaintCmd op = s := by
  obtain none_there | stopped := h
  · exact dictMaintCmd_of_no_slices none_there op
  · simp [State.dictMaintCmd, stopped]

theorem hlcDictRow_idles {c : Instr} {s : State}
    (hc : c ∈ ([.hlcDictCleanAll, .hlcDictInvalidateAll, .hlcDictCleanInvalidateAll] : List Instr))
    (h : s.slices = [] ∨ s.stewardRuns = false) : Idles c s := by
  simp only [List.mem_cons, List.not_mem_nil, or_false] at hc
  obtain rfl | rfl | rfl := hc <;> exact congrArg Host.Outcome.next (dictMaintCmd_idles h _)

theorem hlcDictRow_queues {o : Instr × BitVec 4} {s : State} (p : Fin 132) (ho : o ∈ ([(.hlcDictCleanAll, 0),
    (.hlcDictInvalidateAll, 1), (.hlcDictCleanInvalidateAll, 2)] : List (Instr × BitVec 4)))
    (runs : s.stewardRuns = true) (idle : s.dictMaintBusy = false) : Ends o.1 s fun t => { t with slices := s.slices } = s
      ∧ (((s.slice p).active = false ∨ (s.slice p).hlc.isOff = true) → t.slice p = s.slice p)
      ∧ ((s.slice p).active = true → (s.slice p).hlc.isOff = false →
        ∃ m, (t.slice p).hlc.maint = (s.slice p).hlc.maint ++ [m] ∧ m.src = none ∧ m.op = o.2
        ∧ (t.slice p).hlc.walks = (s.slice p).hlc.walks ++ [{ maint := some m.idx }]) := by
  have queued : ((List.range 132).foldl (State.dictQueue o.2) s).slice p = (s.slice p).dictQueued o.2 := by
    rw [slice_foldl_own (slice_dictQueue o.2) _ List.nodup_range, if_pos (List.mem_range.mpr p.isLt)]
  refine ends_next ((exec_hlcDictRow o ho s).trans (congrArg Host.Outcome.next (dictMaintCmd_queues runs idle o.2)))
    ⟨eq_of_besidesSlices_eq (foldl_keeps State.besidesSlices _ (besidesSlices_dictQueue o.2) _ s), ?_, ?_⟩
  · rintro (inactive | off)
    · simp [queued, Slice.dictQueued, inactive]
    · simp [queued, Slice.dictQueued, off]
  · intro active on
    rw [queued]
    simp only [Slice.dictQueued, active, on, Bool.not_true, Bool.or_self, Bool.false_eq_true, if_false]
    exact ⟨_, rfl, rfl, rfl, rfl⟩

/-! Initialization of the filter and the start of a pass (R193, R350) -/

section
variable {p : Fin 132} {s : State}

theorem sflInit_refuses (awake : s.pwr.state = 0) (active : (s.slice p).active = true) : Ends (.sflInit p) s fun t =>
    (t.slice p).sfl = { (s.slice p).sfl with initRefused := true } ∧ { t with slices := s.slices } = s := by
  refine ends_next (congrArg Host.Outcome.next (regWrite_of_awake awake _)) ⟨?_, eq_of_besidesSlices_eq rfl⟩
  simp [State.sflInit, active]

theorem sflInit_clears (awake : s.pwr.state = 0) (inactive : (s.slice p).active = false)
    (quiet : (s.slice p).quiet = true) (idle : (s.slice p).sfl.pass = none) : Ends (.sflInit p) s fun t =>
      (t.slice p).sfl = { (s.slice p).sfl with blocks := [], lru := [], wait := [], ovfOrder := [] }
      ∧ { t with slices := s.slices } = s := by
  refine ends_next (congrArg Host.Outcome.next (regWrite_of_awake awake _)) ⟨?_, eq_of_besidesSlices_eq rfl⟩
  simp [State.sflInit, inactive, quiet, idle]

theorem sflRow_gated (asleep : s.pwr.state ≠ 0) : ∀ c ∈ ([.sflInit p, .sflPassStart p] : List Instr),
    exec c s = .next { s with pwr := { s.pwr with gatedAcc := if s.pwr.gatedAcc = 0xFFFF then 0xFFFF else s.pwr.gatedAcc + 1 } } := by
  intro c hc
  simp only [List.mem_cons, List.not_mem_nil, or_false] at hc
  obtain rfl | rfl := hc <;> exact congrArg Host.Outcome.next (regWrite_of_asleep asleep _)

theorem sflPassStart_starts (awake : s.pwr.state = 0) : Ends (.sflPassStart p) s fun t =>
    (t.slice p).sfl.pass = (if (s.slice p).sfl.pass.isSome then (s.slice p).sfl.pass else some 0)
      ∧ { t with slices := s.slices } = s := by
  refine ends_next (congrArg Host.Outcome.next (regWrite_of_awake awake _)) ⟨?_, eq_of_besidesSlices_eq rfl⟩
  simp only [State.sflPassStart, slice_modSlice, if_true]
  split <;> rfl

end

end Sys2Proof.Machine
end

section
/-! SUPPORT. Searching a sparse table after a write. -/

namespace Sys2Proof

variable {α : Type}

/-- A search that no entry of key `k` answers does not see key `k` erased. -/
theorem NMap.find?_erase (m : NMap α) (k : Nat) {q : Nat × α → Bool} (blind : ∀ v, q (k, v) = false) :
    (NMap.erase m k).find? q = m.find? q := by
  induction m with
  | nil => rfl
  | cons e rest ih =>
    obtain ⟨i, v⟩ := e
    simp only [NMap.erase]
    split
    · next same => subst same; rw [ih, List.find?_cons_of_neg (by simp [blind])]
    · rw [List.find?_cons, List.find?_cons, ih]

theorem NMap.find?_insert (m : NMap α) (k : Nat) (v : α) {q : Nat × α → Bool} (blind : ∀ v, q (k, v) = false) :
    (NMap.insert m k v).find? q = m.find? q := by
  have unseen : ∀ l : NMap α, List.find? q ((k, v) :: l) = l.find? q :=
    fun l => List.find?_cons_of_neg (by simp [blind])
  induction m with
  | nil => exact unseen []
  | cons e rest ih =>
    obtain ⟨i, w⟩ := e
    simp only [NMap.insert]
    split
    · exact unseen _
    · split
      · next same => subst same; rw [unseen, List.find?_cons_of_neg (by simp [blind])]
      · rw [List.find?_cons, List.find?_cons, ih]

theorem NMap.find?_set [DecidableEq α] (d : Nat → α) (m : NMap α) (k : Nat) (v : α) {q : Nat × α → Bool}
    (blind : ∀ v, q (k, v) = false) : (NMap.set d m k v).find? q = m.find? q := by
  unfold NMap.set
  split
  · exact NMap.find?_erase m k blind
  · rw [NMap.find?_insert _ k v blind, NMap.find?_erase m k blind]

end Sys2Proof
end

section
/-! SUPPORT. The block check of the snoop filter and the patrol pass (R186, R187, R188, R192, R193, Table 9.4). -/

namespace Sys2Proof.Machine

open Sys2Proof

/-! What a check leaves alone in a slice -/

/-- The blocks of a slice's filter, its cache, trackers and open lines: what a check can change of these is one block. -/
def Slice.patrolView (x : Slice) : NMap SfBlock × Hlc × NMap (Option Trk) × NMap Olt := (x.sfl.blocks, x.hlc, x.trks, x.olt)

@[simp] theorem patrolView_sfCapture (x : Slice) (c : BitVec 31) : (x.sfCapture c).patrolView = x.patrolView := by
  unfold Slice.sfCapture
  split <;> rfl

@[simp] theorem patrolView_ovfSync (x : Slice) (key : Nat) : (x.ovfSync key).patrolView = x.patrolView := by
  unfold Slice.ovfSync
  split <;> rfl

theorem sfBlock_of_patrolView {x y : Slice} (h : y.patrolView = x.patrolView) (j : Nat) : y.sfBlock j = x.sfBlock j :=
  congrArg (fun v => v.1.get SfBlock.dflt j) h

/-- The first written block from block `k` on (R193). -/
def Slice.writtenFrom (x : Slice) (k : Nat) : Option (Nat × SfBlock) :=
  x.sfl.blocks.find? fun e => decide (k ≤ e.1) && e.2.written

theorem writtenFrom_of_patrolView {x y : Slice} (h : y.patrolView = x.patrolView) (k : Nat) :
    y.writtenFrom k = x.writtenFrom k :=
  congrArg (fun v => v.1.find? fun e => decide (k ≤ e.1) && e.2.written) h

theorem writtenFrom_eq_none {x : Slice} {k : Nat} :
    x.writtenFrom k = none ↔ ∀ e ∈ x.sfl.blocks, e.1 < k ∨ e.2.written = false := by
  simp [Slice.writtenFrom, or_iff_not_imp_left]

theorem writtenFrom_isSome {x : Slice} {k : Nat} :
    (x.writtenFrom k).isSome = true ↔ ∃ e ∈ x.sfl.blocks, k ≤ e.1 ∧ e.2.written = true := by
  simp [Slice.writtenFrom]

/-- Slice `y` is slice `x` with block `key` checked to `b`. -/
structure Slice.Rechecked (x y : Slice) (key : Nat) (b : SfBlock) : Prop where
  own : y.sfBlock key = b
  others : ∀ j, j ≠ key → y.sfBlock j = x.sfBlock j
  later : y.writtenFrom (key + 1) = x.writtenFrom (key + 1)
  hlc : y.hlc = x.hlc
  trks : y.trks = x.trks
  olt : y.olt = x.olt

theorem rechecked_setBlock (x : Slice) (key : Nat) (b : SfBlock) : x.Rechecked (x.setBlock key b) key b where
  own := NMap.get_set_self ..
  others _ ne := NMap.get_set_ne _ _ _ ne.symm
  later := NMap.find?_set _ _ _ _ fun _ => by simp
  hlc := rfl
  trks := rfl
  olt := rfl

theorem Slice.Rechecked.congr {x x' y y' : Slice} {key : Nat} {b : SfBlock} (h : x.Rechecked y key b)
    (before : x'.patrolView = x.patrolView) (after : y'.patrolView = y.patrolView) : x'.Rechecked y' key b where
  own := (sfBlock_of_patrolView after key).trans h.own
  others j ne := by rw [sfBlock_of_patrolView after, sfBlock_of_patrolView before, h.others j ne]
  later := by rw [writtenFrom_of_patrolView after, writtenFrom_of_patrolView before, h.later]
  hlc := (congrArg (·.2.1) after).trans (h.hlc.trans (congrArg (·.2.1) before).symm)
  trks := (congrArg (·.2.2.1) after).trans (h.trks.trans (congrArg (·.2.2.1) before).symm)
  olt := (congrArg (·.2.2.2) after).trans (h.olt.trans (congrArg (·.2.2.2) before).symm)

/-! Errors of a slice -/

theorem slices_record (s : State) (e : ErrRec) : (s.record e).slices = s.slices := by
  by_cases made : e.cls ≠ 0 ∨ s.ras.corrLog = true
  · rw [record_eq s e made]
  · rw [not_or, not_not, Bool.not_eq_true] at made
    rw [record_skip s e made.1 made.2]

@[simp] theorem slice_sliceErr (s : State) (p cls code : Nat) (a : Option LineAddr) (g : Option (BitVec 10)) (d : BitVec 64)
    (x : BitVec 16) (t : Bool) (q : Nat) : (s.sliceErr p cls code a g d x t).slice q = s.slice q :=
  congrArg (fun l => NMap.get Slice.reset l q) (slices_record ..)

theorem recorded_sliceErr (s : State) (p cls code : Nat) (a : Option LineAddr) (g : Option (BitVec 10)) (d : BitVec 64)
    (x : BitVec 16) (t : Bool) (made : BitVec.ofNat 2 cls ≠ 0 ∨ s.ras.corrLog = true) :
    Recorded s (s.sliceErr p cls code a g d x t) (BitVec.ofNat 2 cls) (BitVec.ofNat 8 code) p :=
  ⟨_, by rw [State.sliceErr, record_eq s _ made], rfl, rfl, rfl, rfl⟩

theorem Recorded.of_ras_eq {s t u : State} {cls : BitVec 2} {code : BitVec 8} {index : Nat}
    (h : Recorded s t cls code index) (same : u.ras = t.ras) : Recorded s u cls code index := by
  unfold Recorded
  rwa [same]

/-- Counting an error of the filter changes only the slice's counters: no event counter follows these (Table 16.2). -/
theorem count_of_no_pmc (s : State) (p : Nat) {c : Cnt} (h : c.pmc = none) : s.count p c = s.modSlice p fun x => { x with
    cnt := x.cnt.set zeroNat c.ctorIdx (satAdd c.cap (x.cnt.get zeroNat c.ctorIdx) 1)
    acc := x.acc.set zero32 c.ctorIdx (x.acc.get zero32 c.ctorIdx + 1) } := by
  unfold State.count
  rw [h]

@[simp] theorem iag_modSlice (s : State) (p : Nat) (f : Slice → Slice) : (s.modSlice p f).iag = s.iag := rfl

@[simp] theorem arrived_fireSlice (s : State) (p k : Nat) : (s.fireSlice p k).iag.arrived = s.iag.arrived ++ [8 * p + k] := rfl

@[simp] theorem ras_count (s : State) (p : Nat) (c : Cnt) : (s.count p c).ras = s.ras := by
  unfold State.count
  split <;> rfl

@[simp] theorem time_count (s : State) (p : Nat) (c : Cnt) : (s.count p c).time = s.time := by
  unfold State.count
  split <;> rfl

/-! A record is one between the records of two states, whatever happens to slices and events before and after. -/

section
variable {s t : State} {cls : BitVec 2} {code : BitVec 8} {index p : Nat}

@[simp] theorem recorded_count (c : Cnt) : Recorded (s.count p c) t cls code index ↔ Recorded s t cls code index := by
  unfold Recorded
  rw [ras_count, time_count]

@[simp] theorem recorded_setSlice (x : Slice) : Recorded (s.setSlice p x) t cls code index ↔ Recorded s t cls code index :=
  Iff.rfl

@[simp] theorem recorded_after_modSlice (f : Slice → Slice) :
    Recorded s (t.modSlice p f) cls code index ↔ Recorded s t cls code index := Iff.rfl

@[simp] theorem recorded_after_fireSlice (k : Nat) :
    Recorded s (t.fireSlice p k) cls code index ↔ Recorded s t cls code index := Iff.rfl

end

/-! A suspect row (R187, R188) -/

/-- The columns that are suspect in an uncorrectable block: those whose parity fails, or every column (R187). -/
def SfBlock.suspectCols (b : SfBlock) (key : Nat) : BitVec 109 := if b.badCols = 0 then blockMask key else b.badCols

/-- The fate of row `i` of block `key` as slice `p` reads it. -/
def State.suspectFate (s : State) (p key : Nat) (sc : BitVec 109) (i : Nat) : RowFate :=
  rowFate key sc (((s.slice p).sfBlock key).row i).data s.glb.agents

section
variable {s : State} {p key i : Nat} {sc : BitVec 109} {patrol : Bool}

theorem sfSuspect_zeroed (h : s.suspectFate p key sc i = .zeroed) : s.sfSuspect p key sc patrol i = s := by
  unfold State.suspectFate at h
  simp only [State.sfSuspect, h]

theorem sfSuspect_tagSuspect (h : s.suspectFate p key sc i = .tagSuspect) :
    s.sfSuspect p key sc patrol i = s.sliceErr p 2 0x03 none none (s.slice p).sfCap 0 patrol := by
  unfold State.suspectFate at h
  simp only [State.sfSuspect, h]

theorem sfSuspect_marked {d : BitVec 109} (h : s.suspectFate p key sc i = .marked d) :
    s.sfSuspect p key sc patrol i = ((s.count p .sfUncorr).sliceErr p 1 0x02
      (some ((s.slice p).lineOf (rowPos key i))) none (s.slice p).sfCap 0 patrol).fireSlice p 1 := by
  unfold State.suspectFate at h
  simp only [State.sfSuspect, h]

theorem patrolView_count (c : Cnt) (h : c.pmc = none) : ((s.count p c).slice p).patrolView = (s.slice p).patrolView := by
  rw [count_of_no_pmc s p h, slice_modSlice, if_pos rfl]
  rfl

/-- Of its slice a suspect row changes counters alone: the block is rewritten once, after its last row. -/
theorem patrolView_sfSuspect (s : State) (i : Nat) :
    ((s.sfSuspect p key sc patrol i).slice p).patrolView = (s.slice p).patrolView := by
  cases fate : s.suspectFate p key sc i with
  | zeroed => rw [sfSuspect_zeroed fate]
  | tagSuspect => rw [sfSuspect_tagSuspect fate, slice_sliceErr]
  | marked d => rw [sfSuspect_marked fate, slice_fireSlice, slice_sliceErr, patrolView_count _ rfl]

end

/-- The state with an error of slice `p`'s filter captured. -/
def State.captured (s : State) (p : Nat) (word : BitVec 31) : State := s.setSlice p ((s.slice p).sfCapture word)

theorem patrolView_captured (s : State) (p : Nat) (word : BitVec 31) :
    ((s.captured p word).slice p).patrolView = (s.slice p).patrolView := by
  rw [State.captured, slice_setSlice, if_pos rfl, patrolView_sfCapture]

theorem suspectFate_captured (s : State) (p key i : Nat) (word : BitVec 31) (sc : BitVec 109) :
    (s.captured p word).suspectFate p key sc i = s.suspectFate p key sc i := by
  rw [State.suspectFate, sfBlock_of_patrolView (patrolView_captured s p word)]
  rfl

/-! The block check (R186, Table 9.4) -/

section
variable {s : State} {p key : Nat} {patrol : Bool}

theorem sfBlockCheck_clean (h : ((s.slice p).sfBlock key).syndrome = .clean) :
    s.sfBlockCheck p key patrol = if ((s.slice p).sfBlock key).w0 == ((s.slice p).sfBlock key).w1 then s
      else s.setSlice p ((s.slice p).setBlock key { (s.slice p).sfBlock key with w0 := true, w1 := true }) := by
  simp only [State.sfBlockCheck, h]

theorem marked_of_both_written {b : SfBlock} (h0 : b.w0 = true) (h1 : b.w1 = true) :
    { b with w0 := true, w1 := true } = b := by
  cases b
  cases h0
  cases h1
  rfl

/-- A written block that checks clean gets both written bits, and nothing is recorded (R184). -/
theorem sfBlockCheck_clean_marks (h : ((s.slice p).sfBlock key).syndrome = .clean)
    (written : ((s.slice p).sfBlock key).written = true) :
    (s.slice p).Rechecked ((s.sfBlockCheck p key patrol).slice p) key
        { (s.slice p).sfBlock key with w0 := true, w1 := true }
      ∧ (s.sfBlockCheck p key patrol).ras = s.ras := by
  rw [sfBlockCheck_clean h]
  split
  · next same =>
    obtain ⟨first, second⟩ : ((s.slice p).sfBlock key).w0 = true ∧ ((s.slice p).sfBlock key).w1 = true := by
      simpa [SfBlock.written, beq_iff_eq.mp same] using written
    exact ⟨⟨(marked_of_both_written first second).symm, fun _ _ => rfl, rfl, rfl, rfl, rfl⟩, rfl⟩
  · rw [slice_setSlice, if_pos rfl]
    exact ⟨rechecked_setBlock .., rfl⟩

/-- The slice after a corrected block: the block rebuilt, and captured. -/
def Slice.corrected (x : Slice) (key kind row : Nat) (patrol : Bool) : Slice :=
  ((x.setBlock key (SfBlock.rebuild ((x.sfBlock key).mended kind row))).ovfSync key).sfCapture
    (capWord key row kind (((colsOf (x.sfBlock key).badCols).head?).getD 127) patrol)

theorem sfBlockCheck_corrected {kind row : Nat} (h : ((s.slice p).sfBlock key).syndrome = .corrected kind row) :
    s.sfBlockCheck p key patrol = (((s.setSlice p ((s.slice p).corrected key kind row patrol)).count p .sfCorr).sliceErr
      p 0 0x01 none none ((s.slice p).corrected key kind row patrol).sfCap 0 patrol).fireSlice p 0 := by
  simp only [State.sfBlockCheck, h]
  rfl

/-- A block with one corrected outcome is rebuilt from its mended rows and recorded while corrected errors are (R186). -/
theorem sfBlockCheck_corrected_rebuilds {kind row : Nat}
    (h : ((s.slice p).sfBlock key).syndrome = .corrected kind row) :
    (s.slice p).Rechecked ((s.sfBlockCheck p key patrol).slice p) key
        (SfBlock.rebuild (((s.slice p).sfBlock key).mended kind row))
      ∧ ((s.sfBlockCheck p key patrol).slice p).sfl = ((s.slice p).corrected key kind row patrol).sfl
      ∧ (s.ras.corrLog = true → Recorded s (s.sfBlockCheck p key patrol) 0 0x01 p)
      ∧ 8 * p ∈ (s.sfBlockCheck p key patrol).iag.arrived := by
  rw [sfBlockCheck_corrected h, slice_fireSlice, slice_sliceErr]
  refine ⟨(rechecked_setBlock _ key _).congr rfl ?_, ?_, fun logged => ?_, ?_⟩
  · rw [patrolView_count _ rfl, slice_setSlice, if_pos rfl, Slice.corrected, patrolView_sfCapture, patrolView_ovfSync]
  · rw [count_of_no_pmc _ _ rfl, slice_modSlice, if_pos rfl, slice_setSlice, if_pos rfl]
  · have made := recorded_sliceErr (State.count (s.setSlice p ((s.slice p).corrected key kind row patrol)) p .sfCorr) p 0 0x01
      none none ((s.slice p).corrected key kind row patrol).sfCap 0 patrol (.inr (by rw [ras_count]; exact logged))
    rw [recorded_count, recorded_setSlice] at made
    rwa [recorded_after_fireSlice]
  · simp

/-- Until it is captured, the first error of the filter is the one captured (Table 9.10). -/
theorem capture_of_corrected {x : Slice} (free : x.sfl.capValid = false) (key kind row : Nat) (patrol : Bool) :
    (x.corrected key kind row patrol).sfl.capValid = true ∧ (x.corrected key kind row patrol).sfl.cap
      = capWord key row kind (((colsOf (x.sfBlock key).badCols).head?).getD 127) patrol := by
  have still : ((x.setBlock key (SfBlock.rebuild ((x.sfBlock key).mended kind row))).ovfSync key).sfl.capValid = false := by
    unfold Slice.ovfSync
    split <;> exact free
  simp only [Slice.corrected, Slice.sfCapture, still, Bool.false_eq_true, if_false, and_self]

/-- The data a suspect row is left with (R187). -/
def RowFate.data (d : BitVec 109) : RowFate → BitVec 109
  | .zeroed => 0
  | .marked d' => d'
  | .tagSuspect => d

/-- The suspect rows of an uncorrectable block: those whose parity fails, or every row (R187). -/
def SfBlock.suspectRows (b : SfBlock) : List Nat := if b.badRows.isEmpty then List.range 8 else b.badRows

/-- The rows of an uncorrectable block after its suspect rows are dealt with. -/
def SfBlock.afterSuspects (b : SfBlock) (key : Nat) (agents : BitVec 64) : List (BitVec 109) :=
  (List.range 8).map fun i =>
    if b.suspectRows.contains i then (rowFate key (b.suspectCols key) (b.row i).data agents).data (b.row i).data
    else (b.row i).data

theorem sfBlockCheck_uncorrectable (h : ((s.slice p).sfBlock key).syndrome = .uncorrectable) :
    ∃ word, s.sfBlockCheck p key patrol
      = (((s.slice p).sfBlock key).suspectRows.foldl
          (fun t i => t.sfSuspect p key (((s.slice p).sfBlock key).suspectCols key) patrol i)
          (s.captured p word)).modSlice p
        fun x => (x.setBlock key (SfBlock.rebuild (((s.slice p).sfBlock key).afterSuspects key s.glb.agents))).ovfSync key := by
  simp only [State.sfBlockCheck, h]
  exact ⟨_, rfl⟩

/-- Some written block is checked to something, whatever its syndrome. -/
theorem sfBlockCheck_rechecks (s : State) (p key : Nat) (patrol : Bool) (written : ((s.slice p).sfBlock key).written = true) :
    ∃ b, (s.slice p).Rechecked ((s.sfBlockCheck p key patrol).slice p) key b := by
  cases syndrome : ((s.slice p).sfBlock key).syndrome with
  | clean => exact ⟨_, (sfBlockCheck_clean_marks syndrome written).1⟩
  | corrected kind row => exact ⟨_, (sfBlockCheck_corrected_rebuilds syndrome).1⟩
  | uncorrectable =>
    obtain ⟨word, checked⟩ := sfBlockCheck_uncorrectable (patrol := patrol) syndrome
    have unchanged := foldl_keeps (fun t => (t.slice p).patrolView) _
      (fun t i => patrolView_sfSuspect (key := key) (sc := ((s.slice p).sfBlock key).suspectCols key) (patrol := patrol) t i)
      ((s.slice p).sfBlock key).suspectRows (s.captured p word)
    rw [patrolView_captured] at unchanged
    rw [checked, slice_modSlice, if_pos rfl]
    exact ⟨_, (rechecked_setBlock _ key _).congr unchanged.symm (patrolView_ovfSync ..)⟩

/-- With one suspect row, only that row's data can change. -/
theorem afterSuspects_of_one_row {b : SfBlock} {r : Nat} (h : b.badRows = [r]) (key : Nat) (agents : BitVec 64) :
    b.afterSuspects key agents
      = b.datas.set r ((rowFate key (b.suspectCols key) (b.row r).data agents).data (b.row r).data) := by
  refine List.ext_getElem (by simp [SfBlock.afterSuspects, SfBlock.datas]) fun i h1 h2 => ?_
  by_cases same : r = i
  · subst same; simp [SfBlock.afterSuspects, SfBlock.datas, SfBlock.suspectRows, h]
  · simp [SfBlock.afterSuspects, SfBlock.datas, SfBlock.suspectRows, h, same, Ne.symm same]

theorem set_datas_self (b : SfBlock) (r : Nat) : b.datas.set r (b.row r).data = b.datas := by
  refine List.ext_getElem (by simp) fun i h1 h2 => ?_
  by_cases same : r = i
  · subst same; simp [SfBlock.datas]
  · simp [same]

/-- A block rewritten in a slice, whatever else has happened to the state. -/
theorem sfBlock_rewritten (s : State) (p key : Nat) (b : SfBlock) :
    ((s.modSlice p fun x => (x.setBlock key b).ovfSync key).slice p).sfBlock key = b := by
  rw [slice_modSlice, if_pos rfl, sfBlock_of_patrolView (patrolView_ovfSync ..)]
  exact (rechecked_setBlock ..).own

/-- An uncorrectable block with one suspect row `r` is rebuilt with the data that row's fate leaves it (R187). -/
theorem sfBlockCheck_one_suspect {r : Nat} (h : ((s.slice p).sfBlock key).syndrome = .uncorrectable)
    (one : ((s.slice p).sfBlock key).badRows = [r]) :
    ∃ word, s.sfBlockCheck p key patrol
      = ((s.captured p word).sfSuspect p key (((s.slice p).sfBlock key).suspectCols key) patrol r).modSlice p
        fun x => (x.setBlock key (SfBlock.rebuild (((s.slice p).sfBlock key).datas.set r
          ((s.suspectFate p key (((s.slice p).sfBlock key).suspectCols key) r).data (((s.slice p).sfBlock key).row r).data)))
          ).ovfSync key := by
  obtain ⟨word, checked⟩ := sfBlockCheck_uncorrectable (patrol := patrol) h
  have row : ((s.slice p).sfBlock key).suspectRows = [r] := by simp [SfBlock.suspectRows, one]
  rw [row, List.foldl_cons, List.foldl_nil, afterSuspects_of_one_row one] at checked
  exact ⟨word, checked⟩

section
variable {r : Nat} (h : ((s.slice p).sfBlock key).syndrome = .uncorrectable)
  (one : ((s.slice p).sfBlock key).badRows = [r])
include h one

theorem sfBlockCheck_zeroes (fate : s.suspectFate p key (((s.slice p).sfBlock key).suspectCols key) r = .zeroed) :
    ((s.sfBlockCheck p key patrol).slice p).sfBlock key = SfBlock.rebuild (((s.slice p).sfBlock key).datas.set r 0)
      ∧ (s.sfBlockCheck p key patrol).ras = s.ras := by
  obtain ⟨word, checked⟩ := sfBlockCheck_one_suspect (patrol := patrol) h one
  rw [checked, sfBlock_rewritten, fate, sfSuspect_zeroed ((suspectFate_captured ..).trans fate)]
  exact ⟨rfl, rfl⟩

theorem sfBlockCheck_keeps_tagSuspect
    (fate : s.suspectFate p key (((s.slice p).sfBlock key).suspectCols key) r = .tagSuspect) :
    ((s.sfBlockCheck p key patrol).slice p).sfBlock key = SfBlock.rebuild ((s.slice p).sfBlock key).datas
      ∧ Recorded s (s.sfBlockCheck p key patrol) 2 0x03 p := by
  obtain ⟨word, checked⟩ := sfBlockCheck_one_suspect (patrol := patrol) h one
  rw [checked, sfBlock_rewritten, fate, sfSuspect_tagSuspect ((suspectFate_captured ..).trans fate), RowFate.data,
    set_datas_self]
  have made := recorded_sliceErr (s.captured p word) p 2 0x03 none none ((s.captured p word).slice p).sfCap 0 patrol
    (.inl (by decide))
  rw [State.captured, recorded_setSlice] at made
  rw [recorded_after_modSlice]
  exact ⟨rfl, made⟩

theorem sfBlockCheck_marks {d : BitVec 109}
    (fate : s.suspectFate p key (((s.slice p).sfBlock key).suspectCols key) r = .marked d) :
    ((s.sfBlockCheck p key patrol).slice p).sfBlock key = SfBlock.rebuild (((s.slice p).sfBlock key).datas.set r d)
      ∧ Recorded s (s.sfBlockCheck p key patrol) 1 0x02 p
      ∧ 8 * p + 1 ∈ (s.sfBlockCheck p key patrol).iag.arrived := by
  obtain ⟨word, checked⟩ := sfBlockCheck_one_suspect (patrol := patrol) h one
  rw [checked, sfBlock_rewritten, fate, sfSuspect_marked ((suspectFate_captured ..).trans fate)]
  have made := recorded_sliceErr ((s.captured p word).count p .sfUncorr) p 1 0x02
    (some (((s.captured p word).slice p).lineOf (rowPos key r))) none ((s.captured p word).slice p).sfCap 0 patrol
    (.inl (by decide))
  rw [recorded_count, State.captured, recorded_setSlice] at made
  rw [recorded_after_modSlice, recorded_after_fireSlice]
  exact ⟨rfl, made, by simp⟩

end

end

/-! The patrol pass (R193) -/

/-- The pass goes on from block `k`, or ends where no written block is left. -/
def State.patrolOn (s : State) (p k : Nat) : State :=
  if ((s.slice p).writtenFrom k).isSome then s.modSlice p fun x => { x with sfl := { x.sfl with pass := some k } }
  else (s.modSlice p fun x => { x with sfl := { x.sfl with pass := none, passDone := true } }).fireSlice p 2

section
variable {s : State} {p : Nat}

theorem patrolOn_goes_on {k : Nat} {e : Nat × SfBlock} (h : (s.slice p).writtenFrom k = some e) :
    s.patrolOn p k = s.modSlice p fun x => { x with sfl := { x.sfl with pass := some k } } := by
  simp [State.patrolOn, h]

theorem patrolOn_ends {k : Nat} (h : (s.slice p).writtenFrom k = none) : s.patrolOn p k
    = (s.modSlice p fun x => { x with sfl := { x.sfl with pass := none, passDone := true } }).fireSlice p 2 := by
  simp [State.patrolOn, h]

/-- What the pass itself does not change: blocks, cache, trackers, open lines and captures of its slice, and records. -/
theorem patrolOn_keeps (s : State) (p k : Nat) : ((s.patrolOn p k).slice p).patrolView = (s.slice p).patrolView
    ∧ ((s.patrolOn p k).slice p).sfl.cap = (s.slice p).sfl.cap
    ∧ ((s.patrolOn p k).slice p).sfl.capValid = (s.slice p).sfl.capValid
    ∧ (s.patrolOn p k).ras = s.ras ∧ (s.patrolOn p k).rest = s.rest
    ∧ ∀ n ∈ s.iag.arrived, n ∈ (s.patrolOn p k).iag.arrived := by
  cases next : (s.slice p).writtenFrom k with
  | none =>
    rw [patrolOn_ends next, slice_fireSlice, slice_modSlice, if_pos rfl]
    exact ⟨rfl, rfl, rfl, rfl, rfl, fun n arrived => List.mem_append_left _ arrived⟩
  | some e =>
    rw [patrolOn_goes_on next, slice_modSlice, if_pos rfl]
    exact ⟨rfl, rfl, rfl, rfl, rfl, fun n arrived => arrived⟩

end

section
variable {p : Fin 132} {s : State} {k : Nat}

theorem sflPatrolCheck_idles (h : (s.slice p).sfl.pass = none ∨ s.sliceStopped p = true) : Idles (.sflPatrolCheck p) s := by
  obtain idle | stopped := h
  · simp only [Idles, exec, execSflPatrolCheck, idle]
  · cases pass : (s.slice p).sfl.pass <;> simp only [Idles, exec, execSflPatrolCheck, pass, stopped, if_true]

theorem exec_sflPatrolCheck_ends (pass : (s.slice p).sfl.pass = some k) (runs : s.sliceStopped p = false)
    (finished : (s.slice p).writtenFrom k = none) : exec (.sflPatrolCheck p) s = .next (s.patrolOn p k) := by
  unfold Slice.writtenFrom at finished
  simp only [exec, execSflPatrolCheck, pass, runs, Bool.false_eq_true, if_false, finished, State.patrolOn, Slice.writtenFrom,
    Option.isSome_none]

theorem exec_sflPatrolCheck_checks {e : Nat × SfBlock} (pass : (s.slice p).sfl.pass = some k)
    (runs : s.sliceStopped p = false) (due : (s.slice p).writtenFrom k = some e) :
    exec (.sflPatrolCheck p) s = .next ((s.sfBlockCheck p e.1 true).patrolOn p (e.1 + 1)) := by
  unfold Slice.writtenFrom at due
  simp only [exec, execSflPatrolCheck, pass, runs, Bool.false_eq_true, if_false, due]
  cases next : ((s.sfBlockCheck p e.1 true).slice p).writtenFrom (e.1 + 1) with
  | none => rw [patrolOn_ends next]; unfold Slice.writtenFrom at next; simp only [next]
  | some f => rw [patrolOn_goes_on next]; unfold Slice.writtenFrom at next; simp only [next]

/-- The end of a pass where no written block is left (R193). -/
theorem sflPatrolCheck_ends (pass : (s.slice p).sfl.pass = some k) (runs : s.sliceStopped p = false)
    (behind : ∀ e ∈ (s.slice p).sfl.blocks, e.1 < k) : Ends (.sflPatrolCheck p) s fun t =>
      (t.slice p).sfl.pass = none ∧ (t.slice p).sfl.passDone = true
      ∧ (t.slice p).sfl.blocks = (s.slice p).sfl.blocks ∧ t.iag.arrived = s.iag.arrived ++ [8 * p.val + 2]
      ∧ { t with slices := s.slices, iag := s.iag } = s := by
  have finished : (s.slice p).writtenFrom k = none := writtenFrom_eq_none.mpr fun e he => .inl (behind e he)
  refine ends_next (exec_sflPatrolCheck_ends pass runs finished) ?_
  rw [patrolOn_ends finished, slice_fireSlice, slice_modSlice, if_pos rfl]
  exact ⟨rfl, rfl, rfl, rfl, rfl⟩

/-- A written block behind block `i` is what the pass goes on to; without one the pass has ended. -/
theorem patrolOn_pass (s : State) (p i : Nat) :
    (((s.slice p).writtenFrom i).isSome = true → ((s.patrolOn p i).slice p).sfl.pass = some i)
      ∧ ((s.slice p).writtenFrom i = none → ((s.patrolOn p i).slice p).sfl.pass = none
        ∧ ((s.patrolOn p i).slice p).sfl.passDone = true) := by
  refine ⟨fun left => ?_, fun none_left => ?_⟩
  · obtain ⟨e, next⟩ := Option.isSome_iff_exists.mp left
    rw [patrolOn_goes_on next, slice_modSlice, if_pos rfl]
  · rw [patrolOn_ends none_left, slice_fireSlice, slice_modSlice, if_pos rfl]
    exact ⟨rfl, rfl⟩

end

/-- Settles O37: each row from the register it writes or the walk it queues, the patrol check from what the block check
does to one block in each outcome of Table 9.4 and from where the pass goes on. -/
theorem waysFlushAndFiltersArePatrolled : Obligations.WaysFlushAndFiltersArePatrolled := by
  unfold Obligations.WaysFlushAndFiltersArePatrolled
  refine fun p s => ⟨fun w => hlcWayDisable_starts, fun w => hlcWayFlushDone_without_flush,
    fun w f running way commanded empty silent => ⟨hlcWayFlushDone_pinned running way empty,
      hlcWayFlushDone_ends running way commanded empty silent⟩,
    fun c => hlcDictRow_idles, fun o => hlcDictRow_queues p, sflInit_refuses, sflInit_clears, sflRow_gated,
    sflPassStart_starts, sflPatrolCheck_idles, ?checks, fun k => sflPatrolCheck_ends⟩
  rintro k ⟨key, block⟩ pass runs due here
  dsimp only at here
  subst here
  have written : ((s.slice p).sfBlock key).written = true := (Bool.and_eq_true _ _ ▸ List.find?_some due).2
  obtain ⟨view, cap, capValid, ras, rest, arrived⟩ := patrolOn_keeps (s.sfBlockCheck p key true) p (key + 1)
  obtain ⟨goesOn, ended⟩ := patrolOn_pass (s.sfBlockCheck p key true) p (key + 1)
  obtain ⟨b, checked⟩ := sfBlockCheck_rechecks s p key true written
  have block := sfBlock_of_patrolView view key
  have after := checked.congr rfl view
  have outside := rest.trans (State.sfBlockCheck_rest s p key true)
  rw [checked.later] at goesOn ended
  refine ends_next (exec_sflPatrolCheck_checks pass runs due) ⟨after.others, fun left => goesOn (writtenFrom_isSome.mpr left),
    fun behind => ended (writtenFrom_eq_none.mpr fun x hx => (behind x hx).imp_left Nat.lt_succ_of_le),
    after.hlc, after.trks, after.olt, (congrArg State.engines outside :), (congrArg State.ports outside :),
    ?clean, ?corrected, ?suspect⟩
  case clean =>
    intro syndrome
    obtain ⟨marked, same⟩ := sfBlockCheck_clean_marks (patrol := true) syndrome written
    exact ⟨block.trans marked.own, ras.trans same⟩
  case corrected =>
    intro kind row syndrome
    obtain ⟨rebuilt, filter, made, fired⟩ := sfBlockCheck_corrected_rebuilds (patrol := true) syndrome
    refine ⟨block.trans rebuilt.own, fun free => ?_, fun logged => (made logged).of_ras_eq ras, arrived _ fired⟩
    rw [capValid, cap, filter]
    exact capture_of_corrected free key kind row true
  case suspect =>
    refine fun r syndrome one => ⟨fun d fate => ?_, fun fate => ?_, fun fate => ?_⟩
    · obtain ⟨rebuilt, made, fired⟩ := sfBlockCheck_marks (patrol := true) syndrome one fate
      exact ⟨block.trans rebuilt, made.of_ras_eq ras, arrived _ fired⟩
    · obtain ⟨rebuilt, same⟩ := sfBlockCheck_zeroes (patrol := true) syndrome one fate
      exact ⟨block.trans rebuilt, ras.trans same⟩
    · obtain ⟨rebuilt, made⟩ := sfBlockCheck_keeps_tagSuspect (patrol := true) syndrome one fate
      exact ⟨block.trans rebuilt, made.of_ras_eq ras⟩

end Sys2Proof.Machine
end

section
/-! SUPPORT. The address hashes and the recovery of a line from them (R23 to R26). A line address is its region `a[51:13]`
followed by `a[12:6]`; the sets and tags are functions of the region alone. -/

namespace Sys2Proof.Machine

open Sys2Proof

theorem extractLsb'_extractLsb' {n i w j l : Nat} (x : BitVec n) (inside : j + l ≤ w) :
    (x.extractLsb' i w).extractLsb' j l = x.extractLsb' (i + j) l := by
  apply BitVec.eq_of_getLsbD_eq
  intro k hk
  have inner : j + k < w := by omega
  simp [hk, inner, Nat.add_assoc]

/-- Address bits of a 52-bit address are those bits of its line address. -/
theorem abits_lineAddr (x : BitVec 52) {lo w : Nat} (above : 6 ≤ lo) (below : lo + w ≤ 52) :
    abits (x.extractLsb' 6 46) lo w = x.extractLsb' lo w := by
  rw [abits, extractLsb'_extractLsb' _ (by omega), Nat.add_sub_cancel' above]

/-- Address bits at or above bit 13 are bits of the region. -/
theorem abits_eq_region (a : LineAddr) {lo w : Nat} (above : 13 ≤ lo) (below : lo + w ≤ 52) :
    abits a lo w = (regionOf a).extractLsb' (lo - 13) w := by
  have start : 13 - 6 + (lo - 13) = lo - 6 := by omega
  rw [abits, regionOf, abits, extractLsb'_extractLsb' _ (by omega), start]

/-- What the region contributes to the logical slice (R23). -/
def upperHash (r : BitVec 39) : BitVec 7 :=
  r.extractLsb' 0 7 ^^^ r.extractLsb' 7 7 ^^^ r.extractLsb' 14 7 ^^^ r.extractLsb' 21 7 ^^^ r.extractLsb' 28 7
    ^^^ (r.extractLsb' 35 4).setWidth 7

theorem lsliceOf_eq (a : LineAddr) : lsliceOf a = abits a 6 7 ^^^ upperHash (regionOf a) := by
  rw [lsliceOf, abits_eq_region a (lo := 13) (by decide) (by decide), abits_eq_region a (lo := 20) (by decide) (by decide),
    abits_eq_region a (lo := 27) (by decide) (by decide), abits_eq_region a (lo := 34) (by decide) (by decide),
    abits_eq_region a (lo := 41) (by decide) (by decide), abits_eq_region a (lo := 48) (by decide) (by decide)]
  simp only [upperHash, BitVec.xor_assoc]

/-! A line address put together from region and low bits -/

theorem regionOf_append (r : BitVec 39) (v : BitVec 7) : regionOf (r ++ v) = r := BitVec.extractLsb'_append_eq_left

theorem low_append (r : BitVec 39) (v : BitVec 7) : abits (r ++ v) 6 7 = v := BitVec.extractLsb'_append_eq_right

theorem region_append_low (a : LineAddr) : regionOf a ++ abits a 6 7 = a := by
  have whole := BitVec.extractLsb'_append_extractLsb' (w := 39) (len := 7) (x := a)
  exact whole

theorem shifted_or_eq_append (r : BitVec 39) (v : BitVec 7) :
    (r.setWidth 46 <<< 7 ||| v.setWidth 46 : BitVec 46) = r ++ v := by
  rw [← BitVec.setWidth_append_eq_shiftLeft_setWidth_or, BitVec.setWidth_eq]

theorem lsliceOf_append (r : BitVec 39) (v : BitVec 7) : lsliceOf (r ++ v) = v ^^^ upperHash r := by
  rw [lsliceOf_eq, regionOf_append, low_append]

/-- Recovery appends to the region the low bits that give the logical slice (R25). -/
theorem addrOfRegion_eq (l : BitVec 7) (r : BitVec 39) : addrOfRegion l r = r ++ (l ^^^ upperHash r) := by
  have upper : r.setWidth 46 <<< 7 = r ++ (0 : BitVec 7) := by
    rw [← shifted_or_eq_append]
    simp
  rw [addrOfRegion, shifted_or_eq_append, upper, lsliceOf_append]
  exact congrArg (fun v => r ++ (l ^^^ v)) BitVec.zero_xor

theorem lsliceOf_addrOfRegion (l : BitVec 7) (r : BitVec 39) : lsliceOf (addrOfRegion l r) = l := by
  rw [addrOfRegion_eq, lsliceOf_append, BitVec.xor_assoc, BitVec.xor_self, BitVec.xor_zero]

theorem regionOf_addrOfRegion (l : BitVec 7) (r : BitVec 39) : regionOf (addrOfRegion l r) = r := by
  rw [addrOfRegion_eq, regionOf_append]

/-- A line is recovered from its logical slice and its region (R25). -/
theorem addrOfRegion_lsliceOf (a : LineAddr) : addrOfRegion (lsliceOf a) (regionOf a) = a := by
  rw [addrOfRegion_eq, lsliceOf_eq, BitVec.xor_assoc, BitVec.xor_self, BitVec.xor_zero, region_append_low]

/-! Snoop filter (R24, R25) -/

theorem sfSetOf_eq (a : LineAddr) : sfSetOf a = (regionOf a).extractLsb' 0 13 ^^^ (regionOf a).extractLsb' 13 13
    ^^^ (regionOf a).extractLsb' 26 13 := by
  rw [sfSetOf, abits_eq_region a (lo := 13) (by decide) (by decide), abits_eq_region a (lo := 26) (by decide) (by decide),
    abits_eq_region a (lo := 39) (by decide) (by decide)]

theorem sfTagOf_eq (a : LineAddr) : sfTagOf a = (regionOf a).extractLsb' 13 26 :=
  abits_eq_region a (lo := 26) (by decide) (by decide)

theorem xor_cancel_two {w : Nat} (x y z : BitVec w) : x ^^^ y ^^^ z ^^^ y ^^^ z = x := by
  have swap : x ^^^ y ^^^ z ^^^ y ^^^ z = x ^^^ (y ^^^ y) ^^^ (z ^^^ z) := by ac_rfl
  rw [swap, BitVec.xor_self, BitVec.xor_self, BitVec.xor_zero, BitVec.xor_zero]

theorem sfRecover_of_line (a : LineAddr) : sfRecover (lsliceOf a) (sfSetOf a) (sfTagOf a) = a := by
  have low : sfSetOf a ^^^ (sfTagOf a).extractLsb' 0 13 ^^^ (sfTagOf a).extractLsb' 13 13
      = (regionOf a).extractLsb' 0 13 := by
    rw [sfTagOf_eq, extractLsb'_extractLsb' _ (by decide), extractLsb'_extractLsb' _ (by decide), sfSetOf_eq, xor_cancel_two]
  have region : sfTagOf a ++ (regionOf a).extractLsb' 0 13 = regionOf a := by
    rw [sfTagOf_eq]
    exact BitVec.extractLsb'_append_extractLsb' (w := 26) (len := 13)
  rw [sfRecover, low, region, addrOfRegion_lsliceOf]

section
variable (l : BitVec 7) (set : BitVec 13) (tag : BitVec 26)

theorem regionOf_sfRecover : regionOf (sfRecover l set tag)
    = tag ++ (set ^^^ tag.extractLsb' 0 13 ^^^ tag.extractLsb' 13 13) := regionOf_addrOfRegion ..

theorem sfTagOf_sfRecover : sfTagOf (sfRecover l set tag) = tag := by
  rw [sfTagOf_eq, regionOf_sfRecover]
  exact BitVec.extractLsb'_append_eq_left

theorem sfSetOf_sfRecover : sfSetOf (sfRecover l set tag) = set := by
  rw [sfSetOf_eq, regionOf_sfRecover, BitVec.extractLsb'_append_eq_right, BitVec.extractLsb'_append_eq_of_le (by decide),
    BitVec.extractLsb'_append_eq_of_le (by decide)]
  exact xor_cancel_two ..

end
/-! Home line cache (R26) -/

theorem hsetOf_eq (a : LineAddr) : hsetOf a = (regionOf a).extractLsb' 0 8 ^^^ (regionOf a).extractLsb' 8 8
    ^^^ (regionOf a).extractLsb' 16 8 ^^^ (regionOf a).extractLsb' 24 8
    ^^^ ((regionOf a).extractLsb' 32 7).setWidth 8 := by
  rw [hsetOf, abits_eq_region a (lo := 13) (by decide) (by decide), abits_eq_region a (lo := 21) (by decide) (by decide),
    abits_eq_region a (lo := 29) (by decide) (by decide), abits_eq_region a (lo := 37) (by decide) (by decide),
    abits_eq_region a (lo := 45) (by decide) (by decide)]

theorem htagOf_eq (a : LineAddr) : htagOf a = (regionOf a).extractLsb' 8 31 :=
  abits_eq_region a (lo := 21) (by decide) (by decide)

theorem xor_cancel_four {w : Nat} (u v x y z : BitVec w) : u ^^^ v ^^^ x ^^^ y ^^^ z ^^^ v ^^^ x ^^^ y ^^^ z = u := by
  have swap : u ^^^ v ^^^ x ^^^ y ^^^ z ^^^ v ^^^ x ^^^ y ^^^ z = u ^^^ v ^^^ (x ^^^ y ^^^ z) ^^^ v ^^^ (x ^^^ y ^^^ z) := by
    ac_rfl
  rw [swap, xor_cancel_two]

theorem hRecover_of_line (a : LineAddr) : hRecover (lsliceOf a) (hsetOf a) (htagOf a) = a := by
  have low : hsetOf a ^^^ (htagOf a).extractLsb' 0 8 ^^^ (htagOf a).extractLsb' 8 8 ^^^ (htagOf a).extractLsb' 16 8
      ^^^ ((htagOf a).extractLsb' 24 7).setWidth 8 = (regionOf a).extractLsb' 0 8 := by
    rw [htagOf_eq, extractLsb'_extractLsb' _ (by decide), extractLsb'_extractLsb' _ (by decide),
      extractLsb'_extractLsb' _ (by decide), extractLsb'_extractLsb' _ (by decide), hsetOf_eq, xor_cancel_four]
  have region : htagOf a ++ (regionOf a).extractLsb' 0 8 = regionOf a := by
    rw [htagOf_eq]
    exact BitVec.extractLsb'_append_extractLsb' (w := 31) (len := 8)
  rw [hRecover, low, region, addrOfRegion_lsliceOf]

section
variable (l : BitVec 7) (set : BitVec 8) (tag : BitVec 31)

theorem regionOf_hRecover : regionOf (hRecover l set tag) = tag ++ (set ^^^ tag.extractLsb' 0 8 ^^^ tag.extractLsb' 8 8
    ^^^ tag.extractLsb' 16 8 ^^^ (tag.extractLsb' 24 7).setWidth 8) := regionOf_addrOfRegion ..

theorem htagOf_hRecover : htagOf (hRecover l set tag) = tag := by
  rw [htagOf_eq, regionOf_hRecover]
  exact BitVec.extractLsb'_append_eq_left

theorem hsetOf_hRecover : hsetOf (hRecover l set tag) = set := by
  rw [hsetOf_eq, regionOf_hRecover, BitVec.extractLsb'_append_eq_right, BitVec.extractLsb'_append_eq_of_le (by decide),
    BitVec.extractLsb'_append_eq_of_le (by decide), BitVec.extractLsb'_append_eq_of_le (by decide),
    BitVec.extractLsb'_append_eq_of_le (by decide)]
  exact xor_cancel_four ..

end

/-- Settles O1: every hash is a sum of parts of the region, to which recovery adds the low bits that give the slice. -/
theorem addressHashesRecoverTheLine : Obligations.AddressHashesRecoverTheLine := by
  unfold Obligations.AddressHashesRecoverTheLine
  refine ⟨fun x => ⟨?_, ?_, ?_, sfRecover_of_line _⟩, fun l set tag => ⟨lsliceOf_addrOfRegion .., sfSetOf_sfRecover ..,
    sfTagOf_sfRecover ..⟩⟩
  · simp only [lsliceOf, abits_lineAddr x, Nat.reduceLeDiff, Nat.reduceAdd, le_refl]
  · simp only [sfSetOf, abits_lineAddr x, Nat.reduceLeDiff, Nat.reduceAdd, le_refl]
  · exact abits_lineAddr x (by decide) (by decide)

/-- Settles O2: the set is a sum of parts of the region, and recovery adds the region's other parts again. -/
theorem homeCacheHashesRecoverTheLine : Obligations.HomeCacheHashesRecoverTheLine := by
  unfold Obligations.HomeCacheHashesRecoverTheLine
  refine ⟨fun x => ⟨?_, ?_, hRecover_of_line _⟩, fun l set tag => ⟨lsliceOf_addrOfRegion .., hsetOf_hRecover ..,
    htagOf_hRecover ..⟩⟩
  · simp only [hsetOf, abits_lineAddr x, Nat.reduceLeDiff, Nat.reduceAdd, le_refl]
  · exact abits_lineAddr x (by decide) (by decide)

end Sys2Proof.Machine
end

section
/-! SUPPORT. Ingress at a port (R20, R29, R30, R72, R80, R85 to R90, R172, R352). -/

namespace Sys2Proof.Machine

open Sys2Proof

/-! Link credits of a port concern neither its copies nor what waits at it -/

/-- A port without its ingress buffer and what the link credits of that buffer change. -/
def Port.besidesSlots (x : Port) : Port :=
  { x with ingress := [], inSlot := [], owed := [], given := [], oweInit := false, sent := [], tx := {} }

theorem takeFirst_of_not_mem {α : Type} [DecidableEq α] {a : α} {l : List α} (h : a ∉ l) : takeFirst a l = l := by
  induction l with
  | nil => rfl
  | cons b l ih =>
    obtain ⟨ne, rest⟩ := not_or.mp (List.mem_cons.not.mp h)
    rw [takeFirst, if_neg (Ne.symm ne), ih rest]

theorem takeFirst_append_self {α : Type} [DecidableEq α] {a : α} {l : List α} (h : a ∉ l) : takeFirst a (l ++ [a]) = l := by
  induction l with
  | nil => simp [takeFirst]
  | cons b l ih =>
    obtain ⟨ne, rest⟩ := not_or.mp (List.mem_cons.not.mp h)
    rw [List.cons_append, takeFirst, if_neg (Ne.symm ne), ih rest]

theorem ingress_takeIn (x : Port) (m : Msg) : (x.takeIn m).ingress = takeFirst m x.ingress := by
  unfold Port.takeIn
  split
  · rfl
  · next absent => exact (takeFirst_of_not_mem (by simpa using absent)).symm

@[simp] theorem besidesSlots_takeIn (x : Port) (m : Msg) : (x.takeIn m).besidesSlots = x.besidesSlots := by
  unfold Port.takeIn
  split <;> rfl

/-- Giving credits back sends at most a link-control slot (R80). -/
theorem give_eq (x : Port) : x.give = { x with
    owed := x.give.owed, given := x.give.given, oweInit := x.give.oweInit, sent := x.give.sent, tx := x.give.tx } := by
  unfold Port.give
  dsimp only
  split <;> rfl

theorem giveBack_eq (x : Port) (c : Nat) : x.giveBack c = { x with
    owed := (x.giveBack c).owed, given := (x.giveBack c).given, oweInit := (x.giveBack c).oweInit
    sent := (x.giveBack c).sent, tx := (x.giveBack c).tx } := by
  unfold Port.giveBack
  split
  · rw [give_eq]
  · rfl

@[simp] theorem besidesSlots_giveBack (x : Port) (c : Nat) : (x.giveBack c).besidesSlots = x.besidesSlots := by
  rw [giveBack_eq]
  rfl

@[simp] theorem ingress_giveBack (x : Port) (c : Nat) : (x.giveBack c).ingress = x.ingress := by rw [giveBack_eq]

section
variable (s : State) (n : Nat) (m : Msg)

theorem besidesSlots_leaveSlot (j : Nat) : ((s.leaveSlot n m).port j).besidesSlots = (s.port j).besidesSlots := by
  simp only [State.leaveSlot, port_modPort]
  split
  · next same =>
    subst same
    split
    · rw [besidesSlots_giveBack]; rfl
    · rfl
  · rfl

theorem ingress_leaveSlot (j : Nat) : ((s.leaveSlot n m).port j).ingress = (s.port j).ingress := by
  simp only [State.leaveSlot, port_modPort]
  split
  · next same =>
    subst same
    split
    · rw [ingress_giveBack]
    · rfl
  · rfl

theorem port_leaveSlot_ne {j : Nat} (h : n ≠ j) : (s.leaveSlot n m).port j = s.port j := by
  simp [State.leaveSlot, h]

end

/-! The state a flit meets at ingress -/

/-- The state without its ports and performance counters. -/
def State.besidesPorts (s : State) : State := { s with ports := [], pmc := {} }

theorem eq_of_besidesPorts_eq {s t : State} (h : t.besidesPorts = s.besidesPorts) :
    { t with ports := s.ports, pmc := s.pmc } = s :=
  congrArg (fun x : State => { x with ports := s.ports, pmc := s.pmc }) h

@[simp] theorem besidesPorts_modPort (s : State) (n : Nat) (f : Port → Port) : (s.modPort n f).besidesPorts = s.besidesPorts := rfl
@[simp] theorem besidesPorts_portEvent (s : State) (n c a : Nat) : (s.portEvent n c a).besidesPorts = s.besidesPorts := rfl
@[simp] theorem besidesPorts_leaveSlot (s : State) (n : Nat) (m : Msg) : (s.leaveSlot n m).besidesPorts = s.besidesPorts := rfl

/-- `t` is `s` but for counters and for what link credits change: every check at ingress reads the same in both. -/
structure State.SameWaits (s t : State) : Prop where
  outside : t.besidesPorts = s.besidesPorts
  ports : ∀ j, (t.port j).besidesSlots = (s.port j).besidesSlots

namespace State.SameWaits

variable {s t u : State}

theorem trans (h : s.SameWaits t) (k : t.SameWaits u) : s.SameWaits u :=
  ⟨k.outside.trans h.outside, fun j => (k.ports j).trans (h.ports j)⟩

theorem glb (h : s.SameWaits t) : t.glb = s.glb :=
  (congrArg (fun x : State => x.glb) h.outside :)
theorem time (h : s.SameWaits t) : t.time = s.time :=
  (congrArg (fun x : State => x.time) h.outside :)
theorem relayed (h : s.SameWaits t) : t.relayed = s.relayed :=
  (congrArg (fun x : State => x.relayed) h.outside :)
theorem stop (h : s.SameWaits t) (j : Nat) : (t.port j).stop = (s.port j).stop :=
  (congrArg (fun x : Port => x.stop) (h.ports j) :)
theorem held (h : s.SameWaits t) (j : Nat) : (t.port j).held = (s.port j).held :=
  (congrArg (fun x : Port => x.held) (h.ports j) :)
theorem ncWait (h : s.SameWaits t) (j : Nat) : (t.port j).ncWait = (s.port j).ncWait :=
  (congrArg (fun x : Port => x.ncWait) (h.ports j) :)

theorem ncRes (h : s.SameWaits t) (j : Nat) : (t.port j).ncRes = (s.port j).ncRes :=
  (congrArg (fun x : Port => x.ncRes) (h.ports j) :)
theorem ncG (h : s.SameWaits t) (j : Nat) : (t.port j).ncG = (s.port j).ncG :=
  (congrArg (fun x : Port => x.ncG) (h.ports j) :)
theorem ncAsked (h : s.SameWaits t) (j : Nat) : (t.port j).ncAsked = (s.port j).ncAsked :=
  (congrArg (fun x : Port => x.ncAsked) (h.ports j) :)
theorem srcErr (h : s.SameWaits t) (j : Nat) : (t.port j).srcErr = (s.port j).srcErr :=
  (congrArg (fun x : Port => x.srcErr) (h.ports j) :)

theorem copy (h : s.SameWaits t) (c : Nat) : t.copy c = s.copy c := by
  have smap : (t.port c).smap = (s.port c).smap := (congrArg (fun x : Port => x.smap) (h.ports c) :)
  have sentFor : (t.port c).sentFor = (s.port c).sentFor := (congrArg (fun x : Port => x.sentFor) (h.ports c) :)
  have stw : t.stwCopy = s.stwCopy := (congrArg (fun x : State => x.stwCopy) h.outside :)
  have hfn : t.hfnCopy = s.hfnCopy := (congrArg (fun x : State => x.hfnCopy) h.outside :)
  simp only [State.copy, smap, sentFor, stw, hfn]

theorem mapHeld (h : s.SameWaits t) (n : Nat) (m : Msg) : t.mapHeld n m = s.mapHeld n m := by
  simp only [State.mapHeld, h.copy]

theorem mustHold (h : s.SameWaits t) (n : Nat) (m : Msg) : t.mustHold n m = s.mustHold n m := by
  simp only [State.mustHold, h.glb, h.mapHeld]

theorem ncStopped (h : s.SameWaits t) (n : Nat) : t.ncStopped n = s.ncStopped n := by
  simp only [State.ncStopped, h.ncWait, h.mapHeld]

theorem mustWait (h : s.SameWaits t) (n : Nat) (m : Msg) : t.mustWait n m = s.mustWait n m := by
  simp only [State.mustWait, h.mustHold, h.ncStopped, h.held, h.glb]

theorem sourceOk (h : s.SameWaits t) (n : Nat) (m : Msg) : t.sourceOk n m = s.sourceOk n m := by
  simp only [State.sourceOk, h.glb]

theorem ncCredit (h : s.SameWaits t) (n l : Nat) : (t.port n).ncCredit l = (s.port n).ncCredit l :=
  (congrArg (fun x : Port => x.ncCredit l) (h.ports n) :)

theorem ncFirst (h : s.SameWaits t) (n l : Nat) : (t.port n).ncFirst l = (s.port n).ncFirst l :=
  (congrArg (fun x : Port => x.ncFirst l) (h.ports n) :)

theorem ncCommitted (h : s.SameWaits t) (n l : Nat) : (t.port n).ncCommitted l = (s.port n).ncCommitted l :=
  (congrArg (fun x : Port => x.ncCommitted l) (h.ports n) :)

end State.SameWaits

theorem sameWaits_leaveSlot (s : State) (n : Nat) (m : Msg) : s.SameWaits (s.leaveSlot n m) :=
  ⟨rfl, besidesSlots_leaveSlot s n m⟩

/-- The state after the port has taken the flit out of what its link brought, and counted it (R80). -/
def State.flitIn (s : State) (n : Nat) (m : Msg) : State := (s.modPort n fun x => x.takeIn m).portEvent n 0x01

theorem sameWaits_flitIn (s : State) (n : Nat) (m : Msg) : s.SameWaits (s.flitIn n m) := by
  refine ⟨rfl, fun j => ?_⟩
  simp only [State.flitIn, port_portEvent, port_modPort]
  split
  · next same => subst same; exact besidesSlots_takeIn ..
  · rfl

/-- The flit came from a link before `coherent_ready` in a class that only goes to homes (R407). -/
def State.tooEarly (s : State) (n : Nat) (m : Msg) : Bool :=
  !s.glb.coherentReady && isLinkPort n && (m.cls == 0 || m.cls == 1 || m.cls == 2)

/-- What ingress does with a flit, by the checks of the state in which it arrives. -/
theorem ingress_eq (s : State) (n : Nat) (m : Msg) : s.ingress n m =
    if !(s.sourceOk n m) || malformedFlit m || s.tooEarly n m then ((s.flitIn n m).leaveSlot n m).sourceError n m
    else if s.mustWait n m then (s.flitIn n m).holdBack n m else (s.flitIn n m).passOn n m := by
  rw [← (sameWaits_flitIn s n m).sourceOk, ← (sameWaits_flitIn s n m).mustWait]
  rfl

theorem exec_flitIngress (n : Fin 50) (m : Msg) (s : State) :
    exec (.flitIngress n m) s = .next (if s.takesFlits then s.ingress n m else s) := rfl

/-! A flit discarded -/

/-- The state without what a discard at ingress can change. -/
def State.besidesDiscards (s : State) : State := { s with ports := [], glb := {}, ras := {}, pmc := {}, iag := {} }

theorem eq_of_besidesDiscards_eq {s t : State} (h : t.besidesDiscards = s.besidesDiscards) :
    { t with ports := s.ports, glb := s.glb, ras := s.ras, pmc := s.pmc, iag := s.iag } = s :=
  congrArg (fun x : State => { x with ports := s.ports, glb := s.glb, ras := s.ras, pmc := s.pmc, iag := s.iag }) h

theorem State.SameWaits.besidesDiscards {s t : State} (h : s.SameWaits t) : t.besidesDiscards = s.besidesDiscards :=
  (congrArg (fun x : State => { x with ports := [], glb := {}, ras := {}, pmc := {}, iag := {} }) h.outside :)

section
variable (s : State) (n : Nat) (m : Msg)

@[simp] theorem besidesDiscards_modPort (f : Port → Port) : (s.modPort n f).besidesDiscards = s.besidesDiscards := rfl
@[simp] theorem besidesDiscards_modRas (f : Ras → Ras) : (s.modRas f).besidesDiscards = s.besidesDiscards := rfl
@[simp] theorem besidesDiscards_firePort (k : Nat) : (s.firePort n k).besidesDiscards = s.besidesDiscards := rfl
@[simp] theorem besidesDiscards_portEvent (c a : Nat) : (s.portEvent n c a).besidesDiscards = s.besidesDiscards := rfl
@[simp] theorem besidesDiscards_setGlb (g : Glb) : State.besidesDiscards { s with glb := g } = s.besidesDiscards := rfl

/-- A discard makes a record of class 1 (R20, R72). -/
theorem sourceError_eq : ∃ u : State, u.besidesDiscards = s.besidesDiscards ∧ u.ras = s.ras ∧ u.time = s.time
    ∧ u.glb = { s.glb with srcErrs := s.glb.srcErrs + 1 }
    ∧ u.ports = (s.modPort n fun x => { x with srcErr := if x.srcErr = 0xFFFF then 0xFFFF else x.srcErr + 1 }).ports
    ∧ s.sourceError n m = u.record
        { cls := 1, unit := 2, index := n, code := 0x29, agent := some m.src, detail := (msgBits m).extractLsb' 0 64 } := by
  refine ⟨_, ?_, ?_, ?_, ?_, ?_, rfl⟩
  · split <;> simp
  all_goals split <;> rfl

/-- What a discard does: it counts, may fire an event, and makes a record. -/
theorem sourceError_spec : (s.sourceError n m).besidesDiscards = s.besidesDiscards
    ∧ (s.sourceError n m).glb = { s.glb with srcErrs := s.glb.srcErrs + 1 }
    ∧ (s.sourceError n m).ports = (s.modPort n fun x =>
        { x with srcErr := if x.srcErr = 0xFFFF then 0xFFFF else x.srcErr + 1 }).ports
    ∧ ∃ e, (s.sourceError n m).ras.inflight = s.ras.inflight ++ [e] ∧ e.cls = 1 ∧ e.unit = 2 ∧ e.index = n ∧ e.code = 0x29
        ∧ e.agent = some m.src ∧ e.time = s.time := by
  obtain ⟨u, outside, ras, time, glb, ports, made⟩ := sourceError_eq s n m
  rw [made, record_contained _ _ rfl (show (0x29 : BitVec 8) ≠ 0x02 by decide)]
  exact ⟨outside, glb, ports, _, by rw [← ras]; rfl, rfl, rfl, rfl, rfl, rfl, time⟩

theorem port_sourceError (j : Nat) : (s.sourceError n m).port j = if n = j then
    { s.port n with srcErr := if (s.port n).srcErr = 0xFFFF then 0xFFFF else (s.port n).srcErr + 1 } else s.port j := by
  obtain ⟨-, -, ports, -⟩ := sourceError_spec s n m
  rw [State.port, ports]
  exact port_modPort ..

end

theorem flitIngress_discards {n : Fin 50} {m : Msg} {s : State}
    (bad : s.sourceOk n m = false ∨ malformedFlit m = true
      ∨ (s.glb.coherentReady = false ∧ isLinkPort n = true ∧ (m.cls = 0 ∨ m.cls = 1 ∨ m.cls = 2))) :
    s.ingress n m = ((s.flitIn n m).leaveSlot n m).sourceError n m := by
  have fails : (!(s.sourceOk n m) || malformedFlit m || s.tooEarly n m) = true := by
    obtain source | form | ⟨early, link, cls⟩ := bad
    · simp [source]
    · simp [form]
    · simp only [State.tooEarly, early, link, Bool.or_eq_true, Bool.not_false, Bool.true_and, beq_iff_eq]
      tauto
  rw [ingress_eq, if_pos fails]

/-- Settles O3: a discard is the error of `sourceError_eq` in a state that differs only in link credits. -/
theorem ingressDiscardsBadFlits : Obligations.IngressDiscardsBadFlits := by
  unfold Obligations.IngressDiscardsBadFlits
  refine fun n m s => ⟨fun gated => ?_, fun takes bad => ?_⟩
  · rw [Idles, exec_flitIngress, gated]
    rfl
  · have run : exec (.flitIngress n m) s = .next (((s.flitIn n m).leaveSlot n m).sourceError n m) := by
      rw [exec_flitIngress, takes, if_pos rfl, flitIngress_discards bad]
    have waits := (sameWaits_flitIn s n m).trans (sameWaits_leaveSlot _ n m)
    have counted : (((s.flitIn n m).leaveSlot n m).sourceError n m).port n = { ((s.flitIn n m).leaveSlot n m).port n with
        srcErr := if (s.port n).srcErr = 0xFFFF then 0xFFFF else (s.port n).srcErr + 1 } := by
      rw [port_sourceError, if_pos rfl, waits.srcErr]
    obtain ⟨outside, glb, -, made⟩ := sourceError_spec ((s.flitIn n m).leaveSlot n m) n m
    refine ends_next run ⟨?_, ?_, made, ?_, ?_, ?_, fun j other => ?_,
      eq_of_besidesDiscards_eq (outside.trans waits.besidesDiscards)⟩
    · rw [counted]
    · rw [glb, waits.glb]
    · rw [counted]
      dsimp only
      rw [ingress_leaveSlot, State.flitIn, port_portEvent, port_modPort, if_pos rfl, ingress_takeIn]
    · rw [counted]
      exact waits.held n
    · rw [counted]
      exact waits.stop n
    · rw [port_sourceError, if_neg other.symm, port_leaveSlot_ne _ _ _ other.symm, State.flitIn, port_portEvent,
        port_modPort, if_neg other.symm]

end Sys2Proof.Machine
end

section
/-! SUPPORT. What becomes of a flit that passes the checks at ingress (R29, R30, R85 to R90, R172). -/

namespace Sys2Proof.Machine

open Sys2Proof

/-! Waiting under a hold (R30, R352) -/

section
variable (s : State) (n : Nat) (m : Msg)

theorem besidesPorts_holdBack : (s.holdBack n m).besidesPorts = s.besidesPorts := by
  unfold State.holdBack
  split <;> rfl

theorem port_holdBack : (s.holdBack n m).port n = { s.port n with held := (s.port n).held ++ [m] } := by
  unfold State.holdBack
  split <;> simp

/-- A message waits that must be held, or that follows others which a map hold stops (R30). -/
theorem mustWait_of_holds {s : State} {n : Nat} {m : Msg} (h : s.mustHold n m = true
    ∨ (heldByMap m = true ∧ ((s.port n).held ≠ [] ∨ s.ncStopped n ≠ []))) : s.mustWait n m = true := by
  obtain held | ⟨mapped, behind | behind⟩ := h
  · simp [State.mustWait, held]
  · simp [State.mustWait, mapped, behind]
  · simp [State.mustWait, mapped, behind]

theorem not_mustWait {s : State} {n : Nat} {m : Msg} (free : s.mustHold n m = false) (empty : (s.port n).held = [])
    (first : heldByMap m = false ∨ s.ncStopped n = []) : s.mustWait n m = false := by
  obtain first | first := first <;> simp [State.mustWait, free, empty, first]

/-! Passing on (R29) -/

/-- The physical slice to which port `n` sends message `m`: the one its copy names, or a `SvcReq`'s own (R29, R68). -/
def State.physFor (s : State) (n : Nat) (m : Msg) : Nat :=
  if m.opc = 0x1B then m.aux.toNat else ((s.copy (copyOfPort n)).entry m.home.toNat).phys

theorem State.SameWaits.physFor {s t : State} (h : s.SameWaits t) (n : Nat) (m : Msg) : t.physFor n m = s.physFor n m := by
  simp only [State.physFor, h.copy]

theorem copyOfPort_eq_self {n : Nat} (hs : copyOfPort n ≠ stewardCopy) (hh : copyOfPort n ≠ hostCopy) : copyOfPort n = n := by
  have not_steward : n ≠ 48 := fun same => hs (by simp [copyOfPort, same])
  have not_host : n ≠ 49 := fun same => hh (by simp [copyOfPort, same])
  simp [copyOfPort, not_steward, not_host]

/-- Counting a flit in a port's copy changes the count of that copy alone (R171). -/
theorem port_countSent (l : Nat) : (s.modCopy (copyOfPort n) fun x => x.sent l).port n
    = { s.port n with sentFor := ((s.modCopy (copyOfPort n) fun x => x.sent l).port n).sentFor } := by
  unfold State.modCopy
  split
  · rfl
  · split
    · rfl
    · next hs hh => rw [copyOfPort_eq_self hs hh, port_modPort, if_pos rfl]; rfl

/-- What a message sent to a home changes of its port: the count of its copy, and its outbox. -/
theorem port_sendHome (hn : n < 50) : (s.sendHome n m).port n = { s.port n with
    sentFor := ((s.sendHome n m).port n).sentFor
    stop := { (s.port n).stop with outbox := (s.port n).stop.outbox ++ [flitOf m (s.physFor n m)] } } := by
  simp only [State.sendHome, hn, dite_true, State.modStop, port_modPort, if_true]
  split
  · rw [port_countSent]
    rfl
  · rfl

theorem relayed_sendHome : (s.sendHome n m).relayed = s.relayed := by
  have counted : (s.modCopy (copyOfPort n) fun x => x.sent m.home.toNat).relayed = s.relayed := by
    unfold State.modCopy
    split
    · rfl
    · split <;> rfl
  simp only [State.sendHome, State.modStop]
  split
  · split
    · exact counted
    · rfl
  · split
    · exact counted
    · rfl

theorem outbox_sendNode :
    ((s.sendNode n m).port n).stop.outbox = (s.port n).stop.outbox ++ [flitOf m 0] := by
  simp [State.sendNode]

end

/-! Requests of a non-caching group (R85 to R90) -/

/-- A change of a port that leaves its copy leaves every copy. -/
theorem copy_modPort (s : State) (n : Nat) (f : Port → Port) (smap : (f (s.port n)).smap = (s.port n).smap)
    (sentFor : (f (s.port n)).sentFor = (s.port n).sentFor) (c : Nat) : (s.modPort n f).copy c = s.copy c := by
  have own : ((s.modPort n f).port c).smap = (s.port c).smap ∧ ((s.modPort n f).port c).sentFor = (s.port c).sentFor := by
    rw [port_modPort]
    split
    · next same => subst same; exact ⟨smap, sentFor⟩
    · exact ⟨rfl, rfl⟩
  simp only [State.copy, own]
  rfl

@[simp] theorem port_setRelayed (s : State) (r : List (Nat × Msg)) (n : Nat) :
    State.port { s with relayed := r } n = s.port n := rfl

section
variable {s : State} {n l : Nat} {w : Nat × Msg}

theorem ncServeOne_idles (h : (s.port n).ncFirst l = none ∨ (s.port n).ncCredit l = none) : s.ncServeOne n l = s := by
  unfold State.ncServeOne
  obtain none_waits | no_credit := h
  · rw [none_waits]
  · rw [no_credit]
    split
    · next shared _ absurd_credit => cases absurd_credit
    · rfl

/-- The state in which the request `w` has been taken out of those that wait and spends a reserved credit. -/
def State.spendReserved (s : State) (n l : Nat) (w : Nat × Msg) : State := s.modPort n fun x =>
  { x with ncWait := takeFirst w x.ncWait, ncRes := x.ncRes.set zeroNat l (x.ncRes.get zeroNat l + 1) }

/-- The request that waits longest goes out on a reserved credit, TXN[11] zero (R85, R87). -/
theorem ncServeOne_serves (first : (s.port n).ncFirst l = some w) (credit : (s.port n).ncCredit l = some false)
    (free : s.mustHold n w.2 = false) (unstopped : s.ncStopped n = [])
    (due : (s.port n).ncCommitted l < ((s.port n).ncFor l).length) : s.ncServeOne n l
      = ((s.spendReserved n l w).leaveSlot n w.2).sendHome n { w.2 with txn := w.2.txn &&& 0x7FF } := by
  simp only [State.ncServeOne, first, credit, free, unstopped, List.contains_nil, Nat.not_le.mpr due, decide_false,
    Bool.or_self, Bool.false_eq_true, if_false]
  rfl

theorem ncAsk_idles (h : (s.port n).ncFirst l = none) : s.ncAsk n l = s := by
  unfold State.ncAsk
  dsimp only
  rw [h]

/-- Asking for shared credits: what waits and what is spent stay, and a request is unanswered then unless the group holds
all six (R89, R90). -/
theorem ncAsk_asks (hn : n < 50) (first : (s.port n).ncFirst l = some w) (open_ : s.glb.ingressHold = false) :
    ((s.ncAsk n l).port n).ncWait = (s.port n).ncWait ∧ ((s.ncAsk n l).port n).ncRes = (s.port n).ncRes
      ∧ ((s.ncAsk n l).port n).ncAsked.get noBool l
        = ((s.port n).ncAsked.get noBool l || decide ((s.port n).ncG.get zeroNat l < 6)) := by
  have some_wait : 0 < ((s.port n).ncFor l).length := by
    refine List.length_pos_of_mem (a := w) (List.mem_of_mem_head? ?_)
    rw [← Port.ncFirst, first]
    rfl
  simp only [State.ncAsk, first, open_, Bool.or_false]
  split
  · next idle =>
    refine ⟨rfl, rfl, ?_⟩
    simp only [Bool.or_eq_true, decide_eq_true_eq] at idle
    obtain none_left | asked := idle
    · have all_six : ¬ (s.port n).ncG.get zeroNat l < 6 := by omega
      simp [all_six]
    · simp [asked]
  · next asks =>
    simp only [Bool.or_eq_true, decide_eq_true_eq, not_or] at asks
    have room : (s.port n).ncG.get zeroNat l < 6 := by omega
    split
    · simp [room]
    · rw [port_sendHome _ _ _ hn]
      simp [room]

end

/-! A non-caching request that joins those waiting (R85) -/

/-- The request waits for a credit from now on. -/
def State.ncJoin (s : State) (n : Nat) (m : Msg) : State :=
  s.modPort n fun x => { x with ncWait := x.ncWait ++ [(s.time, m)] }

section
variable {s : State} {n : Nat} {m : Msg}

theorem passOn_ncJoin (home : m.dst = 1023) (req : m.cls = 0) (group : isNCR m.src.toNat = true) :
    s.passOn n m = (s.ncJoin n m).ncServe n m.home.toNat := by
  simp only [State.passOn, home, req, group, and_self, if_true]
  rfl

theorem port_ncJoin : (s.ncJoin n m).port n = { s.port n with ncWait := (s.port n).ncWait ++ [(s.time, m)] } := by
  simp [State.ncJoin]

theorem copy_ncJoin (c : Nat) : (s.ncJoin n m).copy c = s.copy c := copy_modPort s n _ rfl rfl c

theorem mustHold_ncJoin (q : Msg) : (s.ncJoin n m).mustHold n q = s.mustHold n q := by
  simp only [State.mustHold, State.mapHeld, copy_ncJoin]
  rfl

theorem ncFor_ncJoin :
    ((s.ncJoin n m).port n).ncFor m.home.toNat = (s.port n).ncFor m.home.toNat ++ [(s.time, m)] := by
  simp [port_ncJoin, Port.ncFor]

theorem ncCredit_ncJoin (l : Nat) : ((s.ncJoin n m).port n).ncCredit l = (s.port n).ncCredit l := by
  rw [port_ncJoin]
  rfl

theorem ncCommitted_ncJoin (l : Nat) : ((s.ncJoin n m).port n).ncCommitted l = (s.port n).ncCommitted l := by
  rw [port_ncJoin]
  rfl

/-- No hold stops what waits, nor the request that joins it. -/
theorem ncStopped_ncJoin (unstopped : s.ncStopped n = []) (free : s.mapHeld n m = false) : (s.ncJoin n m).ncStopped n = [] := by
  have held (q : Msg) : (s.ncJoin n m).mapHeld n q = s.mapHeld n q := by simp only [State.mapHeld, copy_ncJoin]
  rw [State.ncStopped, List.dropWhile_eq_nil_iff] at unstopped ⊢
  rw [port_ncJoin]
  intro w waits
  rw [held]
  obtain before | rfl := List.mem_append.mp waits |>.imp_right List.mem_singleton.mp
  · exact unstopped w before
  · simp [free]

/-- A request that joins none of its slice and finds a reserved credit goes out on it (R85, R87). -/
theorem ncServe_sends (hn : n < 50) (first : (s.port n).ncFirst m.home.toNat = none)
    (credit : (s.port n).ncCredit m.home.toNat = some false) (asked : (s.port n).ncCommitted m.home.toNat = 0)
    (free : s.mustHold n m = false) (unstopped : s.ncStopped n = []) :
    ∃ t, (s.ncJoin n m).ncServe n m.home.toNat = t ∧ (t.port n).ncWait = (s.port n).ncWait
      ∧ (t.port n).ncRes = (s.port n).ncRes.set zeroNat m.home.toNat ((s.port n).ncRes.get zeroNat m.home.toNat + 1)
      ∧ (t.port n).stop.outbox = (s.port n).stop.outbox
        ++ [flitOf { m with txn := m.txn &&& 0x7FF } (s.physFor n { m with txn := m.txn &&& 0x7FF })] := by
  have none_waits : (s.port n).ncFor m.home.toNat = [] := List.head?_eq_none_iff.mp first
  have alone : ((s.ncJoin n m).port n).ncFor m.home.toNat = [(s.time, m)] := by rw [ncFor_ncJoin, none_waits]; rfl
  have mapped : s.mapHeld n m = false := (Bool.or_eq_false_iff.mp free).2
  have absent : (s.time, m) ∉ (s.port n).ncWait := by
    intro waits
    have listed : (s.time, m) ∈ (s.port n).ncFor m.home.toNat := List.mem_filter.mpr ⟨waits, by simp⟩
    rw [none_waits] at listed
    cases listed
  obtain ⟨t, served⟩ : ∃ t, (s.ncJoin n m).ncServeOne n m.home.toNat = t := ⟨_, rfl⟩
  have sent := served
  rw [ncServeOne_serves (w := (s.time, m)) (by rw [Port.ncFirst, alone]; rfl) (by rw [ncCredit_ncJoin, credit])
    (by rw [mustHold_ncJoin, free]) (ncStopped_ncJoin unstopped mapped)
    (by rw [ncCommitted_ncJoin, asked, alone]; exact Nat.one_pos)] at sent
  have spent : ((s.ncJoin n m).spendReserved n m.home.toNat (s.time, m)).port n = { s.port n with
      ncRes := (s.port n).ncRes.set zeroNat m.home.toNat ((s.port n).ncRes.get zeroNat m.home.toNat + 1) } := by
    simp only [State.spendReserved, port_modPort, if_true, port_ncJoin, takeFirst_append_self absent]
  have waits := sameWaits_leaveSlot ((s.ncJoin n m).spendReserved n m.home.toNat (s.time, m)) n m
  have phys (q : Msg) : (((s.ncJoin n m).spendReserved n m.home.toNat (s.time, m)).leaveSlot n m).physFor n q
      = s.physFor n q := by
    rw [waits.physFor, State.physFor, State.physFor, State.spendReserved, copy_modPort _ _ _ rfl rfl, copy_ncJoin]
  have wait : (t.port n).ncWait = (s.port n).ncWait := by
    rw [← sent, port_sendHome _ _ _ hn]
    dsimp only
    rw [waits.ncWait, spent]
  have idle : (t.port n).ncFirst m.home.toNat = none := by rw [Port.ncFirst, Port.ncFor, wait]; exact first
  refine ⟨t, ?_, wait, ?_, ?_⟩
  · have rounds : ((s.ncJoin n m).port n).ncWait.length = (s.port n).ncWait.length + 1 := by simp [port_ncJoin]
    rw [State.ncServe, rounds, List.range_succ_eq_map, List.foldl_cons, served,
      List.foldl_fixed' (fun _ => ncServeOne_idles (.inl idle)), ncAsk_idles idle]
  · rw [← sent, port_sendHome _ _ _ hn]
    dsimp only
    rw [waits.ncRes, spent]
  · rw [← sent, port_sendHome _ _ _ hn]
    dsimp only
    rw [waits.stop, spent, phys]

/-- Without a credit a request waits, and the group asks for shared ones (R85, R89). -/
theorem ncServe_asks (hn : n < 50) (credit : (s.port n).ncCredit m.home.toNat = none) (open_ : s.glb.ingressHold = false) :
    ∃ t, (s.ncJoin n m).ncServe n m.home.toNat = t ∧ (t.port n).ncWait = (s.port n).ncWait ++ [(s.time, m)]
      ∧ (t.port n).ncAsked.get noBool m.home.toNat = ((s.port n).ncAsked.get noBool m.home.toNat
          || decide ((s.port n).ncG.get zeroNat m.home.toNat < 6))
      ∧ (t.port n).ncRes = (s.port n).ncRes := by
  have no_credit : ((s.ncJoin n m).port n).ncCredit m.home.toNat = none := by rw [ncCredit_ncJoin, credit]
  obtain ⟨w, first⟩ : ∃ w, ((s.ncJoin n m).port n).ncFirst m.home.toNat = some w := by
    rw [Port.ncFirst, ncFor_ncJoin]
    exact Option.isSome_iff_exists.mp (by simp)
  obtain ⟨wait, res, asked⟩ := ncAsk_asks hn first open_
  rw [port_ncJoin] at wait res asked
  refine ⟨_, ?_, wait, asked, res⟩
  rw [State.ncServe, List.foldl_fixed' (fun _ => ncServeOne_idles (.inr no_credit))]

end

/-! How each kind of flit is passed on -/

section
variable {s : State} {n : Nat} {m : Msg}

theorem passOn_home (home : m.dst = 1023) (plain : m.cls ≠ 0 ∨ isNCR m.src.toNat = false)
    (granted : m.opc ≠ 0x2D ∨ ((s.copy (copyOfPort n)).entry m.home.toNat).hold = false)
    (unspent : spendsMaint n m = false ∨ isEngine m.src.toNat = true) :
    s.passOn n m = (s.leaveSlot n m).sendHome n m := by
  have no_group : ¬(m.cls = 0 ∧ isNCR m.src.toNat = true) := by
    rintro ⟨req, group⟩
    exact plain.elim (absurd req) fun not_group => by simp [not_group] at group
  have no_spend : (spendsMaint n m && !(isEngine m.src.toNat)) = false := by
    obtain none_spent | engine := unspent
    · simp [none_spent]
    · simp [engine]
  have no_relay : ¬(m.opc = 0x2D ∧ ((s.copy (copyOfPort n)).entry m.home.toNat).hold = true) := by
    rintro ⟨credit, hold⟩
    exact granted.elim (absurd credit) fun open_ => by simp [open_] at hold
  simp only [State.passOn, home, no_group, no_spend, no_relay, if_true, if_false, Bool.false_eq_true]

/-- A `CreditRequest` whose slice is on HOLD stays with the relay (R172). -/
theorem passOn_relay (home : m.dst = 1023) (other : m.cls ≠ 0) (credit : m.opc = 0x2D)
    (hold : ((s.copy (copyOfPort n)).entry m.home.toNat).hold = true) : s.passOn n m
      = { s.leaveSlot n m with relayed := (s.leaveSlot n m).relayed ++ [(n, m)] } := by
  have no_spend : spendsMaint n m = false := by simp [spendsMaint, credit]
  simp only [State.passOn, home, other, no_spend, credit, hold, if_true, if_false, false_and, true_and, Bool.false_and,
    Bool.false_eq_true]

/-- A request of class REQ is no `SvcReq` (Table 4.6). -/
theorem opc_ne_svcReq (form : malformedFlit m = false) (req : m.cls = 0) : m.opc ≠ 0x1B := by
  intro svc
  simp [malformedFlit, svc, req, classOf, classCode] at form

end

/-! FLIT_INGRESS of a flit that passes the checks -/

section
variable {n : Fin 50} {m : Msg} {s : State}

/-- The flit passes every check, in a block that takes flits and is ready (R20, R72, R407). -/
def State.takesIn (s : State) (n : Nat) (m : Msg) : Prop :=
  s.takesFlits = true ∧ s.sourceOk n m = true ∧ malformedFlit m = false ∧ s.glb.coherentReady = true

theorem exec_flitIngress_good (good : s.takesIn n m) : exec (.flitIngress n m) s
    = .next (if s.mustWait n m then (s.flitIn n m).holdBack n m else (s.flitIn n m).passOn n m) := by
  obtain ⟨takes, source, form, ready⟩ := good
  rw [exec_flitIngress, takes, if_pos rfl, ingress_eq, if_neg (by simp [source, form, State.tooEarly, ready])]

theorem flitIngress_holds (good : s.takesIn n m) (waits : s.mustWait n m = true) : Ends (.flitIngress n m) s fun t =>
    (t.port n).held = (s.port n).held ++ [m] ∧ (t.port n).stop = (s.port n).stop
      ∧ { t with ports := s.ports, pmc := s.pmc } = s := by
  have same := sameWaits_flitIn s n m
  have run := exec_flitIngress_good good
  rw [if_pos waits] at run
  have outside : ((s.flitIn n m).holdBack n m).besidesPorts = s.besidesPorts := (besidesPorts_holdBack ..).trans same.outside
  refine ends_next run ⟨?_, ?_, (eq_of_besidesPorts_eq outside :)⟩
  · rw [port_holdBack]
    exact congrArg (· ++ [m]) (same.held n)
  · rw [port_holdBack]
    exact same.stop n

/-- The state from which the flit goes on: out of its slot, which the checks do not see. -/
theorem sameWaits_left (s : State) (n : Nat) (m : Msg) : s.SameWaits ((s.flitIn n m).leaveSlot n m) :=
  (sameWaits_flitIn s n m).trans (sameWaits_leaveSlot (s.flitIn n m) n m)

variable (good : s.takesIn n m) (unheld : s.mustWait n m = false)
include good unheld

theorem exec_flitIngress_passes : exec (.flitIngress n m) s = .next ((s.flitIn n m).passOn n m) := by
  have run := exec_flitIngress_good good
  rwa [unheld, if_neg Bool.false_ne_true] at run

theorem flitIngress_toNode (node : m.dst ≠ 1023) : Ends (.flitIngress n m) s fun t =>
    (t.port n).stop.outbox = (s.port n).stop.outbox ++ [flitOf m 0] ∧ { t with ports := s.ports, pmc := s.pmc } = s := by
  have sent : (s.flitIn n m).passOn n m = ((s.flitIn n m).leaveSlot n m).sendNode n m := if_neg node
  have outside : (((s.flitIn n m).leaveSlot n m).sendNode n m).besidesPorts = s.besidesPorts :=
    (besidesPorts_modPort ..).trans (sameWaits_left s n m).outside
  refine ends_next ((exec_flitIngress_passes good unheld).trans (congrArg _ sent)) ⟨?_, (eq_of_besidesPorts_eq outside :)⟩
  rw [outbox_sendNode, (sameWaits_left s n m).stop]

theorem flitIngress_toHome (home : m.dst = 1023) (plain : m.cls ≠ 0 ∨ isNCR m.src.toNat = false)
    (granted : m.opc ≠ 0x2D ∨ ((s.copy (copyOfPort n)).entry m.home.toNat).hold = false)
    (unspent : spendsMaint n m = false ∨ isEngine m.src.toNat = true) : Ends (.flitIngress n m) s fun t =>
      (t.port n).stop.outbox = (s.port n).stop.outbox ++ [flitOf m (s.physFor n m)] ∧ t.relayed = s.relayed := by
  have same := sameWaits_left s n m
  have sent := passOn_home (s := s.flitIn n m) home plain (by rwa [(sameWaits_flitIn s n m).copy]) unspent
  refine ends_next ((exec_flitIngress_passes good unheld).trans (congrArg _ sent)) ⟨?_,
    (relayed_sendHome ..).trans same.relayed⟩
  rw [port_sendHome _ _ _ n.isLt]
  dsimp only
  rw [same.stop, same.physFor]

theorem flitIngress_toRelay (home : m.dst = 1023) (other : m.cls ≠ 0) (credit : m.opc = 0x2D)
    (hold : ((s.copy (copyOfPort n)).entry m.home.toNat).hold = true) : Ends (.flitIngress n m) s fun t =>
      t.relayed = s.relayed ++ [(n.val, m)] ∧ (t.port n).stop = (s.port n).stop := by
  have same := sameWaits_left s n m
  have kept := passOn_relay (s := s.flitIn n m) home other credit (by rwa [(sameWaits_flitIn s n m).copy])
  refine ends_next ((exec_flitIngress_passes good unheld).trans (congrArg _ kept)) ⟨?_, ?_⟩
  · exact congrArg (· ++ [(n.val, m)]) same.relayed
  · rw [port_setRelayed]
    exact same.stop n

theorem flitIngress_ncSends (home : m.dst = 1023) (req : m.cls = 0) (group : isNCR m.src.toNat = true)
    (free : s.mustHold n m = false) (unstopped : s.ncStopped n = [])
    (none_waits : (s.port n).ncFirst m.home.toNat = none) (credit : (s.port n).ncCredit m.home.toNat = some false)
    (asked : (s.port n).ncCommitted m.home.toNat = 0) : Ends (.flitIngress n m) s fun t =>
      (t.port n).ncRes.get zeroNat m.home.toNat = (s.port n).ncRes.get zeroNat m.home.toNat + 1
      ∧ (t.port n).ncWait = (s.port n).ncWait
      ∧ (t.port n).stop.outbox = (s.port n).stop.outbox ++ [flitOf { m with txn := m.txn &&& 0x7FF }
          ((s.copy (copyOfPort n)).entry m.home.toNat).phys] := by
  have same := sameWaits_flitIn s n m
  have no_svc := opc_ne_svcReq good.2.2.1 req
  obtain ⟨t, served, wait, res, out⟩ := ncServe_sends (s := s.flitIn n m) n.isLt ((same.ncFirst ..).trans none_waits)
    ((same.ncCredit ..).trans credit) ((same.ncCommitted ..).trans asked) ((same.mustHold ..).trans free)
    ((same.ncStopped n).trans unstopped)
  refine ends_next ((exec_flitIngress_passes good unheld).trans
    (congrArg _ ((passOn_ncJoin home req group).trans served))) ⟨?_, wait.trans (same.ncWait n), ?_⟩
  · rw [res, NMap.get_set_self, same.ncRes]
  · rw [out, same.stop, same.physFor, State.physFor, if_neg no_svc]

theorem flitIngress_ncAsks (home : m.dst = 1023) (req : m.cls = 0) (group : isNCR m.src.toNat = true)
    (free : s.mustHold n m = false) (credit : (s.port n).ncCredit m.home.toNat = none) : Ends (.flitIngress n m) s fun t =>
      (t.port n).ncWait = (s.port n).ncWait ++ [(s.time, m)]
      ∧ (t.port n).ncAsked.get noBool m.home.toNat = ((s.port n).ncAsked.get noBool m.home.toNat
          || decide ((s.port n).ncG.get zeroNat m.home.toNat < 6))
      ∧ (t.port n).ncRes = (s.port n).ncRes := by
  have same := sameWaits_flitIn s n m
  have open_ : s.glb.ingressHold = false := by
    have no_power_hold := (Bool.or_eq_false_iff.mp free).1
    simpa [heldByPower, req] using no_power_hold
  obtain ⟨t, served, wait, asks, res⟩ := ncServe_asks (s := s.flitIn n m) n.isLt ((same.ncCredit ..).trans credit)
    ((congrArg Glb.ingressHold same.glb).trans open_)
  refine ends_next ((exec_flitIngress_passes good unheld).trans
    (congrArg _ ((passOn_ncJoin home req group).trans served))) ⟨?_, ?_, res.trans (same.ncRes n)⟩
  · rw [wait, same.ncWait, same.time]
  · rw [asks, same.ncAsked, same.ncG]

end

/-- Settles O4: a flit that passes the checks waits where `mustWait` says so, and is else passed on by its kind. -/
theorem ingressHoldsOrPassesOn : Obligations.IngressHoldsOrPassesOn := by
  unfold Obligations.IngressHoldsOrPassesOn
  intro n m s takes source form ready
  have good : s.takesIn n m := ⟨takes, source, form, ready⟩
  refine ⟨fun holds => flitIngress_holds good (mustWait_of_holds holds), fun free empty first => ?_⟩
  have unheld := not_mustWait free empty first
  refine ⟨flitIngress_toNode good unheld, flitIngress_toHome good unheld, flitIngress_toRelay good unheld,
    fun home req group => ?_, fun home req group => flitIngress_ncAsks good unheld home req group free⟩
  have mapped : heldByMap m = true := by simp [heldByMap, home, req]
  exact flitIngress_ncSends good unheld home req group free (first.resolve_left (by simp [mapped]))

end Sys2Proof.Machine
end

section
/-! SUPPORT. What a slice's operations on messages, trackers and counters change of it (R9, R71, R88, R92, R109, R364). -/

namespace Sys2Proof.Machine

open Sys2Proof

/-! Counters (R171, R324) -/

/-- A slice without its counters. -/
def Slice.besidesCounts (x : Slice) : Slice := { x with cnt := [], acc := [], taken := [] }

/-- `t` differs from `s` in slices and performance counters alone, and in slice `p` in its counters alone. -/
structure State.OnlyCounts (p : Nat) (s t : State) : Prop where
  outside : t.outsideSlices = s.outsideSlices
  slice : (t.slice p).besidesCounts = (s.slice p).besidesCounts

namespace State.OnlyCounts

variable {p : Nat} {s t u : State}

protected theorem refl (p : Nat) (s : State) : s.OnlyCounts p s := ⟨rfl, rfl⟩
theorem trans (h : s.OnlyCounts p t) (k : t.OnlyCounts p u) : s.OnlyCounts p u :=
  ⟨k.outside.trans h.outside, k.slice.trans h.slice⟩

theorem ras (h : s.OnlyCounts p t) : t.ras = s.ras := (congrArg (fun x : State => x.ras) h.outside :)
theorem time (h : s.OnlyCounts p t) : t.time = s.time := (congrArg (fun x : State => x.time) h.outside :)
theorem glb (h : s.OnlyCounts p t) : t.glb = s.glb := (congrArg (fun x : State => x.glb) h.outside :)
theorem trks (h : s.OnlyCounts p t) : (t.slice p).trks = (s.slice p).trks := (congrArg (fun x : Slice => x.trks) h.slice :)
theorem trk (h : s.OnlyCounts p t) (n : Nat) : (t.slice p).trk n = (s.slice p).trk n :=
  congrArg (fun x : NMap (Option Trk) => x.get noTrk n) h.trks
theorem olt (h : s.OnlyCounts p t) : (t.slice p).olt = (s.slice p).olt := (congrArg (fun x : Slice => x.olt) h.slice :)
theorem sfl (h : s.OnlyCounts p t) : (t.slice p).sfl = (s.slice p).sfl := (congrArg (fun x : Slice => x.sfl) h.slice :)
theorem hlc (h : s.OnlyCounts p t) : (t.slice p).hlc = (s.slice p).hlc := (congrArg (fun x : Slice => x.hlc) h.slice :)
theorem g (h : s.OnlyCounts p t) : (t.slice p).g = (s.slice p).g := (congrArg (fun x : Slice => x.g) h.slice :)
theorem crq (h : s.OnlyCounts p t) : (t.slice p).crq = (s.slice p).crq := (congrArg (fun x : Slice => x.crq) h.slice :)
theorem lslice (h : s.OnlyCounts p t) : (t.slice p).lslice = (s.slice p).lslice :=
  (congrArg (fun x : Slice => x.lslice) h.slice :)
theorem stop (h : s.OnlyCounts p t) : (t.slice p).stop = (s.slice p).stop := (congrArg (fun x : Slice => x.stop) h.slice :)
theorem local_ (h : s.OnlyCounts p t) : (t.slice p).local_ = (s.slice p).local_ :=
  (congrArg (fun x : Slice => x.local_) h.slice :)

theorem sentNothing (h : s.OnlyCounts p t) : SentNothing s t p := ⟨congrArg StopSt.outbox h.stop, h.local_⟩

end State.OnlyCounts

theorem onlyCounts_count (s : State) (p : Nat) (c : Cnt) : s.OnlyCounts p (s.count p c) := by
  refine ⟨outsideSlices_count s p c, ?_⟩
  unfold State.count
  split
  · rw [slice_slcEvent, slice_modSlice, if_pos rfl]; rfl
  · rw [slice_modSlice, if_pos rfl]; rfl

theorem onlyCounts_slcEvent (s : State) (p c a : Nat) : s.OnlyCounts p (s.slcEvent p c a) :=
  ⟨rfl, congrArg Slice.besidesCounts (slice_slcEvent ..)⟩

theorem onlyCounts_noteTaken (s : State) (p : Nat) (m : Msg) : s.OnlyCounts p (s.noteTaken p m) := by
  unfold State.noteTaken
  split
  · exact State.OnlyCounts.refl p s
  · exact ⟨rfl, by rw [slice_modSlice, if_pos rfl]; rfl⟩

/-! Records and messages between two states -/

theorem SentNothing.trans {s t u : State} {p : Nat} (h : SentNothing s t p) (k : SentNothing t u p) : SentNothing s u p :=
  ⟨k.1.trans h.1, k.2.trans h.2⟩

/-- A record made from `t` on is one made from `s` on, where nothing was recorded between. -/
theorem Recorded.from_before {s t u : State} {cls : BitVec 2} {code : BitVec 8} {index : Nat}
    (h : Recorded t u cls code index) (ras : t.ras = s.ras) (time : t.time = s.time) : Recorded s u cls code index := by
  unfold Recorded at h ⊢
  rwa [ras, time] at h

@[simp] theorem olt_takeMsg (s : State) (p : Nat) (m : Msg) : ((s.takeMsg p m).slice p).olt = (s.slice p).olt := by
  rw [slice_takeMsg]
@[simp] theorem g_takeMsg (s : State) (p : Nat) (m : Msg) : ((s.takeMsg p m).slice p).g = (s.slice p).g := by
  rw [slice_takeMsg]
@[simp] theorem crq_takeMsg (s : State) (p : Nat) (m : Msg) : ((s.takeMsg p m).slice p).crq = (s.slice p).crq := by
  rw [slice_takeMsg]

theorem taking_of_waiting {s : State} {p : Nat} {m : Msg} (h : (s.slice p).mayTake p m = false) (go : State → State) :
    s.taking p m go = s := by
  simp [State.taking, h]

theorem taking_of_next {s : State} {p : Nat} {m : Msg} (h : (s.slice p).mayTake p m = true) (go : State → State) :
    s.taking p m go = go (s.takeMsg p m) := by
  simp [State.taking, h]

@[simp] theorem homeMatches_takeMsg (s : State) (p : Nat) (q m : Msg) (named : Bool) :
    homeMatches ((s.takeMsg p q).slice p) m named = homeMatches (s.slice p) m named := by
  simp only [homeMatches, lslice_takeMsg]

/-- A message for a home that the slice is not (R25): a block-fatal record, and nothing else of the slice. -/
theorem homeMismatch_spec (s : State) (p : Nat) (m : Msg) : Recorded s (s.homeMismatch p m) 2 0x04 p
    ∧ (s.homeMismatch p m).saf.fatal.isSome = true ∧ (s.homeMismatch p m).slice p = s.slice p :=
  ⟨recorded_sliceErr s p 2 0x04 _ _ _ _ _ (.inl (by decide)), record_fatal s _ rfl, slice_sliceErr ..⟩

/-! The end of a transaction (R71, R88) -/

/-- Freeing a tracker returns its credit and forgets that its watchdog has reported (R88, R102). -/
theorem slice_closeTrk {s : State} {p t : Nat} {k : Trk} (h : (s.slice p).trk t = some k) :
    (s.closeTrk p t).slice p = { s.slice p with
      trks := (s.slice p).trks.set noTrk t none, wdogDone := ((s.closeTrk p t).slice p).wdogDone
      g := ((s.closeTrk p t).slice p).g } := by
  simp only [State.closeTrk, h, slice_modSlice, if_true]
  split
  · split <;> rfl
  · rfl

theorem outsideSlices_closeTrk (s : State) (p t : Nat) : (s.closeTrk p t).outsideSlices = s.outsideSlices := by
  unfold State.closeTrk
  split <;> rfl

/-- The message that ends the transaction of tracker content `k` at slice `x` (R71). -/
def Slice.endMsg (x : Slice) (opc : Nat) (k : Trk) : Msg :=
  { x.homeMsg opc k.req.src k.req.addr with txn := k.req.txn, cret := true }

theorem outbox_emit_congr {s t : State} {p : Nat} (h : (t.slice p).stop.outbox = (s.slice p).stop.outbox) (m : Msg) :
    ((t.emit p m).slice p).stop.outbox = ((s.emit p m).slice p).stop.outbox := by
  simp only [State.emit, slice_modSlice, if_true]
  split
  · exact h
  · exact congrArg (· ++ _) h

theorem local_emit_congr {s t : State} {p : Nat} (h : (t.slice p).local_ = (s.slice p).local_) (m : Msg) :
    ((t.emit p m).slice p).local_ = ((s.emit p m).slice p).local_ := by
  simp only [State.emit, slice_modSlice, if_true]
  split
  · exact congrArg (· ++ _) h
  · exact h

/-- What is sent after nothing was sent is sent. -/
theorem Sent.from_before {s t u : State} {p : Nat} {m : Msg} (h : Sent t u p m) (none : SentNothing s t p) : Sent s u p m :=
  ⟨h.1.trans (outbox_emit_congr none.1 m), h.2.trans (local_emit_congr none.2 m)⟩

theorem sent_of_slice_emit {s t : State} {p : Nat} {m : Msg} (stop : (t.slice p).stop = ((s.emit p m).slice p).stop)
    (own : (t.slice p).local_ = ((s.emit p m).slice p).local_) : Sent s t p m := ⟨congrArg StopSt.outbox stop, own⟩

section
variable {s : State} {p t : Nat} {k : Trk} (h : (s.slice p).trk t = some k) (opc : Nat) (f : Msg → Msg)
include h

theorem endWith_eq : s.endWith p t opc f = (s.emit p (f ((s.slice p).endMsg opc k))).closeTrk p t := by
  simp only [State.endWith, h]
  rfl

/-- What the end of a transaction changes of its slice: the tracker, its credit, and what is sent. -/
theorem slice_endWith : (s.endWith p t opc f).slice p = { s.slice p with
    trks := (s.slice p).trks.set noTrk t none
    stop := ((s.emit p (f ((s.slice p).endMsg opc k))).slice p).stop
    local_ := ((s.emit p (f ((s.slice p).endMsg opc k))).slice p).local_
    wdogDone := ((s.endWith p t opc f).slice p).wdogDone, g := ((s.endWith p t opc f).slice p).g } := by
  have open_ : ((s.emit p (f ((s.slice p).endMsg opc k))).slice p).trk t = some k := by
    rw [slice_emit]
    exact h
  rw [endWith_eq h, slice_closeTrk open_, slice_emit]

theorem sent_endWith : Sent s (s.endWith p t opc f) p (f ((s.slice p).endMsg opc k)) := by
  refine sent_of_slice_emit ?_ ?_ <;> rw [slice_endWith h]

theorem trk_endWith : ((s.endWith p t opc f).slice p).trk t = none := by
  rw [slice_endWith h]
  exact NMap.get_set_self noTrk (s.slice p).trks t none

end

theorem outsideSlices_endWith (s : State) (p t opc : Nat) (f : Msg → Msg) :
    (s.endWith p t opc f).outsideSlices = s.outsideSlices := by
  unfold State.endWith
  split
  · rfl
  · exact outsideSlices_closeTrk ..

theorem outsideSlices_endErr (s : State) (p t : Nat) (stat : BitVec 4) : (s.endErr p t stat).outsideSlices = s.outsideSlices :=
  outsideSlices_endWith ..

theorem sent_endErr {s : State} {p t : Nat} {k : Trk} (h : (s.slice p).trk t = some k) (stat : BitVec 4) :
    Sent s (s.endErr p t stat) p
      { (s.slice p).homeMsg 0x31 k.req.src k.req.addr with txn := k.req.txn, cret := true, stat } :=
  sent_endWith h 0x31 fun m => { m with stat }

/-! Requests (R25, R27, R73, R92, R100) -/

/-- A request that names the slice is counted as taken (R171). -/
def State.noted (s : State) (p : Nat) (m : Msg) : State :=
  if homeMatches (s.slice p) m true then (s.noteTaken p m).slcEvent p 0x01 else s

theorem onlyCounts_noted (s : State) (p : Nat) (m : Msg) : s.OnlyCounts p (s.noted p m) := by
  unfold State.noted
  split
  · exact (onlyCounts_noteTaken s p m).trans (onlyCounts_slcEvent ..)
  · exact State.OnlyCounts.refl p s

/-- Slice `x` with tracker `t` opened on content `k`. -/
def Slice.opens (x : Slice) (t : Nat) (k : Trk) : Slice := { x.setTrk t (some k) with arrivals := x.arrivals + 1 }

/-- Tracker `t` is opened on content `k`. -/
def State.queueTrk (s : State) (p t : Nat) (k : Trk) : State := s.modSlice p fun x => x.opens t k

/-- Tracker `t` is opened on content `k`, and counted where its request arrives at breakaway (R100). -/
def State.openTrk (s : State) (p t : Nat) (k : Trk) : State :=
  if (s.queueTrk p t k).broke p k then (s.queueTrk p t k).breakOut p t else s.queueTrk p t k

theorem trk_modTrk (s : State) (p t : Nat) (f : Trk → Trk) : ((s.modTrk p t f).slice p).trk t = ((s.slice p).trk t).map f := by
  rw [State.modTrk, slice_modSlice, if_pos rfl]
  exact NMap.get_set_self ..

theorem slice_modTrk (s : State) (p t : Nat) (f : Trk → Trk) :
    (s.modTrk p t f).slice p = (s.slice p).setTrk t (((s.slice p).trk t).map f) := by
  rw [State.modTrk, slice_modSlice, if_pos rfl]

theorem outsideSlices_modTrk (s : State) (p t : Nat) (f : Trk → Trk) : (s.modTrk p t f).outsideSlices = s.outsideSlices := rfl

section
variable (s : State) (p t : Nat) (k : Trk)

theorem outsideSlices_queueTrk : (s.queueTrk p t k).outsideSlices = s.outsideSlices := rfl

theorem slice_queueTrk : (s.queueTrk p t k).slice p = (s.slice p).opens t k := by
  rw [State.queueTrk, slice_modSlice, if_pos rfl]

/-- A slice without its counters and without its trackers. -/
def Slice.besidesTrks (x : Slice) : Slice := { x.besidesCounts with trks := [], arrivals := 0 }

theorem besidesTrks_of_onlyCounts {s t : State} {p : Nat} (h : s.OnlyCounts p t) :
    (t.slice p).besidesTrks = (s.slice p).besidesTrks :=
  congrArg (fun x : Slice => { x with trks := [], arrivals := 0 }) h.slice

theorem besidesTrks_setTrk (x : Slice) (t : Nat) (k : Option Trk) : (x.setTrk t k).besidesTrks = x.besidesTrks := rfl

theorem besidesTrks_openTrk : ((s.openTrk p t k).slice p).besidesTrks = (s.slice p).besidesTrks := by
  have queued : ((s.queueTrk p t k).slice p).besidesTrks = (s.slice p).besidesTrks := by
    rw [slice_queueTrk]
    rfl
  unfold State.openTrk
  split
  · rw [State.breakOut, slice_modTrk, besidesTrks_setTrk]
    exact (besidesTrks_of_onlyCounts (onlyCounts_count (s.queueTrk p t k) p .brk)).trans queued
  · exact queued

theorem req_openTrk : ∃ k', ((s.openTrk p t k).slice p).trk t = some k' ∧ k'.req = k.req := by
  have queued : ((s.queueTrk p t k).slice p).trk t = some k := by
    rw [slice_queueTrk]
    exact NMap.get_set_self noTrk (s.slice p).trks t (some k)
  unfold State.openTrk
  split
  · rw [State.breakOut, trk_modTrk]
    rw [(onlyCounts_count (s.queueTrk p t k) p .brk).trk, queued]
    exact ⟨_, rfl, rfl⟩
  · exact ⟨_, queued, rfl⟩

theorem outsideSlices_openTrk : (s.openTrk p t k).outsideSlices = s.outsideSlices := by
  unfold State.openTrk
  split
  · rw [State.breakOut, outsideSlices_modTrk, outsideSlices_count, outsideSlices_queueTrk]
  · exact outsideSlices_queueTrk s p t k

end

/-- A tracker's content at a request's arrival. -/
def Trk.queued (m : Msg) (arr seq : Nat) : Trk := { req := m, kind := kindOf m.opc.toNat, phase := .queued, arr, seq }

theorem homeMsg_congr {x y : Slice} (h : y.lslice = x.lslice) (opc : Nat) (dst : BitVec 10) (a : LineAddr) :
    y.homeMsg opc dst a = x.homeMsg opc dst a := by
  simp only [Slice.homeMsg, h]

theorem portOf_congr {s t : State} (h : t.glb = s.glb) (a : LineAddr) : t.portOf a = s.portOf a := by
  simp only [State.portOf, h]

theorem portOf_takeMsg (s : State) (p : Nat) (m : Msg) (a : LineAddr) : (s.takeMsg p m).portOf a = s.portOf a :=
  portOf_congr (glb_takeMsg s p m) a

theorem State.OnlyCounts.portOf {p : Nat} {s t : State} (h : s.OnlyCounts p t) (a : LineAddr) : t.portOf a = s.portOf a :=
  portOf_congr h.glb a

theorem portOf_openTrk (s : State) (p t : Nat) (k : Trk) (a : LineAddr) : (s.openTrk p t k).portOf a = s.portOf a :=
  portOf_congr (congrArg (fun x : State => x.glb) (outsideSlices_openTrk s p t k) :) a

@[simp] theorem allowed_takeMsg (s : State) (p : Nat) (q m : Msg) :
    ((s.takeMsg p q).slice p).allowed p m = (s.slice p).allowed p m := by
  simp only [Slice.allowed, Slice.sharedOpen, Slice.resOpen, Slice.held, Slice.used, trks_takeMsg, g_takeMsg]
  rfl

@[simp] theorem freeTrk_takeMsg (s : State) (p : Nat) (q : Msg) : ((s.takeMsg p q).slice p).freeTrk = (s.slice p).freeTrk := by
  simp only [Slice.freeTrk, Slice.trk, trks_takeMsg]

section
variable {s : State} {p : Nat} {m : Msg} (next : (s.slice p).mayTake p m = true) (go : State → Nat → State)
include next

theorem request_beyondAllowance (excess : (s.slice p).allowed p m = false ∨ (s.slice p).freeTrk = none) :
    s.request p m go = ((s.takeMsg p m).noted p m).beyondAllowance p m := by
  rw [State.request, taking_of_next next]
  simp only [allowed_takeMsg, freeTrk_takeMsg]
  cases fits : (s.slice p).allowed p m with
  | false => rfl
  | true =>
    obtain none_ := excess.resolve_left (by simp [fits])
    simp only [none_]
    rfl

theorem request_homeMismatch (fits : (s.slice p).allowed p m = true) {t : Nat} (free : (s.slice p).freeTrk = some t)
    (home : homeMatches (s.slice p) m true = false) :
    s.request p m go = (s.takeMsg p m).homeMismatch p m := by
  rw [State.request, taking_of_next next]
  simp [fits, free, home]

theorem request_noRegion (fits : (s.slice p).allowed p m = true) {t : Nat} (free : (s.slice p).freeTrk = some t)
    (home : homeMatches (s.slice p) m true = true) (valid : malformed m = false) (region : s.portOf m.addr = none) :
    ∃ k : Trk, k.req = m ∧ s.request p m go
      = ((((s.takeMsg p m).noted p m).openTrk p t k).sliceErr p 1 0x19 (some m.addr) (some m.src)).endErr p t 5 := by
  have fits' : ((s.takeMsg p m).slice p).allowed p m = true := (allowed_takeMsg ..).trans fits
  have free' : ((s.takeMsg p m).slice p).freeTrk = some t := (freeTrk_takeMsg ..).trans free
  have home' : homeMatches ((s.takeMsg p m).slice p) m true = true := (homeMatches_takeMsg ..).trans home
  refine ⟨Trk.queued m ((s.takeMsg p m).noted p m).time ((s.takeMsg p m).slice p).arrivals, rfl, ?_⟩
  have noPort (k : Trk) : ((((s.takeMsg p m).noted p m).openTrk p t k).portOf m.addr).isNone = true := by
    rw [portOf_openTrk, (onlyCounts_noted ..).portOf, portOf_takeMsg, region]
    rfl
  rw [State.request, taking_of_next next]
  refine (if_neg (by simp [fits'])).trans ?_
  rw [free']
  refine (if_neg (by simp [home'])).trans ?_
  refine (if_neg (by simp [valid])).trans ?_
  exact if_pos (noPort _)

end

/-- A request beyond its allowance is counted and recorded, and changes nothing else of its slice (R92). -/
theorem slice_beyondAllowance (s : State) (p : Nat) (m : Msg) :
    (s.beyondAllowance p m).slice p = (s.count p .creditDiscard).slice p := slice_sliceErr ..

theorem recorded_beyondAllowance (s : State) (p : Nat) (m : Msg) : Recorded s (s.beyondAllowance p m) 1 0x12 p :=
  (recorded_count ..).mp (recorded_sliceErr _ p 1 0x12 _ _ _ _ _ (.inl (by decide)))

/-- The REQ rows of a slice, with their opcodes (Table 4.6). -/
theorem exec_requestRow {e : (Fin 132 → Msg → Instr) × Nat}
    (h : e ∈ ([(.readShared, 0x00), (.readOwn, 0x01), (.upgrade, 0x02), (.readNc, 0x03), (.writeNcFull, 0x04),
      (.writeNcPartial, 0x05), (.atomicReq, 0x06), (.farOp, 0x07)] : List ((Fin 132 → Msg → Instr) × Nat)))
    (p : Fin 132) (m : Msg) (s : State) : ∃ go, exec (e.1 p m) s = .next (s.request p (asOpc m e.2) go) := by
  simp only [List.mem_cons, List.not_mem_nil, or_false] at h
  obtain rfl | rfl | rfl | rfl | rfl | rfl | rfl | rfl := h <;> exact ⟨_, rfl⟩

section
variable {s : State} {p : Nat} {m : Msg} (next : (s.slice p).mayTake p m = true)

/-- What `s.noted` and what follows it on counters alone leave as `takeMsg` left it. -/
theorem kept_of_onlyCounts {t : State} (h : (s.takeMsg p m).OnlyCounts p t) :
    SentNothing (s.takeMsg p m) t p ∧ (t.slice p).trks = (s.slice p).trks ∧ (t.slice p).olt = (s.slice p).olt
    ∧ (t.slice p).sfl = (s.slice p).sfl :=
  ⟨h.sentNothing, h.trks.trans (trks_takeMsg ..), h.olt.trans (olt_takeMsg ..), h.sfl.trans (sfl_takeMsg ..)⟩

/-- A request that is discarded: nothing is sent, and no tracker, open line or entry of the filter changes. -/
theorem kept_of_slice_eq {t u : State} (h : (s.takeMsg p m).OnlyCounts p t) (same : u.slice p = t.slice p) :
    SentNothing (s.takeMsg p m) u p ∧ (u.slice p).trks = (s.slice p).trks ∧ (u.slice p).olt = (s.slice p).olt
    ∧ (u.slice p).sfl = (s.slice p).sfl := by
  unfold SentNothing
  rw [same]
  exact kept_of_onlyCounts h

include next

theorem request_excess (go : State → Nat → State) (excess : (s.slice p).allowed p m = false ∨ (s.slice p).freeTrk = none) :
    Recorded s (s.request p m go) 1 0x12 p ∧ SentNothing (s.takeMsg p m) (s.request p m go) p
    ∧ ((s.request p m go).slice p).trks = (s.slice p).trks ∧ ((s.request p m go).slice p).olt = (s.slice p).olt
    ∧ ((s.request p m go).slice p).sfl = (s.slice p).sfl := by
  rw [request_beyondAllowance next go excess]
  have noted := onlyCounts_noted (s.takeMsg p m) p m
  exact ⟨(recorded_beyondAllowance ..).from_before noted.ras noted.time,
    kept_of_slice_eq (noted.trans (onlyCounts_count _ p .creditDiscard)) (slice_beyondAllowance ..)⟩

theorem request_misdirected (go : State → Nat → State) (fits : (s.slice p).allowed p m = true)
    (free : (s.slice p).freeTrk.isSome = true) (home : homeMatches (s.slice p) m true = false) :
    Recorded s (s.request p m go) 2 0x04 p ∧ (s.request p m go).saf.fatal.isSome = true
    ∧ SentNothing (s.takeMsg p m) (s.request p m go) p ∧ ((s.request p m go).slice p).trks = (s.slice p).trks
    ∧ ((s.request p m go).slice p).olt = (s.slice p).olt ∧ ((s.request p m go).slice p).sfl = (s.slice p).sfl := by
  obtain ⟨t, free⟩ := Option.isSome_iff_exists.mp free
  rw [request_homeMismatch next go fits free home]
  obtain ⟨record, fatal, same⟩ := homeMismatch_spec (s.takeMsg p m) p m
  exact ⟨record.from_before rfl rfl, fatal, kept_of_slice_eq (State.OnlyCounts.refl p _) same⟩

theorem request_outside (go : State → Nat → State) {k : Nat} (fits : (s.slice p).allowed p m = true)
    (free : (s.slice p).freeTrk = some k) (home : homeMatches (s.slice p) m true = true) (valid : malformed m = false)
    (region : s.portOf m.addr = none) :
    Recorded s (s.request p m go) 1 0x19 p ∧ ((s.request p m go).slice p).trk k = none
    ∧ ((s.request p m go).slice p).olt = (s.slice p).olt
    ∧ Sent (s.takeMsg p m) (s.request p m go) p
        { (s.slice p).homeMsg 0x31 m.src m.addr with txn := m.txn, cret := true, stat := 5 } := by
  obtain ⟨q, rfl, served⟩ := request_noRegion next go fits free home valid region
  have noted := onlyCounts_noted (s.takeMsg p q.req) p q.req
  have kept := (besidesTrks_openTrk ((s.takeMsg p q.req).noted p q.req) p k q).trans (besidesTrks_of_onlyCounts noted)
  have outside := (outsideSlices_openTrk ((s.takeMsg p q.req).noted p q.req) p k q).trans noted.outside
  obtain ⟨y, opened, req⟩ := req_openTrk ((s.takeMsg p q.req).noted p q.req) p k q
  rw [served]
  generalize ((s.takeMsg p q.req).noted p q.req).openTrk p k q = v at kept outside opened
  rw [← slice_sliceErr v p 1 0x19 (some q.req.addr) (some q.req.src) 0 0 false p] at kept opened
  have record := recorded_sliceErr v p 1 0x19 (some q.req.addr) (some q.req.src) 0 0 false (.inl (by decide))
  generalize v.sliceErr p 1 0x19 (some q.req.addr) (some q.req.src) = w at kept opened record
  refine ⟨?_, trk_endWith opened .., ?_, ?_⟩
  · refine (record.from_before ?_ ?_).of_ras_eq ?_
    · exact (congrArg (fun x : State => x.ras) outside :)
    · exact (congrArg (fun x : State => x.time) outside :)
    · exact (congrArg (fun x : State => x.ras) (outsideSlices_endErr w p k 5) :)
  · rw [State.endErr, slice_endWith opened]
    have olt : (w.slice p).olt = ((s.takeMsg p q.req).slice p).olt := (congrArg (fun x : Slice => x.olt) kept :)
    exact olt.trans (olt_takeMsg ..)
  · have sent := sent_endErr opened 5
    have lslice : (w.slice p).lslice = ((s.takeMsg p q.req).slice p).lslice :=
      (congrArg (fun x : Slice => x.lslice) kept :)
    have quiet : SentNothing (s.takeMsg p q.req) w p :=
      ⟨(congrArg (fun x : Slice => x.stop.outbox) kept :), (congrArg (fun x : Slice => x.local_) kept :)⟩
    rw [req, homeMsg_congr (lslice.trans (lslice_takeMsg ..))] at sent
    exact sent.from_before quiet

end

/-- Settles O12: a request passes the order of R109, its allowance, its home and its region one after another. -/
theorem requestsAreChecked : Obligations.RequestsAreChecked := by
  intro e row p m s
  obtain ⟨go, served⟩ := exec_requestRow row p m s
  refine ⟨fun waiting => ?_, fun next excess => ?_, fun next fits free home => ?_, fun k next home fits free valid region => ?_⟩
  · exact served.trans (congrArg Host.Outcome.next (taking_of_waiting waiting _))
  · exact ⟨_, served, request_excess next go excess⟩
  · exact ⟨_, served, request_misdirected next go fits free home⟩
  · exact ⟨_, served, request_outside next go fits free home valid region⟩

end Sys2Proof.Machine
end

section
/-! SUPPORT. What the answers to a slice do to its open lines and trackers (R111, R115, R117, R121, R124). -/

namespace Sys2Proof.Machine

open Sys2Proof

/-! An open line and a tracker (R107) -/

theorem slice_modLine (s : State) (p : Nat) (a : LineAddr) (f : Olt → Olt) :
    (s.modLine p a f).slice p = (s.slice p).setLine a (f ((s.slice p).line a)) := by
  rw [State.modLine, slice_modSlice, if_pos rfl]

@[simp] theorem line_setLine_self (x : Slice) (a : LineAddr) (o : Olt) : (x.setLine a o).line a = o :=
  NMap.get_set_self Olt.dflt x.olt a.toNat o

@[simp] theorem setLine_setLine (x : Slice) (a : LineAddr) (o q : Olt) : (x.setLine a o).setLine a q = x.setLine a q :=
  congrArg (fun l => { x with olt := l }) (NMap.set_set Olt.dflt x.olt a.toNat o q)

@[simp] theorem trk_setLine (x : Slice) (a : LineAddr) (o : Olt) (t : Nat) : (x.setLine a o).trk t = x.trk t := rfl
@[simp] theorem trks_setLine (x : Slice) (a : LineAddr) (o : Olt) : (x.setLine a o).trks = x.trks := rfl
@[simp] theorem hlc_setLine (x : Slice) (a : LineAddr) (o : Olt) : (x.setLine a o).hlc = x.hlc := rfl
@[simp] theorem stop_setLine (x : Slice) (a : LineAddr) (o : Olt) : (x.setLine a o).stop = x.stop := rfl
@[simp] theorem local_setLine (x : Slice) (a : LineAddr) (o : Olt) : (x.setLine a o).local_ = x.local_ := rfl

@[simp] theorem trk_setTrk_self (x : Slice) (t : Nat) (k : Option Trk) : (x.setTrk t k).trk t = k :=
  NMap.get_set_self noTrk x.trks t k
@[simp] theorem line_setTrk (x : Slice) (t : Nat) (k : Option Trk) (a : LineAddr) : (x.setTrk t k).line a = x.line a := rfl
@[simp] theorem hlc_setTrk (x : Slice) (t : Nat) (k : Option Trk) : (x.setTrk t k).hlc = x.hlc := rfl
@[simp] theorem stop_setTrk (x : Slice) (t : Nat) (k : Option Trk) : (x.setTrk t k).stop = x.stop := rfl
@[simp] theorem local_setTrk (x : Slice) (t : Nat) (k : Option Trk) : (x.setTrk t k).local_ = x.local_ := rfl

@[simp] theorem line_takeMsg (s : State) (p : Nat) (m : Msg) (a : LineAddr) :
    ((s.takeMsg p m).slice p).line a = (s.slice p).line a := by
  rw [slice_takeMsg]
  rfl

@[simp] theorem trk_takeMsg (s : State) (p : Nat) (m : Msg) (t : Nat) :
    ((s.takeMsg p m).slice p).trk t = (s.slice p).trk t := by
  rw [slice_takeMsg]
  rfl

@[simp] theorem awaitsFrom_takeMsg (s : State) (p : Nat) (m : Msg) (t : Nat) (a : LineAddr) (w : Nat) (owner : Bool) :
    ((s.takeMsg p m).slice p).awaitsFrom t a w owner = (s.slice p).awaitsFrom t a w owner := by
  simp only [Slice.awaitsFrom, trk_takeMsg]

theorem trk_of_awaitsFrom {x : Slice} {t : Nat} {a : LineAddr} {w : Nat} {owner : Bool}
    (h : x.awaitsFrom t a w owner = true) : ∃ k, x.trk t = some k := by
  cases open_ : x.trk t with
  | none => simp [Slice.awaitsFrom, open_] at h
  | some k => exact ⟨k, rfl⟩

theorem sentNothing_of_slice {s t : State} {p : Nat} (stop : (t.slice p).stop = (s.slice p).stop)
    (own : (t.slice p).local_ = (s.slice p).local_) : SentNothing s t p := ⟨congrArg StopSt.outbox stop, own⟩

/-- The agent's answer is noted at a tracker (R117). -/
def Trk.answeredBy (w : Nat) (k : Trk) : Trk :=
  { k with awaits := k.awaits &&& ~~~(agentBit w), ownerForm := k.ownerForm && (k.awaits &&& ~~~(agentBit w)) != 0 }

theorem slice_answered (s : State) (p t w : Nat) :
    (s.answered p t w).slice p = (s.slice p).setTrk t (((s.slice p).trk t).map (Trk.answeredBy w)) := slice_modTrk ..

/-- Where no writeback is held, none is decided again (R121). -/
theorem slice_redecide {s : State} {p : Nat} {a : LineAddr} (h : ((s.slice p).line a).wbHeld = []) :
    (s.redecide p a).slice p = (s.slice p).setLine a ((s.slice p).line a) := by
  simp only [State.redecide, h, List.filter_nil, List.foldl_nil, slice_modLine]
  rw [← h]

/-! Coming to rest (R111, R115) -/

theorem foldl_const_of_fixed {α β : Type} {f : α → α} {x : α} (h : f (f x) = f x) (l : List β) (some_ : l ≠ []) :
    l.foldl (fun y _ => f y) x = f x := by
  obtain ⟨b, l, rfl⟩ := List.exists_cons_of_ne_nil some_
  exact List.foldl_fixed' (fun _ => h) l

theorem settle_of_rest {s : State} {p : Nat} {a : LineAddr} (h : s.settleStep p a = s) : s.settle p a = s :=
  List.foldl_fixed' (fun _ => h) _

theorem settle_of_one_step {s : State} {p : Nat} {a : LineAddr}
    (h : (s.settleStep p a).settleStep p a = s.settleStep p a) : s.settle p a = s.settleStep p a :=
  foldl_const_of_fixed h _ (by simp)

theorem settle_closed {s : State} {p : Nat} {a : LineAddr} (h : ((s.slice p).line a).mode = 0) : s.settle p a = s :=
  settle_of_rest (by simp [State.settleStep, h])

/-- A line whose chain still has owners is at rest (R111). -/
theorem settle_chained {s : State} {p : Nat} {a : LineAddr} (h : ((s.slice p).line a).mode = 1)
    (deep : ((s.slice p).line a).depth ≠ 0) : s.settle p a = s :=
  settle_of_rest (by simp [State.settleStep, h, deep])

/-- A line whose served tracker awaits answers is at rest (R115). -/
theorem settle_awaiting {s : State} {p : Nat} {a : LineAddr} {t : Nat} {k : Trk} (h : ((s.slice p).line a).mode = 2)
    (served : ((s.slice p).line a).serve = some t) (open_ : (s.slice p).trk t = some k)
    (awaits : ((s.slice p).line a).ackcnt ≠ 0) : s.settle p a = s :=
  settle_of_rest (by simp [State.settleStep, h, served, open_, awaits])

@[simp] theorem trks_setEnt (x : Slice) (q : Nat) (e : SfEnt) : (x.setEnt q e).trks = x.trks := by
  unfold Slice.setEnt
  dsimp only
  split <;> rfl

/-- Closing a line empties its open-line entry; a free filter entry is cleared with it, and nothing else (R106). -/
theorem freeLine_spec (s : State) (p : Nat) (a : LineAddr) : ((s.freeLine p a).slice p).line a = {}
    ∧ ((s.freeLine p a).slice p).trks = (s.slice p).trks ∧ ((s.freeLine p a).slice p).hlc = (s.slice p).hlc := by
  rw [State.freeLine, slice_setSlice, if_pos rfl]
  refine ⟨line_setLine_self .., ?_, ?_⟩
  · rw [trks_setLine]
    split
    · split
      · rfl
      · exact trks_setEnt ..
    · rfl
  · rw [hlc_setLine]
    split
    · split
      · rfl
      · exact hlc_setEnt ..
    · rfl

/-- The last transaction of a line has ended: the line is closed (R107). -/
theorem settle_last {s : State} {p : Nat} {a : LineAddr} (h : ((s.slice p).line a).mode = 2)
    (served : ((s.slice p).line a).serve = none) (alone : ((s.slice p).line a).depth = 0)
    (empty : ((s.slice p).line a).queue = []) : s.settle p a = s.freeLine p a := by
  have step : s.settleStep p a = s.freeLine p a := by simp [State.settleStep, h, served, alone, empty]
  have closed : (s.freeLine p a).settleStep p a = s.freeLine p a := by
    simp [State.settleStep, (freeLine_spec s p a).1]
  rw [settle_of_one_step (by rw [step, closed]), step]

/-! Answers that a transaction awaits (R111, R117, R120) -/

/-- One of the answers that line `a` counts has come to its tracker (R117). -/
def State.ackCounted (s : State) (p t w : Nat) (a : LineAddr) : State :=
  (((s.answered p t w).modLine p a fun o => { o with ackcnt := o.ackcnt - 1 }).redecide p a).settle p a

theorem slice_ackCounted {s : State} {p t : Nat} {a : LineAddr} {k : Trk} (open_ : (s.slice p).trk t = some k)
    (mode : ((s.slice p).line a).mode = 2) (served : ((s.slice p).line a).serve = some t)
    (more : 2 ≤ ((s.slice p).line a).ackcnt) (held : ((s.slice p).line a).wbHeld = []) (w : Nat) :
    (s.ackCounted p t w a).slice p = ((s.slice p).setTrk t (some (k.answeredBy w))).setLine a
      { (s.slice p).line a with ackcnt := ((s.slice p).line a).ackcnt - 1 } := by
  have counted : (((s.answered p t w).modLine p a fun o => { o with ackcnt := o.ackcnt - 1 }).redecide p a).slice p
      = ((s.slice p).setTrk t (some (k.answeredBy w))).setLine a
        { (s.slice p).line a with ackcnt := ((s.slice p).line a).ackcnt - 1 } := by
    rw [slice_redecide] <;> simp [slice_modLine, slice_answered, open_, held]
  rw [State.ackCounted, settle_awaiting (t := t) (k := k.answeredBy w)]
  · exact counted
  · simpa [counted] using mode
  · simpa [counted] using served
  · simp [counted]
  · simpa [counted] using (by omega : ((s.slice p).line a).ackcnt - 1 ≠ 0)

theorem invAck_of_awaited {s : State} {p : Nat} {m : Msg}
    (awaited : (s.slice p).awaitsFrom m.htag.toNat m.addr m.src.toNat false = true)
    (mode : ((s.slice p).line m.addr).mode = 2) (served : ((s.slice p).line m.addr).serve = some m.htag.toNat)
    (more : ((s.slice p).line m.addr).ackcnt ≠ 0) :
    s.invAck p m = s.ackCounted p m.htag.toNat m.src.toNat m.addr := if_pos ⟨awaited, mode, served, more⟩

theorem recallData_of_awaited {s : State} {p : Nat} {m : Msg}
    (awaited : (s.slice p).awaitsFrom m.htag.toNat m.addr m.src.toNat true = true)
    (handling : ((s.slice p).line m.addr).pend = 0) (served : ((s.slice p).line m.addr).serve = some m.htag.toNat)
    (more : ((s.slice p).line m.addr).ackcnt ≠ 0) :
    s.recallData p m = s.ackCounted p m.htag.toNat m.src.toNat m.addr := by
  obtain ⟨k, open_⟩ := trk_of_awaitsFrom awaited
  simp [State.recallData, open_, awaited, handling, served, more, State.ackCounted]

/-- The transaction of tracker `t` ends with `Comp`, its agent's answer noted (R71, R88). -/
def State.closedBy (s : State) (p t w : Nat) : State := (s.answered p t w).endWith p t 0x2F id

section
variable {s : State} {p t : Nat} {k : Trk} (open_ : (s.slice p).trk t = some k) (w : Nat)
include open_

theorem trk_answered : ((s.answered p t w).slice p).trk t = some (k.answeredBy w) := by
  rw [slice_answered, trk_setTrk_self, open_]
  rfl

theorem slice_closedBy : (s.closedBy p t w).slice p = { s.slice p with
    trks := ((s.closedBy p t w).slice p).trks, stop := ((s.closedBy p t w).slice p).stop
    local_ := ((s.closedBy p t w).slice p).local_, wdogDone := ((s.closedBy p t w).slice p).wdogDone
    g := ((s.closedBy p t w).slice p).g } := by
  rw [State.closedBy, slice_endWith (trk_answered open_ w), slice_answered]
  rfl

theorem line_closedBy (a : LineAddr) : ((s.closedBy p t w).slice p).line a = (s.slice p).line a := by
  rw [slice_closedBy open_]
  rfl

theorem hlc_closedBy : ((s.closedBy p t w).slice p).hlc = (s.slice p).hlc := by
  rw [slice_closedBy open_]

theorem trk_closedBy : ((s.closedBy p t w).slice p).trk t = none := trk_endWith (trk_answered open_ w) 0x2F id

theorem sent_closedBy : Sent s (s.closedBy p t w) p
    { (s.slice p).homeMsg 0x2F k.req.src k.req.addr with txn := k.req.txn, cret := true } := by
  have sent := sent_endWith (trk_answered open_ w) 0x2F id
  rw [slice_answered] at sent
  exact sent.from_before (sentNothing_of_slice (by rw [slice_answered]; rfl) (by rw [slice_answered]; rfl))

end

/-- One owner of a chain is done, of which tracker `t` was not served (R111). -/
def Olt.shortened (t : Nat) (o : Olt) : Olt := { o with depth := o.depth - 1, serve := if o.serve = some t then none else o.serve }

theorem slice_after_closedBy {s : State} {p t : Nat} {a : LineAddr} {k : Trk} (open_ : (s.slice p).trk t = some k) (w : Nat)
    {f : Olt → Olt} (held : (f ((s.slice p).line a)).wbHeld = []) :
    (((s.closedBy p t w).modLine p a f).redecide p a).slice p
      = ((s.closedBy p t w).slice p).setLine a (f ((s.slice p).line a)) := by
  have line := line_closedBy open_ w a
  rw [slice_redecide] <;> simp [slice_modLine, line, held]

theorem fwdDone_of_chained {s : State} {p : Nat} {m : Msg} {k : Trk} (open_ : (s.slice p).trk m.htag.toNat = some k)
    (awaited : (s.slice p).awaitsFrom m.htag.toNat m.addr m.src.toNat true = true) (chained : k.phase = .chained) :
    s.fwdDone p m = (((s.closedBy p m.htag.toNat m.src.toNat).modLine p m.addr (Olt.shortened m.htag.toNat)).redecide
      p m.addr).settle p m.addr := by
  simp only [State.fwdDone, open_, awaited, chained, if_true, Bool.true_eq_false, if_false]
  rfl

theorem slice_fwdDone_chained {s : State} {p : Nat} {m : Msg} {k : Trk} (open_ : (s.slice p).trk m.htag.toNat = some k)
    (awaited : (s.slice p).awaitsFrom m.htag.toNat m.addr m.src.toNat true = true) (chained : k.phase = .chained)
    (mode : ((s.slice p).line m.addr).mode = 1) (deep : 2 ≤ ((s.slice p).line m.addr).depth)
    (held : ((s.slice p).line m.addr).wbHeld = []) (other : ((s.slice p).line m.addr).serve ≠ some m.htag.toNat) :
    (s.fwdDone p m).slice p = ((s.closedBy p m.htag.toNat m.src.toNat).slice p).setLine m.addr
      { (s.slice p).line m.addr with depth := ((s.slice p).line m.addr).depth - 1 } := by
  have after := slice_after_closedBy (a := m.addr) open_ m.src.toNat (f := Olt.shortened m.htag.toNat) held
  simp only [Olt.shortened, other, if_false] at after
  rw [fwdDone_of_chained open_ awaited chained, settle_chained]
  · exact after
  · rw [after, line_setLine_self]
    exact mode
  · rw [after, line_setLine_self]
    exact Nat.sub_ne_zero_of_lt deep

/-! Stored lines (R218 to R222, R231) -/

/-- The home line cache without its stored lines, their errors and their writes. -/
def Hlc.besidesLines (h : Hlc) : Hlc := { h with
  lines := [], lru := [], writes := [], ord := 0, cap := 0, capValid := false, leak := [], leakAt := [], wayEn := 0
  flushes := [] }

/-- A slice without its counters and without the stored lines of its cache. -/
def Slice.besidesLines (x : Slice) : Slice := { x.besidesCounts with hlc := x.hlc.besidesLines }

/-- A slice without its counters and its cache. -/
def Slice.besidesCache (x : Slice) : Slice := { x.besidesCounts with hlc := {} }

theorem besidesCache_of_besidesLines {x y : Slice} (h : y.besidesLines = x.besidesLines) : y.besidesCache = x.besidesCache :=
  (congrArg Slice.besidesCache h :)

theorem besidesLines_modHlc (s : State) (p : Nat) {f : Hlc → Hlc} (h : (f (s.slice p).hlc).besidesLines = (s.slice p).hlc.besidesLines) :
    ((s.modHlc p f).slice p).besidesLines = (s.slice p).besidesLines := by
  rw [slice_modHlc, if_pos rfl]
  exact congrArg (fun c => { (s.slice p).besidesCounts with hlc := c }) h

@[simp] theorem besidesCache_modHlc (s : State) (p : Nat) (f : Hlc → Hlc) :
    ((s.modHlc p f).slice p).besidesCache = (s.slice p).besidesCache := by
  rw [slice_modHlc, if_pos rfl]
  rfl

theorem besidesLines_of_onlyCounts {s t : State} {p : Nat} (h : s.OnlyCounts p t) :
    (t.slice p).besidesLines = (s.slice p).besidesLines := (congrArg Slice.besidesLines h.slice :)

@[simp] theorem besidesLines_count (s : State) (p : Nat) (c : Cnt) :
    ((s.count p c).slice p).besidesLines = (s.slice p).besidesLines := besidesLines_of_onlyCounts (onlyCounts_count s p c)

@[simp] theorem besidesLines_setLine (s : State) (p q : Nat) (l : HLine) :
    ((s.modHlc p fun h => h.setLine q l).slice p).besidesLines = (s.slice p).besidesLines := besidesLines_modHlc s p rfl

theorem besidesLines_raiseLeak (h : Hlc) (w time : Nat) : (h.raiseLeak w time).besidesLines = h.besidesLines := by
  unfold Hlc.raiseLeak
  dsimp only
  split <;> rfl

theorem besidesLines_capture (h : Hlc) (c : BitVec 55) : (h.capture c).besidesLines = h.besidesLines := by
  unfold Hlc.capture
  split <;> rfl

theorem besidesLines_captured (s : State) (p w : Nat) (c : BitVec 55) :
    ((s.modHlc p fun h => (h.capture c).raiseLeak w s.time).slice p).besidesLines = (s.slice p).besidesLines :=
  besidesLines_modHlc s p (f := fun h => (h.capture c).raiseLeak w s.time)
    ((besidesLines_raiseLeak ..).trans (besidesLines_capture ..))

theorem besidesLines_queued (s : State) (p q : Nat) (l : HLine) (evb : Bool) (a : LineAddr) (d : LineData) (e : BitVec 8)
    (w : Option Nat) : ((s.modHlc p fun h => (h.queueWrite evb a d e w).setLine q l).slice p).besidesLines
      = (s.slice p).besidesLines :=
  besidesLines_modHlc s p (f := fun h => (h.queueWrite evb a d e w).setLine q l) rfl

@[simp] theorem besidesLines_hError (s : State) (p q : Nat) (tag : BitVec 31) (groups : BitVec 8) (tagErr : Bool)
    (kind cls code : Nat) (a : Option LineAddr) :
    ((s.hError p q tag groups tagErr kind cls code a).slice p).besidesLines = (s.slice p).besidesLines := by
  have captured := besidesLines_captured s p (q % 16) (hCapWord q groups tagErr kind tag)
  unfold State.hError
  rw [slice_sliceErr]
  split
  · exact (besidesLines_count ..).trans captured
  · split
    · exact (besidesLines_count ..).trans captured
    · exact captured

@[simp] theorem besidesLines_hDataCheck (s : State) (p q : Nat) :
    ((s.hDataCheck p q).slice p).besidesLines = (s.slice p).besidesLines := by
  unfold State.hDataCheck
  dsimp only
  split
  · rfl
  · split
    · rw [slice_fireSlice, besidesLines_hError, besidesLines_setLine]
    · rw [besidesLines_hError, besidesLines_setLine]

@[simp] theorem besidesLines_hMoveCheck (s : State) (p q : Nat) :
    ((s.hMoveCheck p q).slice p).besidesLines = (s.slice p).besidesLines := by
  unfold State.hMoveCheck
  split
  · exact besidesLines_hDataCheck ..
  · rfl

@[simp] theorem besidesLines_vacate (s : State) (p q : Nat) :
    ((s.vacate p q).1.slice p).besidesLines = (s.slice p).besidesLines := by
  unfold State.vacate
  dsimp only
  split
  · rw [besidesLines_hMoveCheck]
  · split
    · rw [besidesLines_setLine, besidesLines_hMoveCheck]
    · split
      · rw [besidesLines_hMoveCheck]
      · rw [besidesLines_count, besidesLines_queued, besidesLines_hMoveCheck]

theorem besidesLines_put (s : State) (p q : Nat) (l : HLine) :
    ((s.modHlc p fun h => (h.setLine q l).touch q).slice p).besidesLines = (s.slice p).besidesLines :=
  besidesLines_modHlc s p (f := fun h => (h.setLine q l).touch q) rfl

@[simp] theorem besidesLines_install (s : State) (p : Nat) (a : LineAddr) (d : LineData) (e : BitVec 8) (dirty pf : Bool) :
    ((s.install p a d e dirty pf).1.slice p).besidesLines = (s.slice p).besidesLines := by
  unfold State.install
  dsimp only
  split
  · rw [besidesLines_put]
  · split
    · rw [besidesLines_count]
    · next q _ =>
      have room := besidesLines_vacate s p q
      split
      · next t free => rw [besidesLines_count, ← room, free]
      · next t free => rw [besidesLines_put, ← room, free]

@[simp] theorem besidesCache_install (s : State) (p : Nat) (a : LineAddr) (d : LineData) (e : BitVec 8) (dirty pf : Bool) :
    ((s.install p a d e dirty pf).1.slice p).besidesCache = (s.slice p).besidesCache :=
  besidesCache_of_besidesLines (besidesLines_install ..)

theorem besidesCache_of_install {s t : State} {p : Nat} {a : LineAddr} {d : LineData} {e : BitVec 8} {dirty pf kept : Bool}
    (h : s.install p a d e dirty pf = (t, kept)) : (t.slice p).besidesCache = (s.slice p).besidesCache := by
  rw [← besidesCache_install s p a d e dirty pf, h]

/-- Storing a line changes the cache and the counters of its slice alone (R118, R220). -/
@[simp] theorem besidesCache_storeLine (s : State) (p : Nat) (a : LineAddr) (d : LineData) (e : BitVec 8) (w : Option Nat) :
    ((s.storeLine p a d e w).1.slice p).besidesCache = (s.slice p).besidesCache := by
  unfold State.storeLine
  dsimp only
  generalize Option.filter _ (Hlc.evbFind _ a) = entry
  generalize Hlc.find _ a = place
  cases place with
  | some q =>
    cases entry with
    | some w => dsimp only; split <;> simp only [Option.isSome_some, if_true, besidesCache_modHlc]
    | none =>
      dsimp only
      split <;> simp only [Option.isSome_none, Bool.false_eq_true, if_false, besidesCache_modHlc]
  | none =>
    cases entry with
    | some w => simp only [besidesCache_modHlc]
    | none =>
      dsimp only
      split
      · split
        · next t kept => exact (besidesCache_of_install kept).trans (besidesCache_modHlc ..)
        · next t full => exact (besidesCache_modHlc ..).trans ((besidesCache_of_install full).trans (besidesCache_modHlc ..))
      · simp only [besidesCache_modHlc]

section
variable {x y : Slice} (h : y.besidesCache = x.besidesCache)
include h

theorem trk_of_besidesCache (t : Nat) : y.trk t = x.trk t := (congrArg (fun z : Slice => z.trk t) h :)
theorem line_of_besidesCache (a : LineAddr) : y.line a = x.line a := (congrArg (fun z : Slice => z.line a) h :)
theorem stop_of_besidesCache : y.stop = x.stop := (congrArg (fun z : Slice => z.stop) h :)
theorem local_of_besidesCache : y.local_ = x.local_ := (congrArg (fun z : Slice => z.local_) h :)

end

/-- The line's `CopyBack` has come, and its transaction is over (R112). -/
def Olt.copiedBack (o : Olt) : Olt := { o with pend := 0, serve := none }

theorem copyBack_of_awaited {s : State} {p : Nat} {m : Msg}
    (awaited : (s.slice p).awaitsFrom m.htag.toNat m.addr m.src.toNat true = true)
    (pend : ((s.slice p).line m.addr).pend = 1) (served : ((s.slice p).line m.addr).serve = some m.htag.toNat) :
    s.copyBack p m = ((((s.storeLine p m.addr m.data m.poison none).1.closedBy p m.htag.toNat m.src.toNat).modLine p m.addr
      Olt.copiedBack).redecide p m.addr).settle p m.addr := if_pos ⟨awaited, pend, served⟩

/-- A `CopyBack` for the last transaction of a line stores the line, and closes it (R112). -/
theorem copyBack_last {s : State} {p : Nat} {m : Msg} {k : Trk} (open_ : (s.slice p).trk m.htag.toNat = some k)
    (awaited : (s.slice p).awaitsFrom m.htag.toNat m.addr m.src.toNat true = true)
    (mode : ((s.slice p).line m.addr).mode = 2) (pend : ((s.slice p).line m.addr).pend = 1)
    (served : ((s.slice p).line m.addr).serve = some m.htag.toNat) (alone : ((s.slice p).line m.addr).depth = 0)
    (empty : ((s.slice p).line m.addr).queue = []) (held : ((s.slice p).line m.addr).wbHeld = []) :
    ((s.copyBack p m).slice p).line m.addr = {} ∧ ((s.copyBack p m).slice p).trk m.htag.toNat = none
    ∧ ((s.copyBack p m).slice p).hlc = ((s.storeLine p m.addr m.data m.poison none).1.slice p).hlc := by
  rw [copyBack_of_awaited awaited pend served]
  have stored := besidesCache_storeLine s p m.addr m.data m.poison none
  generalize (s.storeLine p m.addr m.data m.poison none).1 = u at stored ⊢
  have line := line_of_besidesCache stored m.addr
  have open' := (trk_of_besidesCache stored m.htag.toNat).trans open_
  have after := slice_after_closedBy (a := m.addr) open' m.src.toNat (f := Olt.copiedBack) (by rw [line]; exact held)
  rw [line] at after
  have closed := (congrArg (fun x : Slice => x.line m.addr) after).trans (line_setLine_self ..)
  rw [settle_last]
  · obtain ⟨freed, trks, hlc⟩ := freeLine_spec
      (((u.closedBy p m.htag.toNat m.src.toNat).modLine p m.addr Olt.copiedBack).redecide p m.addr) p m.addr
    rw [after, trks_setLine] at trks
    rw [after, hlc_setLine, hlc_closedBy open'] at hlc
    exact ⟨freed, (congrArg (fun l => NMap.get noTrk l m.htag.toNat) trks).trans (trk_closedBy open' m.src.toNat), hlc⟩
  · exact (congrArg Olt.mode closed).trans mode
  · exact congrArg Olt.serve closed
  · exact (congrArg Olt.depth closed).trans alone
  · exact (congrArg Olt.queue closed).trans empty

/-! Answers of memory (R222 to R224, R418) -/

theorem memError_of_data {s : State} {p : Nat} {m : Msg} (h : m.stat ≠ 6) : s.memError p m = s := if_neg h

/-- Miss register `r` is free. -/
def Hlc.dropMshr (r : Mshr) (h : Hlc) : Hlc := { h with mshrs := h.mshrs.filter fun n => n.idx != r.idx }

/-- Where no maintenance operation waits and the line is closed, nothing follows the fill of a register. -/
theorem besidesLines_after_fill {u v : State} {p : Nat} {a : LineAddr} (h : (v.slice p).besidesLines = (u.slice p).besidesLines)
    (none_ : (u.slice p).hlc.maint = []) (closed : (u.slice p).line a = {}) (f : Maint → Bool) (g : State → Maint → State) :
    ((((((v.slice p).hlc.maint).filter f).foldl g v).settle p a).slice p).besidesLines = (u.slice p).besidesLines := by
  have maint : (v.slice p).hlc.maint = [] := (congrArg (fun x : Slice => x.hlc.maint) h :).trans none_
  have line : (v.slice p).line a = {} := (congrArg (fun x : Slice => x.line a) h :).trans closed
  rw [maint, List.filter_nil, List.foldl_nil, settle_closed (congrArg Olt.mode line)]
  exact h

theorem besidesLines_ite_install (keep : Prop) [Decidable keep] (s : State) (p : Nat) (a : LineAddr) (d : LineData)
    (e : BitVec 8) (dirty pf : Bool) : ((if keep then (s.install p a d e dirty pf).1 else s).slice p).besidesLines
      = (s.slice p).besidesLines := by
  split
  · exact besidesLines_install ..
  · rfl

theorem memData_of_prefetch {s : State} {p : Nat} {m : Msg} {r : Mshr} (data : m.stat ≠ 6)
    (found : (s.slice p).hlc.mshrs.find? (fun r => r.tag == m.htag.toNat && r.addr == m.addr && r.sent) = some r)
    (prefetch : r.waiters = [.prefetch]) (none_ : (s.slice p).hlc.maint = []) (closed : (s.slice p).line m.addr = {}) :
    ((s.memData p m).slice p).besidesLines = ((s.modHlc p (Hlc.dropMshr r)).slice p).besidesLines := by
  have dropped : (s.modHlc p (Hlc.dropMshr r)).slice p = (s.slice p).modHlc (Hlc.dropMshr r) := by
    rw [slice_modHlc, if_pos rfl]
  unfold State.memData
  simp only [memError_of_data data, found, prefetch, List.foldl_cons, List.foldl_nil, State.deliver]
  refine besidesLines_after_fill (u := s.modHlc p (Hlc.dropMshr r)) ?_ (by rw [dropped]; exact none_)
    (by rw [dropped]; exact closed) _ _
  split
  · exact (besidesLines_ite_install ..).trans (besidesLines_hDataCheck ..)
  · exact besidesLines_ite_install ..

/-- With no maintenance operation, none ends (R227). -/
theorem slice_maintFinish_of_none {s : State} {p : Nat} (h : (s.slice p).hlc.maint = []) :
    (s.maintFinish p).slice p = s.slice p := by
  simp only [State.maintFinish, h, List.filter_nil, List.foldl_nil, List.any_nil, Bool.not_false, slice_modHlc, if_true,
    Slice.modHlc, List.filter_true]
  rw [← h]

/-- The answer to a write that nothing waits for takes the write out (R224). -/
theorem memAck_of_unawaited {s : State} {p : Nat} {m : Msg} {w : MemWrite} (ok : m.stat ≠ 6)
    (found : (s.slice p).hlc.writes.find? (fun w => w.idx == m.htag.toNat && w.addr == m.addr && w.sent) = some w)
    (alone : w.waiter = none) (none_ : (s.slice p).hlc.maint = []) :
    (s.memAck p m).slice p = (s.slice p).modHlc fun h => h.writeEnd w.ord := by
  have written : (s.modHlc p fun h => h.writeEnd w.ord).slice p = (s.slice p).modHlc fun h => h.writeEnd w.ord := by
    rw [slice_modHlc, if_pos rfl]
  have ended : s.memAck p m = (s.modHlc p fun h => h.writeEnd w.ord).maintFinish p := by
    simp [State.memAck, memError_of_data ok, found, State.writeOver, alone]
  rw [ended, slice_maintFinish_of_none, written]
  rw [written]
  exact congrArg (List.map _) none_

/-! Stray answers (R124) -/

/-- A protocol error is counted and captured, and changes nothing else of its slice. -/
theorem slice_protoError (s : State) (p : Nat) (m : Msg) (st mode : BitVec 2) : ∃ img a, (s.protoError p m st mode).slice p
    = { (s.count p .perr).slice p with protoErr := img, protoErrValid := true, protoErrAddr := a } := by
  unfold State.protoError
  rw [slice_fire, slice_sliceErr, slice_modSlice, if_pos rfl]
  split
  · next valid =>
    refine ⟨((s.count p .perr).slice p).protoErr, ((s.count p .perr).slice p).protoErrAddr, ?_⟩
    rw [← valid]
  · exact ⟨_, _, rfl⟩

theorem recorded_after_fire {s t : State} {cls : BitVec 2} {code : BitVec 8} {index : Nat} (n : Nat) :
    Recorded s (t.fire n) cls code index ↔ Recorded s t cls code index := Iff.rfl

theorem recorded_before_modSlice {s t : State} {cls : BitVec 2} {code : BitVec 8} {index p : Nat} (f : Slice → Slice) :
    Recorded (s.modSlice p f) t cls code index ↔ Recorded s t cls code index := Iff.rfl

theorem recorded_protoError (s : State) (p : Nat) (m : Msg) (st mode : BitVec 2) :
    Recorded s (s.protoError p m st mode) 1 0x10 p := by
  unfold State.protoError
  rw [recorded_after_fire, ← recorded_count (p := p) .perr, ← recorded_before_modSlice]
  exact recorded_sliceErr _ p 1 0x10 _ _ _ _ _ (.inl (by decide))

theorem strayAnswer_spec (s : State) (p : Nat) (m : Msg) : Recorded s (s.strayAnswer p m) 1 0x10 p
    ∧ SentNothing s (s.strayAnswer p m) p ∧ ((s.strayAnswer p m).slice p).trks = (s.slice p).trks
    ∧ ((s.strayAnswer p m).slice p).olt = (s.slice p).olt ∧ ((s.strayAnswer p m).slice p).protoErrValid = true
    ∧ ((s.strayAnswer p m).slice p).hlc = (s.slice p).hlc := by
  obtain ⟨img, a, after⟩ := slice_protoError s p m ((s.slice p).entOfLine m.addr).st ((s.slice p).line m.addr).mode
  have counted := onlyCounts_count s p .perr
  refine ⟨recorded_protoError .., ?_⟩
  rw [SentNothing, State.strayAnswer, after]
  exact ⟨counted.sentNothing, counted.trks, counted.olt, rfl, counted.hlc⟩

end Sys2Proof.Machine
end

section
/-! SUPPORT. The rows of the answers to a slice, and what awaited and stray answers do (R25, R109, R111, R117, R120, R124). -/

namespace Sys2Proof.Machine

open Sys2Proof

/-! Taking an answer (R25, R109) -/

section
variable {s : State} {p : Nat} {m : Msg} (next : (s.slice p).mayTake p m = true) (go : State → State)
include next

theorem answerTake_elsewhere (home : homeMatches (s.slice p) m true = false) :
    s.answerTake p m go = (s.takeMsg p m).homeMismatch p m := by
  rw [State.answerTake, taking_of_next next]
  exact if_pos (by simp [home])

theorem answerTake_here (home : homeMatches (s.slice p) m true = true) : s.answerTake p m go = go (s.takeMsg p m) := by
  rw [State.answerTake, taking_of_next next]
  exact if_neg (by simp [home])

end

/-- Nothing of slice `x` awaits an answer: no tracker is open, no read and no write of memory is under way. -/
def Slice.awaitsNothing (x : Slice) : Prop := x.trks = [] ∧ x.hlc.mshrs = [] ∧ x.hlc.writes = []

section
variable {s : State} {p : Nat} (h : (s.slice p).awaitsNothing) (m : Msg)
include h

theorem trk_of_awaitsNothing (t : Nat) : (s.slice p).trk t = none := by
  obtain ⟨trks, -, -⟩ := h
  simp [Slice.trk, trks, noTrk]

theorem awaitsFrom_of_awaitsNothing (t : Nat) (a : LineAddr) (w : Nat) (owner : Bool) :
    (s.slice p).awaitsFrom t a w owner = false := by
  simp only [Slice.awaitsFrom, trk_of_awaitsNothing h]

theorem invAck_stray : s.invAck p m = s.strayAnswer p m := by
  simp [State.invAck, awaitsFrom_of_awaitsNothing h]

theorem fwdDone_stray : s.fwdDone p m = s.strayAnswer p m := by
  simp [State.fwdDone, trk_of_awaitsNothing h]

theorem copyBack_stray : s.copyBack p m = s.strayAnswer p m := by
  simp [State.copyBack, awaitsFrom_of_awaitsNothing h]

theorem recallData_stray : s.recallData p m = s.strayAnswer p m := by
  simp [State.recallData, trk_of_awaitsNothing h]

theorem memData_stray (ok : m.stat ≠ 6) : s.memData p m = s.strayAnswer p m := by
  obtain ⟨-, mshrs, -⟩ := h
  simp [State.memData, memError_of_data ok, mshrs]

theorem memAck_stray (ok : m.stat ≠ 6) : s.memAck p m = s.strayAnswer p m := by
  obtain ⟨-, -, writes⟩ := h
  simp [State.memAck, memError_of_data ok, writes]

end

/-- The rows of the answers to a slice, with their opcodes (Table 4.6): each takes its message as an answer, and is a stray
one where nothing awaits it. -/
theorem exec_answerRow {e : (Fin 132 → Msg → Instr) × Nat}
    (h : e ∈ ([(.invAck, 0x29), (.fwdDone, 0x2A), (.copyBack, 0x3B), (.recallData, 0x3C), (.memData, 0x3E),
      (.memAck, 0x35)] : List ((Fin 132 → Msg → Instr) × Nat))) (p : Fin 132) (m : Msg) :
    sliceCommand (e.1 p m) = true
    ∧ ∃ go, (∀ s, exec (e.1 p m) s = .next (s.answerTake p (asOpc m e.2) go))
      ∧ ∀ s, (s.slice p).awaitsNothing → m.stat ≠ 6 → go s = s.strayAnswer p (asOpc m e.2) := by
  simp only [List.mem_cons, List.not_mem_nil, or_false] at h
  obtain rfl | rfl | rfl | rfl | rfl | rfl := h
  · exact ⟨rfl, _, fun _ => rfl, fun s quiet _ => invAck_stray quiet _⟩
  · exact ⟨rfl, _, fun _ => rfl, fun s quiet _ => fwdDone_stray quiet _⟩
  · exact ⟨rfl, _, fun _ => rfl, fun s quiet _ => copyBack_stray quiet _⟩
  · exact ⟨rfl, _, fun _ => rfl, fun s quiet _ => recallData_stray quiet _⟩
  · exact ⟨rfl, _, fun _ => rfl, fun s quiet ok => memData_stray quiet _ ok⟩
  · exact ⟨rfl, _, fun _ => rfl, fun s quiet ok => memAck_stray quiet _ ok⟩

/-! What a message leaves where the slice sends -/

@[simp] theorem outbox_takeMsg (s : State) (p : Nat) (m : Msg) :
    ((s.takeMsg p m).slice p).stop.outbox = (s.slice p).stop.outbox := by
  simp only [State.takeMsg, slice_modSlice, if_true]
  split
  · rfl
  · split
    · rfl
    · split <;> rfl

theorem local_takeMsg_of_none {s : State} {p : Nat} (h : (s.slice p).local_ = []) (m : Msg) :
    ((s.takeMsg p m).slice p).local_ = (s.slice p).local_ := by
  simp only [State.takeMsg, slice_modSlice, if_true, h, List.contains_nil, Bool.false_eq_true, if_false]
  split
  · rfl
  · split
    · rfl
    · exact h

theorem sentNothing_takeMsg {s : State} {p : Nat} (h : (s.slice p).local_ = []) (m : Msg) :
    SentNothing s (s.takeMsg p m) p := ⟨outbox_takeMsg s p m, local_takeMsg_of_none h m⟩

theorem ends_answer {c : Instr} {s : State} {p : Nat} {m : Msg} {go : State → State} {P : State → Prop}
    (row : exec c s = .next (s.answerTake p m go)) (next : (s.slice p).mayTake p m = true)
    (home : homeMatches (s.slice p) m true = true) (h : P (go (s.takeMsg p m))) : Ends c s P :=
  ⟨_, row.trans (congrArg Host.Outcome.next (answerTake_here next go home)), h⟩

/-- One of several answers that a line counts: it is counted, and its tracker awaits the agent no more (R117, R120). -/
theorem ackCounted_spec {s : State} {p : Nat} {m : Msg} {k : Trk} (open_ : (s.slice p).trk m.htag.toNat = some k)
    (mode : ((s.slice p).line m.addr).mode = 2) (served : ((s.slice p).line m.addr).serve = some m.htag.toNat)
    (more : 2 ≤ ((s.slice p).line m.addr).ackcnt) (held : ((s.slice p).line m.addr).wbHeld = []) :
    ((s.ackCounted p m.htag.toNat m.src.toNat m.addr).slice p).line m.addr
      = { (s.slice p).line m.addr with ackcnt := ((s.slice p).line m.addr).ackcnt - 1 }
    ∧ ((s.ackCounted p m.htag.toNat m.src.toNat m.addr).slice p).trk m.htag.toNat = some (k.answeredBy m.src.toNat)
    ∧ SentNothing s (s.ackCounted p m.htag.toNat m.src.toNat m.addr) p := by
  have after := slice_ackCounted open_ mode served more held m.src.toNat
  refine ⟨?_, ?_, sentNothing_of_slice ?_ ?_⟩ <;> simp [after]

theorem invAck_spec {s : State} {p : Nat} {m : Msg}
    (awaited : (s.slice p).awaitsFrom m.htag.toNat m.addr m.src.toNat false = true)
    (mode : ((s.slice p).line m.addr).mode = 2) (served : ((s.slice p).line m.addr).serve = some m.htag.toNat)
    (more : 2 ≤ ((s.slice p).line m.addr).ackcnt) (held : ((s.slice p).line m.addr).wbHeld = []) :
    ((s.invAck p m).slice p).line m.addr
      = { (s.slice p).line m.addr with ackcnt := ((s.slice p).line m.addr).ackcnt - 1 }
    ∧ (∀ k, (s.slice p).trk m.htag.toNat = some k → ∃ k', ((s.invAck p m).slice p).trk m.htag.toNat = some k'
      ∧ k'.awaits = k.awaits &&& ~~~(agentBit m.src.toNat))
    ∧ SentNothing s (s.invAck p m) p := by
  obtain ⟨k, open_⟩ := trk_of_awaitsFrom awaited
  obtain ⟨line, trk, sent⟩ := ackCounted_spec open_ mode served more held
  rw [invAck_of_awaited awaited mode served (Nat.ne_of_gt (Nat.lt_of_succ_lt more))]
  refine ⟨line, fun k' same => ⟨_, trk, ?_⟩, sent⟩
  rw [open_, Option.some.injEq] at same
  rw [← same]
  rfl

theorem recallData_spec {s : State} {p : Nat} {m : Msg}
    (awaited : (s.slice p).awaitsFrom m.htag.toNat m.addr m.src.toNat true = true)
    (mode : ((s.slice p).line m.addr).mode = 2) (handling : ((s.slice p).line m.addr).pend = 0)
    (served : ((s.slice p).line m.addr).serve = some m.htag.toNat)
    (more : 2 ≤ ((s.slice p).line m.addr).ackcnt) (held : ((s.slice p).line m.addr).wbHeld = []) :
    ((s.recallData p m).slice p).line m.addr
      = { (s.slice p).line m.addr with ackcnt := ((s.slice p).line m.addr).ackcnt - 1 }
    ∧ SentNothing s (s.recallData p m) p := by
  obtain ⟨k, open_⟩ := trk_of_awaitsFrom awaited
  obtain ⟨line, -, sent⟩ := ackCounted_spec open_ mode served more held
  rw [recallData_of_awaited awaited handling served (Nat.ne_of_gt (Nat.lt_of_succ_lt more))]
  exact ⟨line, sent⟩

/-- One owner of a chain is done, and the chain goes on (R111). -/
theorem fwdDone_spec {s : State} {p : Nat} {m : Msg} {k : Trk} (open_ : (s.slice p).trk m.htag.toNat = some k)
    (awaited : (s.slice p).awaitsFrom m.htag.toNat m.addr m.src.toNat true = true) (chained : k.phase = .chained)
    (mode : ((s.slice p).line m.addr).mode = 1) (deep : 2 ≤ ((s.slice p).line m.addr).depth)
    (held : ((s.slice p).line m.addr).wbHeld = []) (other : ((s.slice p).line m.addr).serve ≠ some m.htag.toNat) :
    ((s.fwdDone p m).slice p).line m.addr
      = { (s.slice p).line m.addr with depth := ((s.slice p).line m.addr).depth - 1 }
    ∧ ((s.fwdDone p m).slice p).trk m.htag.toNat = none
    ∧ Sent s (s.fwdDone p m) p
        { (s.slice p).homeMsg 0x2F k.req.src k.req.addr with txn := k.req.txn, cret := true } := by
  have after := slice_fwdDone_chained open_ awaited chained mode deep held other
  obtain ⟨out, own⟩ := sent_closedBy open_ m.src.toNat
  rw [Sent, after, line_setLine_self, trk_setLine, trk_closedBy open_, stop_setLine, local_setLine]
  exact ⟨rfl, rfl, out, own⟩

theorem mshrs_of_besidesLines {x y : Slice} (h : y.besidesLines = x.besidesLines) : y.hlc.mshrs = x.hlc.mshrs :=
  (congrArg (fun z : Slice => z.hlc.mshrs) h :)

/-- Data for a prefetch of a closed line frees its miss register, and nothing is sent (R223). -/
theorem memData_spec {s : State} {p : Nat} {m : Msg} {r : Mshr} (data : m.stat ≠ 6)
    (found : (s.slice p).hlc.mshrs.find? (fun r => r.tag == m.htag.toNat && r.addr == m.addr && r.sent) = some r)
    (prefetch : r.waiters = [.prefetch]) (none_ : (s.slice p).hlc.maint = []) (closed : (s.slice p).line m.addr = {}) :
    ((s.memData p m).slice p).hlc.mshrs = (s.slice p).hlc.mshrs.filter (fun n => n.idx != r.idx)
    ∧ SentNothing s (s.memData p m) p := by
  have after := memData_of_prefetch data found prefetch none_ closed
  rw [slice_modHlc, if_pos rfl] at after
  have kept := besidesCache_of_besidesLines after
  exact ⟨mshrs_of_besidesLines after, sentNothing_of_slice (stop_of_besidesCache kept) (local_of_besidesCache kept)⟩

theorem memAck_spec {s : State} {p : Nat} {m : Msg} {w : MemWrite} (ok : m.stat ≠ 6)
    (found : (s.slice p).hlc.writes.find? (fun w => w.idx == m.htag.toNat && w.addr == m.addr && w.sent) = some w)
    (alone : w.waiter = none) (none_ : (s.slice p).hlc.maint = []) :
    ((s.memAck p m).slice p).hlc = (s.slice p).hlc.writeEnd w.ord ∧ ((s.memAck p m).slice p).trks = (s.slice p).trks
    ∧ SentNothing s (s.memAck p m) p := by
  rw [SentNothing, memAck_of_unawaited ok found alone none_]
  exact ⟨rfl, rfl, rfl, rfl⟩

/-- Settles O15: an answer is checked for its order and its home; the one that is awaited counts, and any other is a
protocol error. -/
theorem answersCloseTransactions : Obligations.AnswersCloseTransactions := by
  intro p m s
  refine ⟨fun e row => ?_, ?_, ?_, ?_, ?_, ?_, ?_⟩
  · obtain ⟨listed, go, exec_, stray⟩ := exec_answerRow row p m
    refine ⟨fun waiting => ?_, fun next home => ?_, fun next home fresh ok => ?_⟩
    · exact (exec_ s).trans (congrArg Host.Outcome.next (taking_of_waiting waiting _))
    · obtain ⟨record, fatal, same⟩ := homeMismatch_spec (s.takeMsg p (asOpc m e.2)) p (asOpc m e.2)
      refine ⟨_, (exec_ s).trans (congrArg Host.Outcome.next (answerTake_elsewhere next go home)), ?_⟩
      exact ⟨record.from_before rfl rfl, fatal, sentNothing_of_slice (by rw [same]) (by rw [same])⟩
    · obtain ⟨trks, olt, -, -, -, -, -, mshrs, writes, -, -, -, -, -, -, -, -, -, own, -⟩ := fresh
      have quiet : ((s.takeMsg p (asOpc m e.2)).slice p).awaitsNothing :=
        ⟨(trks_takeMsg ..).trans trks, (congrArg Hlc.mshrs (hlc_takeMsg ..)).trans mshrs,
          (congrArg Hlc.writes (hlc_takeMsg ..)).trans writes⟩
      have run := (exec_ s).trans (congrArg Host.Outcome.next ((answerTake_here next go home).trans (stray _ quiet ok)))
      obtain ⟨record, sent, trks', olt', valid, hlc⟩ := strayAnswer_spec (s.takeMsg p (asOpc m e.2)) p (asOpc m e.2)
      exact ⟨_, run, record.from_before rfl rfl, (sentNothing_takeMsg own _).trans sent, (trks'.trans (trks_takeMsg ..)).trans trks,
        (olt'.trans (olt_takeMsg ..)).trans olt, valid, hlc.trans (hlc_takeMsg ..),
        (onlySlices_iff _ _).mpr (keepsRest_of_sliceCommand _ listed s _ run)⟩
  · intro next home awaited mode served more held
    refine ends_answer rfl next home ?_
    rw [← awaitsFrom_takeMsg s p (asOpc m 0x29)] at awaited
    rw [← line_takeMsg s p (asOpc m 0x29)] at mode served more held ⊢
    rw [← trk_takeMsg s p (asOpc m 0x29)]
    exact invAck_spec (m := asOpc m 0x29) awaited mode served more held
  · intro k next home open_ awaited chained _ mode deep held other
    refine ends_answer rfl next home ?_
    rw [← awaitsFrom_takeMsg s p (asOpc m 0x2A)] at awaited
    rw [← line_takeMsg s p (asOpc m 0x2A)] at mode deep held other ⊢
    rw [← trk_takeMsg s p (asOpc m 0x2A)] at open_
    obtain ⟨line, trk, sent⟩ := fwdDone_spec (m := asOpc m 0x2A) open_ awaited chained mode deep held other
    rw [homeMsg_congr (lslice_takeMsg ..)] at sent
    exact ⟨line, trk, sent⟩
  · intro k next home open_ awaited mode pend served alone empty held
    refine ends_answer rfl next home ?_
    rw [← awaitsFrom_takeMsg s p (asOpc m 0x3B)] at awaited
    rw [← line_takeMsg s p (asOpc m 0x3B)] at mode pend served alone empty held
    rw [← trk_takeMsg s p (asOpc m 0x3B)] at open_
    exact copyBack_last (m := asOpc m 0x3B) open_ awaited mode pend served alone empty held
  · intro k next home _ awaited mode handling served more held
    refine ends_answer rfl next home ?_
    rw [← awaitsFrom_takeMsg s p (asOpc m 0x3C)] at awaited
    rw [← line_takeMsg s p (asOpc m 0x3C)] at mode handling served more held ⊢
    exact recallData_spec (m := asOpc m 0x3C) awaited mode handling served more held
  · intro r next home ok found prefetch none_ closed
    refine ends_answer rfl next home ?_
    rw [← hlc_takeMsg s p (asOpc m 0x3E)] at found none_ ⊢
    rw [← line_takeMsg s p (asOpc m 0x3E)] at closed
    exact memData_spec (m := asOpc m 0x3E) ok found prefetch none_ closed
  · intro w next home ok found alone none_
    refine ends_answer rfl next home ?_
    rw [← hlc_takeMsg s p (asOpc m 0x35)] at found none_ ⊢
    obtain ⟨hlc, trks, sent⟩ := memAck_spec (m := asOpc m 0x35) ok found alone none_
    exact ⟨hlc, trks.trans (trks_takeMsg ..), sent⟩

end Sys2Proof.Machine
end

section
/-! SUPPORT. What leaves a slice for memory: miss registers and the eviction buffer (R218, R222 to R224). -/

namespace Sys2Proof.Machine

open Sys2Proof

/-! Stored lines that pass their checks (R231) -/

/-- A stored line's tag check passes. -/
def HLine.tagSound (l : HLine) : Prop := l.tpar = tparOf l.tag l.v l.poison ∧ l.d0 = l.d1

theorem hTagCheck_of_tagSound {s : State} {p q : Nat} (h : ((s.slice p).hlc.line q).tagSound) : s.hTagCheck p q = s := by
  obtain ⟨parity_, dirty⟩ := h
  simp [State.hTagCheck, ← parity_, dirty]

theorem tagSound_empty : ({} : HLine).tagSound := by
  unfold HLine.tagSound
  decide

theorem line_of_no_lines {h : Hlc} (empty : h.lines = []) (q : Nat) : h.line q = {} := by
  rw [Hlc.line, empty]
  rfl

theorem hTagScan_of_no_lines {s : State} {p : Nat} (h : (s.slice p).hlc.lines = []) (a : LineAddr) : s.hTagScan p a = s :=
  List.foldl_fixed' (fun q => hTagCheck_of_tagSound (by rw [line_of_no_lines h]; exact tagSound_empty)) _

theorem find_of_no_lines {h : Hlc} (empty : h.lines = []) (a : LineAddr) : h.find a = none := by
  refine List.find?_eq_none.mpr fun q _ => ?_
  rw [line_of_no_lines empty]
  exact Bool.false_ne_true

theorem evbFind_of_no_writes {h : Hlc} (empty : h.writes = []) (a : LineAddr) : h.evbFind a = none := by
  simp [Hlc.evbFind, empty]

/-- A read of a cache that holds nothing finds nothing (R218). -/
theorem hRead_of_empty {s : State} {p : Nat} (lines : (s.slice p).hlc.lines = []) (writes : (s.slice p).hlc.writes = [])
    (a : LineAddr) (demand : Bool) : s.hRead p a demand = (s, none, false) := by
  have find := find_of_no_lines lines a
  have evb := evbFind_of_no_writes writes a
  unfold State.hRead
  rw [hTagScan_of_no_lines lines]
  simp only [find, evb]

/-! Writes on their way to memory (R222, R224) -/

/-- The write of order `ord` is sent. -/
def Hlc.markSent (ord : Nat) (h : Hlc) : Hlc :=
  { h with writes := h.writes.map fun v => if v.ord = ord then { v with sent := true } else v }

section
variable {s : State} {p : Nat} {a : LineAddr}

theorem writeSend_of_none (h : (s.slice p).hlc.writes.find? (fun w => w.addr == a && !w.sent) = none) : s.writeSend p a = s := by
  simp [State.writeSend, h]

variable {w : MemWrite} (found : (s.slice p).hlc.writes.find? (fun w => w.addr == a && !w.sent) = some w)
include found

theorem writeSend_of_busy (busy : (s.slice p).hlc.lineBusy a w.ord = true) : s.writeSend p a = s := by
  simp [State.writeSend, found, busy]

theorem writeSend_of_spent {n : Nat} (ready : (s.slice p).hlc.lineBusy a w.ord = false) (port : s.portOf a = some n)
    (spent : 1 ≤ s.writesAt p n) : s.writeSend p a = s := by
  simp [State.writeSend, found, ready, port, Nat.ne_of_gt spent]

theorem writeSend_sends {n : Nat} (ready : (s.slice p).hlc.lineBusy a w.ord = false) (port : s.portOf a = some n)
    (free : s.writesAt p n = 0) : s.writeSend p a = (s.modHlc p (Hlc.markSent w.ord)).emit p
      { (s.slice p).homeMsg 0x12 (BitVec.ofNat 10 (1008 + n)) a with
        htag := BitVec.ofNat 8 w.idx, data := w.data, poison := w.poison } := by
  simp [State.writeSend, found, ready, port, free]
  rfl

theorem writeSend_outside (ready : (s.slice p).hlc.lineBusy a w.ord = false) (port : s.portOf a = none)
    (alone : w.waiter = none) : s.writeSend p a
      = ((s.sliceErr p 1 0x19 (some a)).modHlc p fun h => h.writeEnd w.ord).maintFinish p := by
  simp [State.writeSend, found, ready, port, State.writeOver, alone]

end

/-! Miss registers (R223) -/

theorem missOpen_of_none {s : State} {p : Nat} (h : ∀ e ∈ (s.slice p).used, e.2.waitMiss = false) : s.missOpen p = s := by
  have none_ : (s.slice p).used.filter (fun e => e.2.waitMiss) = [] := List.filter_eq_nil_iff.mpr fun e he => by simp [h e he]
  simp [State.missOpen, none_, State.missFirst, sortBy]

/-- Register `r` is opened. -/
def Hlc.addMshr (r : Mshr) (h : Hlc) : Hlc := { h with mshrs := h.mshrs ++ [r], ord := h.ord + 1 }

/-- The register that a demand read of line `a` by tracker `n` opens where none is open. -/
def Slice.firstMshr (x : Slice) (a : LineAddr) (n : Nat) : Mshr :=
  { idx := 0, addr := a, demand := true, waiters := [.tracker n], ord := x.hlc.ord }

/-- The demand read of tracker `n` of line `a` opens the slice's only register, and waits no more (R223). -/
def State.missOpened (s : State) (p n : Nat) (a : LineAddr) : State :=
  ((s.modHlc p (Hlc.addMshr ((s.slice p).firstMshr a n))).count p .miss).modTrk p n fun k => { k with waitMiss := false }

theorem missJoin_of_no_mshrs {s : State} {p : Nat} (h : (s.slice p).hlc.mshrs = []) (a : LineAddr) (n : Nat) :
    s.missJoin p a (.tracker n) true = ((s.modHlc p (Hlc.addMshr ((s.slice p).firstMshr a n))).count p .miss, true) := by
  have least : leastFree [] = 0 := rfl
  simp only [State.missJoin, h, List.find?_nil, List.length_nil, Nat.zero_lt_succ, if_true, List.map_nil, least]
  rfl

theorem sortBy_singleton {α : Type} (before : α → α → Bool) (x : α) : sortBy before [x] = [x] := rfl

theorem missFirst_singleton (s : State) (p : Nat) (e : Nat × Trk) : s.missFirst p [e] = (s.missTry p e.1 e.2).1 := by
  rw [State.missFirst, List.foldl_cons, List.foldl_nil]
  exact congrArg Prod.fst (if_neg Bool.false_ne_true)

section
variable {s : State} {p n : Nat} {k : Trk} (lines : (s.slice p).hlc.lines = []) (mshrs : (s.slice p).hlc.mshrs = [])
  (writes : (s.slice p).hlc.writes = [])
include lines mshrs writes

theorem missTry_of_empty : (s.missTry p n k).1 = s.missOpened p n k.req.addr := by
  unfold State.missTry
  dsimp only
  rw [hRead_of_empty lines writes]
  dsimp only
  rw [missJoin_of_no_mshrs mshrs]
  rfl

theorem missOpen_of_one (alone : (s.slice p).trks = [(n, some k)]) (waits : k.waitMiss = true) :
    s.missOpen p = s.missOpened p n k.req.addr := by
  have used : (s.slice p).used = [(n, k)] := by
    rw [Slice.used, alone]
    rfl
  have waiting : [(n, k)].filter (fun e => e.2.waitMiss) = [(n, k)] := by simp [waits]
  rw [State.missOpen, used, waiting, sortBy_singleton, missFirst_singleton, missTry_of_empty lines mshrs writes]

end

theorem slice_missOpened {s : State} {p n : Nat} {k : Trk} (open_ : (s.slice p).trk n = some k) (a : LineAddr) :
    ((s.missOpened p n a).slice p).hlc = (s.slice p).hlc.addMshr ((s.slice p).firstMshr a n)
    ∧ ((s.missOpened p n a).slice p).trk n = some { k with waitMiss := false }
    ∧ SentNothing s (s.missOpened p n a) p := by
  have counted := onlyCounts_count (s.modHlc p (Hlc.addMshr ((s.slice p).firstMshr a n))) p .miss
  have opened : (s.modHlc p (Hlc.addMshr ((s.slice p).firstMshr a n))).slice p
      = (s.slice p).modHlc (Hlc.addMshr ((s.slice p).firstMshr a n)) := by
    rw [slice_modHlc, if_pos rfl]
  refine ⟨?_, ?_, sentNothing_of_slice ?_ ?_⟩
  · rw [State.missOpened, slice_modTrk, hlc_setTrk, counted.hlc, opened]
    rfl
  · rw [State.missOpened, trk_modTrk, counted.trk, opened]
    exact congrArg (Option.map _) open_
  · rw [State.missOpened, slice_modTrk, stop_setTrk, counted.stop, opened]
    rfl
  · rw [State.missOpened, slice_modTrk, local_setTrk, counted.local_, opened]
    rfl

/-! Sending a read (R223) -/

/-- Register `r` has sent its read. -/
def Hlc.markRead (r : Mshr) (h : Hlc) : Hlc :=
  { h with mshrs := h.mshrs.map fun n => if n.idx = r.idx then { n with sent := true } else n }

theorem missSend_of_none {s : State} {p : Nat} (h : (s.slice p).hlc.mshrs = []) : s.missSend p = s := by
  simp [State.missSend, h, firstBy]

theorem missSend_of_one {s : State} {p n : Nat} {r : Mshr} (alone : (s.slice p).hlc.mshrs = [r]) (unsent : r.sent = false)
    (writes : (s.slice p).hlc.writes = []) (port : s.portOf r.addr = some n) :
    s.missSend p = (s.modHlc p (Hlc.markRead r)).emit p
      { (s.slice p).homeMsg 0x08 (BitVec.ofNat 10 (1008 + n)) r.addr with htag := BitVec.ofNat 8 r.tag } := by
  have ready : s.missReady p r = true := by
    simp [State.missReady, unsent, Hlc.lineBusy, alone, writes, port, State.readsAt]
  have first : firstBy (s.missBefore p) ((s.slice p).hlc.mshrs.filter (s.missReady p)) = some r := by
    rw [alone, List.filter_cons_of_pos ready]
    rfl
  simp only [State.missSend, first, port]
  rfl

/-! The rows (Table 5.1) -/

theorem exec_missRegisterOpen (p : Fin 132) (s : State) : exec (.missRegisterOpen p) s = .next (s.missOpen p) := rfl
theorem exec_missRegisterSend (p : Fin 132) (s : State) : exec (.missRegisterSend p) s = .next (s.missSend p) := rfl
theorem exec_evictionWriteSend (p : Fin 132) (a : LineAddr) (s : State) :
    exec (.evictionWriteSend p a) s = .next (s.writeSend p a) := rfl

@[simp] theorem besidesSlices_modHlc (s : State) (p : Nat) (f : Hlc → Hlc) : (s.modHlc p f).besidesSlices = s.besidesSlices :=
  rfl

@[simp] theorem besidesSlices_maintFinish (s : State) (p : Nat) : (s.maintFinish p).besidesSlices = s.besidesSlices := by
  unfold State.maintFinish
  refine (foldl_keeps State.besidesSlices _ (fun _ _ => ?_) _ _).trans (besidesSlices_modHlc ..)
  split
  · exact besidesSlices_emit ..
  · rfl

/-- A message sent after a change of the cache alone (R9). -/
theorem emit_after_modHlc (s : State) (p : Nat) (f : Hlc → Hlc) (m : Msg) :
    (((s.modHlc p f).emit p m).slice p).hlc = f (s.slice p).hlc ∧ Sent s ((s.modHlc p f).emit p m) p m
    ∧ { (s.modHlc p f).emit p m with slices := s.slices } = s := by
  have changed : (s.modHlc p f).slice p = (s.slice p).modHlc f := by rw [slice_modHlc, if_pos rfl]
  have quiet : SentNothing s (s.modHlc p f) p := by
    rw [SentNothing, changed]
    exact ⟨rfl, rfl⟩
  have sent : Sent (s.modHlc p f) ((s.modHlc p f).emit p m) p m := ⟨rfl, rfl⟩
  refine ⟨?_, sent.from_before quiet, eq_of_besidesSlices_eq ?_⟩
  · rw [slice_emit, changed]
    rfl
  · rw [besidesSlices_emit, besidesSlices_modHlc]

/-- A write of a line in no region is dropped and recorded (R27). -/
theorem writeSend_drops {s : State} {p : Nat} {a : LineAddr} {w : MemWrite}
    (found : (s.slice p).hlc.writes.find? (fun w => w.addr == a && !w.sent) = some w)
    (ready : (s.slice p).hlc.lineBusy a w.ord = false) (port : s.portOf a = none) (alone : w.waiter = none)
    (none_ : (s.slice p).hlc.maint = []) :
    ((s.writeSend p a).slice p).hlc.writes = (s.slice p).hlc.writes.filter (fun v => v.ord != w.ord)
    ∧ Recorded s (s.writeSend p a) 1 0x19 p ∧ SentNothing s (s.writeSend p a) p := by
  have record := recorded_sliceErr s p 1 0x19 (some a) none 0 0 false (.inl (by decide))
  have same : ∀ q, (s.sliceErr p 1 0x19 (some a)).slice q = s.slice q := slice_sliceErr s p 1 0x19 (some a) none 0 0 false
  rw [writeSend_outside found ready port alone]
  generalize s.sliceErr p 1 0x19 (some a) = u at record same ⊢
  have dropped : (u.modHlc p fun h => h.writeEnd w.ord).slice p = (s.slice p).modHlc fun h => h.writeEnd w.ord := by
    rw [slice_modHlc, if_pos rfl, same]
  have after := slice_maintFinish_of_none (s := u.modHlc p fun h => h.writeEnd w.ord) (p := p)
    (by rw [dropped]; exact congrArg (List.map _) none_)
  have ras : ((u.modHlc p fun h => h.writeEnd w.ord).maintFinish p).ras = u.ras :=
    (congrArg (fun x : State => x.ras) (besidesSlices_maintFinish (u.modHlc p fun h => h.writeEnd w.ord) p) :)
  rw [SentNothing, after, dropped]
  exact ⟨rfl, record.of_ras_eq ras, rfl, rfl⟩

/-- Settles O18, write by write and register by register. -/
theorem memoryAccessesAndMissesAreSent : Obligations.MemoryAccessesAndMissesAreSent := by
  refine ⟨fun p a s => ⟨fun none_ => ?_, fun none_ => ?_, fun w found => ⟨fun busy => ?_, fun n ready port spent => ?_,
    fun n ready port free _ => ?_, fun ready port alone none_ => ?_⟩⟩, fun p s => ⟨?_, fun none_ => ?_, ?_⟩⟩
  · exact (exec_missRegisterOpen p s).trans (congrArg Host.Outcome.next (missOpen_of_none none_))
  · exact (exec_evictionWriteSend p a s).trans (congrArg Host.Outcome.next (writeSend_of_none none_))
  · exact (exec_evictionWriteSend p a s).trans (congrArg Host.Outcome.next (writeSend_of_busy found busy))
  · exact (exec_evictionWriteSend p a s).trans (congrArg Host.Outcome.next (writeSend_of_spent found ready port spent))
  · refine ⟨_, exec_evictionWriteSend p a s, ?_⟩
    rw [writeSend_sends found ready port free]
    obtain ⟨hlc, sent, frame⟩ := emit_after_modHlc s p (Hlc.markSent w.ord)
      { (s.slice p).homeMsg 0x12 (BitVec.ofNat 10 (1008 + n)) a with
        htag := BitVec.ofNat 8 w.idx, data := w.data, poison := w.poison }
    exact ⟨congrArg Hlc.writes hlc, sent, frame⟩
  · exact ⟨_, exec_evictionWriteSend p a s, writeSend_drops found ready port alone none_⟩
  · intro n k _ alone waits _ lines mshrs writes
    have open_ : (s.slice p).trk n = some k := by
      rw [Slice.trk, alone]
      simp [NMap.get]
    refine ⟨_, exec_missRegisterOpen p s, ?_⟩
    rw [missOpen_of_one lines mshrs writes alone waits]
    obtain ⟨hlc, trk, sent⟩ := slice_missOpened open_ k.req.addr
    refine ⟨⟨(s.slice p).firstMshr k.req.addr n, ?_, rfl, rfl, rfl, rfl⟩, trk, sent⟩
    rw [hlc]
    exact congrArg (· ++ [(s.slice p).firstMshr k.req.addr n]) mshrs
  · exact (exec_missRegisterSend p s).trans (congrArg Host.Outcome.next (missSend_of_none none_))
  · intro r n alone unsent _ writes port
    refine ⟨_, exec_missRegisterSend p s, ?_⟩
    rw [missSend_of_one alone unsent writes port]
    obtain ⟨hlc, sent, frame⟩ := emit_after_modHlc s p (Hlc.markRead r)
      { (s.slice p).homeMsg 0x08 (BitVec.ofNat 10 (1008 + n)) r.addr with htag := BitVec.ofNat 8 r.tag }
    refine ⟨?_, sent, frame⟩
    rw [hlc, Hlc.markRead, alone]
    simp

end Sys2Proof.Machine
end

section
/-! SUPPORT. Lookups of a slice's filter and cache, and what they leave alone (R109, R176, R177, R183, R218, R231). -/

namespace Sys2Proof.Machine

open Sys2Proof

/-! The snoop filter (R175 to R188) -/

/-- A slice without its counters, its snoop filter and its open lines. -/
def Slice.besidesFilter (x : Slice) : Slice := { x.besidesCounts with sfl := {}, olt := [] }

@[simp] theorem besidesFilter_setBlock (x : Slice) (k : Nat) (b : SfBlock) : (x.setBlock k b).besidesFilter = x.besidesFilter :=
  rfl

theorem besidesFilter_withOlt (x : Slice) (l : NMap Olt) : { x with olt := l }.besidesFilter = x.besidesFilter := rfl

@[simp] theorem besidesFilter_setEnt (x : Slice) (q : Nat) (e : SfEnt) : (x.setEnt q e).besidesFilter = x.besidesFilter := by
  unfold Slice.setEnt
  dsimp only
  split <;> rfl

@[simp] theorem besidesFilter_touchSf (x : Slice) (q : Nat) : (x.touchSf q).besidesFilter = x.besidesFilter := by
  unfold Slice.touchSf
  split <;> rfl

@[simp] theorem besidesFilter_ovfSync (x : Slice) (k : Nat) : (x.ovfSync k).besidesFilter = x.besidesFilter := by
  unfold Slice.ovfSync
  split <;> rfl

@[simp] theorem besidesFilter_sfCapture (x : Slice) (c : BitVec 31) : (x.sfCapture c).besidesFilter = x.besidesFilter := by
  unfold Slice.sfCapture
  split <;> rfl

@[simp] theorem besidesFilter_corrected (x : Slice) (key kind row : Nat) (patrol : Bool) :
    (x.corrected key kind row patrol).besidesFilter = x.besidesFilter := by
  rw [Slice.corrected, besidesFilter_sfCapture, besidesFilter_ovfSync, besidesFilter_setBlock]

section
variable (s : State) (p : Nat)

theorem besidesFilter_setSlice (x : Slice) : ((s.setSlice p x).slice p).besidesFilter = x.besidesFilter := by
  rw [slice_setSlice, if_pos rfl]

@[simp] theorem besidesFilter_count (c : Cnt) : ((s.count p c).slice p).besidesFilter = (s.slice p).besidesFilter :=
  (congrArg Slice.besidesFilter (onlyCounts_count s p c).slice :)

@[simp] theorem besidesFilter_slcEvent (c a : Nat) : ((s.slcEvent p c a).slice p).besidesFilter = (s.slice p).besidesFilter :=
  congrArg Slice.besidesFilter (slice_slcEvent ..)

theorem besidesFilter_sfSuspect (key : Nat) (sc : BitVec 109) (patrol : Bool) (i : Nat) :
    ((s.sfSuspect p key sc patrol i).slice p).besidesFilter = (s.slice p).besidesFilter := by
  cases fate : s.suspectFate p key sc i with
  | zeroed => rw [sfSuspect_zeroed fate]
  | tagSuspect => rw [sfSuspect_tagSuspect fate, slice_sliceErr]
  | marked d => rw [sfSuspect_marked fate, slice_fireSlice, slice_sliceErr, besidesFilter_count]

/-- A block check changes the filter and the counters of its slice alone. -/
theorem besidesFilter_sfBlockCheck (key : Nat) (patrol : Bool) :
    ((s.sfBlockCheck p key patrol).slice p).besidesFilter = (s.slice p).besidesFilter := by
  cases outcome : ((s.slice p).sfBlock key).syndrome with
  | clean =>
    rw [sfBlockCheck_clean outcome]
    split
    · rfl
    · rw [besidesFilter_setSlice, besidesFilter_setBlock]
  | corrected kind row =>
    rw [sfBlockCheck_corrected outcome, slice_fireSlice, slice_sliceErr, besidesFilter_count, besidesFilter_setSlice,
      besidesFilter_corrected]
  | uncorrectable =>
    unfold State.sfBlockCheck
    simp only [outcome]
    rw [slice_modSlice, if_pos rfl, besidesFilter_ovfSync, besidesFilter_setBlock]
    refine (foldl_keeps (fun u => (u.slice p).besidesFilter) _ (fun u i => besidesFilter_sfSuspect u p key _ patrol i) _ _).trans ?_
    rw [besidesFilter_setSlice, besidesFilter_sfCapture]

theorem besidesFilter_sfLookupChecks (set : Nat) : ((s.sfLookupChecks p set).slice p).besidesFilter = (s.slice p).besidesFilter := by
  refine foldl_keeps (fun u => (u.slice p).besidesFilter) _ (fun u k => ?_) _ _
  split
  · exact besidesFilter_sfBlockCheck ..
  · rfl

theorem besidesFilter_sfDuplicate (hits : List Nat) : ((s.sfDuplicate p hits).slice p).besidesFilter = (s.slice p).besidesFilter := by
  unfold State.sfDuplicate
  split
  · rw [slice_sliceErr, slice_modSlice, if_pos rfl, besidesFilter_sfCapture]
  · rfl

theorem besidesFilter_sfMigrate (q : Nat) : ((s.sfMigrate p q).slice p).besidesFilter = (s.slice p).besidesFilter := by
  unfold State.sfMigrate
  dsimp only
  split
  · split
    · rfl
    · rw [besidesFilter_count, besidesFilter_setSlice, besidesFilter_withOlt, besidesFilter_touchSf, besidesFilter_setEnt,
        besidesFilter_setEnt]
  · rfl

/-- A lookup of the filter changes the filter, the open lines and the counters of its slice alone. -/
theorem besidesFilter_sfLookup (a : LineAddr) : ((s.sfLookup p a).1.slice p).besidesFilter = (s.slice p).besidesFilter := by
  unfold State.sfLookup
  dsimp only
  split
  · rw [besidesFilter_sfDuplicate, besidesFilter_sfLookupChecks]
  · rw [slice_modSlice, if_pos rfl, besidesFilter_touchSf, besidesFilter_sfMigrate, besidesFilter_slcEvent,
      besidesFilter_sfDuplicate, besidesFilter_sfLookupChecks]

end

/-! The tags of a set (R218, R231) -/

@[simp] theorem besidesLines_hTagCheck (s : State) (p q : Nat) :
    ((s.hTagCheck p q).slice p).besidesLines = (s.slice p).besidesLines := by
  unfold State.hTagCheck
  dsimp only
  split
  · split
    · rw [besidesLines_hError]
    · rw [besidesLines_hError, besidesLines_setLine]
  · split
    · rw [besidesLines_hError, besidesLines_setLine]
    · rfl

theorem besidesLines_hTagScan (s : State) (p : Nat) (a : LineAddr) :
    ((s.hTagScan p a).slice p).besidesLines = (s.slice p).besidesLines :=
  foldl_keeps (fun u => (u.slice p).besidesLines) _ (fun u q => besidesLines_hTagCheck u p q) _ _

theorem isOff_capture (h : Hlc) (c : BitVec 55) : (h.capture c).isOff = h.isOff := by
  unfold Hlc.capture
  split <;> rfl

/-- A cache that is off stays off where a way leaks (R230, R232). -/
theorem isOff_raiseLeak {h : Hlc} (off : h.isOff = true) (w time : Nat) : (h.raiseLeak w time).isOff = true := by
  unfold Hlc.raiseLeak
  dsimp only
  split
  · simp only [Hlc.isOff, Hlc.startFlush, Bool.or_eq_true, beq_iff_eq] at off ⊢
    refine off.imp_right fun none_ => ?_
    rw [none_]
    exact BitVec.zero_and
  · exact off

/-- What an error of a stored line does to the cache: it is captured, and its way leaks (R231, R232). -/
theorem hlc_hError (s : State) (p q : Nat) (tag : BitVec 31) (groups : BitVec 8) (tagErr : Bool) (kind cls code : Nat)
    (a : Option LineAddr) : ((s.hError p q tag groups tagErr kind cls code a).slice p).hlc
      = ((s.slice p).hlc.capture (hCapWord q groups tagErr kind tag)).raiseLeak (q % 16) s.time := by
  unfold State.hError
  rw [slice_sliceErr]
  split
  · rw [(onlyCounts_count ..).hlc, slice_modHlc, if_pos rfl]
    rfl
  · split
    · rw [(onlyCounts_count ..).hlc, slice_modHlc, if_pos rfl]
      rfl
    · rw [slice_modHlc, if_pos rfl]
      rfl

theorem isOff_hError {s : State} {p : Nat} (off : (s.slice p).hlc.isOff = true) (q : Nat) (tag : BitVec 31) (groups : BitVec 8)
    (tagErr : Bool) (kind cls code : Nat) (a : Option LineAddr) :
    ((s.hError p q tag groups tagErr kind cls code a).slice p).hlc.isOff = true := by
  rw [hlc_hError]
  exact isOff_raiseLeak ((isOff_capture ..).trans off) ..

theorem isOff_setLine {s : State} {p : Nat} (off : (s.slice p).hlc.isOff = true) (q : Nat) (l : HLine) :
    ((s.modHlc p fun h => h.setLine q l).slice p).hlc.isOff = true := by
  rw [slice_modHlc, if_pos rfl]
  exact off

theorem isOff_hTagCheck {s : State} {p : Nat} (off : (s.slice p).hlc.isOff = true) (q : Nat) :
    ((s.hTagCheck p q).slice p).hlc.isOff = true := by
  unfold State.hTagCheck
  dsimp only
  split
  · split
    · exact isOff_hError off ..
    · exact isOff_hError (isOff_setLine off ..) ..
  · split
    · exact isOff_hError (isOff_setLine off ..) ..
    · exact off

theorem isOff_hTagScan {s : State} {p : Nat} (off : (s.slice p).hlc.isOff = true) (a : LineAddr) :
    ((s.hTagScan p a).slice p).hlc.isOff = true :=
  foldl_inv (fun u => (u.slice p).hlc.isOff = true) _ (fun _ q off => isOff_hTagCheck off q) _ _ off

/-- What a lookup leaves alone: what the slice sends, its number, its maintenance queue, and that its cache is off. -/
theorem lookup_spec (s : State) (p : Nat) (a : LineAddr) : SentNothing s (s.lookup p a).1 p
    ∧ ((s.lookup p a).1.slice p).lslice = (s.slice p).lslice ∧ ((s.lookup p a).1.slice p).hlc.maint = (s.slice p).hlc.maint
    ∧ ((s.slice p).hlc.isOff = true → ((s.lookup p a).1.slice p).hlc.isOff = true) := by
  have tags := besidesLines_hTagScan s p a
  have filter := besidesFilter_sfLookup (s.hTagScan p a) p a
  have off := isOff_hTagScan (s := s) (p := p) (a := a)
  rw [State.lookup]
  generalize s.hTagScan p a = u at tags filter off ⊢
  generalize (u.sfLookup p a).1 = v at filter ⊢
  have cache : (v.slice p).hlc = (u.slice p).hlc := (congrArg (fun x : Slice => x.hlc) filter :)
  have tagsQuiet : SentNothing s u p := sentNothing_of_slice (congrArg (fun x : Slice => x.stop) tags :)
    (congrArg (fun x : Slice => x.local_) tags :)
  have filterQuiet : SentNothing u v p := sentNothing_of_slice (congrArg (fun x : Slice => x.stop) filter :)
    (congrArg (fun x : Slice => x.local_) filter :)
  have lslice : (v.slice p).lslice = (u.slice p).lslice := (congrArg (fun x : Slice => x.lslice) filter :)
  rw [lslice, cache]
  exact ⟨tagsQuiet.trans filterQuiet, (congrArg (fun x : Slice => x.lslice) tags :),
    (congrArg (fun x : Slice => x.hlc.maint) tags :), off⟩

end Sys2Proof.Machine
end

section
/-! SUPPORT. Cache maintenance: its acceptance, its application to a stored line, and its end (R227 to R230). -/

namespace Sys2Proof.Machine

open Sys2Proof

/-! The rows of HLC_MAINT (R25, R73, R227, R230) -/

/-- An `HlcMaint` of the operation its row names. -/
def maintMsg (m : Msg) (op : BitVec 4) : Msg := { asOpc m 0x1A with aop := op }

/-- The rows of HLC_MAINT, with their operations (Table 4.8). -/
theorem exec_hlcMaintRow {e : (Fin 132 → Msg → Instr) × BitVec 4}
    (h : e ∈ ([(.hlcMaintClean, 0), (.hlcMaintInvalidate, 1), (.hlcMaintCleanInvalidate, 2)] :
      List ((Fin 132 → Msg → Instr) × BitVec 4))) (p : Fin 132) {m : Msg} (valid : m.aop.toNat ≤ 2) (s : State) :
    e.2.toNat ≤ 2 ∧ exec (e.1 p m) s = .next (s.hlcMaint p (maintMsg m e.2)) := by
  simp only [List.mem_cons, List.not_mem_nil, or_false] at h
  obtain rfl | rfl | rfl := h
  · exact ⟨by decide, rfl⟩
  · exact ⟨by decide, rfl⟩
  · exact ⟨by decide, congrArg (fun q => Host.Outcome.next (s.hlcMaint p q)) (if_neg (Nat.not_lt.mpr valid))⟩

@[simp] theorem besidesSlices_noteTaken (s : State) (p : Nat) (m : Msg) : (s.noteTaken p m).besidesSlices = s.besidesSlices := by
  unfold State.noteTaken
  split <;> rfl

section
variable {s : State} {p : Nat} {q : Msg}

theorem hlcMaint_waits (h : (s.slice p).mayTake p q = false ∨ (s.slice p).hlc.maintFull = true) : s.hlcMaint p q = s := by
  unfold State.hlcMaint
  split
  · rfl
  · next free => exact taking_of_waiting (h.resolve_right free) _

variable (next : (s.slice p).mayTake p q = true) (free : (s.slice p).hlc.maintFull = false)
include next free

theorem hlcMaint_elsewhere (home : homeMatches (s.slice p) q (q.aux != 1 && q.aux != 2) = false) :
    s.hlcMaint p q = (s.takeMsg p q).homeMismatch p q := by
  unfold State.hlcMaint
  rw [if_neg (by simp [free]), taking_of_next next]
  exact if_pos (by rw [homeMatches_takeMsg, home]; rfl)

/-- The state in which an accepted `HlcMaint` is decided. -/
def State.maintTaken (s : State) (p : Nat) (q : Msg) : State := (s.takeMsg p q).noteTaken p q

/-- `MaintDone` for message `q` (R227). -/
def Slice.maintDone (x : Slice) (q : Msg) (stat : BitVec 4) : Msg := { x.homeMsg 0x34 q.src 0 with txn := q.txn, stat }

theorem hlcMaint_invalid (home : homeMatches (s.slice p) q (q.aux != 1 && q.aux != 2) = true) (invalid : 2 < q.aux.toNat) :
    s.hlcMaint p q = (s.maintTaken p q).emit p (((s.maintTaken p q).slice p).maintDone q 7) := by
  unfold State.hlcMaint
  rw [if_neg (by simp [free]), taking_of_next next]
  refine (if_neg (by rw [homeMatches_takeMsg, home]; exact Bool.false_ne_true)).trans ?_
  exact if_pos (.inr invalid)

variable (home : homeMatches (s.slice p) q (q.aux != 1 && q.aux != 2) = true) (op : q.aop.toNat ≤ 2)
include home op

/-- The state after the lookup of an `HlcMaint` that concerns a line (R109). -/
def State.maintLooked (s : State) (p : Nat) (q : Msg) : State :=
  if q.aux = 0 then ((s.maintTaken p q).lookup p q.addr).1 else s.maintTaken p q

theorem hlcMaint_off (scope : q.aux.toNat ≤ 2) (off : ((s.maintLooked p q).slice p).hlc.isOff = true) :
    s.hlcMaint p q = (s.maintLooked p q).emit p (((s.maintLooked p q).slice p).maintDone q 0) := by
  unfold State.hlcMaint
  rw [if_neg (by simp [free]), taking_of_next next]
  refine (if_neg (by rw [homeMatches_takeMsg, home]; exact Bool.false_ne_true)).trans ?_
  refine (if_neg (by omega)).trans ?_
  exact if_pos off

/-- Message `q` joins the maintenance queue, and its walk starts (R227). -/
def Hlc.joinWhole (q : Msg) (i : Nat) (h : Hlc) : Hlc := { h with
  maint := h.maint ++ [{ idx := i, src := some q, op := q.aop, scope := q.aux.toNat, addr := q.addr }]
  maintNext := i + 1 }
def Hlc.startWalk (i : Nat) (h : Hlc) : Hlc := { h with walks := h.walks ++ [{ maint := some i }] }

theorem hlcMaint_whole (whole : q.aux = 2) (on : ((s.maintLooked p q).slice p).hlc.isOff = false) :
    s.hlcMaint p q = ((s.maintLooked p q).modHlc p (Hlc.joinWhole q ((s.maintLooked p q).slice p).hlc.maintNext)).modHlc p
      (Hlc.startWalk ((s.maintLooked p q).slice p).hlc.maintNext) := by
  unfold State.hlcMaint
  rw [if_neg (by simp [free]), taking_of_next next]
  refine (if_neg (by rw [homeMatches_takeMsg, home]; exact Bool.false_ne_true)).trans ?_
  refine (if_neg (by rw [whole]; simp [op])).trans ?_
  refine (if_neg (Bool.eq_false_iff.mp on)).trans ?_
  exact if_pos whole

end

theorem onlyCounts_maintTaken (s : State) (p : Nat) (q : Msg) : (s.takeMsg p q).OnlyCounts p (s.maintTaken p q) :=
  onlyCounts_noteTaken ..

theorem hlc_maintTaken (s : State) (p : Nat) (q : Msg) : ((s.maintTaken p q).slice p).hlc = (s.slice p).hlc :=
  (onlyCounts_maintTaken s p q).hlc.trans (hlc_takeMsg ..)

theorem besidesSlices_maintTaken (s : State) (p : Nat) (q : Msg) : (s.maintTaken p q).besidesSlices = s.besidesSlices := by
  rw [State.maintTaken, besidesSlices_noteTaken, besidesSlices_takeMsg]

theorem maintLooked_of_no_line {s : State} {p : Nat} {q : Msg} (h : q.aux ≠ 0) : s.maintLooked p q = s.maintTaken p q := if_neg h

/-- What stands when an `HlcMaint` is decided: nothing has been sent, and the queue and an off cache are as they were. -/
theorem maintLooked_spec (s : State) (p : Nat) (q : Msg) : SentNothing (s.takeMsg p q) (s.maintLooked p q) p
    ∧ ((s.maintLooked p q).slice p).lslice = (s.slice p).lslice
    ∧ ((s.maintLooked p q).slice p).hlc.maint = (s.slice p).hlc.maint
    ∧ ((s.slice p).hlc.isOff = true → ((s.maintLooked p q).slice p).hlc.isOff = true) := by
  have taken := onlyCounts_maintTaken s p q
  have lslice := taken.lslice.trans (lslice_takeMsg ..)
  have hlc := hlc_maintTaken s p q
  unfold State.maintLooked
  split
  · obtain ⟨sent, number, maint, off⟩ := lookup_spec (s.maintTaken p q) p q.addr
    rw [hlc] at maint off
    exact ⟨taken.sentNothing.trans sent, number.trans lslice, maint, off⟩
  · rw [hlc]
    exact ⟨taken.sentNothing, lslice, rfl, id⟩

/-- The answer to an `HlcMaint`, from a state in which nothing has been sent since it was taken (R227). -/
theorem sent_maintDone {s u : State} {p : Nat} {q : Msg} (quiet : SentNothing (s.takeMsg p q) u p)
    (lslice : (u.slice p).lslice = (s.slice p).lslice) (stat : BitVec 4) :
    Sent (s.takeMsg p q) (u.emit p ((u.slice p).maintDone q stat)) p
      { (s.slice p).homeMsg 0x34 q.src 0 with txn := q.txn, stat } := by
  have sent : Sent u (u.emit p ((u.slice p).maintDone q stat)) p ((u.slice p).maintDone q stat) := ⟨rfl, rfl⟩
  have done : (u.slice p).maintDone q stat = { (s.slice p).homeMsg 0x34 q.src 0 with txn := q.txn, stat } := by
    rw [Slice.maintDone, homeMsg_congr lslice]
  rw [← done]
  exact sent.from_before quiet

theorem hlc_modHlc (s : State) (p : Nat) (f : Hlc → Hlc) : ((s.modHlc p f).slice p).hlc = f (s.slice p).hlc := by
  rw [slice_modHlc, if_pos rfl]
  rfl

theorem sentNothing_modHlc (s : State) (p : Nat) (f : Hlc → Hlc) : SentNothing s (s.modHlc p f) p := by
  rw [SentNothing, slice_modHlc, if_pos rfl]
  exact ⟨rfl, rfl⟩

theorem hlc_emit (s : State) (p : Nat) (m : Msg) : ((s.emit p m).slice p).hlc = (s.slice p).hlc := by
  rw [slice_emit]

section
variable {s : State} {p : Nat} {q : Msg} (next : (s.slice p).mayTake p q = true) (free : (s.slice p).hlc.maintFull = false)
include next free

theorem hlcMaint_elsewhere_spec (home : homeMatches (s.slice p) q (q.aux != 1 && q.aux != 2) = false) :
    Recorded s (s.hlcMaint p q) 2 0x04 p ∧ ((s.hlcMaint p q).slice p).hlc = (s.slice p).hlc
    ∧ SentNothing (s.takeMsg p q) (s.hlcMaint p q) p := by
  obtain ⟨record, -, same⟩ := homeMismatch_spec (s.takeMsg p q) p q
  rw [hlcMaint_elsewhere next free home]
  refine ⟨record.from_before rfl rfl, ?_, sentNothing_of_slice (by rw [same]) (by rw [same])⟩
  rw [same]
  exact hlc_takeMsg ..

theorem hlcMaint_invalid_spec (home : homeMatches (s.slice p) q true = true) (invalid : 2 < q.aux.toNat) :
    Sent (s.takeMsg p q) (s.hlcMaint p q) p { (s.slice p).homeMsg 0x34 q.src 0 with txn := q.txn, stat := 7 }
    ∧ ((s.hlcMaint p q).slice p).hlc = (s.slice p).hlc ∧ { s.hlcMaint p q with slices := s.slices } = s := by
  have named : (q.aux != 1 && q.aux != 2) = true := by
    rw [Bool.and_eq_true, bne_iff_ne, bne_iff_ne]
    constructor <;> rintro scope <;> rw [scope] at invalid <;> exact absurd invalid (by decide)
  have taken := onlyCounts_maintTaken s p q
  rw [hlcMaint_invalid next free (by rw [named]; exact home) invalid]
  refine ⟨sent_maintDone taken.sentNothing (taken.lslice.trans (lslice_takeMsg ..)) 7, ?_, eq_of_besidesSlices_eq ?_⟩
  · rw [hlc_emit, hlc_maintTaken]
  · rw [besidesSlices_emit, besidesSlices_maintTaken]

variable (op : q.aop.toNat ≤ 2)
include op

theorem hlcMaint_off_spec (home : homeMatches (s.slice p) q (q.aux == 0) = true) (scope : q.aux.toNat ≤ 2)
    (off : (s.slice p).hlc.state = 0 ∨ (s.slice p).hlc.wayEn = 0) :
    Sent (s.takeMsg p q) (s.hlcMaint p q) p { (s.slice p).homeMsg 0x34 q.src 0 with txn := q.txn, stat := 0 }
    ∧ ((s.hlcMaint p q).slice p).hlc.maint = (s.slice p).hlc.maint
    ∧ (q.aux ≠ 0 → ((s.hlcMaint p q).slice p).hlc = (s.slice p).hlc ∧ { s.hlcMaint p q with slices := s.slices } = s) := by
  have named : (q.aux == 0) = (q.aux != 1 && q.aux != 2) := by
    have scopes : q.aux = 0 ∨ q.aux = 1 ∨ q.aux = 2 := by bv_omega
    obtain h | h | h := scopes <;> rw [h] <;> rfl
  obtain ⟨quiet, lslice, maint, off'⟩ := maintLooked_spec s p q
  rw [hlcMaint_off next free (by rw [← named]; exact home) op scope (off' (by simpa [Hlc.isOff] using off))]
  refine ⟨sent_maintDone quiet lslice 0, ?_, fun line => ⟨?_, eq_of_besidesSlices_eq ?_⟩⟩
  · rw [hlc_emit, maint]
  · rw [hlc_emit, maintLooked_of_no_line line, hlc_maintTaken]
  · rw [besidesSlices_emit, maintLooked_of_no_line line, besidesSlices_maintTaken]

/-- A whole-cache operation joins the queue, and its walk starts (R227, R229). -/
theorem hlcMaint_whole_spec (home : homeMatches (s.slice p) q false = true) (whole : q.aux = 2)
    (state : (s.slice p).hlc.state ≠ 0) (ways : (s.slice p).hlc.wayEn ≠ 0) :
    ((s.hlcMaint p q).slice p).hlc.maint = (s.slice p).hlc.maint ++ [{
      idx := (s.slice p).hlc.maintNext, src := some q, op := q.aop, scope := 2, addr := q.addr }]
    ∧ ((s.hlcMaint p q).slice p).hlc.walks = (s.slice p).hlc.walks ++ [{ maint := some (s.slice p).hlc.maintNext }]
    ∧ SentNothing (s.takeMsg p q) (s.hlcMaint p q) p ∧ { s.hlcMaint p q with slices := s.slices } = s := by
  have taken := onlyCounts_maintTaken s p q
  have hlc := hlc_maintTaken s p q
  have looked : s.maintLooked p q = s.maintTaken p q := maintLooked_of_no_line (by rw [whole]; decide)
  have on : ((s.maintLooked p q).slice p).hlc.isOff = false := by
    rw [looked, hlc]
    simp only [Hlc.isOff, Bool.or_eq_false_iff, beq_eq_false_iff_ne]
    exact ⟨state, ways⟩
  rw [hlcMaint_whole next free (by rw [whole]; exact home) op whole on, looked, hlc]
  have scope : q.aux.toNat = 2 := by rw [whole]; rfl
  refine ⟨?_, ?_, ?_, eq_of_besidesSlices_eq ?_⟩
  · rw [hlc_modHlc, hlc_modHlc, hlc, ← scope]
    rfl
  · rw [hlc_modHlc, hlc_modHlc, hlc]
    rfl
  · exact taken.sentNothing.trans ((sentNothing_modHlc ..).trans (sentNothing_modHlc ..))
  · rw [besidesSlices_modHlc, besidesSlices_modHlc, besidesSlices_maintTaken]

end

end Sys2Proof.Machine
end

section
/-! SUPPORT. A maintenance operation at a stored line, its end, and the walker (R227 to R229). -/

namespace Sys2Proof.Machine

open Sys2Proof

/-! Table 11.4 at one position -/

theorem tagSound_mkLine (a : LineAddr) (d : LineData) (po : BitVec 8) (pf : Bool) : (mkLine a d po true pf).tagSound := ⟨rfl, rfl⟩

theorem dataSound_mkLine (a : LineAddr) (d : LineData) (po : BitVec 8) (dirty pf : Bool) :
    (mkLine a d po dirty pf).dpar = dparOf (mkLine a d po dirty pf).data := by
  simp only [mkLine]

theorem hDataCheck_of_sound {s : State} {p q : Nat} (h : ((s.slice p).hlc.line q).dpar = dparOf ((s.slice p).hlc.line q).data) :
    s.hDataCheck p q = s := by
  unfold State.hDataCheck
  dsimp only
  rw [h, BitVec.xor_self]
  exact if_pos (by simp)

theorem hMoveCheck_of_sound {s : State} {p q : Nat} (h : ((s.slice p).hlc.line q).dpar = dparOf ((s.slice p).hlc.line q).data) :
    s.hMoveCheck p q = s := by
  unfold State.hMoveCheck
  rw [hDataCheck_of_sound h, ite_self]

theorem hMoveCheck_of_clean {s : State} {p q : Nat} (h : ((s.slice p).hlc.line q).dirty = false) : s.hMoveCheck p q = s :=
  if_neg (by simp [h])

/-- At a position that holds no line there is nothing to do (Table 11.4). -/
theorem maintAt_of_no_lines {s : State} {p : Nat} (h : (s.slice p).hlc.lines = []) (q : Nat) (op : BitVec 4) :
    s.maintAt p q op = (s, .done) := by
  have line := line_of_no_lines h q
  unfold State.maintAt
  dsimp only
  rw [hTagCheck_of_tagSound (by rw [line]; exact tagSound_empty), hMoveCheck_of_clean (by rw [line]; rfl), line]
  exact if_pos rfl

/-- A dirty line at position `q`, of address `b` by its slice, is queued in the eviction buffer, and cleaned or dropped. -/
def Hlc.movedOut (q : Nat) (b v : LineAddr) (d : LineData) (po : BitVec 8) (op : BitVec 4) (h : Hlc) : Hlc :=
  (h.queueWrite true b d po).setLine q (if op = 0 then mkLine v d po false false else {})

theorem line_movedOut (h : Hlc) (q : Nat) (b v : LineAddr) (d : LineData) (po : BitVec 8) (op : BitVec 4) :
    (h.movedOut q b v d po op).line q = if op = 0 then mkLine v d po false false else {} :=
  NMap.get_set_self HLine.dflt h.lines q _

theorem writes_movedOut {h : Hlc} (none_ : h.writes = []) (q : Nat) (b v : LineAddr) (d : LineData) (po : BitVec 8) (op : BitVec 4) :
    (h.movedOut q b v d po op).writes = [{ evb := true, idx := 0, addr := b, data := d, poison := po, ord := h.ord }] := by
  have least : leastFree [] = 0 := rfl
  have idx : leastFree (h.evbs.map (·.idx)) = 0 := by rw [Hlc.evbs, none_, List.filter_nil, List.map_nil, least]
  simp only [Hlc.movedOut, Hlc.queueWrite, Hlc.setLine, none_, List.nil_append, if_true, idx]

section
variable {s : State} {p q : Nat} {v : LineAddr} {d : LineData} {po : BitVec 8}
  (line : (s.slice p).hlc.line q = mkLine v d po true false) (writes : (s.slice p).hlc.writes = []) (op : BitVec 4)
include line writes

/-- A dirty line moves to the eviction buffer, and its write is awaited (Table 11.4). -/
theorem maintAt_of_dirty : ∃ u, s.maintAt p q op = (u, .moved (s.slice p).hlc.ord)
    ∧ (u.slice p).hlc = (s.slice p).hlc.movedOut q ((s.slice p).hAddr q) v d po op ∧ SentNothing s u p := by
  unfold State.maintAt
  dsimp only
  rw [hTagCheck_of_tagSound (by rw [line]; exact tagSound_mkLine ..), hMoveCheck_of_sound (by rw [line]; exact dataSound_mkLine ..), line]
  have room : (s.slice p).hlc.evbFull = false := by simp [Hlc.evbFull, Hlc.evbs, writes]
  have sent := sentNothing_modHlc s p (Hlc.movedOut q ((s.slice p).hAddr q) v d po op)
  have hlc := hlc_modHlc s p (Hlc.movedOut q ((s.slice p).hAddr q) v d po op)
  have counted := onlyCounts_count (s.modHlc p (Hlc.movedOut q ((s.slice p).hAddr q) v d po op)) p .dirtyEvict
  refine ⟨if op = 0 then s.modHlc p (Hlc.movedOut q ((s.slice p).hAddr q) v d po op)
    else (s.modHlc p (Hlc.movedOut q ((s.slice p).hAddr q) v d po op)).count p .dirtyEvict, ?_, ?_⟩
  · rw [if_neg (by simp [mkLine]), if_neg (by simp [mkLine, HLine.dirty]), if_neg (Bool.eq_false_iff.mp room)]
    unfold Hlc.movedOut
    simp only [mkLine]
  · split
    · exact ⟨hlc, sent⟩
    · exact ⟨counted.hlc.trans hlc, sent.trans counted.sentNothing⟩

end

theorem lslice_modHlc (s : State) (p : Nat) (f : Hlc → Hlc) : ((s.modHlc p f).slice p).lslice = (s.slice p).lslice := by
  rw [slice_modHlc, if_pos rfl]
  rfl

/-! The end of an operation (R227) -/

/-- The operation has nothing left to wait for. -/
def Slice.finishes (x : Slice) (m : Maint) : Bool :=
  !m.waiting && m.acks.isEmpty && (m.scope != 0 || !(x.hlc.evbs.any fun w => w.addr == m.addr))

/-- The operations `l` leave the queue of slice `x`, and their walks end. -/
def Slice.dropMaint (x : Slice) (l : List Maint) (h : Hlc) : Hlc := { h with
  maint := h.maint.filter fun m => !x.finishes m
  walks := h.walks.filter fun w => !(l.any fun m => w.maint == some m.idx) }

/-- The operations `l` end, each with `MaintDone` to its sender. -/
def State.endMaint (s : State) (p : Nat) (l : List Maint) : State :=
  l.foldl (fun u m => match m.src with
    | some q => u.emit p ((s.slice p).maintDone q 0)
    | none => u) (s.modHlc p ((s.slice p).dropMaint l))

theorem maintFinish_eq (s : State) (p : Nat) :
    s.maintFinish p = s.endMaint p ((s.slice p).hlc.maint.filter (s.slice p).finishes) := rfl

section
variable {s : State} {p : Nat} {a : Maint} (only : (s.slice p).hlc.maint = [a])
include only

theorem maintFinish_of_unfinished (h : (s.slice p).finishes a = false) :
    (s.maintFinish p).slice p = s.slice p := by
  have none_ : (s.slice p).hlc.maint.filter (s.slice p).finishes = [] := by simp [only, h]
  have stays : (s.slice p).hlc.maint.filter (fun m => !(s.slice p).finishes m) = (s.slice p).hlc.maint := by simp [only, h]
  have kept : (s.slice p).dropMaint [] (s.slice p).hlc = (s.slice p).hlc := by
    simp only [Slice.dropMaint, stays, List.any_nil, Bool.not_false, List.filter_true]
  rw [maintFinish_eq, none_, State.endMaint, List.foldl_nil, slice_modHlc, if_pos rfl]
  exact congrArg (fun c => { s.slice p with hlc := c }) kept

/-- The only operation ends: it leaves the queue with its walk, and `MaintDone` goes to its sender. -/
theorem maintFinish_of_finished {q : Msg} (h : (s.slice p).finishes a = true) (src : a.src = some q) :
    ((s.maintFinish p).slice p).hlc
      = { (s.slice p).hlc with maint := [], walks := (s.slice p).hlc.walks.filter fun w => !(w.maint == some a.idx) }
    ∧ Sent s (s.maintFinish p) p { (s.slice p).homeMsg 0x34 q.src 0 with txn := q.txn } := by
  have one : (s.slice p).hlc.maint.filter (s.slice p).finishes = [a] := by simp [only, h]
  have dropped : (s.slice p).dropMaint [a] (s.slice p).hlc
      = { (s.slice p).hlc with maint := [], walks := (s.slice p).hlc.walks.filter fun w => !(w.maint == some a.idx) } := by
    simp [Slice.dropMaint, only, h]
  have ended : s.maintFinish p = (s.modHlc p ((s.slice p).dropMaint [a])).emit p ((s.slice p).maintDone q 0) := by
    rw [maintFinish_eq, one, State.endMaint, List.foldl_cons, List.foldl_nil, src]
  obtain ⟨hlc, sent, -⟩ := emit_after_modHlc s p ((s.slice p).dropMaint [a]) ((s.slice p).maintDone q 0)
  rw [ended]
  exact ⟨hlc.trans dropped, sent⟩

end

/-! A by-address operation that is tried (R228) -/

theorem modMaint_of_one {h : Hlc} {a : Maint} (only : h.maint = [a]) (f : Maint → Maint) :
    h.modMaint a.idx f = { h with maint := [f a] } := by
  simp [Hlc.modMaint, only]

/-- Operation `i` waits no more for its line, or for its walk. -/
def State.maintApplied (s : State) (p i : Nat) : State := s.modHlc p fun h => h.modMaint i fun m => { m with waiting := false }

/-- The only operation ends where it is applied and awaits no write: it leaves the queue with its walk (R227). -/
theorem maintApplied_ends {s : State} {p : Nat} {a : Maint} {q : Msg} (only : (s.slice p).hlc.maint = [a]) (acks : a.acks = [])
    (free : a.scope ≠ 0 ∨ (s.slice p).hlc.writes = []) (src : a.src = some q) :
    (((s.maintApplied p a.idx).maintFinish p).slice p).hlc
      = { (s.slice p).hlc with maint := [], walks := (s.slice p).hlc.walks.filter fun w => !(w.maint == some a.idx) }
    ∧ Sent s ((s.maintApplied p a.idx).maintFinish p) p { (s.slice p).homeMsg 0x34 q.src 0 with txn := q.txn }
    ∧ ((s.maintApplied p a.idx).maintFinish p).besidesSlices = s.besidesSlices := by
  have quiet : SentNothing s (s.maintApplied p a.idx) p := sentNothing_modHlc ..
  have lslice : ((s.maintApplied p a.idx).slice p).lslice = (s.slice p).lslice := lslice_modHlc ..
  have hlc : ((s.maintApplied p a.idx).slice p).hlc = { (s.slice p).hlc with maint := [{ a with waiting := false }] } := by
    rw [State.maintApplied, hlc_modHlc, modMaint_of_one only]
  have finished : ((s.maintApplied p a.idx).slice p).finishes { a with waiting := false } = true := by
    obtain scope | writes := free
    · simp [Slice.finishes, acks, scope]
    · simp [Slice.finishes, acks, hlc, Hlc.evbs, writes]
  obtain ⟨ended, sent⟩ := maintFinish_of_finished (by rw [hlc]) finished src
  rw [homeMsg_congr lslice] at sent
  refine ⟨?_, sent.from_before quiet, ?_⟩
  · rw [ended, hlc]
  · rw [besidesSlices_maintFinish]
    exact besidesSlices_modHlc ..

section
variable {s : State} {p : Nat} {a : Maint} (only : (s.slice p).hlc.maint = [a]) (waits : a.waiting = true)
  (mshrs : (s.slice p).hlc.mshrs = []) (scope : a.scope = 0) (pins : ∀ e ∈ (s.slice p).used, e.2.pin = none)

include only waits scope in
theorem waiting_operation : (s.slice p).hlc.maint.find? (fun m => m.idx == a.idx && m.waiting && decide (m.scope < 2))
    = some a := by
  rw [only, List.find?_cons_of_pos]
  simp [waits, scope]

include pins in
theorem hPinned_of_no_pins (r : Nat) : (s.slice p).hPinned r = false :=
  List.any_eq_false.mpr fun e he => by simp [pins e he]

include pins in
theorem no_far_pin (f : Nat × Trk → Bool) : ((s.slice p).used.any fun e => e.2.pin.isSome && f e) = false :=
  List.any_eq_false.mpr fun e he => by simp [pins e he]

include only waits mshrs scope pins

theorem maintTry_of_absent (absent : (s.slice p).hlc.find a.addr = none) :
    s.maintTry p a.idx = (s.maintApplied p a.idx).maintFinish p := by
  unfold State.maintTry State.maintApplied
  dsimp only
  rw [waiting_operation only waits scope]
  dsimp only
  rw [mshrs, no_far_pin pins, if_pos scope, absent]
  simp

theorem maintTry_of_present {r : Nat} (found : (s.slice p).hlc.find a.addr = some r) {u : State} {ord : Nat}
    (moved : s.maintAt p r a.op = (u, .moved ord)) :
    s.maintTry p a.idx = (u.modHlc p fun h => h.modMaint a.idx fun m => { m with
      waiting := false, acks := m.acks ++ [ord] }).maintFinish p := by
  unfold State.maintTry
  dsimp only
  rw [waiting_operation only waits scope]
  dsimp only
  rw [mshrs, no_far_pin pins, if_pos scope, found]
  dsimp only
  rw [hPinned_of_no_pins pins, moved]
  simp

/-- An operation by address on a line the cache does not hold ends at once (R227). -/
theorem maintTry_absent_spec {q : Msg} (src : a.src = some q) (acks : a.acks = []) (writes : (s.slice p).hlc.writes = [])
    (walks : (s.slice p).hlc.walks = []) (absent : (s.slice p).hlc.find a.addr = none) :
    ((s.maintTry p a.idx).slice p).hlc = { (s.slice p).hlc with maint := [] }
    ∧ Sent s (s.maintTry p a.idx) p { (s.slice p).homeMsg 0x34 q.src 0 with txn := q.txn }
    ∧ { s.maintTry p a.idx with slices := s.slices } = s := by
  obtain ⟨hlc, sent, beside⟩ := maintApplied_ends only acks (.inr writes) src
  rw [maintTry_of_absent only waits mshrs scope pins absent]
  refine ⟨?_, sent, eq_of_besidesSlices_eq beside⟩
  rw [hlc]
  simp only [walks, List.filter_nil]

/-- An operation by address on a dirty line: the line moves to the eviction buffer, and its write is awaited (R227). -/
theorem maintTry_dirty_spec (acks : a.acks = []) (writes : (s.slice p).hlc.writes = []) {r : Nat} {d : LineData} {po : BitVec 8}
    (found : (s.slice p).hlc.find a.addr = some r) (line : (s.slice p).hlc.line r = mkLine a.addr d po true false) :
    ((s.maintTry p a.idx).slice p).hlc.maint = [{ a with waiting := false, acks := [(s.slice p).hlc.ord] }]
    ∧ ((s.maintTry p a.idx).slice p).hlc.line r = (if a.op = 0 then mkLine a.addr d po false false else {})
    ∧ ((s.maintTry p a.idx).slice p).hlc.writes = [{
      evb := true, idx := 0, addr := (s.slice p).hAddr r, data := d, poison := po, ord := (s.slice p).hlc.ord }]
    ∧ SentNothing s (s.maintTry p a.idx) p := by
  obtain ⟨u, moved, hlc, sent⟩ := maintAt_of_dirty line writes a.op
  have only' : (u.slice p).hlc.maint = [a] := by
    rw [hlc]
    exact only
  rw [maintTry_of_present only waits mshrs scope pins found moved]
  have noted := hlc_modHlc u p fun h => h.modMaint a.idx fun m => { m with
    waiting := false, acks := m.acks ++ [(s.slice p).hlc.ord] }
  have quiet := sentNothing_modHlc u p fun h => h.modMaint a.idx fun m => { m with
    waiting := false, acks := m.acks ++ [(s.slice p).hlc.ord] }
  generalize (u.modHlc p _) = v at noted quiet ⊢
  rw [modMaint_of_one only'] at noted
  have after := maintFinish_of_unfinished (s := v) (p := p) (by rw [noted]) (by simp [Slice.finishes])
  rw [hlc] at noted
  refine ⟨?_, ?_, ?_, (sent.trans quiet).trans (sentNothing_of_slice (by rw [after]) (by rw [after]))⟩
  · rw [after, noted, acks]
    rfl
  · rw [after, noted]
    exact line_movedOut ..
  · rw [after, noted]
    exact writes_movedOut writes r ((s.slice p).hAddr r) a.addr d po a.op

end

/-! The walker (R229) -/

/-- The walker has visited position `w.next`. -/
def State.walkedOn (s : State) (p : Nat) (w : Walk) (l : List Walk) : State :=
  s.modHlc p fun h => { h with walks := { w with next := w.next + 1 } :: l }

theorem walkVisit_of_no_walk {s : State} {p : Nat} (h : (s.slice p).hlc.walks = []) : s.walkVisit p = s := by
  simp only [State.walkVisit, h]

section
variable {s : State} {p : Nat} {w : Walk} {l : List Walk} (walks : (s.slice p).hlc.walks = w :: l)
  (unpinned : (s.slice p).hPinned w.next = false)
include walks unpinned

/-- A visit of an empty position that is not the last goes on to the next. -/
theorem walkVisit_goes_on (lines : (s.slice p).hlc.lines = []) (more : w.next < 4095) :
    s.walkVisit p = s.walkedOn p w l := by
  have inside : w.next < 4096 := by omega
  have rest : ({ w with next := w.next + 1 } : Walk).over = false := by simp [Walk.over]; omega
  unfold State.walkVisit State.walkedOn
  simp only [walks, if_pos inside, unpinned, maintAt_of_no_lines lines, rest]
  simp

theorem walkVisit_ends (lines : (s.slice p).hlc.lines = []) (last : w.next = 4095) (again : w.again = []) (none_ : w.maint = none) :
    s.walkVisit p = (s.walkedOn p w l).modHlc p fun h => { h with walks := l } := by
  rw [last] at unpinned
  unfold State.walkVisit State.walkedOn
  simp only [walks, last, none_, maintAt_of_no_lines lines]
  simp [unpinned, Walk.over, again]

theorem walkVisit_ends_maint (lines : (s.slice p).hlc.lines = []) (last : w.next = 4095) (again : w.again = []) {i : Nat}
    (some_ : w.maint = some i) :
    s.walkVisit p = ((s.walkedOn p w l).maintApplied p i).maintFinish p := by
  rw [last] at unpinned
  unfold State.walkVisit State.maintApplied State.walkedOn
  simp only [walks, last, some_, maintAt_of_no_lines lines]
  simp [unpinned, Walk.over, again]

theorem walkVisit_moves {a : Maint} (more : w.next < 4095) (some_ : w.maint = some a.idx)
    (only : (s.slice p).hlc.maint = [a]) {u : State} {ord : Nat} (moved : s.maintAt p w.next a.op = (u, .moved ord)) :
    s.walkVisit p = (u.modHlc p fun h => h.modMaint a.idx fun m => { m with acks := m.acks ++ [ord] }).walkedOn p w l := by
  have inside : w.next < 4096 := by omega
  have op : ((s.slice p).hlc.maint.find? fun m => m.idx == a.idx) = some a := by rw [only]; simp
  unfold State.walkVisit State.walkedOn
  simp only [walks, if_pos inside, some_, unpinned, op, Option.map_some, Option.getD_some, moved]
  simp [Walk.over]
  omega

/-- At the last position of an empty cache the walk ends, and with it its operation, if that awaits nothing. -/
theorem walkVisit_ends_maint_spec {a : Maint} {q : Msg} (lines : (s.slice p).hlc.lines = []) (last : w.next = 4095)
    (again : w.again = []) (some_ : w.maint = some a.idx) (only : (s.slice p).hlc.maint = [a]) (scope : a.scope = 2)
    (acks : a.acks = []) (src : a.src = some q) (others : ∀ v ∈ l, v.maint ≠ some a.idx) :
    ((s.walkVisit p).slice p).hlc = { (s.slice p).hlc with walks := l, maint := [] }
    ∧ Sent s (s.walkVisit p) p { (s.slice p).homeMsg 0x34 q.src 0 with txn := q.txn }
    ∧ { s.walkVisit p with slices := s.slices } = s := by
  have stays : ({ w with next := w.next + 1 } :: l).filter (fun v => !(v.maint == some a.idx)) = l := by
    rw [List.filter_cons_of_neg (by simp [some_])]
    exact List.filter_eq_self.mpr fun v hv => by simp [others v hv]
  have walked : ((s.walkedOn p w l).slice p).hlc = { (s.slice p).hlc with walks := { w with next := w.next + 1 } :: l } :=
    hlc_modHlc ..
  have quiet : SentNothing s (s.walkedOn p w l) p := sentNothing_modHlc ..
  have lslice : ((s.walkedOn p w l).slice p).lslice = (s.slice p).lslice := lslice_modHlc ..
  obtain ⟨hlc, sent, beside⟩ := maintApplied_ends (s := s.walkedOn p w l) (by rw [walked]; exact only) acks
    (.inl (by rw [scope]; decide)) src
  rw [homeMsg_congr lslice] at sent
  rw [walkVisit_ends_maint walks unpinned lines last again some_]
  refine ⟨?_, sent.from_before quiet, eq_of_besidesSlices_eq (beside.trans (besidesSlices_modHlc ..))⟩
  rw [hlc, walked]
  simp only [stays]

/-- A dirty line moves to the eviction buffer, its write is awaited, and the walk goes on. -/
theorem walkVisit_moves_spec {a : Maint} {v : LineAddr} {d : LineData} {po : BitVec 8} (more : w.next < 4095)
    (some_ : w.maint = some a.idx) (only : (s.slice p).hlc.maint = [a])
    (line : (s.slice p).hlc.line w.next = mkLine v d po true false) (writes : (s.slice p).hlc.writes = []) :
    ((s.walkVisit p).slice p).hlc.walks = { w with next := w.next + 1 } :: l
    ∧ ((s.walkVisit p).slice p).hlc.maint = [{ a with acks := a.acks ++ [(s.slice p).hlc.ord] }]
    ∧ ((s.walkVisit p).slice p).hlc.line w.next = (if a.op = 0 then mkLine v d po false false else {})
    ∧ ((s.walkVisit p).slice p).hlc.writes = [{
      evb := true, idx := 0, addr := (s.slice p).hAddr w.next, data := d, poison := po, ord := (s.slice p).hlc.ord }]
    ∧ SentNothing s (s.walkVisit p) p := by
  obtain ⟨u, moved, hlc, sent⟩ := maintAt_of_dirty line writes a.op
  have only' : (u.slice p).hlc.maint = [a] := by
    rw [hlc]
    exact only
  have after : ((s.walkVisit p).slice p).hlc = { (s.slice p).hlc.movedOut w.next ((s.slice p).hAddr w.next) v d po a.op with
      maint := [{ a with acks := a.acks ++ [(s.slice p).hlc.ord] }], walks := { w with next := w.next + 1 } :: l } := by
    rw [walkVisit_moves walks unpinned more some_ only moved, State.walkedOn, hlc_modHlc, hlc_modHlc, modMaint_of_one only', hlc]
  rw [after]
  refine ⟨rfl, rfl, line_movedOut .., writes_movedOut writes w.next ((s.slice p).hAddr w.next) v d po a.op, ?_⟩
  rw [walkVisit_moves walks unpinned more some_ only moved, State.walkedOn]
  exact sent.trans ((sentNothing_modHlc ..).trans (sentNothing_modHlc ..))

end

/-- Two changes of one slice's cache are one (R9). -/
theorem modHlc_modHlc (s : State) (p : Nat) (f g : Hlc → Hlc) : (s.modHlc p f).modHlc p g = s.modHlc p fun h => g (f h) := by
  have slice : (s.modHlc p f).slice p = (s.slice p).modHlc f := by rw [slice_modHlc, if_pos rfl]
  have written : (s.modHlc p f).modHlc p g = (s.setSlice p ((s.slice p).modHlc f)).setSlice p (((s.slice p).modHlc f).modHlc g) :=
    congrArg (fun x => (s.modHlc p f).setSlice p (Slice.modHlc x g)) slice
  rw [written]
  exact congrArg (fun l => { s with slices := l }) (NMap.set_set Slice.reset s.slices p _ _)

/-! The rows -/

theorem exec_hlcMaintResume (p : Fin 132) (i : Fin 8) (s : State) : exec (.hlcMaintResume p i) s = execHlcMaintResume p i s :=
  rfl
theorem exec_hlcWalkerVisit (p : Fin 132) (s : State) : exec (.hlcWalkerVisit p) s = .next (s.walkVisit p) := rfl

theorem hlcMaintResume_idles {p : Fin 132} {i : Fin 8} {s : State}
    (h : ((s.slice p).hlc.maint.filter (fun m => m.waiting && decide (m.scope < 2))).length ≤ i.val) :
    Idles (.hlcMaintResume p i) s := by
  rw [Idles, exec_hlcMaintResume, execHlcMaintResume, List.getElem?_eq_none h]

theorem exec_hlcMaintResume_of_one {p : Fin 132} {s : State} {a : Maint} (only : (s.slice p).hlc.maint = [a])
    (waits : a.waiting = true) (scope : a.scope = 0) : exec (.hlcMaintResume p 0) s = .next (s.maintTry p a.idx) := by
  have first : (s.slice p).hlc.maint.filter (fun m => m.waiting && decide (m.scope < 2)) = [a] := by simp [only, waits, scope]
  rw [exec_hlcMaintResume, execHlcMaintResume, first]
  rfl

/-- Settles O19, the rows of HLC_MAINT one answer after another, then the operation that is tried and the walker. -/
theorem maintenanceIsQueuedAndAnswered : Obligations.MaintenanceIsQueuedAndAnswered := by
  intro p m s
  refine ⟨fun e row valid => ?_, fun i none_ => hlcMaintResume_idles none_, fun none_ => ?_, ?_, ?_, ?_⟩
  · obtain ⟨op, run⟩ := exec_hlcMaintRow row p valid s
    refine ⟨fun waits => run.trans (congrArg Host.Outcome.next (hlcMaint_waits waits)), fun next free => ⟨fun home => ?_,
      fun home invalid => ?_, fun home scope off => ?_, fun home whole state ways => ?_⟩⟩
    · exact ⟨_, run, hlcMaint_elsewhere_spec (q := maintMsg m e.2) next free home⟩
    · exact ⟨_, run, hlcMaint_invalid_spec (q := maintMsg m e.2) next free home invalid⟩
    · exact ⟨_, run, hlcMaint_off_spec (q := maintMsg m e.2) next free op home scope off⟩
    · exact ⟨_, run, hlcMaint_whole_spec (q := maintMsg m e.2) next free op home whole state ways⟩
  · exact (exec_hlcWalkerVisit p s).trans (congrArg Host.Outcome.next (walkVisit_of_no_walk none_))
  · intro a q only waits src acks mshrs writes walks scope pins
    have run := exec_hlcMaintResume_of_one only waits scope
    refine ⟨fun lines => ⟨_, run, ?_⟩, fun r d po found line => ⟨_, run, ?_⟩⟩
    · exact maintTry_absent_spec only waits mshrs scope pins src acks writes walks (find_of_no_lines lines a.addr)
    · exact maintTry_dirty_spec only waits mshrs scope pins acks writes found line
  · intro w l walks lines unpinned
    refine ⟨fun more => ⟨_, exec_hlcWalkerVisit p s, walkVisit_goes_on walks unpinned lines more⟩,
      fun last again => ⟨fun none_ => ⟨_, exec_hlcWalkerVisit p s, ?_⟩, ?_⟩⟩
    · rw [walkVisit_ends walks unpinned lines last again none_, State.walkedOn, modHlc_modHlc]
    · intro a q some_ only scope acks src others
      exact ⟨_, exec_hlcWalkerVisit p s, walkVisit_ends_maint_spec walks unpinned lines last again some_ only scope acks src others⟩
  · intro w a v d po walks more some_ only line writes unpinned
    exact ⟨_, exec_hlcWalkerVisit p s, walkVisit_moves_spec walks unpinned more some_ only line writes⟩

end Sys2Proof.Machine
end

section
/-! SUPPORT. Credit requests and grants (R25, R90, R91, R109). -/

namespace Sys2Proof.Machine

open Sys2Proof

/-! A credit request (R90) -/

theorem exec_creditRequest (p : Fin 132) (m : Msg) (s : State) : exec (.creditRequest p m) s = .next (s.taking p (asOpc m 0x2D)
    fun s => (if homeMatches (s.slice p) (asOpc m 0x2D) false then s.noteTaken p (asOpc m 0x2D) else s).creditRequest p
      (asOpc m 0x2D)) := rfl

theorem creditRequest_elsewhere {s : State} {p : Nat} {m : Msg} (home : homeMatches (s.slice p) m false = false) :
    s.creditRequest p m = s.homeMismatch p m := if_pos (by simp [home])

/-- The credits a holder `h` may ask for with message `m` (R90). -/
def Slice.wants (x : Slice) (h : Nat) (m : Msg) : Nat :=
  min (if 1 ≤ m.aux.toNat ∧ m.aux.toNat ≤ 8 then m.aux.toNat else 1) (8 - poolSize h - x.held h)

section
variable {s : State} {p : Nat} {m : Msg} (home : homeMatches (s.slice p) m false = true)
include home

theorem creditRequest_of_stranger (none_ : holderOf m.src.toNat = none) : s.creditRequest p m = s.crqDiscard p m := by
  unfold State.creditRequest
  simp only [home, none_, Bool.not_true, Bool.false_eq_true, if_false]

theorem creditRequest_beyond {h : Nat} (holder : holderOf m.src.toNat = some h)
    (beyond : (s.slice p).wants h m = 0 ∨ (s.slice p).crq.any (fun c => c.holder == h) = true) :
    s.creditRequest p m = s.crqDiscard p m := by
  unfold State.creditRequest
  simp only [home, holder, Bool.not_true, Bool.false_eq_true, if_false]
  exact if_pos beyond

/-- The table entry of a request. -/
def State.crqOf (s : State) (p h : Nat) (m : Msg) : Crq :=
  { src := m.src, holder := h, want := (s.slice p).wants h m, age := m.age.toNat, arr := s.time }

theorem creditRequest_joins {h : Nat} (holder : holderOf m.src.toNat = some h) (wants : (s.slice p).wants h m ≠ 0)
    (alone : (s.slice p).crq.any (fun c => c.holder == h) = false) :
    s.creditRequest p m = s.setSlice p { s.slice p with crq := (s.slice p).crq ++ [s.crqOf p h m] } := by
  unfold State.creditRequest
  simp only [home, holder, Bool.not_true, Bool.false_eq_true, if_false]
  refine if_neg ?_
  rw [not_or]
  exact ⟨wants, Bool.eq_false_iff.mp alone⟩

end

/-- A discarded request changes no credit and no request, and is recorded where corrected errors are (R90). -/
theorem crqDiscard_spec (s : State) (p : Nat) (m : Msg) (log : s.ras.corrLog = true) :
    Recorded s (s.crqDiscard p m) 0 0x11 p ∧ ((s.crqDiscard p m).slice p).g = (s.slice p).g
    ∧ ((s.crqDiscard p m).slice p).crq = (s.slice p).crq ∧ SentNothing s (s.crqDiscard p m) p := by
  have counted := onlyCounts_count s p .creditDiscard
  have same : (s.crqDiscard p m).slice p = (s.count p .creditDiscard).slice p := slice_sliceErr ..
  refine ⟨(recorded_count ..).mp (recorded_sliceErr _ p 0 0x11 _ _ _ _ _ (.inr ?_)), ?_⟩
  · rw [ras_count]
    exact log
  · rw [SentNothing, same]
    exact ⟨counted.g, counted.crq, counted.sentNothing⟩

/-! The end of an FCLK with one waiting request (R91) -/

/-- A step of a fold leaves `Q` standing or reaches `D`, which then stays; the step on `b` reaches it. -/
theorem foldl_attains {α : Type} (Q D : State → Prop) {f : State → α → State} (waits : ∀ s a, Q s → Q (f s a) ∨ D (f s a))
    (stays : ∀ s a, D s → D (f s a)) {b : α} (hit : ∀ s, Q s → D (f s b)) {l : List α} (hb : b ∈ l) {s : State} (start : Q s) :
    D (l.foldl f s) := by
  induction l generalizing s with
  | nil => cases hb
  | cons a l ih =>
    rw [List.foldl_cons]
    rcases List.mem_cons.mp hb with rfl | later
    · exact foldl_inv D f stays l _ (hit s start)
    · rcases waits s a start with still | reached
      · exact ih later still
      · exact foldl_inv D f stays l _ reached

theorem exists_of_get_ne {α : Type} (d : Nat → α) {m : NMap α} {k : Nat} (h : NMap.get d m k ≠ d k) :
    ∃ v, (k, v) ∈ m ∧ NMap.get d m k = v := by
  induction m with
  | nil => exact absurd rfl h
  | cons e m ih =>
    obtain ⟨j, v⟩ := e
    by_cases same : j = k
    · subst same
      exact ⟨v, List.mem_cons_self, if_pos rfl⟩
    · have later : NMap.get d ((j, v) :: m) k = NMap.get d m k := if_neg same
      rw [later] at h ⊢
      obtain ⟨w, mem, got⟩ := ih h
      exact ⟨w, List.mem_cons_of_mem _ mem, got⟩

section
variable {s : State} {p : Nat} {c : Crq} (only : (s.slice p).crq = [c])
include only

theorem grants_of_one : s.grants p = s.grantOne p := by
  simp only [State.grants, only, List.length_singleton]
  rfl

theorem grantOne_of_empty_pool (empty : (s.slice p).sharedFree = 0) : s.grantOne p = s := by
  simp [State.grantOne, only, crqFirst, empty]

/-- The credits a request is granted. -/
def Slice.grants (x : Slice) (c : Crq) : Nat := min c.want x.sharedFree

/-- `CreditGrant` for request `c` (R90). -/
def Slice.grantMsg (x : Slice) (c : Crq) : Msg :=
  { mkMsg 0x2E 1023 c.src with home := x.lslice, aux := BitVec.ofNat 8 (x.grants c) }

/-- The slice with the grant to its only request made (R91). -/
def Slice.granted (x : Slice) (c : Crq) : Slice :=
  { x with crq := [], g := x.g.set zeroNat c.holder (x.held c.holder + x.grants c) }

theorem grantOne_of_free_credit (free : 0 < (s.slice p).sharedFree) :
    s.grantOne p = (s.setSlice p ((s.slice p).granted c)).emit p ((s.slice p).grantMsg c) := by
  have first : crqFirst s.time (s.slice p).brkUs.toNat [c] = some c := rfl
  have gone : [c].filter (fun d => d.holder != c.holder) = [] := by simp
  simp only [State.grantOne, only, first, gone, Nat.ne_of_gt free, if_false]
  rfl

/-- A request that finds a free credit is granted, and leaves the table. -/
theorem creditCycle_grants (free : 0 < (s.slice p).sharedFree) : ((s.creditCycle p).slice p).crq = []
    ∧ ((s.creditCycle p).slice p).g = ((s.slice p).granted c).g ∧ Sent s (s.creditCycle p) p ((s.slice p).grantMsg c) := by
  have set : (s.setSlice p ((s.slice p).granted c)).slice p = (s.slice p).granted c := by rw [slice_setSlice, if_pos rfl]
  have quiet : SentNothing s (s.setSlice p ((s.slice p).granted c)) p := by
    rw [SentNothing, set]
    exact ⟨rfl, rfl⟩
  have granted := grantOne_of_free_credit only free
  have after : (s.grantOne p).slice p = { (s.slice p).granted c with
      stop := ((s.grantOne p).slice p).stop, local_ := ((s.grantOne p).slice p).local_ } := by
    rw [granted, slice_emit, set]
  have none_ : ((s.grantOne p).slice p).crq = [] := by rw [after]; rfl
  have sent : Sent s (s.grantOne p) p ((s.slice p).grantMsg c) := by
    rw [granted]
    exact Sent.from_before ⟨rfl, rfl⟩ quiet
  have cycle : (s.creditCycle p).slice p = (s.grantOne p).slice p := by
    simp only [State.creditCycle, grants_of_one only, none_, List.filter_nil, List.foldl_nil, slice_modSlice, if_true,
      List.map_nil]
    rw [← none_]
  rw [Sent, cycle, none_]
  refine ⟨rfl, ?_, sent⟩
  rw [after]

omit only in
/-- The requests that have just come to slice `p` are counted as waiting (R90 step 5). -/
theorem onlyCounts_late (s : State) (p : Nat) :
    s.OnlyCounts p (((s.slice p).crq.filter (·.fresh)).foldl (fun s _ => s.count p .crqWait) s) :=
  foldl_inv (s.OnlyCounts p) _ (fun u _ h => h.trans (onlyCounts_count u p .crqWait)) _ _ (State.OnlyCounts.refl p s)

/-- A request that finds no free credit waits on, and is counted where it has just come. -/
theorem creditCycle_refuses (empty : (s.slice p).sharedFree = 0) :
    ((s.creditCycle p).slice p).crq = [{ c with fresh := false }]
    ∧ ((s.creditCycle p).slice p).g = (s.slice p).g ∧ SentNothing s (s.creditCycle p) p := by
  have late := onlyCounts_late s p
  rw [SentNothing, State.creditCycle, grants_of_one only, grantOne_of_empty_pool only empty]
  rw [slice_modSlice, if_pos rfl]
  refine ⟨?_, late.g, late.sentNothing⟩
  rw [late.crq, only]
  rfl

end

theorem sharedFree_congr {x y : Slice} (h : y.g = x.g) : y.sharedFree = x.sharedFree := by
  simp only [Slice.sharedFree, h]

/-- A slice whose table holds a request is one of the state's. -/
theorem mem_slices_of_crq {s : State} {p : Nat} {c : Crq} (only : (s.slice p).crq = [c]) :
    ∃ x, (p, x) ∈ s.slices ∧ x.crq = [c] := by
  have differs : s.slices.get Slice.reset p ≠ Slice.reset p := fun same => by
    have reset : (s.slice p).crq = [] := congrArg Slice.crq same
    rw [only] at reset
    cases reset
  obtain ⟨x, mem, got⟩ := exists_of_get_ne Slice.reset differs
  exact ⟨x, mem, (congrArg Slice.crq got).symm.trans only⟩

theorem SentNothing.of_slice_eq {s t : State} {p : Nat} (h : t.slice p = s.slice p) : SentNothing s t p :=
  sentNothing_of_slice (by rw [h]) (by rw [h])

/-- What the credit cycle of a slice with one waiting request makes of the slice, and another cycle keeps, stands after
the cycles of all slices. -/
theorem creditCycles_of_one {s : State} {p : Nat} {c : Crq} (only : (s.slice p).crq = [c]) {D : State → Prop}
    (congr : ∀ {u v : State}, v.slice p = u.slice p → D u → D v) (hit : ∀ u : State, u.slice p = s.slice p → D (u.creditCycle p))
    (again : ∀ u, D u → D (u.creditCycle p)) : D s.creditCycles := by
  obtain ⟨x, mem, waits⟩ := mem_slices_of_crq only
  refine foldl_attains (fun u => u.slice p = s.slice p) D (fun u e same => ?_) (fun u e done => ?_) (b := (p, x))
    (fun u same => ?_) mem rfl
  · split
    · exact .inl same
    · by_cases own : e.1 = p
      · rw [own]
        exact .inr (hit u same)
      · exact .inl ((slice_creditCycle_ne u own).trans same)
  · split
    · exact done
    · by_cases own : e.1 = p
      · rw [own]
        exact again u done
      · exact congr (slice_creditCycle_ne u own) done
  · have nonempty : x.crq.isEmpty = false := by rw [waits]; rfl
    rw [if_neg (Bool.eq_false_iff.mp nonempty)]
    exact hit u same

section
variable {s : State} {p : Nat} {c : Crq} (only : (s.slice p).crq = [c])
include only

theorem creditCycles_grants (free : 0 < (s.slice p).sharedFree) : (s.creditCycles.slice p).crq = []
    ∧ (s.creditCycles.slice p).g = ((s.slice p).granted c).g ∧ Sent s s.creditCycles p ((s.slice p).grantMsg c) := by
  refine creditCycles_of_one only (D := fun u => (u.slice p).crq = [] ∧ (u.slice p).g = ((s.slice p).granted c).g
    ∧ Sent s u p ((s.slice p).grantMsg c)) (fun same done => ?_) (fun u same => ?_) fun u done => ?_
  · rw [Sent, same]
    exact done
  · obtain ⟨crq, g, sent⟩ := creditCycle_grants (s := u) (p := p) (c := c) (by rw [same]; exact only) (by rw [same]; exact free)
    rw [same] at g sent
    exact ⟨crq, g, sent.from_before (.of_slice_eq same)⟩
  · rw [Sent, slice_creditCycle_idle u p done.1]
    exact done

theorem creditCycles_refuses (empty : (s.slice p).sharedFree = 0) : (s.creditCycles.slice p).crq = [{ c with fresh := false }]
    ∧ (s.creditCycles.slice p).g = (s.slice p).g ∧ SentNothing s s.creditCycles p := by
  refine creditCycles_of_one only (D := fun u => (u.slice p).crq = [{ c with fresh := false }] ∧ (u.slice p).g = (s.slice p).g
    ∧ SentNothing s u p) (fun same done => ?_) (fun u same => ?_) fun u done => ?_
  · rw [SentNothing, same]
    exact done
  · obtain ⟨crq, g, sent⟩ := creditCycle_refuses (s := u) (p := p) (c := c) (by rw [same]; exact only) (by rw [same]; exact empty)
    exact ⟨crq, by rw [g, same], (SentNothing.of_slice_eq same).trans sent⟩
  · obtain ⟨crq, g, sent⟩ := done
    obtain ⟨crq', g', sent'⟩ := creditCycle_refuses (s := u) crq ((sharedFree_congr g).trans empty)
    exact ⟨crq', g'.trans g, sent.trans sent'⟩

end

theorem slice_idleCycle_of_running {s : State} (runs : s.fclkRuns = true) (p : Nat) : s.idleCycle.slice p = s.creditCycles.slice p := by
  rw [idleCycle_of_running s runs]
  exact slice_pmcTick s.creditCycles p

/-! The row CREDIT_REQUEST (R25, R109) -/

theorem homeMatches_congr {x y : Slice} (h : y.lslice = x.lslice) (m : Msg) (named : Bool) :
    homeMatches y m named = homeMatches x m named := by
  simp only [homeMatches, h]

theorem wants_congr {x y : Slice} (h : y.g = x.g) (n : Nat) (m : Msg) : y.wants n m = x.wants n m := by
  simp only [Slice.wants, Slice.held, h]

section
variable {s : State} {p : Fin 132} {m : Msg} (next : (s.slice p).mayTake p (asOpc m 0x2D) = true)
include next

theorem creditRequest_row_elsewhere (home : homeMatches (s.slice p) m false = false) :
    exec (.creditRequest p m) s = .next ((s.takeMsg p (asOpc m 0x2D)).homeMismatch p (asOpc m 0x2D)) := by
  have home' : homeMatches ((s.takeMsg p (asOpc m 0x2D)).slice p) (asOpc m 0x2D) false = false :=
    (homeMatches_takeMsg ..).trans home
  rw [exec_creditRequest, taking_of_next next, if_neg (Bool.eq_false_iff.mp home'), creditRequest_elsewhere home']

/-- The state in which a credit request for the slice is decided. -/
def State.crqTaken (s : State) (p : Nat) (q : Msg) : State := (s.takeMsg p q).noteTaken p q

theorem creditRequest_row_here (home : homeMatches (s.slice p) m false = true) :
    exec (.creditRequest p m) s = .next ((s.crqTaken p (asOpc m 0x2D)).creditRequest p (asOpc m 0x2D)) := by
  have home' : homeMatches ((s.takeMsg p (asOpc m 0x2D)).slice p) (asOpc m 0x2D) false = true :=
    (homeMatches_takeMsg ..).trans home
  rw [exec_creditRequest, taking_of_next next, if_pos home']
  rfl

omit next in
/-- What stands when a credit request is decided. -/
theorem crqTaken_spec (s : State) (p : Nat) (q : Msg) : (s.takeMsg p q).OnlyCounts p (s.crqTaken p q)
    ∧ ((s.crqTaken p q).slice p).lslice = (s.slice p).lslice ∧ ((s.crqTaken p q).slice p).g = (s.slice p).g
    ∧ ((s.crqTaken p q).slice p).crq = (s.slice p).crq := by
  have taken := onlyCounts_noteTaken (s.takeMsg p q) p q
  exact ⟨taken, taken.lslice.trans (lslice_takeMsg ..), taken.g.trans (g_takeMsg ..), taken.crq.trans (crq_takeMsg ..)⟩

theorem creditRequest_discarded (home : homeMatches (s.slice p) m false = true) (log : s.ras.corrLog = true)
    (refused : holderOf m.src.toNat = none ∨ (∃ h, holderOf m.src.toNat = some h
      ∧ (8 - poolSize h - (s.slice p).held h = 0 ∨ (s.slice p).crq.any (fun c => c.holder == h) = true))) :
    Ends (.creditRequest p m) s fun t => Recorded s t 0 0x11 p ∧ (t.slice p).g = (s.slice p).g
      ∧ (t.slice p).crq = (s.slice p).crq ∧ SentNothing (s.takeMsg p (asOpc m 0x2D)) t p := by
  obtain ⟨taken, lslice, g, crq⟩ := crqTaken_spec s p (asOpc m 0x2D)
  have row := creditRequest_row_here next home
  generalize s.crqTaken p (asOpc m 0x2D) = u at taken lslice g crq row
  have home' : homeMatches (u.slice p) (asOpc m 0x2D) false = true := (homeMatches_congr lslice ..).trans home
  have discarded : u.creditRequest p (asOpc m 0x2D) = u.crqDiscard p (asOpc m 0x2D) := by
    obtain none_ | ⟨h, holder, beyond⟩ := refused
    · exact creditRequest_of_stranger home' none_
    · refine creditRequest_beyond home' holder (beyond.imp (fun none_ => ?_) fun waits => ?_)
      · rw [wants_congr g, Slice.wants, none_, Nat.min_zero]
      · rw [crq]
        exact waits
  obtain ⟨record, g', crq', sent⟩ := crqDiscard_spec u p (asOpc m 0x2D) (by rw [taken.ras]; exact log)
  rw [discarded] at row
  exact ⟨_, row, record.from_before taken.ras taken.time, g'.trans g, crq'.trans crq, taken.sentNothing.trans sent⟩

theorem creditRequest_joined {h n : Nat} (home : homeMatches (s.slice p) m false = true) (holder : holderOf m.src.toNat = some h)
    (alone : ∀ c ∈ (s.slice p).crq, c.holder ≠ h) (asks : n = (s.slice p).wants h m) (some_ : n ≠ 0) :
    Ends (.creditRequest p m) s fun t =>
      (∃ c, (t.slice p).crq = (s.slice p).crq ++ [c] ∧ c.holder = h ∧ c.want = n ∧ c.src = m.src ∧ c.arr = s.time)
      ∧ (t.slice p).g = (s.slice p).g ∧ SentNothing (s.takeMsg p (asOpc m 0x2D)) t p := by
  obtain ⟨taken, lslice, g, crq⟩ := crqTaken_spec s p (asOpc m 0x2D)
  have row := creditRequest_row_here next home
  generalize s.crqTaken p (asOpc m 0x2D) = u at taken lslice g crq row
  have home' : homeMatches (u.slice p) (asOpc m 0x2D) false = true := (homeMatches_congr lslice ..).trans home
  have wants : (u.slice p).wants h (asOpc m 0x2D) = n := (wants_congr g h _).trans asks.symm
  rw [creditRequest_joins home' holder (by rw [wants]; exact some_) (by
    rw [crq]
    exact List.any_eq_false.mpr fun c hc => by simp [alone c hc])] at row
  refine ⟨_, row, ?_⟩
  beta_reduce
  rw [SentNothing, slice_setSlice, if_pos rfl]
  exact ⟨⟨u.crqOf p h (asOpc m 0x2D), congrArg (· ++ [u.crqOf p h (asOpc m 0x2D)]) crq, rfl, wants, rfl, taken.time⟩, g,
    taken.sentNothing⟩

end

end Sys2Proof.Machine
end

section
/-! SUPPORT. The steward port relay (R9, R29, R30, R172). -/

namespace Sys2Proof.Machine

open Sys2Proof

theorem exec_stewardRelay (m : Msg) (s : State) : exec (.stewardRelay m) s = execStewardRelay m s := rfl

/-! Operations of the relay -/

/-- Taking a message at a port changes of the port its ejection queues alone. -/
theorem port_portTake (s : State) (n : Nat) (m : Msg) :
    (s.portTake n m).port n = { s.port n with stop := ((s.portTake n m).port n).stop } := by
  unfold State.portTake
  split
  · rw [port_portEvent, port_modPort, if_pos rfl]
  · rfl

theorem stw_sendHome (s : State) (n : Nat) (m : Msg) : (s.sendHome n m).stw = s.stw := by
  have counted_ : (s.modCopy (copyOfPort n) fun x => x.sent m.home.toNat).stw = s.stw := by
    unfold State.modCopy
    split
    · rfl
    · split <;> rfl
  simp only [State.sendHome, State.modStop]
  split
  · split
    · exact counted_
    · rfl
  · split
    · exact counted_
    · rfl

theorem stw_holdBack (s : State) (n : Nat) (m : Msg) : (s.holdBack n m).stw = s.stw :=
  (congrArg (fun x : State => x.stw) (besidesPorts_holdBack s n m) :)

theorem stw_maintServe (s : State) (n : Nat) : (s.maintServe n).stw = s.stw := by
  refine foldl_keeps (fun u : State => u.stw) _ (fun u _ => ?_) _ _
  unfold State.maintServeOne
  split
  · rfl
  · rw [stw_sendHome]
    rfl

theorem maintServe_of_none {s : State} {n : Nat} (h : (s.port n).mntWait = []) : s.maintServe n = s := by
  rw [State.maintServe, h]
  rfl

/-! A message for a home (R9, R30) -/

/-- No credit of the relay is free for message `m` (Table 5.1). -/
def State.relayFull (s : State) (m : Msg) : Bool :=
  if m.cls == 0 then decide (11 ≤ s.portHolds 132 m.home) else decide (maintMost 48 ≤ s.maintUsed 48 m.home.toNat)

/-- The relay has taken message `m`, with an entry for it. -/
def State.relayOpened (s : State) (m : Msg) : State :=
  ((s.portTake 48 m).modStw fun x => { x with
    relays := x.relays ++ [{ src := m.src, txn := m.txn, home := m.home, req := m.cls == 0, since := (s.portTake 48 m).time }] }).portEvent
    48 0x01

theorem stewardRelay_full {m : Msg} {s : State} (home : m.dst = 1023) (full : s.relayFull m = true) :
    exec (.stewardRelay m) s = .next s := by
  rw [exec_stewardRelay, execStewardRelay, if_pos home]
  exact congrArg Host.Outcome.next (if_pos full)

theorem stewardRelay_open {m : Msg} {s : State} (home : m.dst = 1023) (free : s.relayFull m = false) :
    exec (.stewardRelay m) s = .next (if (s.relayOpened m).mustWait 48 m then (s.relayOpened m).holdBack 48 m
      else (s.relayOpened m).sendHome 48 m) := by
  rw [exec_stewardRelay, execStewardRelay, if_pos home]
  exact congrArg Host.Outcome.next (if_neg (Bool.eq_false_iff.mp free))

theorem mustWait_relayOpened (s : State) (m : Msg) : (s.relayOpened m).mustWait 48 m = (s.portTake 48 m).mustWait 48 m := rfl

theorem copy_steward (s : State) : s.copy stewardCopy = s.stwCopy := if_pos rfl

theorem physFor_steward (s : State) (m : Msg) :
    s.physFor 48 m = if m.opc = 0x1B then m.aux.toNat else (s.stwCopy.entry m.home.toNat).phys := by
  rw [State.physFor, show copyOfPort 48 = stewardCopy from rfl, copy_steward]

theorem stwCopy_relayOpened (s : State) (m : Msg) : (s.relayOpened m).stwCopy = s.stwCopy :=
  (congrArg (fun x : State => x.stwCopy) (portTake_eq s 48 m) :)

theorem port_relayOpened (s : State) (m : Msg) : (s.relayOpened m).port 48 = (s.portTake 48 m).port 48 := rfl

theorem relays_relayOpened (s : State) (m : Msg) : (s.relayOpened m).stw.relays = s.stw.relays ++ [{
    src := m.src, txn := m.txn, home := m.home, req := m.cls == 0, since := s.time }] := by
  have stw := stw_portTake s 48 m
  have time := time_portTake s 48 m
  rw [State.relayOpened, time]
  exact congrArg (fun x : Steward => x.relays ++ _) stw

/-- A relayed message goes out for the physical slice that the steward copy names (R29). -/
theorem relayed_sends (s : State) (m : Msg) : ((s.relayOpened m).sendHome 48 m).stw.relays = s.stw.relays ++ [{
      src := m.src, txn := m.txn, home := m.home, req := m.cls == 0, since := s.time }]
    ∧ (((s.relayOpened m).sendHome 48 m).port 48).stop.outbox = (s.port 48).stop.outbox ++ [flitOf m
      (if m.opc = 0x1B then m.aux.toNat else ((s.copy stewardCopy).entry m.home.toNat).phys)]
    ∧ (((s.relayOpened m).sendHome 48 m).port 48).held = (s.port 48).held := by
  have phys : (s.relayOpened m).physFor 48 m
      = if m.opc = 0x1B then m.aux.toNat else ((s.copy stewardCopy).entry m.home.toNat).phys := by
    rw [physFor_steward, stwCopy_relayOpened, copy_steward]
  rw [stw_sendHome, relays_relayOpened, port_sendHome _ _ _ (by decide), phys, port_relayOpened, outbox_portTake, port_portTake]
  exact ⟨rfl, rfl, rfl⟩

/-- A relayed message waits under a hold, last of the port's held messages (R30). -/
theorem relayed_waits (s : State) (m : Msg) : ((s.relayOpened m).holdBack 48 m).stw.relays = s.stw.relays ++ [{
      src := m.src, txn := m.txn, home := m.home, req := m.cls == 0, since := s.time }]
    ∧ (((s.relayOpened m).holdBack 48 m).port 48).held = (s.port 48).held ++ [m]
    ∧ (((s.relayOpened m).holdBack 48 m).port 48).stop.outbox = (s.port 48).stop.outbox := by
  rw [stw_holdBack, relays_relayOpened, port_holdBack, port_relayOpened, outbox_portTake, port_portTake]
  exact ⟨rfl, rfl, rfl⟩

/-! An answer for an engine (R9) -/

/-- The relay has taken answer `m`: one that ends its transaction closes the entry, and a waiting maintenance request goes
out on the credit. -/
def State.relayEnded (s : State) (m : Msg) : State :=
  if m.cret || m.opc == 0x34 then ((s.portTake 48 m).modStw fun x => { x with
    relays := x.relays.filter fun r => !(r.src == m.dst && r.txn == m.txn) }).maintServe 48 else s.portTake 48 m

theorem stewardRelay_answer {m : Msg} {s : State} (node : m.dst ≠ 1023) (engine : isEngine m.dst.toNat = true) :
    exec (.stewardRelay m) s = .next (((s.relayEnded m).portEvent 48 0x01).sendNode 48 m) := by
  rw [exec_stewardRelay, execStewardRelay, if_neg node]
  exact congrArg Host.Outcome.next (if_pos engine)

theorem stewardRelay_other {m : Msg} {s : State} (node : m.dst ≠ 1023) (other : isEngine m.dst.toNat = false) :
    exec (.stewardRelay m) s = .next s := by
  rw [exec_stewardRelay, execStewardRelay, if_neg node, if_neg (Bool.eq_false_iff.mp other)]

theorem relays_relayEnded (s : State) (m : Msg) : (s.relayEnded m).stw.relays = if m.cret = true ∨ m.opc = 0x34 then
    s.stw.relays.filter (fun r => !(r.src == m.dst && r.txn == m.txn)) else s.stw.relays := by
  unfold State.relayEnded
  by_cases ends : m.cret = true ∨ m.opc = 0x34
  · rw [if_pos ends, if_pos (by simpa using ends), stw_maintServe, stw_modStw, stw_portTake]
  · rw [if_neg ends, if_neg (by simpa using ends), stw_portTake]

/-- Where no maintenance request waits, only the entry and the message taken change. -/
theorem relayEnded_of_none {s : State} {m : Msg} (h : (s.port 48).mntWait = []) :
    (s.relayEnded m).besidesRelay = s.besidesRelay
    ∧ ((s.relayEnded m).port 48).stop.outbox = (s.port 48).stop.outbox := by
  have none_ : ((s.portTake 48 m).port 48).mntWait = [] := by
    rw [port_portTake]
    exact h
  have served (f : Steward → Steward) : ((s.portTake 48 m).modStw f).maintServe 48 = (s.portTake 48 m).modStw f :=
    maintServe_of_none none_
  unfold State.relayEnded
  split
  · rw [served, besidesRelay_modStw, besidesRelay_portTake]
    exact ⟨rfl, outbox_portTake s 48 m⟩
  · rw [besidesRelay_portTake]
    exact ⟨rfl, outbox_portTake s 48 m⟩

theorem relayFull_iff {s : State} {m : Msg} : s.relayFull m = true
    ↔ if m.cls = 0 then 11 ≤ s.portHolds 132 m.home else 4 ≤ s.maintUsed 48 m.home.toNat := by
  unfold State.relayFull
  by_cases req : m.cls = 0
  · rw [if_pos req, if_pos (beq_iff_eq.mpr req), decide_eq_true_iff]
  · rw [if_neg req, if_neg (by simpa using req), decide_eq_true_iff]
    rfl

theorem relayFull_eq_false_iff {s : State} {m : Msg} : s.relayFull m = false
    ↔ if m.cls = 0 then s.portHolds 132 m.home < 11 else s.maintUsed 48 m.home.toNat < 4 := by
  rw [← Bool.not_eq_true, relayFull_iff]
  split <;> exact Nat.not_le

theorem besidesRelay_sendNode (s : State) (n : Nat) (m : Msg) : (s.sendNode n m).besidesRelay = s.besidesRelay := rfl

/-- Settles O16: a credit request by the checks it meets, a grant by what the pool holds, and a relayed message by its
direction. -/
theorem creditsAndRelays : Obligations.CreditsAndRelays := by
  refine ⟨fun p m s => ⟨fun waiting => ?_, fun next home => ?_, fun next home log refused => ?_,
    fun h n next home holder alone asks some_ => ?_, fun c idle runs only => ⟨_, step_of_empty_queue s idle, ?_⟩⟩,
    fun m s => ⟨fun home full => ?_, fun node other => ?_, fun home free => ?_, fun node engine => ?_⟩⟩
  · exact (exec_creditRequest p m s).trans (congrArg Host.Outcome.next (taking_of_waiting waiting _))
  · obtain ⟨record, fatal, same⟩ := homeMismatch_spec (s.takeMsg p (asOpc m 0x2D)) p (asOpc m 0x2D)
    refine ⟨_, creditRequest_row_elsewhere next home, record.from_before rfl rfl, fatal, ?_, ?_⟩
    · rw [same, g_takeMsg]
    · rw [same, crq_takeMsg]
  · exact creditRequest_discarded next home log refused
  · exact creditRequest_joined next home holder alone asks some_
  · have cycle := slice_idleCycle_of_running runs p
    rw [Sent, SentNothing, Slice.held, cycle]
    refine ⟨fun free => ?_, creditCycles_refuses only⟩
    obtain ⟨crq, g, sent⟩ := creditCycles_grants only free
    rw [g]
    exact ⟨NMap.get_set_self zeroNat (s.slice p).g c.holder _, crq, sent⟩
  · exact stewardRelay_full home (relayFull_iff.mpr full)
  · exact stewardRelay_other node other
  · have row := stewardRelay_open home (relayFull_eq_false_iff.mpr free)
    rw [mustWait_relayOpened] at row
    refine ⟨_, row, ?_⟩
    cases waits : (s.portTake 48 m).mustWait 48 m with
    | false =>
      obtain ⟨relays, outbox, held⟩ := relayed_sends s m
      exact ⟨relays, fun _ => ⟨outbox, held⟩, fun waits => absurd waits Bool.false_ne_true⟩
    | true =>
      obtain ⟨relays, held, outbox⟩ := relayed_waits s m
      exact ⟨relays, fun free => absurd free.symm Bool.false_ne_true, fun _ => ⟨held, outbox⟩⟩
  · refine ⟨_, stewardRelay_answer node engine, relays_relayEnded s m, fun none_ => ?_⟩
    obtain ⟨frame, outbox⟩ := relayEnded_of_none (m := m) none_
    refine ⟨?_, eq_of_besidesRelay_eq ((besidesRelay_sendNode ..).trans frame)⟩
    rw [outbox_sendNode, port_portEvent, outbox]

end Sys2Proof.Machine
end

section
/-! SUPPORT. Operations of a chainring: reversal, placing and the return of replayed flits (R37, R39, R43, R48 to R50). -/

namespace Sys2Proof.Machine

open Sys2Proof

/-! What reversal changes of a ring (R48, R49) -/

/-- A ring without the flits that stand at its stops. -/
def Ring.besidesFlits (x : Ring) : Ring := { x with transit := [], back := [] }

section
variable (x : Ring) (r pos c : Nat) (dec : Bool)

@[simp] theorem besidesFlits_setBuf (l : List Flit) : (x.setBuf pos c dec l).besidesFlits = x.besidesFlits := rfl

@[simp] theorem besidesFlits_turnOne : (x.turnOne r pos c dec).besidesFlits = x.besidesFlits := by
  unfold Ring.turnOne
  dsimp only
  split
  · rfl
  · split
    · rfl
    · split <;> rfl
    · rfl

/-- A fold whose steps keep what `π` reads of a ring keeps it. -/
theorem ring_foldl_keeps {α β : Type} (π : Ring → β) {f : Ring → α → Ring} (step : ∀ x a, π (f x a) = π x)
    (l : List α) (x : Ring) : π (l.foldl f x) = π x := by
  induction l generalizing x with
  | nil => rfl
  | cons a l ih => rw [List.foldl_cons, ih, step]

@[simp] theorem besidesFlits_settle : (x.settle r pos c).besidesFlits = x.besidesFlits :=
  ring_foldl_keeps Ring.besidesFlits (fun x _ => by rw [besidesFlits_turnOne, besidesFlits_turnOne]) _ x

@[simp] theorem besidesFlits_place (f : Flit) : (x.place r pos c dec f).besidesFlits = x.besidesFlits := by
  rw [Ring.place, besidesFlits_settle, besidesFlits_setBuf]

theorem buf_setBuf (l : List Flit) : (x.setBuf pos c dec l).buf pos c dec = l := NMap.get_set_self ..

/-- A ring with every segment in service and no flit given back: nothing reverses on it (R48). -/
def Ring.whole (x : Ring) : Prop := x.segOut = 0 ∧ x.back = []

variable {x}

theorem Ring.whole.setBuf (h : x.whole) (l : List Flit) : (x.setBuf pos c dec l).whole := h

theorem turnOne_of_whole (h : x.whole) : x.turnOne r pos c dec = x := by
  obtain ⟨segs, none_back⟩ := h
  have stays (f : Flit) : x.mustTurn r pos dec f = false := by simp [Ring.mustTurn, Ring.out, segs]
  simp only [Ring.turnOne, none_back, NMap.get_nil, stays]
  split
  · rfl
  · split <;> simp_all [noFlits]

theorem settle_of_whole (h : x.whole) : x.settle r pos c = x :=
  List.foldl_fixed' (fun _ => by rw [turnOne_of_whole r pos c false h, turnOne_of_whole r pos c true h]) _

/-- On such a ring a flit that is placed joins the end of its transit buffer (R37). -/
theorem buf_place_of_whole (h : x.whole) (f : Flit) :
    (x.place r pos c dec f).buf pos c dec = x.buf pos c dec ++ [f] := by
  rw [Ring.place, settle_of_whole r pos c (h.setBuf ..), buf_setBuf]

end

/-! What the replay buffers give back (R43, R48, R50) -/

/-- A ring without flits and links. -/
def Ring.besidesLinks (x : Ring) : Ring := { x with transit := [], back := [], links := [] }

theorem besidesLinks_of_besidesFlits {x y : Ring} (h : y.besidesFlits = x.besidesFlits) : y.besidesLinks = x.besidesLinks :=
  (congrArg (fun z : Ring => { z with links := [] }) h :)

/-- What is read of a ring without flits and links is the same in rings that differ in these alone. -/
theorem eq_of_besidesLinks {β : Type} (π : Ring → β) (blind : ∀ x : Ring, π x.besidesLinks = π x) {x y : Ring}
    (h : y.besidesLinks = x.besidesLinks) : π y = π x := by
  rw [← blind y, h, blind]

theorem besidesLinks_giveBack (x : Ring) (key : Nat) : (x.giveBack key).besidesLinks = x.besidesLinks := by
  refine (ring_foldl_keeps Ring.besidesLinks (fun y e => ?_) _ _).trans ?_ <;> rfl

theorem besidesLinks_giveAllBack (x : Ring) : x.giveAllBack.besidesLinks = x.besidesLinks :=
  ring_foldl_keeps Ring.besidesLinks besidesLinks_giveBack _ x

end Sys2Proof.Machine
end

section
/-! SUPPORT. Changes of one stop or one ring of the state, and injection (R38, R39, R42, R50). -/

namespace Sys2Proof.Machine

open Sys2Proof

section
variable (s : State)

@[simp] theorem ring_modStop (st : Stop) (f : StopSt → StopSt) (r : Nat) : (s.modStop st f).ring r = s.ring r := by
  cases st <;> rfl

@[simp] theorem stop_modStop (st : Stop) (f : StopSt → StopSt) : (s.modStop st f).stop st = f (s.stop st) := by
  cases st <;> simp [State.stop, State.modStop]

@[simp] theorem stop_modRing (st : Stop) (r : Nat) (f : Ring → Ring) : (s.modRing r f).stop st = s.stop st := by
  cases st <;> rfl

@[simp] theorem stop_ringEvent (st : Stop) (r code q amount : Nat) : (s.ringEvent r code q amount).stop st = s.stop st := by
  cases st <;> rfl

/-- The state without its stops, rings and performance counters. -/
def State.besidesFabric (s : State) : State := { s with slices := [], ports := [], rings := [], pmc := {} }

theorem eq_of_besidesFabric_eq {s t : State} (h : t.besidesFabric = s.besidesFabric) :
    { t with slices := s.slices, ports := s.ports, rings := s.rings, pmc := s.pmc } = s :=
  (congrArg (fun x : State => { x with slices := s.slices, ports := s.ports, rings := s.rings, pmc := s.pmc }) h :)

@[simp] theorem besidesFabric_modStop (st : Stop) (f : StopSt → StopSt) : (s.modStop st f).besidesFabric = s.besidesFabric := by
  cases st <;> rfl

@[simp] theorem besidesFabric_modRing (r : Nat) (f : Ring → Ring) : (s.modRing r f).besidesFabric = s.besidesFabric := rfl

@[simp] theorem besidesFabric_ringEvent (r code q amount : Nat) :
    (s.ringEvent r code q amount).besidesFabric = s.besidesFabric := rfl

end

/-! FLIT_INJECT -/

theorem exec_flitInject (st : Stop) (c : MClass) (s : State) :
    exec (.flitInject st c) s = .next (if s.fclkRuns then s.inject st (classCode c) else s) := rfl

/-- A flit as it enters ring `r` at a stop in direction `dec` (R42). -/
def Flit.entering (f : Flit) (r : Nat) (st : Stop) (dec : Bool) : Flit :=
  { f with orig := BitVec.ofNat 7 (stopPos r st), dir1 := dec, rev := false, revpos := 0, dropped := false }

/-- The state in which a flit has left the outbox of its stop for ring `r` (R39, R42). -/
def State.injected (s : State) (st : Stop) (c : Nat) (f : Flit) (r : Nat) (dec used : Bool) : State :=
  ((s.modStop st fun x => { x with outbox := dropFlit f x.outbox, rr := if used then (r + 1) % 6 else x.rr }).modRing r
    fun x => x.place r (stopPos r st) c dec (f.entering r st dec)).ringEvent r 0x02 c

section
variable {s : State} {st : Stop} {c : Nat} {f : Flit}

theorem inject_of_noFlit (none_waits : s.nextFlit st c = none) : s.inject st c = s := by
  simp only [State.inject, none_waits]

theorem inject_of_noRing (next : s.nextFlit st c = some f) (none_leads : s.derail st f c = none) : s.inject st c = s := by
  simp only [State.inject, next, none_leads]

/-- Where the derailleur has chosen a ring, injection depends on the room there and on flits that move over (R39, R50). -/
theorem inject_of_derail {r : Nat} {dec used : Bool} (next : s.nextFlit st c = some f)
    (chosen : s.derail st f c = some (r, dec, used)) : s.inject st c =
      if (s.ring r).freeSlots (stopPos r st) c dec < 2 then s.ringEvent r 0x04 c
      else if (s.ring (partner r)).movesAt (stopPos r st) c dec then s else s.injected st c f r dec used := by
  simp only [State.inject, next, chosen]
  rfl

theorem ring_injected (r : Nat) (dec used : Bool) : (s.injected st c f r dec used).ring r
    = (s.ring r).place r (stopPos r st) c dec (f.entering r st dec) := by
  simp [State.injected]

theorem outbox_injected (r : Nat) (dec used : Bool) :
    ((s.injected st c f r dec used).stop st).outbox = dropFlit f (s.stop st).outbox := by
  simp [State.injected]

theorem besidesFabric_injected (r : Nat) (dec used : Bool) :
    (s.injected st c f r dec used).besidesFabric = s.besidesFabric := by
  simp [State.injected]

end

/-- Settles O5: injection does what `inject_of_derail` lists, and on a ring without segments out of service the flit it
places stays last in its buffer. -/
theorem flitInjectKeepsTwoSlots : Obligations.FlitInjectKeepsTwoSlots := by
  unfold Obligations.FlitInjectKeepsTwoSlots
  intro st c s
  refine ⟨?_, fun f next none_leads => ?_, fun f r dec used runs next chosen => ?_⟩
  · rintro (stopped | none_waits)
    · rw [Idles, exec_flitInject, stopped, if_neg Bool.false_ne_true]
    · rw [Idles, exec_flitInject, inject_of_noFlit none_waits, ite_self]
  · rw [Idles, exec_flitInject, inject_of_noRing next none_leads, ite_self]
  have row := exec_flitInject st c s
  rw [if_pos runs, inject_of_derail next chosen] at row
  refine ⟨fun full => ?_, fun room moves => ?_, fun room still => ?_⟩
  · rw [if_pos full] at row
    exact ends_next row rfl
  · rwa [if_neg (Nat.not_lt.mpr room), if_pos moves] at row
  · rw [if_neg (Nat.not_lt.mpr room), if_neg (Bool.eq_false_iff.mp still)] at row
    refine ends_next row ⟨outbox_injected .., ring_injected .., fun segs none_back => ?_,
      eq_of_besidesFabric_eq (besidesFabric_injected ..)⟩
    rw [ring_injected, buf_place_of_whole _ _ _ _ ⟨segs, none_back⟩]
    rfl

end Sys2Proof.Machine
end

section
/-! SUPPORT. Consolidation's wake, shifting a ring off and the loss of a segment (R47 to R51, R54 to R56). -/

namespace Sys2Proof.Machine

open Sys2Proof

/-! Other rings, and the wake of a gated one (R56) -/

theorem partner_ne (r : Nat) : partner r ≠ r := by
  unfold partner
  split <;> omega

/-- The state without its rings, its pairs' windows and power. -/
def State.besidesPairs (s : State) : State := { s with rings := [], crg := {}, pwr := {} }

theorem eq_of_besidesPairs_eq {s t : State} (h : t.besidesPairs = s.besidesPairs) :
    { t with rings := s.rings, crg := s.crg, pwr := s.pwr } = s :=
  (congrArg (fun x : State => { x with rings := s.rings, crg := s.crg, pwr := s.pwr }) h :)

section
variable (s : State) (q : Nat)

@[simp] theorem ring_consRestart (r : Nat) : (s.consRestart q).ring r = s.ring r := rfl

theorem qual_consRestart (j : Nat) :
    (s.consRestart q).crg.qual.get zeroNat j = if q = j then 0 else s.crg.qual.get zeroNat j := by
  simp only [State.consRestart, NMap.get_set]

@[simp] theorem ring_modPwr (f : Pwr → Pwr) (r : Nat) : (s.modPwr f).ring r = s.ring r := rfl

/-- The gated ring of pair `q` has begun to wake. -/
def State.waking (s : State) (q : Nat) : State :=
  ((s.modRing (2 * q + 1) fun x => { x with mode := 3, returning := false }).consRestart q).modPwr fun p =>
    p.onDom (264 + (2 * q + 1))

variable {s q}

theorem consWake_of_gated (gated : (s.ring (2 * q + 1)).mode = 1) : s.consWake q = s.waking q := if_pos gated

theorem consWake_of_running (running : (s.ring (2 * q + 1)).mode ≠ 1) : s.consWake q = s := if_neg running

theorem ring_waking (j : Nat) : (s.waking q).ring j
    = if 2 * q + 1 = j then { s.ring (2 * q + 1) with mode := 3, returning := false } else s.ring j := by
  simp only [State.waking, ring_modPwr, ring_consRestart, ring_modRing]

@[simp] theorem ring_waking_self : (s.waking q).ring (2 * q + 1) = { s.ring (2 * q + 1) with mode := 3, returning := false } := by
  rw [ring_waking, if_pos rfl]

theorem qual_waking (j : Nat) : (s.waking q).crg.qual.get zeroNat j = if q = j then 0 else s.crg.qual.get zeroNat j :=
  qual_consRestart (s.modRing (2 * q + 1) _) q j

theorem not_mem_off_waking : 264 + (2 * q + 1) ∉ (s.waking q).pwr.off := by
  simp [State.waking, State.modPwr, Pwr.onDom]

@[simp] theorem besidesPairs_waking : (s.waking q).besidesPairs = s.besidesPairs := rfl

@[simp] theorem besidesPairs_consWake : (s.consWake q).besidesPairs = s.besidesPairs := by
  unfold State.consWake
  split <;> rfl

/-- A wake changes of a ring its mode, and that it returns. -/
theorem ring_consWake (j : Nat) : ∃ m b, (s.consWake q).ring j = { s.ring j with mode := m, returning := b } := by
  by_cases gated : (s.ring (2 * q + 1)).mode = 1
  · rw [consWake_of_gated gated, ring_waking]
    split
    · next same => subst same; exact ⟨_, _, rfl⟩
    · exact ⟨_, _, rfl⟩
  · rw [consWake_of_running gated]
    exact ⟨_, _, rfl⟩

theorem ring_consWake_ne {j : Nat} (other : 2 * q + 1 ≠ j) : (s.consWake q).ring j = s.ring j := by
  by_cases gated : (s.ring (2 * q + 1)).mode = 1
  · rw [consWake_of_gated gated, ring_waking, if_neg other]
  · rw [consWake_of_running gated]

/-- A count of windows at zero stays there. -/
theorem qual_consWake (h : s.crg.qual.get zeroNat q = 0) : (s.consWake q).crg.qual.get zeroNat q = 0 := by
  by_cases gated : (s.ring (2 * q + 1)).mode = 1
  · rw [consWake_of_gated gated, qual_waking, if_pos rfl]
  · rwa [consWake_of_running gated]

end

/-! Shifting off (R50, R51) -/

/-- A ring that begins to shift off, the bound of the shift given (R50). -/
def Ring.leaving (x : Ring) (cause : ShiftCause) (bound : Nat) : Ring := { x.giveAllBack with
  shifting := some cause, draining := true, moving := false, segLosing := [], shiftBy := bound }

/-- The tick by which a shift of ring `r` that begins now must be complete (R50, log 86). -/
def State.shiftBound (s : State) (r : Nat) : Nat :=
  s.time + 4 + (if (s.ring (partner r)).mode = 1 ∨ (s.ring (partner r)).mode = 3 then 5 else 0)

/-- The state in which the partner of ring `r` takes injections again and ring `r` begins to shift off (R50, log 86). -/
def State.shiftBegun (s : State) (r : Nat) (cause : ShiftCause) : State :=
  ((if (s.ring (partner r)).shifting.isNone then
      s.modRing (partner r) fun y => { y with draining := false, moving := false } else s).consRestart (r / 2)).modRing r
    fun x => x.leaving cause (s.shiftBound r)

section
variable {s : State} {r : Nat} {cause : ShiftCause}

theorem ring_shiftBegun : (s.shiftBegun r cause).ring r = (s.ring r).leaving cause (s.shiftBound r) := by
  have kept : ((if (s.ring (partner r)).shifting.isNone then
      s.modRing (partner r) fun y => { y with draining := false, moving := false } else s).consRestart (r / 2)).ring r
        = s.ring r := by
    rw [ring_consRestart]
    split
    · rw [ring_modRing, if_neg (partner_ne r)]
    · rfl
  rw [State.shiftBegun, ring_modRing, if_pos rfl, kept]

/-- A shift begins unless the ring is off or shifts already; a gated partner is woken (R50, log 86). -/
theorem shiftOff_begins (no_fault : cause ≠ .chainFault) (on : (s.ring r).mode ≠ 2) (still : (s.ring r).shifting = none)
    (paired : s.partnerGone r = false) : s.shiftOff r cause = if (s.ring (partner r)).mode = 1 then
      (s.shiftBegun r cause).consWake (r / 2) else s.shiftBegun r cause := by
  simp only [State.shiftOff, no_fault, on, still, paired, Option.isSome_none, Bool.false_eq_true, or_self, and_false,
    if_false]
  cases shifts : (s.ring (partner r)).shifting <;> simp only [State.shiftBegun, shifts] <;> rfl

/-- What a shift that begins makes of its ring. -/
theorem ring_shiftOff (no_fault : cause ≠ .chainFault) (on : (s.ring r).mode ≠ 2) (still : (s.ring r).shifting = none)
    (paired : s.partnerGone r = false) : ∃ m b,
      (s.shiftOff r cause).ring r = { (s.ring r).leaving cause (s.shiftBound r) with mode := m, returning := b } := by
  rw [shiftOff_begins no_fault on still paired, ← ring_shiftBegun]
  split
  · exact ring_consWake r
  · exact ⟨_, _, rfl⟩

end

/-! A segment out of service (R47 to R49) -/

theorem exec_segmentOutOfService (r : Fin 6) (k : Fin 94) (s : State) : exec (.segmentOutOfService r k) s
    = .next (if (s.ring r).out k || (s.ring r).losing k || (s.ring r).shifting.isSome || !(s.ring r).failed k then s
        else s.segLose r k) := rfl

theorem exec_segmentOutDone (r : Fin 6) (k : Fin 94) (s : State) : exec (.segmentOutDone r k) s = execSegmentOutDone r k s := rfl

theorem exec_segmentOutTimeout (r : Fin 6) (k : Fin 94) (s : State) : exec (.segmentOutTimeout r k) s
    = .next (if (s.ring r).segLosing.any (fun e => e.1 == k.val && decide (e.2 + 2 ≤ s.time)) then
        s.shiftOff r .controllerTimeout else s) := rfl

theorem failed_iff (x : Ring) (k : Nat) : x.failed k = true ↔ 8 ≤ (x.link k .inc).tx.fails ∨ 8 ≤ (x.link k .dec).tx.fails := by
  simp [Ring.failed]

/-- The segment noted, before a gated partner is woken (R48, R54). -/
def State.segNoted (s : State) (r k : Nat) : State :=
  (s.modRing r fun x => { x with segLosing := x.segLosing ++ [(k, s.time)] }).consRestart (r / 2)

section
variable {s : State} {r k : Nat}

theorem segLose_eq : s.segLose r k = if r % 2 = 0 then (s.segNoted r k).consWake (r / 2) else s.segNoted r k := rfl

theorem ring_segNoted (j : Nat) : (s.segNoted r k).ring j
    = if r = j then { s.ring r with segLosing := (s.ring r).segLosing ++ [(k, s.time)] } else s.ring j := by
  simp only [State.segNoted, ring_consRestart, ring_modRing]

theorem qual_segNoted : (s.segNoted r k).crg.qual.get zeroNat (r / 2) = 0 := by
  rw [State.segNoted, qual_consRestart, if_pos rfl]

/-- Noting a segment changes of its ring the list of those noted, and nothing but rings, windows and power. -/
theorem segLose_spec : (s.segLose r k).ring r = { s.ring r with segLosing := (s.ring r).segLosing ++ [(k, s.time)] }
    ∧ (s.segLose r k).crg.qual.get zeroNat (r / 2) = 0 ∧ (s.segLose r k).besidesPairs = s.besidesPairs := by
  have noted : (s.segNoted r k).ring r = { s.ring r with segLosing := (s.ring r).segLosing ++ [(k, s.time)] } := by
    rw [ring_segNoted, if_pos rfl]
  rw [segLose_eq]
  split
  · rw [ring_consWake_ne (by omega)]
    exact ⟨noted, qual_consWake qual_segNoted, besidesPairs_consWake⟩
  · exact ⟨noted, qual_segNoted, rfl⟩

/-- The gated partner of an even ring that loses a segment wakes (R56). -/
theorem segLose_wakes (even : r % 2 = 0) (gated : (s.ring (partner r)).mode = 1) :
    ((s.segLose r k).ring (partner r)).mode = 3 := by
  have odd : partner r = 2 * (r / 2) + 1 := by
    rw [partner, if_pos even]
    omega
  rw [odd] at gated ⊢
  have still_gated : ((s.segNoted r k).ring (2 * (r / 2) + 1)).mode = 1 := by rwa [ring_segNoted, if_neg (by omega)]
  rw [segLose_eq, if_pos even, consWake_of_gated still_gated, ring_waking_self]

/-- A segment that has left service is out and no longer noted; nothing else changes of the ring but flits and links. -/
theorem besidesLinks_segGone (x : Ring) : (x.segGone r k).besidesLinks = { x with
    segLosing := x.segLosing.filter (fun e => e.1 != k), segOut := x.segOut ||| BitVec.ofNat 94 (2 ^ k) }.besidesLinks := by
  have back : ((x.giveBack (lKey k .inc)).giveBack (lKey k .dec)).besidesLinks = x.besidesLinks := by
    rw [besidesLinks_giveBack, besidesLinks_giveBack]
  refine (besidesLinks_of_besidesFlits (ring_foldl_keeps Ring.besidesFlits (fun y pos =>
    ring_foldl_keeps Ring.besidesFlits (fun z c => besidesFlits_settle z r pos c) _ y) _ _)).trans ?_
  exact (congrArg (fun y : Ring => { y with
    segLosing := y.segLosing.filter (fun e => e.1 != k), segOut := y.segOut ||| BitVec.ofNat 94 (2 ^ k) }) back :)

end

/-- What recording a corrected error does: it makes a record where `CORR_LOG` is set, and nothing else (R364). -/
theorem record_corrected (s : State) (e : ErrRec) (hc : e.cls = 0) (hm : e.code ≠ 0x02) :
    s.record e = { s with ras := (s.record e).ras } ∧ (s.ras.corrLog = false → (s.record e).ras = s.ras)
    ∧ (s.ras.corrLog = true →
      (s.record e).ras.inflight = s.ras.inflight ++ [{ e with time := s.time, eclk := s.eclk }]) := by
  cases logs : s.ras.corrLog with
  | false =>
    rw [record_skip s e hc logs]
    exact ⟨rfl, fun _ => rfl, fun absurd_ => absurd absurd_ Bool.false_ne_true⟩
  | true =>
    have not_fatal : ¬ e.cls = 2 := by simp [hc]
    have made : s.record e = s.modRas fun x =>
        { x with inflight := x.inflight ++ [{ e with time := s.time, eclk := s.eclk }] } := by
      simp only [State.record, logs, not_fatal, hm, Bool.true_eq_false, and_false, if_false]
    rw [made]
    exact ⟨rfl, fun absurd_ => absurd absurd_.symm Bool.false_ne_true, fun _ => rfl⟩

/-- The ring changed by `f`, its corrected error `0x20` recorded and its source k = 1 fired (R48, R364, Table 3.7). -/
def State.noteSegment (s : State) (r : Nat) (f : Ring → Ring) (extra : BitVec 16) : State :=
  ((s.modRing r f).ringErr r 0 0x20 extra).fireRing r 1

theorem noteSegment_spec (s : State) (r : Nat) (f : Ring → Ring) (extra : BitVec 16) :
    { s.noteSegment r f extra with rings := s.rings, ras := s.ras, iag := s.iag } = s
    ∧ (s.noteSegment r f extra).rings = (s.modRing r f).rings
    ∧ (s.noteSegment r f extra).iag = { s.iag with arrived := s.iag.arrived ++ [1256 + 8 * r + 1] }
    ∧ (s.ras.corrLog = false → (s.noteSegment r f extra).ras = s.ras)
    ∧ (s.ras.corrLog = true → ∃ e, (s.noteSegment r f extra).ras.inflight = s.ras.inflight ++ [e] ∧ e.cls = 0 ∧ e.unit = 1
        ∧ e.index = r ∧ e.code = 0x20 ∧ e.extra = extra) := by
  have code : (0x20 : BitVec 8) ≠ 0x02 := by decide
  obtain ⟨frame, silent, logged⟩ := record_corrected (s.modRing r f)
    { cls := 0, unit := 1, index := r, code := 0x20, detail := ((s.modRing r f).ring r).stat.setWidth 64, extra } rfl code
  generalize made : (s.modRing r f).record _ = u at frame silent logged
  have left : s.noteSegment r f extra = u.fireRing r 1 := congrArg (fun x : State => x.fireRing r 1) made
  rw [left]
  refine ⟨?_, (congrArg State.rings frame :), ?_, silent, fun logs => ⟨_, logged logs, rfl, rfl, rfl, rfl, rfl⟩⟩
  · exact (congrArg (fun x : State => { x with rings := s.rings, ras := s.ras, iag := s.iag }) frame :)
  · exact (congrArg (fun x : State => { x.iag with arrived := x.iag.arrived ++ [1256 + 8 * r + 1] }) frame :)

/-- The state in which step 3 of R48 has reached the last stop for segment `k`, a second segment out not yet seen. -/
def State.segLeft (s : State) (r k : Nat) : State := s.noteSegment r (fun x => x.segGone r k) (BitVec.ofNat 16 k)

section
variable {s : State} {r k : Nat}

theorem ring_segLeft (j : Nat) : (s.segLeft r k).ring j = if r = j then (s.ring r).segGone r k else s.ring j := by
  obtain ⟨-, rings, -⟩ := noteSegment_spec s r (fun x => x.segGone r k) (BitVec.ofNat 16 k)
  exact (congrArg (fun m => NMap.get noRing m j) rings).trans (ring_modRing s r j fun x => x.segGone r k)

theorem segOut_segLeft : ((s.segLeft r k).ring r).segOut = (s.ring r).segOut ||| BitVec.ofNat 94 (2 ^ k) := by
  rw [ring_segLeft, if_pos rfl]
  exact (eq_of_besidesLinks Ring.segOut (fun _ => rfl) (besidesLinks_segGone (r := r) (k := k) (s.ring r)) :)

theorem segLosing_segLeft :
    ((s.segLeft r k).ring r).segLosing = (s.ring r).segLosing.filter (fun e => e.1 != k) := by
  rw [ring_segLeft, if_pos rfl]
  exact (eq_of_besidesLinks Ring.segLosing (fun _ => rfl) (besidesLinks_segGone (r := r) (k := k) (s.ring r)) :)

theorem mode_segLeft : ((s.segLeft r k).ring r).mode = (s.ring r).mode := by
  rw [ring_segLeft, if_pos rfl]
  exact (eq_of_besidesLinks Ring.mode (fun _ => rfl) (besidesLinks_segGone (r := r) (k := k) (s.ring r)) :)

theorem shifting_segLeft : ((s.segLeft r k).ring r).shifting = (s.ring r).shifting := by
  rw [ring_segLeft, if_pos rfl]
  exact (eq_of_besidesLinks Ring.shifting (fun _ => rfl) (besidesLinks_segGone (r := r) (k := k) (s.ring r)) :)

theorem partnerGone_segLeft : (s.segLeft r k).partnerGone r = s.partnerGone r := by
  simp only [State.partnerGone, ring_segLeft, (partner_ne r).symm, if_false]

/-- Segments out are counted by the word that names them. -/
theorem segsOut_segLeft : ((s.segLeft r k).ring r).segsOut
    = ({ s.ring r with segOut := (s.ring r).segOut ||| BitVec.ofNat 94 (2 ^ k) } : Ring).segsOut := by
  have out : ((s.segLeft r k).ring r).out
      = ({ s.ring r with segOut := (s.ring r).segOut ||| BitVec.ofNat 94 (2 ^ k) } : Ring).out :=
    funext fun j => congrArg (·.getLsbD j) segOut_segLeft
  rw [Ring.segsOut, Ring.segsOut, out]

end

theorem segmentOutDone_of_noted {r : Fin 6} {k : Fin 94} {s : State} (noted : (s.ring r).losing k = true) :
    exec (.segmentOutDone r k) s = .next (if 2 ≤ ((s.segLeft r k).ring r).segsOut then
      (s.segLeft r k).shiftOff r .secondSegment else s.segLeft r k) := by
  rw [exec_segmentOutDone, execSegmentOutDone, if_pos noted]
  rfl

/-- Settles O7: noting a segment is `segLose_spec`, its leaving `noteSegment_spec`, and a shift that begins `ring_shiftOff`. -/
theorem segmentsLeaveService : Obligations.SegmentsLeaveService := by
  unfold Obligations.SegmentsLeaveService
  intro r k s
  refine ⟨fun h => ?_, fun inService new still fails => ?_, fun unnoted => ⟨?_, ?_⟩, fun noted few => ?_,
    fun noted on still paired many => ?_, fun at_ noted late on still paired => ?_, fun early => ?_⟩
  · rw [Idles, exec_segmentOutOfService]
    refine congrArg _ (if_pos ?_)
    obtain out | losing | shifting | ⟨inc, dec⟩ := h
    · simp [out]
    · simp [losing]
    · simp [shifting]
    · simp [show (s.ring r).failed k = false by simp [Ring.failed, inc, dec]]
  · have row := exec_segmentOutOfService r k s
    rw [if_neg (by simp [inService, new, still, (failed_iff ..).mpr fails])] at row
    obtain ⟨ring, qual, outside⟩ := segLose_spec (s := s) (r := r) (k := k)
    exact ends_next row ⟨ring, qual, segLose_wakes, eq_of_besidesPairs_eq outside⟩
  · rw [Idles, exec_segmentOutDone, execSegmentOutDone, unnoted, if_neg Bool.false_ne_true]
  · rw [Idles, exec_segmentOutTimeout, if_neg]
    simp only [Ring.losing, List.any_eq_false, beq_iff_eq, List.any_eq_true, Bool.and_eq_true, not_exists,
      not_and] at unnoted ⊢
    exact fun e listed same => absurd same (unnoted e listed)
  · have row := segmentOutDone_of_noted noted
    rw [if_neg (by rw [segsOut_segLeft]; exact Nat.not_le.mpr few)] at row
    obtain ⟨frame, -, fired, silent, logged⟩ := noteSegment_spec s r (fun x => x.segGone r k) (BitVec.ofNat 16 k)
    rw [show 1256 + 8 * r.val + 1 = 1257 + 8 * r.val by omega] at fired
    exact ends_next row ⟨segOut_segLeft, segLosing_segLeft, logged, silent, frame, fired⟩
  · have row := segmentOutDone_of_noted noted
    rw [if_pos (by rwa [segsOut_segLeft])] at row
    obtain ⟨m, b, ring⟩ := ring_shiftOff (s := s.segLeft r k) (r := r) (cause := .secondSegment) (by decide)
      (by rwa [mode_segLeft]) (by rwa [shifting_segLeft]) (by rwa [partnerGone_segLeft])
    refine ends_next row ⟨?_, ?_⟩ <;> rw [ring] <;> rfl
  · have row := exec_segmentOutTimeout r k s
    rw [if_pos (List.any_eq_true.mpr ⟨_, noted, by simp [late]⟩)] at row
    obtain ⟨m, b, ring⟩ := ring_shiftOff (cause := .controllerTimeout) (by decide) on still paired
    refine ends_next row ⟨?_, ?_, ?_, ?_⟩ <;> rw [ring] <;> rfl
  · rw [Idles, exec_segmentOutTimeout, if_neg]
    simp only [List.any_eq_true, Bool.and_eq_true, beq_iff_eq, decide_eq_true_eq, not_exists, not_and, Nat.not_le]
    exact early

end Sys2Proof.Machine
end

section
/-! SUPPORT. What a port does while its link is not Active, and ejection at a stop (R40, R43, R44, R61, R80, R82). -/

namespace Sys2Proof.Machine

open Sys2Proof

/-! A port whose link is not Active sends nothing (R81) -/

section
variable {s : State} {n : Nat}

theorem give_of_inactive {x : Port} (idle : x.active = false) : x.give = x := by simp [Port.give, idle]

theorem egressOne_of_inactive (idle : (s.port n).active = false) (key : Nat) : s.egressOne n key = s := by
  unfold State.egressOne
  dsimp only
  split
  · rfl
  · simp [idle]

/-- Egress at such a port writes the port as it is. -/
theorem egress_of_inactive (idle : (s.port n).active = false) : s.egress n = s ∨ s.egress n = s.modPort n id := by
  have unchanged : s.modPort n Port.give = s.modPort n id := by
    rw [State.modPort, give_of_inactive idle]
    rfl
  have still_idle : ((s.modPort n id).port n).active = false := by rw [port_modPort, if_pos rfl, id, idle]
  unfold State.egress
  split
  · refine .inr ?_
    rw [unchanged]
    refine List.foldl_fixed' (fun key => ?_) _
    exact List.foldl_fixed' (fun _ => egressOne_of_inactive still_idle key) _
  · exact .inl rfl

theorem port_egress_of_inactive (idle : (s.port n).active = false) (j : Nat) : (s.egress n).port j = s.port j := by
  obtain same | written := egress_of_inactive idle
  · rw [same]
  · rw [written, port_modPort]
    split
    · next here => subst here; rfl
    · rfl

theorem frame_egress_of_inactive (idle : (s.port n).active = false) : { s.egress n with ports := s.ports } = s := by
  obtain same | written := egress_of_inactive idle
  · rw [same]
  · rw [written]
    rfl

/-- A message that returns no credit of a port leaves the port as it is. -/
theorem portGets_of_plain {e : Ejected} (other : isNCR e.msg.dst.toNat = false) (unconsumed : consumed n e.msg = false) :
    s.portGets n e = s := by
  simp [State.portGets, other, unconsumed]

end

theorem msg_of_mem_copiesAt {st : Stop} {f : Flit} {e : Ejected} (h : e ∈ copiesAt st f) : e.msg = f.msg := by
  unfold copiesAt at h
  split at h
  · split at h
    · split at h
      · rw [List.mem_singleton.mp h]
      · cases h
    · obtain ⟨g, -, rfl⟩ := List.mem_map.mp h
      rfl
  · rw [List.mem_singleton.mp h]

/-- A port that is up keeps every copy of a message that it does not itself consume (R370). -/
theorem keeps_all {s : State} {n : Fin 50} {f : Flit} (up : (s.port n).down = false) (unconsumed : consumed n f.msg = false) :
    s.keeps (.port n) (copiesAt (.port n) f) = copiesAt (.port n) f := by
  refine List.filter_eq_self.mpr fun e copy => ?_
  rw [msg_of_mem_copiesAt copy, unconsumed, up]
  rfl

/-! FLIT_EJECT -/

theorem exec_flitEject (r : Fin 6) (pos : Fin 94) (d : Dir) (c : MClass) (s : State) :
    exec (.flitEject r pos d c) s = .next (s.ejectAt r pos (isDec d) (classCode c)) := rfl

/-- What stands in a transit buffer once the copies of its front flit are ejected: the flit goes on while it has further
targets (R43). -/
def Flit.afterEject (f : Flit) (r pos : Nat) (rest : List Flit) : List Flit :=
  if (f.dkind = 2 ∨ f.dkind = 3) ∧ f.goesOn r pos = true then { f with dropped := true } :: rest else rest

/-- The state in which a stop has ejected the copies of flit `f`, the front of a transit buffer, before a port takes the
credits they return (R40, R43). -/
def State.ejected (s : State) (st : Stop) (r pos c : Nat) (dec : Bool) (f : Flit) (rest : List Flit) : State :=
  let queue := (s.stop st).eject.get noEjected (eKey r c) ++ s.keeps st (copiesAt st f)
  let t := ((s.modStop st fun x => { x with eject := x.eject.set noEjected (eKey r c) queue }).modRing r fun x =>
    (x.setBuf pos c dec (f.afterEject r pos rest)).settle r pos c).ringEvent r 0x03 c
  if f.dkind = 2 ∨ f.dkind = 3 then t.ringEvent r 0x07 7 (copiesAt st f).length else t

section
variable {s : State} {st : Stop} {r pos c : Nat} {dec : Bool} {f : Flit} {rest : List Flit}

@[simp] theorem port_ringEvent (q code cls amount n : Nat) : (s.ringEvent q code cls amount).port n = s.port n := rfl

theorem ejectAt_of_empty (empty : (s.ring r).buf pos c dec = []) : s.ejectAt r pos dec c = s := by
  simp only [State.ejectAt, empty]

theorem ejectAt_of_noStop (none_there : stopAt r pos = none) : s.ejectAt r pos dec c = s := by
  unfold State.ejectAt
  rw [none_there]
  split
  · next absurd_ => cases absurd_
  · rfl

theorem ejectAt_of_passing (front : (s.ring r).buf pos c dec = f :: rest) (passes : f.stopsHere r pos = false) :
    s.ejectAt r pos dec c = s := by
  cases there : stopAt r pos with
  | none => exact ejectAt_of_noStop there
  | some st => simp only [State.ejectAt, front, there, passes, Bool.not_false, if_true]

theorem ejectAt_of_full (front : (s.ring r).buf pos c dec = f :: rest) (there : stopAt r pos = some st)
    (here : f.stopsHere r pos = true)
    (full : 8 < ((s.stop st).eject.get noEjected (eKey r c)).length + (s.keeps st (copiesAt st f)).length) :
    s.ejectAt r pos dec c = s := by
  simp only [State.ejectAt, front, there, here, full, Bool.not_true, Bool.false_eq_true, if_false, if_true]

theorem ejectAt_slice {p : Fin 132} (front : (s.ring r).buf pos c dec = f :: rest) (there : stopAt r pos = some (.slice p))
    (here : f.stopsHere r pos = true) (room : ¬ 8 < ((s.stop (.slice p)).eject.get noEjected (eKey r c)).length
      + (s.keeps (.slice p) (copiesAt (.slice p) f)).length) :
    s.ejectAt r pos dec c = s.ejected (.slice p) r pos c dec f rest := by
  simp only [State.ejectAt, front, there, here, room, Bool.not_true, Bool.false_eq_true, if_false, State.ejected,
    Flit.afterEject, Bool.and_eq_true, Bool.or_eq_true, beq_iff_eq]

theorem ejectAt_port {n : Fin 50} (front : (s.ring r).buf pos c dec = f :: rest) (there : stopAt r pos = some (.port n))
    (here : f.stopsHere r pos = true) (room : ¬ 8 < ((s.stop (.port n)).eject.get noEjected (eKey r c)).length
      + (s.keeps (.port n) (copiesAt (.port n) f)).length) :
    s.ejectAt r pos dec c = ((copiesAt (.port n) f).foldl (fun s e => s.portGets n e)
      (s.ejected (.port n) r pos c dec f rest)).egress n := by
  simp only [State.ejectAt, front, there, here, room, Bool.not_true, Bool.false_eq_true, if_false, State.ejected,
    Flit.afterEject, Bool.and_eq_true, Bool.or_eq_true, beq_iff_eq]

theorem stop_ejected : (s.ejected st r pos c dec f rest).stop st = { s.stop st with
    eject := (s.stop st).eject.set noEjected (eKey r c)
      ((s.stop st).eject.get noEjected (eKey r c) ++ s.keeps st (copiesAt st f)) } := by
  unfold State.ejected
  dsimp only
  split <;> simp

theorem eject_ejected : ((s.ejected st r pos c dec f rest).stop st).eject.get noEjected (eKey r c)
    = (s.stop st).eject.get noEjected (eKey r c) ++ s.keeps st (copiesAt st f) := by
  rw [stop_ejected, NMap.get_set_self]

theorem ring_ejected : (s.ejected st r pos c dec f rest).ring r
    = ((s.ring r).setBuf pos c dec (f.afterEject r pos rest)).settle r pos c := by
  unfold State.ejected
  dsimp only
  split <;> simp

/-- On a ring where nothing reverses the buffer keeps what `afterEject` says. -/
theorem buf_ejected (whole : (s.ring r).whole) :
    ((s.ejected st r pos c dec f rest).ring r).buf pos c dec = f.afterEject r pos rest := by
  rw [ring_ejected, settle_of_whole _ _ _ (whole.setBuf ..), buf_setBuf]

@[simp] theorem ports_modStop_slice (p : Fin 132) (g : StopSt → StopSt) : (s.modStop (.slice p) g).ports = s.ports := rfl
@[simp] theorem slices_modStop_port (n : Fin 50) (g : StopSt → StopSt) : (s.modStop (.port n) g).slices = s.slices := rfl
@[simp] theorem ports_modRing (q : Nat) (g : Ring → Ring) : (s.modRing q g).ports = s.ports := rfl
@[simp] theorem slices_modRing (q : Nat) (g : Ring → Ring) : (s.modRing q g).slices = s.slices := rfl
@[simp] theorem ports_ringEvent (q code cls amount : Nat) : (s.ringEvent q code cls amount).ports = s.ports := rfl
@[simp] theorem slices_ringEvent (q code cls amount : Nat) : (s.ringEvent q code cls amount).slices = s.slices := rfl

theorem besidesFabric_ejected : (s.ejected st r pos c dec f rest).besidesFabric = s.besidesFabric := by
  unfold State.ejected
  dsimp only
  split <;> simp

theorem frame_ejected_slice (p : Fin 132) :
    { s.ejected (.slice p) r pos c dec f rest with slices := s.slices, rings := s.rings, pmc := s.pmc } = s := by
  have ports : (s.ejected (.slice p) r pos c dec f rest).ports = s.ports := by
    unfold State.ejected
    dsimp only
    split <;> simp
  have frame := eq_of_besidesFabric_eq (besidesFabric_ejected (s := s) (st := .slice p) (r := r) (pos := pos) (c := c)
    (dec := dec) (f := f) (rest := rest))
  rwa [← ports] at frame

theorem frame_ejected_port (n : Fin 50) :
    { s.ejected (.port n) r pos c dec f rest with ports := s.ports, rings := s.rings, pmc := s.pmc } = s := by
  have slices : (s.ejected (.port n) r pos c dec f rest).slices = s.slices := by
    unfold State.ejected
    dsimp only
    split <;> simp
  have frame := eq_of_besidesFabric_eq (besidesFabric_ejected (s := s) (st := .port n) (r := r) (pos := pos) (c := c)
    (dec := dec) (f := f) (rest := rest))
  rwa [← slices] at frame

theorem active_ejected (n : Fin 50) : ((s.ejected (.port n) r pos c dec f rest).port n).active = (s.port n).active := by
  unfold State.ejected
  dsimp only
  split <;> simp [State.modStop]

end

/-- A port that is up takes no credit from a message that it does not consume, and keeps it for egress (R82). -/
theorem ejectAt_unconsumed {s : State} {n : Fin 50} {r pos c : Nat} {dec : Bool} {f : Flit} {rest : List Flit}
    (front : (s.ring r).buf pos c dec = f :: rest) (here : f.stopsHere r pos = true)
    (there : stopAt r pos = some (.port n)) (up : (s.port n).down = false)
    (unconsumed : consumed n f.msg = false) (other : isNCR f.msg.dst.toNat = false)
    (room : ((s.port n).stop.eject.get noEjected (eKey r c)).length + (copiesAt (.port n) f).length ≤ 8) :
    s.ejectAt r pos dec c = (s.ejected (.port n) r pos c dec f rest).egress n := by
  have kept := keeps_all up unconsumed
  rw [ejectAt_port front there here (by rw [kept]; exact Nat.not_lt.mpr room)]
  congr 1
  rw [List.foldl_ext _ (fun u _ => u) _ fun u e copy => ?_, List.foldl_fixed]
  have same := msg_of_mem_copiesAt copy
  exact portGets_of_plain (by rw [same, other]) (by rw [same, unconsumed])

/-- Settles O8: what leaves a transit buffer joins the ejection queue of its stop, at a slice and at a port whose link is
not Active. -/
theorem ejectDelivers : Obligations.EjectDelivers := by
  unfold Obligations.EjectDelivers
  intro r pos d c s
  refine ⟨fun h => ?_, fun f rest front passes => ?_, fun f rest p front here there no_vector no_broadcast => ?_,
    fun f rest n front here there idle up unconsumed other room => ?_⟩
  · obtain empty | none_there := h
    · exact congrArg _ (ejectAt_of_empty empty)
    · exact congrArg _ (ejectAt_of_noStop none_there)
  · exact congrArg _ (ejectAt_of_passing front passes)
  · have unicast : ¬ (f.dkind = 2 ∨ f.dkind = 3) := not_or.mpr ⟨no_vector, no_broadcast⟩
    have copy : s.keeps (.slice p) (copiesAt (.slice p) f) = [{ dest := f.msg.dst, msg := f.msg }] := if_neg unicast
    refine ⟨fun full => congrArg _ (ejectAt_of_full front there here ?_), fun room => ?_⟩
    · rw [copy]
      exact Nat.lt_succ_of_le full
    · have row := exec_flitEject r pos d c s
      rw [ejectAt_slice front there here (by rw [copy]; exact Nat.not_lt.mpr room)] at row
      refine ends_next row ⟨fun segs none_back => ?_, ?_, frame_ejected_slice p⟩
      · rw [buf_ejected ⟨segs, none_back⟩, Flit.afterEject, if_neg fun onward => unicast onward.1]
      · exact eject_ejected.trans (congrArg _ copy)
  · have row := exec_flitEject r pos d c s
    rw [ejectAt_unconsumed front here there up unconsumed other room] at row
    have still_idle := (active_ejected (r := r) (pos := pos) (c := classCode c) (dec := isDec d) (f := f) (rest := rest)
      n).trans idle
    refine ends_next row ⟨?_, fun segs none_back => ?_, ?_⟩
    · rw [port_egress_of_inactive still_idle]
      exact eject_ejected.trans (congrArg _ (keeps_all up unconsumed))
    · have rings := congrArg State.rings (frame_egress_of_inactive still_idle)
      exact (congrArg (fun m => (NMap.get noRing m r).buf pos (classCode c) (isDec d)) rings).trans
        (buf_ejected ⟨segs, none_back⟩)
    · have ported := congrArg (fun x : State => { x with ports := s.ports, rings := s.rings, pmc := s.pmc })
        (frame_egress_of_inactive still_idle)
      exact ported.trans (frame_ejected_port n)

end Sys2Proof.Machine
end

section
/-! SUPPORT. Consolidation of a pair: its windows, the drain, the gate and the wake (R50, R54 to R56, R350). -/

namespace Sys2Proof.Machine

open Sys2Proof

/-! Flits that move over to the partner (R50, R55) -/

/-- The state without its rings and performance counters. -/
def State.besidesRings (s : State) : State := { s with rings := [], pmc := {} }

theorem eq_of_besidesRings_eq {s t : State} (h : t.besidesRings = s.besidesRings) :
    { t with rings := s.rings, pmc := s.pmc } = s :=
  (congrArg (fun x : State => { x with rings := s.rings, pmc := s.pmc }) h :)

section
variable (s : State) (r : Nat)

@[simp] theorem besidesRings_modRing (f : Ring → Ring) : (s.modRing r f).besidesRings = s.besidesRings := rfl

@[simp] theorem besidesRings_ringEvent (code q amount : Nat) :
    (s.ringEvent r code q amount).besidesRings = s.besidesRings := rfl

/-- What moving one flit can do: nothing, a count of a full buffer, or a flit less on this ring and a change of its
partner (R50). -/
theorem moveOne_cases (key : Nat) : s.moveOne r key = s ∨ (∃ c, s.moveOne r key = s.ringEvent (partner r) 0x04 c)
    ∨ ∃ x g c, x.besidesFlits = (s.ring r).besidesFlits
      ∧ s.moveOne r key = ((s.modRing r fun _ => x).modRing (partner r) g).ringEvent (partner r) 0x02 c := by
  unfold State.moveOne
  dsimp only
  have moves (f : Flit) (x : Ring) (less : x.besidesFlits = (s.ring r).besidesFlits) :
      let t := if (s.ring (partner r)).freeSlots (key / 12) (key % 12 / 2) (key % 2 == 1) < 2 then
          s.ringEvent (partner r) 0x04 (key % 12 / 2)
        else ((s.modRing r fun _ => x).modRing (partner r) fun y =>
          y.place (partner r) (key / 12) (key % 12 / 2) (key % 2 == 1) f).ringEvent (partner r) 0x02 (key % 12 / 2)
      t = s ∨ (∃ c, t = s.ringEvent (partner r) 0x04 c) ∨ ∃ x g c, x.besidesFlits = (s.ring r).besidesFlits
        ∧ t = ((s.modRing r fun _ => x).modRing (partner r) g).ringEvent (partner r) 0x02 c := by
    dsimp only
    split
    · exact .inr (.inl ⟨_, rfl⟩)
    · exact .inr (.inr ⟨x, _, _, less, rfl⟩)
  cases (s.ring r).back.get noFlits key with
  | cons f rest => exact moves f { s.ring r with back := (s.ring r).back.set noFlits key rest } rfl
  | nil =>
    cases (s.ring r).transit.get noFlits key with
    | cons f rest => exact moves f { s.ring r with transit := (s.ring r).transit.set noFlits key rest } rfl
    | nil => exact .inl rfl

/-- Moving flits changes of the state only rings and counters, and of this ring only flits. -/
theorem moveOne_keeps (key : Nat) : (s.moveOne r key).besidesRings = s.besidesRings
    ∧ ((s.moveOne r key).ring r).besidesFlits = (s.ring r).besidesFlits := by
  obtain same | ⟨c, counted⟩ | ⟨x, g, c, less, moved⟩ := moveOne_cases s r key
  · rw [same]
    exact ⟨rfl, rfl⟩
  · rw [counted]
    simp
  · rw [moved, ring_ringEvent, ring_modRing, if_neg (partner_ne r), ring_modRing, if_pos rfl]
    simp [less]

theorem moveFlits_keeps : (s.moveFlits r).besidesRings = s.besidesRings
    ∧ ((s.moveFlits r).ring r).besidesFlits = (s.ring r).besidesFlits := by
  unfold State.moveFlits
  split
  · exact ⟨rfl, rfl⟩
  · refine foldl_inv (fun u => u.besidesRings = s.besidesRings ∧ (u.ring r).besidesFlits = (s.ring r).besidesFlits) _
      (fun u key kept => ?_) _ _ ⟨rfl, rfl⟩
    refine foldl_inv (fun u => u.besidesRings = s.besidesRings ∧ (u.ring r).besidesFlits = (s.ring r).besidesFlits) _
      (fun v _ kept => ?_) _ _ kept
    obtain ⟨outside, ring⟩ := moveOne_keeps v r key
    exact ⟨outside.trans kept.1, ring.trans kept.2⟩

end

/-! The row of each command -/

section
variable (q : Fin 3) (s : State)

theorem exec_consEntry : exec (.consEntry q) s
    = .next (if s.consFits q ∧ s.crg.entryWin.toNat ≤ s.crg.qual.get zeroNat q ∧ s.pwr.state = 0 then
        s.modRing (2 * q.val + 1) fun x => { x with draining := true, drainAt := s.time } else s) := rfl

theorem exec_consDrainTimeout : exec (.consDrainTimeout q) s
    = .next (if (s.ring (2 * q.val + 1)).gating ∧ (s.ring (2 * q.val + 1)).drainAt + 20 ≤ s.time then
        (s.modRing (2 * q.val + 1) fun x => { x.giveAllBack with moving := true }).moveFlits (2 * q.val + 1) else s) := rfl

theorem exec_consWake : exec (.consWake q) s = .next (if s.wakeCause q then s.consWake q else s) := rfl

/-- The empty ring of pair `q` has been gated (R55). -/
def State.gateRing (s : State) (q : Nat) : State :=
  ((s.modRing (2 * q + 1) fun x => { x with mode := 1, draining := false, moving := false }).modPwr fun p =>
    p.offDom (264 + (2 * q + 1))).fireRing (2 * q + 1) 4

theorem exec_consGated : exec (.consGated q) s
    = .next (if (s.ring (2 * q.val + 1)).gating ∧ (s.ring (2 * q.val + 1)).empty = true then
        (if s.wakeCause q then (s.gateRing q).consWake q else s.gateRing q) else s) := rfl

/-- The ring of pair `q` that was gated is in service again, before held edges are looked at (R56). -/
def State.ringAwake (s : State) (q : Nat) : State :=
  ((s.modRing (2 * q + 1) fun x => { x with mode := 0, links := [] }).modPwr fun p =>
    p.release (264 + (2 * q + 1))).fireRing (2 * q + 1) 5

theorem exec_consWakeDone : exec (.consWakeDone q) s
    = .next (if (s.ring (2 * q.val + 1)).mode = 3 ∧ (s.ring (2 * q.val + 1)).returning = false
        ∧ (s.ring (2 * q.val + 1)).shifting = none then (s.ringAwake q).edgesLeft else s) := rfl

/-- The next window of pair `q` has begun, after `n` qualifying ones in a row (R54). -/
def State.nextWindow (s : State) (q n : Nat) : State :=
  ({ s with crg := { s.crg with
      qual := s.crg.qual.set zeroNat q n, winAt := s.crg.winAt.set zeroNat q s.time } }.modRing (2 * q) fun x =>
    { x with carried := 0 }).modRing (2 * q + 1) fun x => { x with carried := 0 }

/-- The qualifying windows in a row once this one ends, its load given (R54). -/
def State.windowsInRow (s : State) (q f cycles : Nat) : Nat :=
  if s.consFits q && loadBelow f cycles s.crg.entryPct.toNat then s.crg.qual.get zeroNat q + 1 else 0

theorem exec_consWindowEnd (f0 f1 cycles : Nat) : exec (.consWindowEnd q f0 f1 cycles) s
    = .next (if s.consLoad q ≠ (f0, f1, cycles) ∨ s.time < s.crg.winAt.get zeroNat q + s.crg.windowUs.toNat
        ∨ s.pwr.state ≠ 0 then s
      else if loadAbove f0 cycles s.crg.exitPct.toNat then (s.nextWindow q (s.windowsInRow q (f0 + f1) cycles)).consWake q
      else s.nextWindow q (s.windowsInRow q (f0 + f1) cycles)) := rfl

end

/-! What a window's end, the gate and the wake leave -/

section
variable {s : State} {q : Nat}

/-- A gated ring takes no injections, so its pair does not qualify (R54). -/
theorem consFits_of_gated (gated : (s.ring (2 * q + 1)).mode = 1) : s.consFits q = false := by
  simp [State.consFits, Ring.takes, gated]

theorem windowsInRow_eq (f cycles : Nat) : s.windowsInRow q f cycles
    = if s.consFits q = true ∧ f * 100 < s.crg.entryPct.toNat * (188 * cycles) then s.crg.qual.get zeroNat q + 1 else 0 := by
  simp only [State.windowsInRow, loadBelow, Bool.and_eq_true, decide_eq_true_eq]

theorem windowsInRow_of_gated (gated : (s.ring (2 * q + 1)).mode = 1) (f cycles : Nat) : s.windowsInRow q f cycles = 0 := by
  simp [State.windowsInRow, consFits_of_gated gated]

theorem ring_nextWindow (n j : Nat) : (s.nextWindow q n).ring j
    = if j = 2 * q ∨ j = 2 * q + 1 then { s.ring j with carried := 0 } else s.ring j := by
  have kept : State.ring { s with crg := { s.crg with
      qual := s.crg.qual.set zeroNat q n, winAt := s.crg.winAt.set zeroNat q s.time } } = s.ring := rfl
  simp only [State.nextWindow, ring_modRing, kept]
  by_cases odd : 2 * q + 1 = j
  · subst odd
    simp
  · by_cases even : 2 * q = j
    · subst even
      simp
    · rw [if_neg odd, if_neg even, if_neg (by omega)]

theorem qual_nextWindow (n j : Nat) :
    (s.nextWindow q n).crg.qual.get zeroNat j = if q = j then n else s.crg.qual.get zeroNat j := by
  rw [show (s.nextWindow q n).crg.qual = s.crg.qual.set zeroNat q n from rfl, NMap.get_set]

theorem winAt_nextWindow (n : Nat) : (s.nextWindow q n).crg.winAt.get zeroNat q = s.time := by
  rw [show (s.nextWindow q n).crg.winAt = s.crg.winAt.set zeroNat q s.time from rfl, NMap.get_set_self]

theorem besidesPairs_modRing (u : State) (r : Nat) (f : Ring → Ring) : (u.modRing r f).besidesPairs = u.besidesPairs := rfl

theorem besidesPairs_nextWindow (n : Nat) : (s.nextWindow q n).besidesPairs = s.besidesPairs := by
  rw [State.nextWindow, besidesPairs_modRing, besidesPairs_modRing]
  rfl

theorem mode_nextWindow (n : Nat) : ((s.nextWindow q n).ring (2 * q + 1)).mode = (s.ring (2 * q + 1)).mode := by
  rw [ring_nextWindow, if_pos (.inr rfl)]

/-- The state after a window, `above` saying that ring 2q carried more than the exit threshold (R54, R56). -/
def State.windowEnded (s : State) (q n : Nat) (above : Bool) : State :=
  if above then (s.nextWindow q n).consWake q else s.nextWindow q n

variable {n : Nat} {above : Bool}

theorem ring_windowEnded (j : Nat) : ∃ m b,
    (s.windowEnded q n above).ring j = { (s.nextWindow q n).ring j with mode := m, returning := b } := by
  unfold State.windowEnded
  split
  · exact ring_consWake j
  · exact ⟨_, _, rfl⟩

theorem carried_windowEnded {j : Nat} (pair : j = 2 * q ∨ j = 2 * q + 1) : ((s.windowEnded q n above).ring j).carried = 0 := by
  obtain ⟨m, b, ring⟩ := ring_windowEnded (s := s) (q := q) (n := n) (above := above) j
  rw [ring, ring_nextWindow, if_pos pair]

theorem winAt_windowEnded : (s.windowEnded q n above).crg.winAt.get zeroNat q = s.time := by
  have same : (s.windowEnded q n above).crg.winAt = (s.nextWindow q n).crg.winAt := by
    unfold State.windowEnded State.consWake
    split
    · split <;> rfl
    · rfl
  rw [same, winAt_nextWindow]

/-- The count that a window leaves: a wake clears it, and then it is zero already. -/
theorem qual_windowEnded (zero : (s.ring (2 * q + 1)).mode = 1 → n = 0) (j : Nat) :
    (s.windowEnded q n above).crg.qual.get zeroNat j = if q = j then n else s.crg.qual.get zeroNat j := by
  unfold State.windowEnded
  split
  · by_cases gated : (s.ring (2 * q + 1)).mode = 1
    · rw [consWake_of_gated (by rwa [mode_nextWindow]), qual_waking, qual_nextWindow, zero gated]
      split <;> rfl
    · rw [consWake_of_running (by rwa [mode_nextWindow]), qual_nextWindow]
  · exact qual_nextWindow n j

theorem windowEnded_wakes (gated : (s.ring (2 * q + 1)).mode = 1) : ((s.windowEnded q n true).ring (2 * q + 1)).mode = 3 := by
  rw [State.windowEnded, if_pos rfl, consWake_of_gated (by rwa [mode_nextWindow]), ring_waking_self]

theorem besidesPairs_windowEnded : (s.windowEnded q n above).besidesPairs = s.besidesPairs := by
  unfold State.windowEnded
  split
  · rw [besidesPairs_consWake, besidesPairs_nextWindow]
  · exact besidesPairs_nextWindow n

theorem mem_off_offDom (p : Pwr) (d : Nat) : d ∈ (p.offDom d).off := by
  unfold Pwr.offDom
  dsimp only
  split
  · next listed => exact List.contains_iff_mem.mp listed
  · exact List.mem_append_right _ (List.mem_singleton.mpr rfl)

theorem mem_held_offDom (p : Pwr) (d : Nat) : d ∈ (p.offDom d).held := by
  unfold Pwr.offDom
  dsimp only
  split
  · next listed => exact List.contains_iff_mem.mp listed
  · exact List.mem_append_right _ (List.mem_singleton.mpr rfl)

/-- A change of one ring, of power and an event leave the rest of the state. -/
theorem frame_ringPwrEvent (u : State) (r k : Nat) (f : Ring → Ring) (g : Pwr → Pwr) :
    { ((u.modRing r f).modPwr g).fireRing r k with rings := u.rings, pwr := u.pwr, iag := u.iag } = u := by
  simp only [State.modRing, State.modPwr, State.fireRing, State.fire]

theorem frame_gateRing : { s.gateRing q with rings := s.rings, pwr := s.pwr, iag := s.iag } = s := by
  rw [State.gateRing, frame_ringPwrEvent]

theorem frame_ringAwake : { s.ringAwake q with rings := s.rings, pwr := s.pwr, iag := s.iag } = s := by
  rw [State.ringAwake, frame_ringPwrEvent]

theorem pwr_ringPwrEvent (u : State) (r k : Nat) (f : Ring → Ring) (g : Pwr → Pwr) :
    (((u.modRing r f).modPwr g).fireRing r k).pwr = g u.pwr := rfl

theorem arrived_ringPwrEvent (u : State) (r k : Nat) (f : Ring → Ring) (g : Pwr → Pwr) :
    (((u.modRing r f).modPwr g).fireRing r k).iag.arrived = u.iag.arrived ++ [1256 + 8 * r + k] := rfl

theorem pwr_gateRing : (s.gateRing q).pwr = s.pwr.offDom (264 + (2 * q + 1)) := by rw [State.gateRing, pwr_ringPwrEvent]

theorem pwr_ringAwake : (s.ringAwake q).pwr = s.pwr.release (264 + (2 * q + 1)) := by
  rw [State.ringAwake, pwr_ringPwrEvent]

theorem ring_gateRing : (s.gateRing q).ring (2 * q + 1)
    = { s.ring (2 * q + 1) with mode := 1, draining := false, moving := false } := by
  simp [State.gateRing]

theorem ring_ringAwake : (s.ringAwake q).ring (2 * q + 1) = { s.ring (2 * q + 1) with mode := 0, links := [] } := by
  simp [State.ringAwake]

/-- With no edges held since a Freewheel exit nothing is let go (R359). -/
theorem edgesLeft_of_unheld (unheld : s.pwr.edgeHold = false) : s.edgesLeft = s := by simp [State.edgesLeft, unheld]

/-- A ring whose flits begin to move over, its replay buffers given back (R50, R55). -/
theorem besidesLinks_moving (x : Ring) :
    { x.giveAllBack with moving := true }.besidesLinks = { x with moving := true }.besidesLinks :=
  congrArg (fun y : Ring => { y with moving := true }) (besidesLinks_giveAllBack x)

/-- Each cause of R56 wakes the pair's ring. -/
theorem wakeCause_of (cause : s.crg.consEn = false ∨ s.agedFor q = true ∨ (s.ring (2 * q)).segLosing ≠ []
    ∨ (s.ring (2 * q)).segOut ≠ 0 ∨ (s.ring (2 * q)).shifting.isSome = true ∨ s.pwr.trans.isSome = true) :
    s.wakeCause q = true := by
  simp only [State.wakeCause, Bool.or_eq_true, Bool.not_eq_true', bne_iff_ne, List.isEmpty_eq_false_iff]
  tauto

end

/-- A window's end that the controller has measured (R54, R56). -/
theorem consWindowEnd_measured {q : Fin 3} {s : State}
    (ended : s.crg.winAt.get zeroNat q + s.crg.windowUs.toNat ≤ s.time) (run : s.pwr.state = 0) :
    exec (.consWindowEnd q (s.ring (2 * q)).carried (s.ring (2 * q + 1)).carried
      (2400 * (s.time - s.crg.winAt.get zeroNat q))) s = .next (s.windowEnded q
        (s.windowsInRow q ((s.ring (2 * q)).carried + (s.ring (2 * q + 1)).carried)
          (2400 * (s.time - s.crg.winAt.get zeroNat q)))
        (loadAbove (s.ring (2 * q)).carried (2400 * (s.time - s.crg.winAt.get zeroNat q)) s.crg.exitPct.toNat)) := by
  rw [exec_consWindowEnd, if_neg]
  · rfl
  · rintro (other | early | gated)
    · exact other rfl
    · exact absurd ended (Nat.not_le.mpr early)
    · exact gated run

/-- Settles O10: each row is an equation of this file, and what it leaves is said of its state once. -/
theorem consolidationGatesOddRings : Obligations.ConsolidationGatesOddRings := by
  unfold Obligations.ConsolidationGatesOddRings
  intro q s
  refine ⟨fun f0 f1 cycles other => ?_, fun ended run => ?_, fun fits many run => ?_, fun unfit => ?_, fun still => ⟨?_, ?_⟩,
    fun early => ?_, fun gating late => ?_, fun flits => ?_, fun gating empty quiet => ?_, fun gating empty cause => ?_,
    fun stays => ?_, fun gated cause => ?_, fun asleep => ?_, fun waking own still unheld => ?_⟩
  · rw [Idles, exec_consWindowEnd, if_pos other]
  · have zero := fun gated => windowsInRow_of_gated (s := s) (q := q) gated
      ((s.ring (2 * q)).carried + (s.ring (2 * q + 1)).carried) (2400 * (s.time - s.crg.winAt.get zeroNat q))
    refine ends_next (consWindowEnd_measured ended run) ⟨?_, winAt_windowEnded, carried_windowEnded (.inl rfl),
      carried_windowEnded (.inr rfl), fun gated above => ?_, fun j other => ?_,
      eq_of_besidesPairs_eq besidesPairs_windowEnded⟩
    · rw [qual_windowEnded zero, if_pos rfl, windowsInRow_eq]
    · rw [loadAbove, decide_eq_true above]
      exact windowEnded_wakes gated
    · rw [qual_windowEnded zero, if_neg other.symm]
  · rw [exec_consEntry, if_pos ⟨fits, many, run⟩]
  · rw [Idles, exec_consEntry, if_neg]
    rintro ⟨fits, many, run⟩
    obtain unfit | few | stopped := unfit
    · simp [unfit] at fits
    · exact absurd many (Nat.not_le.mpr few)
    · exact stopped run
  · rw [Idles, exec_consDrainTimeout, if_neg (by simp [still])]
  · rw [Idles, exec_consGated, if_neg (by simp [still])]
  · rw [Idles, exec_consDrainTimeout, if_neg fun due => absurd due.2 (Nat.not_le.mpr early)]
  · have row := exec_consDrainTimeout q s
    rw [if_pos ⟨gating, late⟩] at row
    obtain ⟨outside, flits⟩ := moveFlits_keeps (s.modRing (2 * q.val + 1) fun x => { x.giveAllBack with moving := true })
      (2 * q.val + 1)
    rw [ring_modRing, if_pos rfl] at flits
    have given := (besidesLinks_of_besidesFlits flits).trans (besidesLinks_moving (s.ring (2 * q.val + 1)))
    refine ends_next row ⟨eq_of_besidesRings_eq (outside.trans (besidesRings_modRing ..)), ?_,
      eq_of_besidesLinks Ring.moving (fun _ => rfl) given⟩
    exact (eq_of_besidesLinks Ring.gating (fun _ => rfl) given).trans gating
  · rw [Idles, exec_consGated, if_neg (by simp [flits])]
  · have row := exec_consGated q s
    rw [if_pos ⟨gating, empty⟩, if_neg (by simp [quiet])] at row
    refine ends_next row ⟨ring_gateRing, ?_, ?_, arrived_ringPwrEvent .., frame_gateRing⟩
    · rw [pwr_gateRing]
      exact mem_off_offDom ..
    · rw [pwr_gateRing]
      exact mem_held_offDom ..
  · have row := exec_consGated q s
    rw [if_pos ⟨gating, empty⟩, if_pos cause, consWake_of_gated (by rw [ring_gateRing])] at row
    refine ends_next row ⟨?_, not_mem_off_waking⟩
    rw [ring_waking_self]
  · rw [Idles, exec_consWake]
    obtain running | quiet := stays
    · rw [consWake_of_running running, ite_self]
    · rw [quiet, if_neg Bool.false_ne_true]
  · have row := exec_consWake q s
    rw [if_pos (wakeCause_of cause), consWake_of_gated gated] at row
    refine ends_next row ⟨ring_waking_self, ?_, not_mem_off_waking, eq_of_besidesPairs_eq besidesPairs_waking⟩
    rw [qual_waking, if_pos rfl]
  · rw [Idles, exec_consWakeDone, if_neg]
    rintro ⟨waking, own, still⟩
    obtain other | returns | shifts := asleep
    · exact other waking
    · simp [own] at returns
    · simp [still] at shifts
  · have row := exec_consWakeDone q s
    rw [if_pos ⟨waking, own, still⟩, edgesLeft_of_unheld (by rwa [pwr_ringAwake])] at row
    refine ends_next row ⟨ring_ringAwake, ?_, arrived_ringPwrEvent .., frame_ringAwake⟩
    simp [pwr_ringAwake, Pwr.release]

end Sys2Proof.Machine
end

section
/-! SUPPORT. Link receivers and senders of rings and ports: sequence numbers, replay, acknowledgement (R45 to R47, R67,
R77 to R79). -/

namespace Sys2Proof.Machine

open Sys2Proof

/-! One link of a ring -/

theorem eq_of_besidesFlits {β : Type} (π : Ring → β) (blind : ∀ x : Ring, π x.besidesFlits = π x) {x y : Ring}
    (h : y.besidesFlits = x.besidesFlits) : π y = π x := by
  rw [← blind y, h, blind]

theorem satInc16_eq (v : BitVec 16) : satInc16 v = if v = 0xFFFF then 0xFFFF else v + 1 := by
  unfold satInc16
  split
  · next full => rw [full]
  · rfl

@[simp] theorem link_modLink (x : Ring) (k : Nat) (d : Dir) (g : LinkSt → LinkSt) : (x.modLink k d g).link k d = g (x.link k d) :=
  NMap.get_set_self ..

theorem modLink_modLink (x : Ring) (k : Nat) (d : Dir) (g h : LinkSt → LinkSt) :
    (x.modLink k d g).modLink k d h = x.modLink k d fun l => h (g l) := by
  rw [Ring.modLink, link_modLink]
  simp only [Ring.modLink, NMap.set_set]

theorem modRing_modRing (s : State) (r : Nat) (f g : Ring → Ring) :
    (s.modRing r f).modRing r g = s.modRing r fun x => g (f x) := by
  rw [State.modRing, ring_modRing, if_pos rfl]
  simp only [State.modRing, NMap.set_set]

/-- A link as its direction has put flit `f` with number `seq` on its way: a resend goes on, or a new flit is numbered and
kept (R45, R46). -/
def LinkSt.sent (l : LinkSt) (seq : BitVec 12) (f : Flit) : LinkSt :=
  if l.tx.resending.isSome then { l with tx := l.tx.resent seq }
  else { l with tx := l.tx.send f, turn := (f.msg.cls.toNat + 1) % 6 }

/-- A ring on which a link direction has put flit `f` on its way. -/
def Ring.sent (x : Ring) (r k : Nat) (d : Dir) (seq : BitVec 12) (f : Flit) : Ring :=
  let c := f.msg.cls.toNat
  let a := (segEnds k d).1
  let x := { x with carried := x.carried + 1 }
  if (x.link k d).tx.resending.isSome then x.modLink k d fun l => { l with tx := l.tx.resent seq }
  else
    let x := x.modLink k d fun l => { l with tx := l.tx.send f, turn := (c + 1) % 6 }
    (x.setBuf a c (isDec d) ((x.buf a c (isDec d)).drop 1)).settle r a c

section
variable (x : Ring) (r k : Nat) (d : Dir) (seq : BitVec 12) (f : Flit)

theorem besidesFlits_sent : (x.sent r k d seq f).besidesFlits
    = ({ x with carried := x.carried + 1 }.modLink k d fun l => l.sent seq f).besidesFlits := by
  unfold Ring.sent
  dsimp only
  split
  · next resends => simp only [Ring.modLink, LinkSt.sent, resends, if_true]
  · next new =>
    rw [besidesFlits_settle, besidesFlits_setBuf]
    simp only [Ring.modLink, LinkSt.sent, new, if_false, Bool.false_eq_true]

theorem link_sent : (x.sent r k d seq f).link k d = (x.link k d).sent seq f := by
  refine (eq_of_besidesFlits (fun y : Ring => y.link k d) (fun _ => rfl) (besidesFlits_sent x r k d seq f)).trans ?_
  rw [link_modLink]
  rfl

theorem rx_sent (l : LinkSt) : (l.sent seq f).rx = l.rx := by
  unfold LinkSt.sent
  split <;> rfl

theorem crcFails_sent : (x.sent r k d seq f).crcFails = x.crcFails :=
  (eq_of_besidesFlits Ring.crcFails (fun _ => rfl) (besidesFlits_sent x r k d seq f) :)

theorem replays_sent : (x.sent r k d seq f).replays = x.replays :=
  (eq_of_besidesFlits Ring.replays (fun _ => rfl) (besidesFlits_sent x r k d seq f) :)

/-- A ring whose receiver asks for its number after a flit that fails its checks (R45, R47, R67). -/
def Ring.rejects : Ring :=
  let y := { x with crcFails := satInc16 x.crcFails, crcSum := x.crcSum + 1 }.modLink k d fun l =>
    { l with rx := l.rx.askRing }
  { y with replays := satInc16 y.replays, replaySum := y.replaySum + 1 }

/-- A link on which the expected flit `seq` has been accepted. -/
def LinkSt.accepts (l : LinkSt) (seq : BitVec 12) : LinkSt := { l with
  rx := l.rx.accepted
  tx := if l.tx.named = some seq then { l.tx with named := none, fails := 0 } else l.tx }

theorem link_rejects : (x.rejects k d).link k d = { x.link k d with rx := (x.link k d).rx.askRing } :=
  link_modLink { x with crcFails := satInc16 x.crcFails, crcSum := x.crcSum + 1 } k d fun l => { l with rx := l.rx.askRing }

end

/-! What a receiver answers (R45) -/

theorem receive_bad (l : LinkRx) (seq : BitVec 12) : l.receive false seq = .reject true := by simp [LinkRx.receive]

theorem receive_expected (l : LinkRx) : l.receive true l.exp = .accept := by simp [LinkRx.receive]

/-- A good flit that is a duplicate, or that comes while the receiver waits for another, is not asked for (R45, log 22). -/
theorem receive_other {l : LinkRx} {seq : BitVec 12}
    (h : (l.waiting = false ∧ 1 ≤ (l.exp - seq).toNat ∧ (l.exp - seq).toNat ≤ 64) ∨ (l.waiting = true ∧ seq ≠ l.exp)) :
    l.receive true seq = .duplicate ∨ l.receive true seq = .reject false := by
  obtain ⟨ready, behind, near⟩ | ⟨waits, other⟩ := h
  · have other : seq ≠ l.exp := by
      rintro rfl
      simp at behind
    exact .inl ((if_neg fun expected => other expected.2).trans (if_pos ⟨rfl, ready, behind, near⟩))
  · simp [LinkRx.receive, other, waits]

/-! A ring segment's receiver -/

/-- Only ring `r`, counters and events differ. -/
structure State.OnlyRing (s : State) (r : Nat) (t : State) : Prop where
  frame : { t with rings := s.rings, pmc := s.pmc, iag := s.iag } = s
  others : ∀ j, j ≠ r → t.ring j = s.ring j

namespace State.OnlyRing

theorem refl (s : State) (r : Nat) : s.OnlyRing r s := ⟨rfl, fun _ _ => rfl⟩

theorem trans {s t u : State} {r : Nat} (h : s.OnlyRing r t) (h' : t.OnlyRing r u) : s.OnlyRing r u :=
  ⟨(congrArg (fun x : State => { x with rings := s.rings, pmc := s.pmc, iag := s.iag }) h'.frame).trans h.frame,
    fun j other => (h'.others j other).trans (h.others j other)⟩

theorem modRing (s : State) (r : Nat) (f : Ring → Ring) : s.OnlyRing r (s.modRing r f) :=
  ⟨by simp only [State.modRing], fun j other => (ring_modRing s r j f).trans (if_neg other.symm)⟩

theorem ringEvent (s : State) (r code q amount : Nat) : s.OnlyRing r (s.ringEvent r code q amount) :=
  ⟨by simp only [State.ringEvent, State.pmcEvent], fun _ _ => rfl⟩

theorem fireRing (s : State) (r k : Nat) : s.OnlyRing r (s.fireRing r k) :=
  ⟨by simp only [State.fireRing, State.fire], fun _ _ => rfl⟩

end State.OnlyRing

section
variable (s : State) (r k : Nat) (d : Dir) (seq : BitVec 12) (f : Flit)

theorem ringSent_eq : s.ringSent r k d seq f
    = (s.modRing r fun x => x.sent r k d seq f).ringEvent r 0x01 f.msg.cls.toNat := rfl

theorem onlyRing_ringSent : s.OnlyRing r (s.ringSent r k d seq f) := by
  rw [ringSent_eq]
  exact (State.OnlyRing.modRing ..).trans (State.OnlyRing.ringEvent ..)

theorem ring_ringSent : (s.ringSent r k d seq f).ring r = (s.ring r).sent r k d seq f := by
  rw [ringSent_eq, ring_ringEvent, ring_modRing, if_pos rfl]

@[simp] theorem iag_modRing (g : Ring → Ring) : (s.modRing r g).iag = s.iag := rfl

theorem iag_ringSent : (s.ringSent r k d seq f).iag = s.iag := rfl

theorem onlyRing_ringAsks : s.OnlyRing r (s.ringAsks r) :=
  ((State.OnlyRing.modRing ..).trans (State.OnlyRing.ringEvent ..)).trans (State.OnlyRing.fireRing ..)

/-- The state in which the receiver of a segment asks for its number after a bad flit. -/
def State.ringRejects (s : State) (r k : Nat) (d : Dir) : State :=
  (((s.modRing r fun x => { x with crcFails := satInc16 x.crcFails, crcSum := x.crcSum + 1 }).ringEvent r 0x06).modRing r
    fun x => x.modLink k d fun l => { l with rx := l.rx.askRing }).ringAsks r

theorem ringTakes_bad (g : Option Flit) : s.ringTakes r k d false seq g = s.ringRejects r k d := by
  simp only [State.ringTakes, receive_bad]
  rfl

theorem ring_ringRejects : (s.ringRejects r k d).ring r = (s.ring r).rejects k d := by
  simp [State.ringRejects, State.ringAsks, Ring.rejects]

theorem arrived_ringRejects : (s.ringRejects r k d).iag.arrived = s.iag.arrived ++ [1256 + 8 * r + 0] := rfl

theorem onlyRing_ringRejects : s.OnlyRing r (s.ringRejects r k d) :=
  (((State.OnlyRing.modRing ..).trans (State.OnlyRing.ringEvent ..)).trans (State.OnlyRing.modRing ..)).trans
    (onlyRing_ringAsks ..)

theorem ringTakes_expected (expected : ((s.ring r).link k d).rx.exp = seq) : s.ringTakes r k d true seq (some f)
    = s.modRing r fun x => (x.modLink k d fun l => l.accepts seq).place r (segEnds k d).2 f.msg.cls.toNat (isDec d) f := by
  subst expected
  simp only [State.ringTakes, receive_expected]
  rfl

theorem onlyRing_ringTakes (good : Bool) (g : Option Flit) : s.OnlyRing r (s.ringTakes r k d good seq g) := by
  cases good with
  | false =>
    rw [ringTakes_bad]
    exact onlyRing_ringRejects ..
  | true =>
    unfold State.ringTakes
    dsimp only
    split
    · exact .refl ..
    · split
      · exact (State.OnlyRing.modRing ..).trans (onlyRing_ringAsks ..)
      · exact .refl ..
    · split
      · exact .refl ..
      · exact .modRing ..

theorem onlyRing_ringReceive (raw : BitVec 768) : s.OnlyRing r (s.ringReceive r k d raw) := by
  unfold State.ringReceive
  dsimp only
  split
  · split
    · exact (onlyRing_ringSent ..).trans (onlyRing_ringTakes ..)
    · split
      · exact (onlyRing_ringSent ..).trans (onlyRing_ringTakes ..)
      · exact onlyRing_ringTakes ..
  · exact onlyRing_ringTakes ..

end

theorem exec_linkFlitReceive_ring (r : Fin 6) (k : Fin 94) (d : Dir) (raw : BitVec 768) (s : State) :
    exec (.linkFlitReceive (.ring r k d) (.slot raw)) s = .next (if !s.fclkRuns then s else s.ringReceive r k d raw) := rfl

theorem exec_linkFlitReceive_ringFdi (r : Fin 6) (k : Fin 94) (d : Dir) (b : BitVec 2048) (s : State) :
    exec (.linkFlitReceive (.ring r k d) (.fdi b)) s = .next (if !s.fclkRuns then s else s) := rfl

section
variable {s : State} {r k : Nat} {d : Dir} {raw : BitVec 768}

/-- A flit that the sender has not sent, and that needs no request, changes nothing (R45). -/
theorem ringReceive_stray (good : rawGood raw = true) (unsent : ∀ f, (s.ring r).sends r k d ≠ some (rawSeq raw, f))
    (other : ((s.ring r).link k d).rx.receive true (rawSeq raw) = .duplicate
      ∨ ((s.ring r).link k d).rx.receive true (rawSeq raw) = .reject false) : s.ringReceive r k d raw = s := by
  have kept : s.ringTakes r k d true (rawSeq raw) none = s := by
    obtain same | quiet := other
    · simp only [State.ringTakes, same]
    · simp only [State.ringTakes, quiet, if_true, Bool.false_eq_true, if_false]
  unfold State.ringReceive
  dsimp only
  rw [good]
  split
  · next seq f sends =>
    rw [if_neg (by decide), if_neg ?_, kept]
    rintro ⟨rfl, -⟩
    exact unsent f sends
  · exact kept

/-- A bad flit is rejected in the state in which the flit on the link, if any, has been sent (R36, R45). -/
theorem ringReceive_bad (bad : rawGood raw = false) : ∃ u : State, s.ringReceive r k d raw = u.ringRejects r k d
    ∧ (u.ring r).crcFails = (s.ring r).crcFails ∧ (u.ring r).replays = (s.ring r).replays
    ∧ ((u.ring r).link k d).rx = ((s.ring r).link k d).rx ∧ u.iag = s.iag := by
  unfold State.ringReceive
  dsimp only
  rw [bad]
  split
  · next seq f sends =>
    refine ⟨s.ringSent r k d seq f, by rw [if_pos (by decide), ringTakes_bad], ?_, ?_, ?_, iag_ringSent ..⟩
    · rw [ring_ringSent, crcFails_sent]
    · rw [ring_ringSent, replays_sent]
    · rw [ring_ringSent, link_sent, rx_sent]
  · exact ⟨s, ringTakes_bad .., rfl, rfl, rfl, rfl⟩

/-- The flit that the sender sends crosses (R45, R46). -/
theorem ringReceive_crosses (good : rawGood raw = true) (expected : rawSeq raw = ((s.ring r).link k d).rx.exp)
    (sends : (s.ring r).sends r k d = some (rawSeq raw, ringFlit raw)) :
    ((s.ringReceive r k d raw).ring r).link k d = (((s.ring r).link k d).sent (rawSeq raw) (ringFlit raw)).accepts (rawSeq raw)
    ∧ (s.ringReceive r k d raw).iag = s.iag := by
  have taken : s.ringReceive r k d raw
      = (s.ringSent r k d (rawSeq raw) (ringFlit raw)).ringTakes r k d true (rawSeq raw) (some (ringFlit raw)) := by
    simp only [State.ringReceive, sends, good, and_self, if_true, Bool.not_true, Bool.false_eq_true, if_false]
  have exp : (((s.ringSent r k d (rawSeq raw) (ringFlit raw)).ring r).link k d).rx.exp = rawSeq raw := by
    rw [ring_ringSent, link_sent, rx_sent, expected]
  rw [taken, ringTakes_expected _ _ _ _ _ _ exp]
  refine ⟨?_, by rw [iag_modRing, iag_ringSent]⟩
  rw [ring_modRing, if_pos rfl, ring_ringSent]
  refine (eq_of_besidesFlits (fun y : Ring => y.link k d) (fun _ => rfl) (besidesFlits_place ..)).trans ?_
  rw [link_modLink, link_sent]

theorem replay_accepts (l : LinkSt) (seq : BitVec 12) : (l.accepts seq).tx.replay = l.tx.replay := by
  unfold LinkSt.accepts
  dsimp only
  split <;> rfl

theorem next_accepts (l : LinkSt) (seq : BitVec 12) : (l.accepts seq).tx.next = l.tx.next := by
  unfold LinkSt.accepts
  dsimp only
  split <;> rfl

theorem sent_new {l : LinkSt} (new : l.tx.resending = none) (seq : BitVec 12) (f : Flit) :
    (l.sent seq f).tx = l.tx.send f := by
  simp [LinkSt.sent, new]

theorem sent_again {l : LinkSt} (resends : l.tx.resending.isSome = true) (seq : BitVec 12) (f : Flit) :
    (l.sent seq f).tx = l.tx.resent seq := by
  simp [LinkSt.sent, resends]

end

end Sys2Proof.Machine
end

section
/-! SUPPORT. The receiving and sending sides of a port's link, and the obligation on links (R45 to R47, R67, R77 to R79). -/

namespace Sys2Proof.Machine

open Sys2Proof

/-! A port's receiver -/

theorem exec_linkFlitReceive_port (n : Fin 50) (raw : BitVec 768) (s : State) :
    exec (.linkFlitReceive (.port n) (.slot raw)) s = .next (if !s.fclkRuns then s else s.portReceive n raw) := rfl

theorem exec_linkFlitReceive_portFdi (n : Fin 50) (b : BitVec 2048) (s : State) :
    exec (.linkFlitReceive (.port n) (.fdi b)) s = .next (if !s.fclkRuns then s else s.fdiReceive n b) := rfl

/-- A port whose link is not Active takes nothing (R81). -/
theorem portReceive_of_inactive {s : State} {n : Nat} (idle : (s.port n).active = false) (raw : BitVec 768) :
    s.portReceive n raw = s := by
  simp only [State.portReceive, idle, Bool.not_false, Bool.or_true, if_true]

theorem fdiReceive_of_inactive {s : State} {n : Nat} (idle : (s.port n).active = false) (b : BitVec 2048) :
    s.fdiReceive n b = s := by
  simp only [State.fdiReceive, idle, Bool.not_false, Bool.or_true, if_true]

section
variable {s : State} {n : Nat} {raw : BitVec 768}

/-- The state in which a port rejects a numbered slot that fails its checks, and asks for its number (R45, R67, R79). -/
def State.portRejects (s : State) (n : Nat) : State :=
  (((s.modPort n fun x => { x with crcFails := satInc16 x.crcFails }).modPort n fun x =>
    { x with rx := x.rx.ask }).portAsks n).modPort n fun x => x.sendIdle true

/-- The state in which a port has taken the numbered message slot it expects, and answered it (R79, R80). -/
def State.portTakesMessage (s : State) (n : Nat) (raw : BitVec 768) : State :=
  ((s.modPort n fun x => { x with rx := x.rx.accepted }).modPort n fun x => { x with
    ingress := x.ingress ++ [msgOfBits (rawBody raw)]
    given := x.given.set zeroNat (msgOfBits (rawBody raw)).cls.toNat
      (x.given.get zeroNat (msgOfBits (rawBody raw)).cls.toNat - 1) }).modPort n fun x => x.sendIdle false

variable (active : (s.port n).active = true) (up : (s.port n).down = false)
include active up

theorem portReceive_badIdle (slot : rawSlot raw = 0) (bad : rawRchk raw = false) :
    s.portReceive n raw = s.modPort n fun x => { x with crcFails := satInc16 x.crcFails } := by
  simp only [State.portReceive, active, up, slot, bad, Bool.not_true, Bool.or_false, Bool.false_eq_true, if_false, if_true]

theorem portReceive_bad (slot : rawSlot raw ≠ 0) (bad : rawGood raw = false) : s.portReceive n raw = s.portRejects n := by
  simp only [State.portReceive, active, up, slot, bad, receive_bad, Bool.not_true, Bool.or_false, Bool.false_and,
    Bool.false_eq_true, if_false, if_true]
  rfl

theorem portReceive_message (slot : rawSlot raw = 1) (good : rawGood raw = true) (expected : rawSeq raw = (s.port n).rx.exp)
    (no_ack : raw.getLsbD 44 = false) (no_request : raw.getLsbD 45 = false) :
    s.portReceive n raw = s.portTakesMessage n raw := by
  simp only [State.portReceive, active, up, slot, good, expected, receive_expected, no_ack, no_request, Bool.not_true,
    Bool.or_false, Bool.true_and, Bool.false_eq_true, if_false, show ((1 : BitVec 2) = 0) = False by decide,
    show ((1 : BitVec 2) != 3) = true by decide, State.portAccepts, if_true]
  rfl

end

section
variable {s : State} {n : Nat}

@[simp] theorem frame_modPort (f : Port → Port) : { s.modPort n f with ports := s.ports } = s := by
  simp only [State.modPort]

theorem sendIdle_of_active {x : Port} (active : x.active = true) (rpl : Bool) :
    x.sendIdle rpl = { x with sent := x.sent ++ [x.idle rpl] } := if_pos active

/-- What asking leaves in the port's registers and on its link. -/
theorem port_portRejects (active : (s.port n).active = true) : (s.portRejects n).port n = { s.port n with
    crcFails := satInc16 (s.port n).crcFails, rx := (s.port n).rx.ask, replays := satInc16 (s.port n).replays
    sent := (s.port n).sent ++ [(s.port n).idle true] } := by
  simp only [State.portRejects, State.portAsks, port_modPort, port_firePort, port_portEvent, if_true]
  exact sendIdle_of_active (by exact active) true

theorem arrived_portRejects : (s.portRejects n).iag.arrived = s.iag.arrived ++ [1056 + 4 * n + 0] := rfl

theorem port_portTakesMessage (raw : BitVec 768) (active : (s.port n).active = true) :
    ∃ given sent, (s.portTakesMessage n raw).port n = { s.port n with
      rx := (s.port n).rx.accepted, ingress := (s.port n).ingress ++ [msgOfBits (rawBody raw)], given, sent } := by
  simp only [State.portTakesMessage, port_modPort, if_true]
  exact ⟨_, _, sendIdle_of_active (by exact active) false⟩

theorem frame_portTakesMessage (raw : BitVec 768) : { s.portTakesMessage n raw with ports := s.ports } = s := by
  simp only [State.portTakesMessage, State.modPort]

end

/-! A link's sender: replay and acknowledgement (R46, R47) -/

section
variable (r : Fin 6) (k : Fin 94) (d : Dir) (q : BitVec 12) (s : State)

theorem exec_linkAcknowledge_ring : exec (.linkAcknowledge (.ring r k d) q) s = .next (s.ringAck r k d q) := rfl
theorem exec_replayAckTimeout_ring :
    exec (.replayAckTimeout (.ring r k d)) s = execReplayAckTimeout (.ring r k d) s := rfl

variable (n : Fin 50)

theorem exec_replayRequest_port : exec (.replayRequest (.port n) q) s = .next (s.portAsked n q) := rfl
theorem exec_linkAcknowledge_port : exec (.linkAcknowledge (.port n) q) s = .next (s.portAck n q) := rfl
theorem exec_replayAckTimeout_port : exec (.replayAckTimeout (.port n)) s = execReplayAckTimeout (.port n) s := rfl

end

/-- A link as the acknowledgement of number `q` leaves it: its receiver must have accepted that number (R46). -/
def LinkSt.acked (l : LinkSt) (q : BitVec 12) : LinkSt :=
  if l.rx.any && seqUpTo q l.rx.ackSeq then { l with tx := l.tx.ack q } else l

theorem replay_ack {α : Type} (t : LinkTx α) (q : BitVec 12) :
    (t.ack q).replay = t.replay.filter fun e => decide (2048 ≤ (q - e.1).toNat) := by
  have kept : t.replay.filter (fun e => !(seqUpTo e.1 q)) = t.replay.filter fun e => decide (2048 ≤ (q - e.1).toNat) := by
    refine List.filter_congr fun e _ => ?_
    rw [seqUpTo, ← decide_not]
    exact decide_eq_decide.mpr Nat.not_lt
  rw [← kept]
  unfold LinkTx.ack
  dsimp only
  split
  · split <;> rfl
  · rfl

theorem next_ack {α : Type} (t : LinkTx α) (q : BitVec 12) : (t.ack q).next = t.next := by
  unfold LinkTx.ack
  dsimp only
  split
  · split <;> rfl
  · rfl

theorem acked_iff (l : LinkSt) (q : BitVec 12) : (l.rx.any && seqUpTo q l.rx.ackSeq) = true
    ↔ l.rx.any = true ∧ (l.rx.exp - 1 - q).toNat < 2048 := by
  rw [Bool.and_eq_true]
  exact and_congr_right fun _ => decide_eq_true_iff

theorem acked_of_not {l : LinkSt} {q : BitVec 12} (h : l.rx.any = false ∨ 2048 ≤ (l.rx.exp - 1 - q).toNat) : l.acked q = l := by
  refine if_neg fun covers => ?_
  obtain ⟨any, accepted⟩ := (acked_iff l q).mp covers
  obtain never | ahead := h
  · simp [any] at never
  · exact absurd accepted (Nat.not_lt.mpr ahead)

theorem rx_acked (l : LinkSt) (q : BitVec 12) : (l.acked q).rx = l.rx := by
  unfold LinkSt.acked
  split <;> rfl

theorem next_acked (l : LinkSt) (q : BitVec 12) : (l.acked q).tx.next = l.tx.next := by
  unfold LinkSt.acked
  split
  · exact next_ack l.tx q
  · rfl

theorem ringAck_eq (s : State) (r k : Nat) (d : Dir) (q : BitVec 12) :
    s.ringAck r k d q = s.modRing r fun x => x.modLink k d fun l => l.acked q := rfl

section
variable {s : State} {r k : Nat} {d : Dir} {q : BitVec 12}

theorem ring_ringAck : (s.ringAck r k d q).ring r = (s.ring r).modLink k d fun l => l.acked q := by
  rw [ringAck_eq, ring_modRing, if_pos rfl]

theorem link_ringAck : ((s.ringAck r k d q).ring r).link k d = ((s.ring r).link k d).acked q := by
  rw [ring_ringAck, link_modLink]

theorem frame_ringAck : { s.ringAck r k d q with rings := s.rings } = s := by
  simp only [ringAck_eq, State.modRing]

/-- A replay request that the receiver has made is taken from the sideband, and the sender resends from it (R46, R47). -/
theorem ringAsked_of_asked (asked : q ∈ ((s.ring r).link k d).rx.requests) : s.ringAsked r k d q
    = s.modRing r fun x => x.modLink k d fun l =>
      { l with rx := { l.rx with requests := takeFirst q l.rx.requests }, tx := l.tx.resend q } := by
  rw [State.ringAsked, if_pos (by simpa using asked), State.ringResend, modRing_modRing]
  simp only [modLink_modLink]

theorem ringAsked_of_unasked (unasked : q ∉ ((s.ring r).link k d).rx.requests) : s.ringAsked r k d q = s := by
  rw [State.ringAsked, if_neg (by simpa using unasked)]

end

/-! A port's sender -/

/-- What sending again puts on the link: nothing while it is not Active (R46, R81). -/
theorem sendAgain_eq (x : Port) (q : BitVec 12) : x.sendAgain q = { x with
    sent := x.sent ++ if x.active = true then (x.tx.replay.filter fun e => seqUpTo q e.1).map fun e => x.slot e.1 e.2
      else [] } := by
  unfold Port.sendAgain
  split
  · rfl
  · rw [List.append_nil]

/-- A port that has begun a resend from number `q` and carried it out (R46, R47, R79). -/
def Port.resends (x : Port) (q : BitVec 12) : Port :=
  { x with tx := { x.tx.resend q with again := none } }.sendAgain q

section
variable (x : Port) (q : BitVec 12)

theorem tx_resends : (x.resends q).tx = { x.tx with
    again := none, named := some q, fails := if x.tx.named = some q then x.tx.fails + 1 else 0 } := by
  unfold Port.resends Port.sendAgain
  split <;> rfl

theorem replays_resends : (x.resends q).replays = x.replays := by
  unfold Port.resends Port.sendAgain
  split <;> rfl

theorem sent_resends : (x.resends q).sent = x.sent ++ (if x.active = true then
    (x.tx.replay.filter fun e => decide ((e.1 - q).toNat < 2048)).map fun e => x.slot e.1 e.2 else []) := by
  rw [Port.resends, sendAgain_eq]
  rfl

variable {s : State} {n : Nat}

theorem portResend_eq : s.portResend n q = s.modPort n fun y => y.resends q := rfl

theorem port_portAsked : (s.portAsked n q).port n
    = { (s.port n).resends q with replays := satInc16 (s.port n).replays } := by
  simp only [State.portAsked, State.portAsks, portResend_eq, port_modPort, port_firePort, port_portEvent, if_true,
    replays_resends]

theorem frame_portAsked : { s.portAsked n q with ports := s.ports, pmc := s.pmc, iag := s.iag } = s := by
  simp only [State.portAsked, State.portAsks, portResend_eq, State.modPort, State.firePort, State.fire, State.portEvent,
    State.pmcEvent]

theorem arrived_portAsked : (s.portAsked n q).iag.arrived = s.iag.arrived ++ [1056 + 4 * n + 0] := rfl

theorem port_portAck (idle : (s.port n).active = false) :
    (s.portAck n q).port n = { s.port n with tx := (s.port n).tx.ack q } := by
  have still_idle : ((s.modPort n fun y => { y with tx := y.tx.ack q }).port n).active = false := by
    rw [port_modPort, if_pos rfl]
    exact idle
  rw [State.portAck, port_egress_of_inactive still_idle, port_modPort, if_pos rfl]

theorem frame_portAck (idle : (s.port n).active = false) : { s.portAck n q with ports := s.ports } = s := by
  have still_idle : ((s.modPort n fun y => { y with tx := y.tx.ack q }).port n).active = false := by
    rw [port_modPort, if_pos rfl]
    exact idle
  exact (congrArg (fun x : State => { x with ports := s.ports }) (frame_egress_of_inactive still_idle)).trans
    (frame_modPort _)

end

/-! The obligation -/

/-- The receiver of a ring segment (R45, R46, R67). -/
theorem ringReceives (r : Fin 6) (k : Fin 94) (d : Dir) (raw : BitVec 768) (s : State) :
    (Ends (.linkFlitReceive (.ring r k d) (.slot raw)) s fun t =>
        { t with rings := s.rings, pmc := s.pmc, iag := s.iag } = s ∧ ∀ j, j ≠ r.val → t.ring j = s.ring j)
    ∧ (∀ b, Idles (.linkFlitReceive (.ring r k d) (.fdi b)) s)
    ∧ (rawGood raw = true → (∀ f, (s.ring r).sends r k d ≠ some (rawSeq raw, f)) →
        ((((s.ring r).link k d).rx.waiting = false ∧ 1 ≤ (((s.ring r).link k d).rx.exp - rawSeq raw).toNat
            ∧ (((s.ring r).link k d).rx.exp - rawSeq raw).toNat ≤ 64)
          ∨ (((s.ring r).link k d).rx.waiting = true ∧ rawSeq raw ≠ ((s.ring r).link k d).rx.exp)) →
        Idles (.linkFlitReceive (.ring r k d) (.slot raw)) s)
    ∧ (s.fclkRuns = true → rawGood raw = false → Ends (.linkFlitReceive (.ring r k d) (.slot raw)) s fun t =>
        (t.ring r).crcFails = (if (s.ring r).crcFails = 0xFFFF then 0xFFFF else (s.ring r).crcFails + 1)
        ∧ (t.ring r).replays = (if (s.ring r).replays = 0xFFFF then 0xFFFF else (s.ring r).replays + 1)
        ∧ ((t.ring r).link k d).rx.waiting = true
        ∧ ((t.ring r).link k d).rx.exp = ((s.ring r).link k d).rx.exp
        ∧ t.iag.arrived = s.iag.arrived ++ [1256 + 8 * r.val])
    ∧ (s.fclkRuns = true → rawGood raw = true → rawSeq raw = ((s.ring r).link k d).rx.exp →
        (s.ring r).sends r k d = some (rawSeq raw, ringFlit raw) →
        Ends (.linkFlitReceive (.ring r k d) (.slot raw)) s fun t =>
          ((t.ring r).link k d).rx.exp = ((s.ring r).link k d).rx.exp + 1
          ∧ ((t.ring r).link k d).rx.waiting = false
          ∧ (((s.ring r).link k d).tx.resending = none →
              ((t.ring r).link k d).tx.replay
                = ((s.ring r).link k d).tx.replay ++ [(((s.ring r).link k d).tx.next, ringFlit raw)]
              ∧ ((t.ring r).link k d).tx.next = ((s.ring r).link k d).tx.next + 1)
          ∧ (((s.ring r).link k d).tx.resending.isSome = true →
              ((t.ring r).link k d).tx.replay = ((s.ring r).link k d).tx.replay
              ∧ ((t.ring r).link k d).tx.next = ((s.ring r).link k d).tx.next)
          ∧ t.iag = s.iag) := by
  have row := exec_linkFlitReceive_ring r k d raw s
  refine ⟨?_, fun b => ?_, fun good unsent other => ?_, fun runs bad => ?_, fun runs good expected sends => ?_⟩
  · cases runs : s.fclkRuns with
    | false =>
      rw [runs, if_pos (by decide)] at row
      exact ends_next row ⟨rfl, fun _ _ => rfl⟩
    | true =>
      rw [runs, if_neg (by decide)] at row
      have only := onlyRing_ringReceive s r k d raw
      exact ends_next row ⟨only.frame, only.others⟩
  · rw [Idles, exec_linkFlitReceive_ringFdi, ite_self]
  · rw [Idles, row, ringReceive_stray good unsent (receive_other other), ite_self]
  · rw [runs, if_neg (by decide)] at row
    obtain ⟨u, rejects, crc, replays, rx, iag⟩ := ringReceive_bad (s := s) (r := r) (k := k) (d := d) bad
    rw [rejects] at row
    refine ends_next row ⟨?_, ?_, ?_, ?_, ?_⟩
    · rw [ring_ringRejects, ← crc]
      exact satInc16_eq _
    · rw [ring_ringRejects, ← replays]
      exact satInc16_eq _
    · rw [ring_ringRejects, link_rejects]
      rfl
    · rw [ring_ringRejects, link_rejects, ← rx]
      rfl
    · rw [arrived_ringRejects, iag]
      rfl
  · rw [runs, if_neg (by decide)] at row
    obtain ⟨link, iag⟩ := ringReceive_crosses good expected sends
    refine ends_next row ⟨?_, ?_, fun new => ?_, fun again => ?_, iag⟩
    · rw [link]
      exact congrArg (fun x : LinkRx => x.exp + 1) (rx_sent _ _ _)
    · rw [link]
      rfl
    · rw [link, replay_accepts, next_accepts, sent_new new]
      exact ⟨rfl, rfl⟩
    · rw [link, replay_accepts, next_accepts, sent_again again]
      exact ⟨rfl, rfl⟩

/-- The sender of a ring segment (R46, R47). -/
theorem ringSends (r : Fin 6) (k : Fin 94) (d : Dir) (q : BitVec 12) (s : State) :
    (q ∉ ((s.ring r).link k d).rx.requests → Idles (.replayRequest (.ring r k d) q) s)
    ∧ (q ∈ ((s.ring r).link k d).rx.requests →
      exec (.replayRequest (.ring r k d) q) s = .next (s.modRing r fun x => x.modLink k d fun l =>
        { l with
          rx := { l.rx with requests := takeFirst q l.rx.requests }
          tx := { l.tx with
            again := some q, named := some q, fails := if l.tx.named = some q then l.tx.fails + 1 else 0 } }))
    ∧ (Ends (.linkAcknowledge (.ring r k d) q) s fun t =>
        ((((s.ring r).link k d).rx.any = true ∧ (((s.ring r).link k d).rx.exp - 1 - q).toNat < 2048) →
          ((t.ring r).link k d).tx.replay
            = ((s.ring r).link k d).tx.replay.filter (fun e => decide (2048 ≤ (q - e.1).toNat)))
        ∧ ((((s.ring r).link k d).rx.any = false ∨ 2048 ≤ (((s.ring r).link k d).rx.exp - 1 - q).toNat) →
          (t.ring r).link k d = (s.ring r).link k d)
        ∧ ((t.ring r).link k d).tx.next = ((s.ring r).link k d).tx.next
        ∧ ((t.ring r).link k d).rx = ((s.ring r).link k d).rx ∧ (t.ring r).transit = (s.ring r).transit
        ∧ { t with rings := s.rings } = s)
    ∧ (((s.ring r).link k d).tx.replay = [] → Idles (.replayAckTimeout (.ring r k d)) s)
    ∧ (∀ e rest, ((s.ring r).link k d).tx.replay = e :: rest →
        exec (.replayAckTimeout (.ring r k d)) s = .next (s.modRing r fun x => x.modLink k d fun l =>
          { l with tx := { l.tx with
              again := some e.1, named := some e.1
              fails := if l.tx.named = some e.1 then l.tx.fails + 1 else 0 } })) := by
  refine ⟨fun unasked => ?_, fun asked => ?_, ?_, fun empty => ?_, fun e rest oldest => ?_⟩
  · exact congrArg _ (ringAsked_of_unasked unasked)
  · exact congrArg _ (ringAsked_of_asked asked)
  · refine ends_next (exec_linkAcknowledge_ring r k d q s) ⟨fun covered => ?_, fun uncovered => ?_, ?_, ?_, ?_, frame_ringAck⟩
    · rw [link_ringAck, LinkSt.acked, if_pos ((acked_iff ..).mpr covered)]
      exact replay_ack ..
    · rw [link_ringAck, acked_of_not uncovered]
    · rw [link_ringAck, next_acked]
    · rw [link_ringAck, rx_acked]
    · rw [ring_ringAck]
      rfl
  · rw [Idles, exec_replayAckTimeout_ring]
    simp only [execReplayAckTimeout, empty]
  · rw [exec_replayAckTimeout_ring]
    simp only [execReplayAckTimeout, oldest]
    rfl

/-- Settles O6: a receiver's three cases are those of `LinkRx.receive`; a sender's are `ringSends` and, at a port, the
equations of `Port.resends` and `LinkTx.ack`. -/
theorem linksNumberAndReplayFlits : Obligations.LinksNumberAndReplayFlits := by
  unfold Obligations.LinksNumberAndReplayFlits
  refine ⟨⟨ringReceives, fun n raw s => ⟨fun gated => ⟨?_, fun b => ?_⟩, fun runs active up => ?_⟩⟩, ringSends,
    fun n q s => ⟨?_, fun idle => ?_, fun empty => ?_, fun e rest oldest => ?_⟩⟩
  · rw [Idles, exec_linkFlitReceive_port]
    obtain idle | stopped := gated
    · rw [portReceive_of_inactive idle, ite_self]
    · rw [stopped, if_pos (by decide)]
  · rw [Idles, exec_linkFlitReceive_portFdi]
    obtain idle | stopped := gated
    · rw [fdiReceive_of_inactive idle, ite_self]
    · rw [stopped, if_pos (by decide)]
  · have row := exec_linkFlitReceive_port n raw s
    rw [runs, if_neg (by decide)] at row
    refine ⟨fun slot bad => ?_, fun slot bad => ?_, fun slot good expected no_ack no_request => ?_⟩
    · rw [row, portReceive_badIdle active up slot bad]
    · rw [portReceive_bad active up slot bad] at row
      refine ends_next row ?_
      rw [port_portRejects active]
      exact ⟨rfl, rfl, rfl, rfl, rfl, rfl, arrived_portRejects⟩
    · rw [portReceive_message active up slot good expected no_ack no_request] at row
      obtain ⟨given, sent, port⟩ := port_portTakesMessage raw active
      refine ends_next row ?_
      rw [port]
      exact ⟨rfl, rfl, rfl, rfl, frame_portTakesMessage raw⟩
  · refine ends_next (exec_replayRequest_port q s n) ?_
    rw [port_portAsked]
    exact ⟨tx_resends .., sent_resends .., rfl, arrived_portAsked q, frame_portAsked q⟩
  · refine ends_next (exec_linkAcknowledge_port q s n) ?_
    rw [port_portAck q idle]
    exact ⟨replay_ack .., next_ack .., rfl, frame_portAck q idle⟩
  · rw [Idles, exec_replayAckTimeout_port]
    simp only [execReplayAckTimeout, empty]
  · have row := exec_replayAckTimeout_port s n
    simp only [execReplayAckTimeout, oldest, portResend_eq] at row
    refine ends_next row ⟨?_, frame_modPort _⟩
    rw [port_modPort, if_pos rfl, tx_resends]

end Sys2Proof.Machine
end

section
/-! SUPPORT. Die and I/O links: control slots, entry to Active, and links taken down (R46, R47, R76, R80 to R82, R370). -/

namespace Sys2Proof.Machine

open Sys2Proof

/-! Link credits (R80) -/

/-- Reading a table of numbers after a pass that rewrites each of some keys once. -/
theorem get_foldl_set (g : Nat → Nat → Nat) {l : List Nat} (once : l.Nodup) (m : NMap Nat) (c : Nat) :
    NMap.get zeroNat (l.foldl (fun m c => NMap.set zeroNat m c (g c (m.get zeroNat c))) m) c
      = if c ∈ l then g c (m.get zeroNat c) else m.get zeroNat c := by
  induction l generalizing m with
  | nil => rfl
  | cons a l ih =>
    obtain ⟨fresh, once⟩ := List.nodup_cons.mp once
    rw [List.foldl_cons, ih once]
    by_cases same : a = c
    · subst same
      rw [if_neg fresh, NMap.get_set_self, if_pos List.mem_cons_self]
    · rw [NMap.get_set_ne _ _ _ same]
      simp only [List.mem_cons, Ne.symm same, false_or]

theorem creds_control (x : Port) (init : Bool) (counts : List Nat) {c : Nat} (class_ : c < 6) :
    (x.control init counts).creds.get zeroNat c = (if init = true then 0 else x.creds.get zeroNat c) + counts.getD c 0 :=
  (get_foldl_set (fun c old => (if init then 0 else old) + counts.getD c 0) List.nodup_range x.creds c).trans
    (if_pos (List.mem_range.mpr class_))

theorem give_of_nothing {x : Port} (none_owed : x.owed = []) (no_grant : x.oweInit = false) : x.give = x := by
  simp [Port.give, none_owed, no_grant]

theorem creds_give (x : Port) : x.give.creds = x.creds := by rw [give_eq]
theorem stop_give (x : Port) : x.give.stop = x.stop := by rw [give_eq]
theorem rx_give (x : Port) : x.give.rx = x.rx := by rw [give_eq]

/-- A grant for each class goes out in a numbered slot, where the replay buffer has room (R80). -/
theorem give_of_grant {x : Port} (active : x.active = true) (room : x.tx.replay.length < 64) (grant : x.oweInit = true) :
    x.give = { x.sendSlot (.control true ((List.range 6).map fun c => x.owed.get zeroNat c)) with
      oweInit := false, owed := []
      given := (List.range 6).foldl (fun m c =>
        NMap.set zeroNat m c (0 + ((List.range 6).map fun c => x.owed.get zeroNat c).getD c 0)) x.given } := by
  have not_full : x.tx.full = false := decide_eq_false (Nat.not_le.mpr room)
  simp only [Port.give, active, not_full, grant, Bool.not_true, Bool.false_and, Bool.or_false, Bool.false_eq_true,
    if_false, if_true]

/-! What egress changes (R80, R82) -/

/-- Only port `n`, without the receiver of its link, and counters differ. -/
structure State.SendsAt (s : State) (n : Nat) (t : State) : Prop where
  outside : t.besidesPorts = s.besidesPorts
  others : ∀ j, j ≠ n → t.port j = s.port j
  rx : (t.port n).rx = (s.port n).rx

namespace State.SendsAt

theorem refl (s : State) (n : Nat) : s.SendsAt n s := ⟨rfl, fun _ _ => rfl, rfl⟩

theorem trans {s t u : State} {n : Nat} (h : s.SendsAt n t) (h' : t.SendsAt n u) : s.SendsAt n u :=
  ⟨h'.outside.trans h.outside, fun j other => (h'.others j other).trans (h.others j other), h'.rx.trans h.rx⟩

theorem modPort (s : State) (n : Nat) {f : Port → Port} (keeps : (f (s.port n)).rx = (s.port n).rx) :
    s.SendsAt n (s.modPort n f) :=
  ⟨besidesPorts_modPort .., fun j other => (port_modPort ..).trans (if_neg other.symm), by
    rw [port_modPort, if_pos rfl, keeps]⟩

theorem portEvent (s : State) (n code amount : Nat) : s.SendsAt n (s.portEvent n code amount) :=
  ⟨besidesPorts_portEvent .., fun _ _ => port_portEvent .., congrArg Port.rx (port_portEvent ..)⟩

end State.SendsAt

/-- A port that has sent the front message of an ejection queue on its link, `rest` left (R80, R82, R87). -/
def Port.sendsFront (x : Port) (key : Nat) (e : Ejected) (rest : List Ejected) : Port :=
  let m := if isNCR e.msg.dst.toNat then { e.msg with txn := e.msg.txn &&& 0x7FF } else e.msg
  { x with
    stop := { x.stop with eject := x.stop.eject.set noEjected key rest }
    creds := x.creds.set zeroNat e.msg.cls.toNat (x.creds.get zeroNat e.msg.cls.toNat - 1) }.sendSlot (.message e.dest m)

section
variable {s : State} {n key : Nat}

theorem egressOne_of_empty (empty : (s.port n).stop.eject.get noEjected key = []) : s.egressOne n key = s := by
  simp only [State.egressOne, empty]

theorem egressOne_of_front {e : Ejected} {rest : List Ejected} (front : (s.port n).stop.eject.get noEjected key = e :: rest) :
    s.egressOne n key = if !(s.port n).active || (s.port n).creds.get zeroNat e.msg.cls.toNat = 0 || (s.port n).tx.full then s
      else (s.modPort n fun x => x.sendsFront key e rest).portEvent n 0x02 := by
  simp only [State.egressOne, front]
  rfl

theorem sendsAt_egressOne (s : State) (n key : Nat) : s.SendsAt n (s.egressOne n key) := by
  cases front : (s.port n).stop.eject.get noEjected key with
  | nil =>
    rw [egressOne_of_empty front]
    exact .refl ..
  | cons e rest =>
    rw [egressOne_of_front front]
    split
    · exact .refl ..
    · exact (State.SendsAt.modPort _ _ rfl).trans (State.SendsAt.portEvent ..)

theorem sendsAt_egress (s : State) (n : Nat) : s.SendsAt n (s.egress n) := by
  unfold State.egress
  split
  · refine foldl_inv (fun t => s.SendsAt n t) _ (fun t key sent => ?_) _ _ (.modPort _ _ (rx_give _))
    exact foldl_inv (fun t => s.SendsAt n t) _ (fun u _ sent => sent.trans (sendsAt_egressOne u n key)) _ _ sent
  · exact .refl ..

/-- With empty ejection queues a link port only gives back credits. -/
theorem egress_of_empty (link : isLinkPort n = true) (empty : (s.port n).stop.eject = []) :
    s.egress n = s.modPort n Port.give := by
  rw [State.egress, if_pos link, empty]
  rfl

/-- One message that waits alone, with a credit and room, goes out; nothing else is owed (R80, R82). -/
theorem egress_of_one {e : Ejected} (link : isLinkPort n = true) (active : (s.port n).active = true)
    (alone : (s.port n).stop.eject = [(key, [e])]) (none_owed : (s.port n).owed = []) (no_grant : (s.port n).oweInit = false)
    (room : (s.port n).tx.replay.length < 64) (credit : 0 < (s.port n).creds.get zeroNat e.msg.cls.toNat) :
    s.egress n = ((s.modPort n Port.give).modPort n fun x => x.sendsFront key e []).portEvent n 0x02 := by
  have given : (s.modPort n Port.give).port n = s.port n := by
    rw [port_modPort, if_pos rfl, give_of_nothing none_owed no_grant]
  have front : ((s.modPort n Port.give).port n).stop.eject.get noEjected key = [e] := by
    rw [given, alone]
    exact if_pos rfl
  have not_full : (s.port n).tx.full = false := decide_eq_false (Nat.not_le.mpr room)
  have sends := egressOne_of_front front
  rw [given, active, not_full, decide_eq_false (Nat.ne_of_gt credit)] at sends
  have sends := sends.trans (if_neg (by decide))
  have rounds : (s.port n).stop.eject.map (·.1) = [key] := by rw [alone]; rfl
  rw [State.egress, if_pos link, rounds, List.foldl_cons, List.foldl_nil, List.range_succ_eq_map, List.foldl_cons, sends]
  refine List.foldl_fixed' (fun _ => egressOne_of_empty ?_) _
  simp only [port_portEvent, port_modPort, if_true, Port.sendsFront, Port.sendSlot, NMap.get_set_self]

end

/-! DIE_LINK_CONTROL_SLOT -/

theorem exec_dieLinkControlSlot (n : Fin 50) (init : Bool) (counts : List Nat) (s : State) :
    exec (.dieLinkControlSlot n init counts) s = .next (if isLinkPort n && !(s.port n).down && (s.port n).active then
      (s.modPort n fun x => x.control init counts).egress n else s) := rfl

section
variable {n : Fin 50} {init : Bool} {counts : List Nat} {s : State}

theorem dieLinkControlSlot_idles (h : isLinkPort n = false ∨ (s.port n).down = true ∨ (s.port n).active = false) :
    Idles (.dieLinkControlSlot n init counts) s := by
  rw [Idles, exec_dieLinkControlSlot]
  refine congrArg _ (if_neg ?_)
  obtain unlinked | down | idle := h
  · simp [unlinked]
  · simp [down]
  · simp [idle]

variable (link : isLinkPort n = true) (up : (s.port n).down = false) (active : (s.port n).active = true)
include link up active

theorem exec_dieLinkControlSlot_active : exec (.dieLinkControlSlot n init counts) s
    = .next ((s.modPort n fun x => x.control init counts).egress n) := by
  rw [exec_dieLinkControlSlot, link, up, active]
  rfl

theorem dieLinkControlSlot_frame : Ends (.dieLinkControlSlot n init counts) s fun t =>
    (∀ j, j ≠ n.val → t.port j = s.port j) ∧ (t.port n).rx = (s.port n).rx
      ∧ { t with ports := s.ports, pmc := s.pmc } = s := by
  have sends := (State.SendsAt.modPort s n.val (f := fun x => x.control init counts) rfl).trans (sendsAt_egress _ n.val)
  exact ends_next (exec_dieLinkControlSlot_active link up active)
    ⟨sends.others, sends.rx, eq_of_besidesPorts_eq sends.outside⟩

theorem dieLinkControlSlot_credits (empty : (s.port n).stop.eject = []) : Ends (.dieLinkControlSlot n init counts) s fun t =>
    (∀ c, c < 6 → (t.port n).creds.get zeroNat c
      = (if init = true then 0 else (s.port n).creds.get zeroNat c) + counts.getD c 0)
    ∧ (t.port n).stop = (s.port n).stop ∧ { t with ports := s.ports } = s := by
  have kept : ((s.modPort n fun x => x.control init counts).port n).stop.eject = [] := by
    rw [port_modPort, if_pos rfl]
    exact empty
  have row := exec_dieLinkControlSlot_active (init := init) (counts := counts) link up active
  rw [egress_of_empty link kept] at row
  refine ends_next row ⟨fun c class_ => ?_, ?_, by simp only [State.modPort]⟩
  · simp only [port_modPort, if_true, creds_give, creds_control _ _ _ class_]
  · simp only [port_modPort, if_true, stop_give]
    rfl

theorem dieLinkControlSlot_sends {key : Nat} {e : Ejected} (alone : (s.port n).stop.eject = [(key, [e])])
    (none_owed : (s.port n).owed = []) (no_grant : (s.port n).oweInit = false) (room : (s.port n).tx.replay.length < 64)
    (class_ : e.msg.cls.toNat < 6) (other : isNCR e.msg.dst.toNat = false)
    (credit : 0 < (if init = true then 0 else (s.port n).creds.get zeroNat e.msg.cls.toNat)
      + counts.getD e.msg.cls.toNat 0) : Ends (.dieLinkControlSlot n init counts) s fun t =>
        (t.port n).stop.eject.get noEjected key = []
        ∧ (t.port n).sent = (s.port n).sent ++ [(s.port n).slot (s.port n).tx.next (.message e.dest e.msg)]
        ∧ (t.port n).tx.replay = (s.port n).tx.replay ++ [((s.port n).tx.next, .message e.dest e.msg)]
        ∧ (t.port n).creds.get zeroNat e.msg.cls.toNat
          = (if init = true then 0 else (s.port n).creds.get zeroNat e.msg.cls.toNat)
            + counts.getD e.msg.cls.toNat 0 - 1 := by
  have port : (s.modPort n fun x => x.control init counts).port n = (s.port n).control init counts := by
    rw [port_modPort, if_pos rfl]
  have row := exec_dieLinkControlSlot_active (init := init) (counts := counts) link up active
  rw [egress_of_one link (by rwa [port]) (by rwa [port]) (by rwa [port]) (by rwa [port]) (by rwa [port])
    (by rw [port, creds_control _ _ _ class_]; exact credit)] at row
  refine ends_next row ?_
  have given : ((s.port n).control init counts).give = (s.port n).control init counts := give_of_nothing none_owed no_grant
  simp only [port_portEvent, port_modPort, if_true, given, Port.sendsFront, other, Bool.false_eq_true, if_false,
    Port.sendSlot, NMap.get_set_self, creds_control _ _ _ class_]
  exact ⟨trivial, rfl, rfl, trivial⟩

end

/-! LINK_ACTIVE_ENTRY and LINK_ACTIVE_EXIT (R77, R80, R81) -/

/-- The unacknowledged slots of a port's link, as it sends them again from the oldest on (R46, R81). -/
def Port.unacknowledged (x : Port) : List (BitVec 768) :=
  match x.tx.replay with
  | [] => []
  | e :: rest => ((e :: rest).filter fun f => seqUpTo e.1 f.1).map fun f => x.slot f.1 f.2

/-- Sixteen link credits of each class (R80). -/
def sixteenEach : NMap Nat := (List.range 6).foldl (fun m c => NMap.set zeroNat m c 16) []

theorem map_sixteenEach : (List.range 6).map (fun c => sixteenEach.get zeroNat c) = List.replicate 6 16 := by decide

/-- A port as it enters Active, its grant not yet sent. -/
def Port.aligned (x : Port) : Port := { x with
  active := true, exitAt := none, creds := [], fdi := [], sent := x.unacknowledged, oweInit := true, owed := sixteenEach }

theorem enterActive_eq (x : Port) : x.enterActive = x.aligned.give := by
  unfold Port.enterActive
  dsimp only
  split
  · next seq b rest oldest =>
    rw [sendAgain_eq, if_pos rfl, List.nil_append]
    simp only [Port.aligned, Port.unacknowledged, oldest]
    rfl
  · next empty =>
    simp only [Port.aligned, Port.unacknowledged, empty]
    rfl

section
variable {x : Port}

theorem enterActive_resets : x.enterActive.active = true ∧ x.enterActive.exitAt = none ∧ x.enterActive.creds = []
    ∧ x.enterActive.fdi = [] ∧ x.enterActive.rx = x.rx ∧ x.enterActive.stop = x.stop := by
  rw [enterActive_eq, give_eq]
  exact ⟨rfl, rfl, rfl, rfl, rfl, rfl⟩

/-- The grant goes out behind the slots that are sent again, where there is room for it. -/
theorem enterActive_grants (room : x.tx.replay.length < 64) :
    x.enterActive.sent = x.unacknowledged ++ [x.slot x.tx.next (.control true (List.replicate 6 16))]
    ∧ ∀ c, c < 6 → x.enterActive.given.get zeroNat c = 16 := by
  rw [enterActive_eq, give_of_grant (x := x.aligned) rfl room rfl]
  have counts : ((List.range 6).map fun c => x.aligned.owed.get zeroNat c) = List.replicate 6 16 := map_sixteenEach
  rw [counts]
  refine ⟨by simp only [Port.sendSlot, Port.slot, Port.aligned], fun c class_ => ?_⟩
  rw [get_foldl_set (fun c _ => 0 + (List.replicate 6 16).getD c 0) List.nodup_range, if_pos (List.mem_range.mpr class_)]
  interval_cases c <;> rfl

end

theorem exec_linkActiveEntry (n : Fin 50) (s : State) : exec (.linkActiveEntry n) s
    = .next (if s.fclkRuns = true ∧ isLinkPort n ∧ (s.port n).down = false ∧ (s.port n).active = false then
        (if (s.port n).exitAt.isSome then (s.modPort n Port.enterActive).firePort n 3 else s.modPort n Port.enterActive)
      else s) := rfl

theorem exec_linkActiveExit (n : Fin 50) (s : State) : exec (.linkActiveExit n) s
    = .next (if isLinkPort n ∧ (s.port n).active = true then
        s.modPort n fun x => { x with active := false, exitAt := some s.time } else s) := rfl

theorem linkActiveEntry_enters {n : Fin 50} {s : State} (runs : s.fclkRuns = true) (link : isLinkPort n = true)
    (up : (s.port n).down = false) (idle : (s.port n).active = false) : Ends (.linkActiveEntry n) s fun t =>
      t.port n = (s.port n).enterActive
      ∧ t.iag.arrived = s.iag.arrived ++ (if (s.port n).exitAt.isSome then [1056 + 4 * n.val + 3] else [])
      ∧ { t with ports := s.ports, iag := s.iag } = s := by
  have row := exec_linkActiveEntry n s
  rw [if_pos ⟨runs, link, up, idle⟩] at row
  refine ends_next row ?_
  split
  · refine ⟨?_, rfl, by simp only [State.firePort, State.fire, State.modPort]⟩
    rw [port_firePort, port_modPort, if_pos rfl]
  · refine ⟨?_, ?_, by simp only [State.modPort]⟩
    · rw [port_modPort, if_pos rfl]
    · rw [List.append_nil]
      rfl

/-! LINK_DOWN and LINK_ACTIVE_TIMEOUT (R47, R81, R370) -/

/-- A port whose link has been taken down (R370). -/
def Port.takenDown (x : Port) : Port := { x with
  down := true, active := false, exitAt := none
  stop := { x.stop with eject := NMap.mapv noEjected (fun _ l => l.filter forDead) x.stop.eject } }

/-- The state in which the link of port `n` is down, before its agents' answers are given. -/
def State.linkLost (s : State) (n : Nat) : State :=
  ((s.modPort n Port.takenDown).record { cls := 1, unit := 2, index := n, code := 0x28 }).firePort n 1

section
variable {s : State} {n : Nat}

theorem linkDown_idles (h : (s.port n).down = true ∨ isLinkPort n = false) : s.linkDown n = s := by
  simp only [State.linkDown, h, if_true]

theorem linkLost_eq : s.linkLost n = ((s.modPort n Port.takenDown).modRas fun x => { x with inflight := x.inflight ++
    [{ cls := 1, unit := 2, index := n, code := 0x28, time := s.time, eclk := s.eclk }] }).firePort n 1 := by
  rw [State.linkLost, record_contained _ _ rfl (show (0x28 : BitVec 8) ≠ 0x02 by decide)]
  rfl

theorem slices_linkLost : (s.linkLost n).slices = s.slices := by
  rw [linkLost_eq]
  rfl

/-- With no tracker in use no answer of a dead agent is awaited. -/
theorem linkDown_of_unused (up : (s.port n).down = false) (link : isLinkPort n = true) (unused : ∀ p, (s.slice p).used = []) :
    s.linkDown n = s.linkLost n := by
  rw [State.linkDown, if_neg (by simp [up, link])]
  refine List.foldl_fixed' (a := s.linkLost n) (fun p => ?_) _
  have still_unused : ((s.linkLost n).slice p).used = [] := by
    rw [State.slice, slices_linkLost]
    exact unused p
  rw [still_unused]
  rfl

theorem port_linkLost : (s.linkLost n).port n = (s.port n).takenDown := by
  rw [linkLost_eq, port_firePort]
  exact (port_modPort ..).trans (if_pos rfl)

theorem linkLost_reports : (s.linkLost n).iag.arrived = s.iag.arrived ++ [1056 + 4 * n + 1]
    ∧ ∃ e : ErrRec, (s.linkLost n).ras.inflight = s.ras.inflight ++ [e] ∧ e.cls = 1 ∧ e.unit = 2 ∧ e.index = n ∧ e.code = 0x28 := by
  rw [linkLost_eq]
  simp only [State.firePort, State.fire, State.modRas, State.modPort, true_and]
  exact ⟨_, rfl, rfl, rfl, rfl, rfl⟩

end

theorem exec_linkDown (n : Fin 50) (s : State) : exec (.linkDown n) s
    = .next (if 8 ≤ (s.port n).tx.fails ∨ 8 ≤ (s.port n).rx.fails then s.linkDown n else s) := rfl

theorem exec_linkActiveTimeout_of_none {n : Fin 50} {s : State} (present : (s.port n).exitAt = none) :
    exec (.linkActiveTimeout n) s = .next s := by
  rw [show exec (.linkActiveTimeout n) s = execLinkActiveTimeout n s from rfl, execLinkActiveTimeout, present]

theorem exec_linkActiveTimeout_of_exit {n : Fin 50} {s : State} {a : Nat} (left : (s.port n).exitAt = some a) :
    exec (.linkActiveTimeout n) s = .next (if s.pwr.state = 0 ∧ a + 100 ≤ s.time then s.linkDown n else s) := by
  rw [show exec (.linkActiveTimeout n) s = execLinkActiveTimeout n s from rfl, execLinkActiveTimeout, left]

theorem linkActiveTimeout_idles {n : Fin 50} {s : State} (h : (s.port n).exitAt = none ∨ s.pwr.state ≠ 0
    ∨ (s.port n).down = true ∨ isLinkPort n = false) : Idles (.linkActiveTimeout n) s := by
  cases left : (s.port n).exitAt with
  | none => exact exec_linkActiveTimeout_of_none left
  | some a =>
    rw [Idles, exec_linkActiveTimeout_of_exit left]
    obtain present | gated | down := h
    · simp [left] at present
    · rw [if_neg fun due => gated due.1]
    · rw [linkDown_idles down, ite_self]

/-- A link that is not down is taken down by its eighth failed resend, or 100 ticks after it left Active (R47, R81). -/
theorem exec_takesDown {n : Fin 50} {s : State} {i : Instr}
    (due : (i = .linkDown n ∧ (8 ≤ (s.port n).tx.fails ∨ 8 ≤ (s.port n).rx.fails))
      ∨ (i = .linkActiveTimeout n ∧ s.pwr.state = 0 ∧ ∃ a, (s.port n).exitAt = some a ∧ a + 100 ≤ s.time)) :
    exec i s = .next (s.linkDown n) := by
  obtain ⟨rfl, fails⟩ | ⟨rfl, run, a, left, late⟩ := due
  · rw [exec_linkDown, if_pos fails]
  · rw [exec_linkActiveTimeout_of_exit left, if_pos ⟨run, late⟩]

end Sys2Proof.Machine
end

section
/-! SUPPORT. What the port of a dead agent answers (R70, R148, R370), and link ports as a whole (O11). -/

namespace Sys2Proof.Machine

open Sys2Proof

/-! Answering a message in place of an agent (R370) -/

theorem pull_of_absent {x : StopSt} {m : Msg} (absent : ∀ e ∈ x.eject, ∀ y ∈ e.2, y.msg ≠ m) : x.pull m = none := by
  have nowhere : x.eject.find? (fun k => k.2.any fun e => e.msg == m) = none := by
    simpa using absent
  rw [StopSt.pull, nowhere]

/-- The first copy of a message leaves the only queue that holds any. -/
theorem pull_of_only {x : StopSt} {m : Msg} {k : Nat} {l : List Ejected} {e : Ejected} (only : x.eject = [(k, l)])
    (found : l.find? (fun e => e.msg == m) = some e) :
    x.pull m = some (e, { x with eject := x.eject.set noEjected k (takeFirst e l) }) := by
  have held : l.any (fun e => e.msg == m) = true :=
    List.any_eq_true.mpr ⟨e, List.mem_of_find?_eq_some found, List.find?_some (p := fun e : Ejected => e.msg == m) found⟩
  simp only [StopSt.pull, only, List.find?_cons, held, found, Option.map_some]

/-- A message that R171 does not count only joins the outbox, for the slice that the port's copy names. -/
theorem sendHome_uncounted (s : State) {n : Nat} (m : Msg) (valid : n < 50) (uncounted : counted m = false) :
    s.sendHome n m = s.modPort n fun x =>
      { x with stop := { x.stop with outbox := x.stop.outbox ++ [flitOf m (s.physFor n m)] } } := by
  simp only [State.sendHome, uncounted, Bool.false_eq_true, if_false, valid, dite_true, State.modStop, State.physFor]

theorem deadAgentForward_idles {n : Fin 50} {m : Msg} {s : State}
    (h : (s.port n).down = false ∨ (s.port n).stop.pull m = none) : Idles (.deadAgentForward n m) s := by
  refine congrArg Host.Outcome.next ?_
  obtain up | absent := h
  · exact if_pos up
  · rw [absent]
    exact ite_self _

section
variable {n : Fin 50} {m : Msg} {s : State} {e : Ejected} {x : StopSt}
  (down : (s.port n).down = true) (pulled : (s.port n).stop.pull m = some (e, x))
include down pulled

theorem exec_deadAgentForward_pulled : exec (.deadAgentForward n m) s = .next ((deadReplies e.dest m).foldl
    (fun s r => if r.dst = 1023 then s.sendHome n r else s.sendNode n r) (s.modPort n fun y => { y with stop := x })) := by
  refine congrArg Host.Outcome.next ?_
  rw [if_neg (by simp [down]), pulled]

/-- One answer, to the home. -/
theorem deadAgentForward_answersHome {r : Msg} (replies : deadReplies e.dest m = [r]) (to_home : r.dst = 1023)
    (uncounted : counted r = false) : Ends (.deadAgentForward n m) s fun t =>
      (t.port n).stop = { x with outbox := x.outbox ++ [flitOf r (s.physFor n r)] } ∧ { t with ports := s.ports } = s := by
  have row := exec_deadAgentForward_pulled down pulled
  rw [replies, List.foldl_cons, List.foldl_nil, if_pos to_home, sendHome_uncounted _ _ n.isLt uncounted, State.physFor,
    copy_modPort _ _ _ rfl rfl, ← State.physFor] at row
  exact ends_next row ⟨by simp only [port_modPort, if_true], by simp only [State.modPort]⟩

/-- Data to the requester, then the answer to the home. -/
theorem deadAgentForward_answersBoth {d r : Msg} (replies : deadReplies e.dest m = [d, r]) (to_requester : d.dst ≠ 1023)
    (to_home : r.dst = 1023) (uncounted : counted r = false) : Ends (.deadAgentForward n m) s fun t =>
      (t.port n).stop = { x with outbox := x.outbox ++ [flitOf d 0, flitOf r (s.physFor n r)] }
      ∧ { t with ports := s.ports } = s := by
  have row := exec_deadAgentForward_pulled down pulled
  rw [replies, List.foldl_cons, List.foldl_cons, List.foldl_nil, if_neg to_requester, if_pos to_home,
    sendHome_uncounted _ _ n.isLt uncounted, State.physFor, State.sendNode, copy_modPort _ _ _ rfl rfl,
    copy_modPort _ _ _ rfl rfl, ← State.physFor] at row
  refine ends_next row ⟨?_, by simp only [State.modPort]⟩
  simp only [port_modPort, if_true, List.append_assoc, List.singleton_append]

end

section
variable {g : BitVec 10} {m : Msg}

theorem deadReplies_invalidation (inv : m.opc = 0x23 ∨ (m.opc = 0x24 ∧ m.dst = 1022)) :
    deadReplies g m = [{ mkMsg 0x29 g 1023 with home := m.home, addr := m.addr, htag := m.htag }] := by
  obtain opc | ⟨opc, vector⟩ := inv
  · simp [deadReplies, opc]
  · simp [deadReplies, opc, vector]

theorem deadReplies_recall (owned : m.opc = 0x25 ∨ (m.opc = 0x24 ∧ m.dst ≠ 1022)) :
    deadReplies g m = [{ mkMsg 0x3C g 1023 with home := m.home, addr := m.addr, htag := m.htag, poison := 0xFF }] := by
  obtain opc | ⟨opc, owner⟩ := owned
  · simp [deadReplies, opc]
  · simp only [deadReplies, opc, owner, if_false]
    rfl

theorem deadReplies_fwdShared (fwd : m.opc = 0x21) : deadReplies g m
    = [{ mkMsg 0x39 g m.reqid with txn := m.txn, home := m.home, addr := m.addr, poison := 0xFF },
      { mkMsg 0x3B g 1023 with home := m.home, addr := m.addr, htag := m.htag, poison := 0xFF }] := by
  simp [deadReplies, fwd]

end

theorem linkActiveEntry_idles {n : Fin 50} {s : State} (h : s.fclkRuns = false ∨ isLinkPort n = false
    ∨ (s.port n).down = true ∨ (s.port n).active = true) : Idles (.linkActiveEntry n) s := by
  rw [Idles, exec_linkActiveEntry]
  refine congrArg _ (if_neg ?_)
  rintro ⟨runs, link, up, idle⟩
  simp [runs, link, up, idle] at h

theorem linkActiveExit_idles {n : Fin 50} {s : State} (h : isLinkPort n = false ∨ (s.port n).active = false) :
    Idles (.linkActiveExit n) s := by
  rw [Idles, exec_linkActiveExit]
  refine congrArg _ (if_neg ?_)
  rintro ⟨link, active⟩
  simp [link, active] at h

theorem exec_linkActiveExit_active {n : Fin 50} {s : State} (link : isLinkPort n = true) (active : (s.port n).active = true) :
    exec (.linkActiveExit n) s = .next (s.modPort n fun x => { x with active := false, exitAt := some s.time }) := by
  rw [exec_linkActiveExit, if_pos ⟨link, active⟩]

theorem linkDown_row_idles {n : Fin 50} {s : State} (h : (s.port n).down = true ∨ isLinkPort n = false
    ∨ ((s.port n).tx.fails < 8 ∧ (s.port n).rx.fails < 8)) : Idles (.linkDown n) s := by
  rw [Idles, exec_linkDown]
  obtain down | unlinked | ⟨sender, receiver⟩ := h
  · rw [linkDown_idles (.inl down), ite_self]
  · rw [linkDown_idles (.inr unlinked), ite_self]
  · rw [if_neg (by omega)]

theorem linkActiveTimeout_waits {n : Fin 50} {s : State} {a : Nat} (left : (s.port n).exitAt = some a)
    (early : s.time < a + 100) : Idles (.linkActiveTimeout n) s := by
  rw [Idles, exec_linkActiveTimeout_of_exit left, if_neg fun due => Nat.not_le.mpr early due.2]

theorem unacknowledged_of_empty {x : Port} (empty : x.tx.replay = []) : x.unacknowledged = [] := by
  rw [Port.unacknowledged, empty]

theorem unacknowledged_of_oldest {x : Port} {e : BitVec 12 × SlotBody} {rest : List (BitVec 12 × SlotBody)}
    (buffer : x.tx.replay = e :: rest) : x.unacknowledged
      = ((e :: rest).filter fun f => decide ((f.1 - e.1).toNat < 2048)).map fun f => x.slot f.1 f.2 := by
  rw [Port.unacknowledged, buffer]
  rfl

/-- Settles O11: an active link works on the credits a control slot brings; entry sends the unacknowledged slots and then
the grant; a link taken down reports itself; and the port of a dead agent takes out the first copy of a message and
queues what R148 and R370 answer. -/
theorem dieLinksAndDeadAgents : Obligations.DieLinksAndDeadAgents := by
  refine ⟨fun n s => ⟨fun init counts => dieLinkControlSlot_idles, fun init counts link up active =>
      ⟨dieLinkControlSlot_frame link up active, dieLinkControlSlot_credits link up active,
        fun key e => dieLinkControlSlot_sends link up active⟩,
    linkActiveEntry_idles, fun runs link up idle => ?_, linkActiveExit_idles, exec_linkActiveExit_active,
    linkDown_row_idles, fun i due up link unused => ?_, linkActiveTimeout_idles, fun a => linkActiveTimeout_waits⟩,
    fun n m s => ⟨fun up => deadAgentForward_idles (.inl up),
      fun absent => deadAgentForward_idles (.inr (pull_of_absent absent)), fun k l x down only found => ?_⟩⟩
  · obtain ⟨t, row, port, arrived, rest⟩ := linkActiveEntry_enters runs link up idle
    obtain ⟨active, present, creds, fdi, rx, stop⟩ := enterActive_resets (x := s.port n)
    refine ends_next row ?_
    rw [port]
    refine ⟨active, present, creds, fdi, rx, stop, fun empty => ?_, fun e older buffer room => ?_,
      fun room => (enterActive_grants room).2, arrived, rest⟩
    · rw [(enterActive_grants (by simp [empty])).1, unacknowledged_of_empty empty, List.nil_append]
    · rw [(enterActive_grants (by rw [buffer, List.length_cons]; omega)).1, unacknowledged_of_oldest buffer]
  · refine ends_next ((exec_takesDown due).trans (by rw [linkDown_of_unused up link unused])) ?_
    exact ⟨port_linkLost, linkLost_reports.1, linkLost_reports.2, slices_linkLost⟩
  · have pulled := pull_of_only only found
    refine ⟨fun inv => ?_, fun owned => ?_, fun fwd requester => ?_⟩
    · obtain ⟨t, row, stop, rest⟩ := deadAgentForward_answersHome down pulled (deadReplies_invalidation inv) rfl rfl
      refine ends_next row ⟨?_, ?_, rest⟩
      · rw [stop]; rfl
      · rw [stop]; exact NMap.get_set_self ..
    · obtain ⟨t, row, stop, rest⟩ := deadAgentForward_answersHome down pulled (deadReplies_recall owned) rfl rfl
      exact ends_next row ⟨by rw [stop]; rfl, rest⟩
    · obtain ⟨t, row, stop, rest⟩ := deadAgentForward_answersBoth down pulled (deadReplies_fwdShared fwd) requester rfl rfl
      exact ends_next row ⟨by rw [stop]; rfl, rest⟩

end Sys2Proof.Machine
end

section
/-! SUPPORT. What an engine that is resumed, an answer and a port's held flits leave alone: the power state, the global
registers and kickstand's stage (R28, R356, R387). One lemma per operation, in the order in which they call each other. -/

namespace Sys2Proof.Machine

open Sys2Proof

/-- The power state, the global registers and kickstand's stage. -/
def State.stance (s : State) : Pwr × Glb × Kick := (s.pwr, s.glb, s.saf.kick)

section
variable {s t : State}

theorem pwr_of_stance (kept : t.stance = s.stance) : t.pwr = s.pwr := congrArg (·.1) kept
theorem glb_of_stance (kept : t.stance = s.stance) : t.glb = s.glb := congrArg (·.2.1) kept
theorem kick_of_stance (kept : t.stance = s.stance) : t.saf.kick = s.saf.kick := congrArg (·.2.2) kept

end

@[simp] theorem stance_foldl {α : Type} {f : State → α → State} (keeps : ∀ s a, (f s a).stance = s.stance) (l : List α)
    (s : State) : (l.foldl f s).stance = s.stance := foldl_keeps State.stance f keeps l s

section
variable (s : State)

@[simp] theorem stance_ite (c : Prop) [Decidable c] (t : State) :
    (if c then s else t).stance = if c then s.stance else t.stance := apply_ite ..

@[simp] theorem stance_setSlices (x : NMap Slice) : ({ s with slices := x } : State).stance = s.stance := rfl
@[simp] theorem stance_setIag (x : Iag) : ({ s with iag := x } : State).stance = s.stance := rfl
@[simp] theorem stance_setStw (x : Steward) : ({ s with stw := x } : State).stance = s.stance := rfl
@[simp] theorem stance_setRelayed (x : List (Nat × Msg)) : ({ s with relayed := x } : State).stance = s.stance := rfl
@[simp] theorem stance_setStwCopy (x : Copy) : ({ s with stwCopy := x } : State).stance = s.stance := rfl
@[simp] theorem stance_setHfnCopy (x : Copy) : ({ s with hfnCopy := x } : State).stance = s.stance := rfl

@[simp] theorem stance_fire (n : Nat) : (s.fire n).stance = s.stance := rfl
@[simp] theorem stance_pmcEvent (base n code q : Nat) (ring : Bool) (amount : Nat) :
    (s.pmcEvent base n code q ring amount).stance = s.stance := rfl
@[simp] theorem stance_modSlice (p : Nat) (f : Slice → Slice) : (s.modSlice p f).stance = s.stance := rfl
@[simp] theorem stance_setSlice (p : Nat) (x : Slice) : (s.setSlice p x).stance = s.stance := rfl
@[simp] theorem stance_modEng (e : Nat) (f : Eng → Eng) : (s.modEng e f).stance = s.stance := rfl
@[simp] theorem stance_modPort (n : Nat) (f : Port → Port) : (s.modPort n f).stance = s.stance := rfl
@[simp] theorem stance_modSrc (n : Nat) (f : Src → Src) : (s.modSrc n f).stance = s.stance := rfl
@[simp] theorem stance_modStw (f : Steward → Steward) : (s.modStw f).stance = s.stance := rfl
@[simp] theorem stance_modRpq (q : Nat) (f : Rpq → Rpq) : (s.modRpq q f).stance = s.stance := rfl
@[simp] theorem stance_modSpare (f : Spare → Spare) : (s.modSpare f).stance = s.stance := rfl
@[simp] theorem stance_modRas (f : Ras → Ras) : (s.modRas f).stance = s.stance := rfl

end

/-! Answers on a management route (R317, R330) -/

/-- Only sessions and what waits to be sent changed, and events were fired. -/
def State.OnlyAnswers (s t : State) : Prop :=
  ∃ v fired, t = { s with svc := v, iag := { s.iag with arrived := s.iag.arrived ++ fired } }

namespace State.OnlyAnswers

variable {s t u : State}

theorem refl (s : State) : s.OnlyAnswers s := ⟨s.svc, [], by rw [List.append_nil]⟩

theorem trans (h : s.OnlyAnswers t) (h' : t.OnlyAnswers u) : s.OnlyAnswers u := by
  obtain ⟨v, fired, rfl⟩ := h
  obtain ⟨w, then_fired, rfl⟩ := h'
  exact ⟨w, fired ++ then_fired, by simp only [List.append_assoc]⟩

theorem modSvc (s : State) (f : Svc → Svc) : s.OnlyAnswers (s.modSvc f) :=
  ⟨f s.svc, [], by rw [List.append_nil]; rfl⟩

theorem modSession (s : State) (n : BitVec 16) (f : Session → Session) : s.OnlyAnswers (s.modSession n f) :=
  modSvc ..

theorem fire (s : State) (n : Nat) : s.OnlyAnswers (s.fire n) := ⟨s.svc, [n], rfl⟩

theorem mctpSend (s : State) (dst : Byte) (tag : BitVec 3) (b : List Byte) : s.OnlyAnswers (s.mctpSend dst tag b) := by
  refine (modSvc s fun v => { v with outbox := v.outbox ++ [(dst, tag, b)] }).trans ?_
  unfold State.mctpSend State.svcFlush
  split
  · exact refl _
  · exact modSvc ..

theorem sendTo (s : State) (peer : Peer) (b : List Byte) : s.OnlyAnswers (s.sendTo peer b) := by
  unfold State.sendTo
  split
  · exact mctpSend ..
  · exact (modSvc ..).trans (fire ..)

theorem answer (s : State) (peer : Peer) (n tx : BitVec 16) (ty status detail : Byte) (body : List Byte) :
    s.OnlyAnswers (s.answer peer n tx ty status detail body) := by
  unfold State.answer
  split
  · exact refl _
  · exact (modSession ..).trans (sendTo ..)

theorem awaitEnd (s : State) (kind : AwaitKind) (status detail : Byte) : s.OnlyAnswers (s.awaitEnd kind status detail) := by
  unfold State.awaitEnd
  split
  · split
    · exact (modSvc ..).trans (answer ..)
    · exact refl _
  · exact refl _

theorem stance (h : s.OnlyAnswers t) : t.stance = s.stance := by
  obtain ⟨v, fired, rfl⟩ := h
  rfl

theorem arrived {k : Nat} (h : s.OnlyAnswers t) (fired : k ∈ s.iag.arrived) : k ∈ t.iag.arrived := by
  obtain ⟨v, more, rfl⟩ := h
  exact List.mem_append_left _ fired

end State.OnlyAnswers

section
variable (s : State) (p t n e : Nat) (a : LineAddr) (m : Msg)

@[simp] theorem stance_awaitEnd (kind : AwaitKind) (status detail : Byte) : (s.awaitEnd kind status detail).stance = s.stance :=
  (State.OnlyAnswers.awaitEnd ..).stance

/-! Records (R364, R371, R385) -/

@[simp] theorem stance_noteFatal (e : ErrRec) : (s.noteFatal e).stance = s.stance := by
  unfold State.noteFatal
  split <;> rfl

@[simp] theorem stance_noteMark : (s.noteMark p).stance = s.stance := rfl

@[simp] theorem stance_record (e : ErrRec) : (s.record e).stance = s.stance := by
  simp [State.record]

/-! A slice declines the far operations that wait for its engine (R200) -/

@[simp] theorem stance_modLine (f : Olt → Olt) : (s.modLine p a f).stance = s.stance := rfl

@[simp] theorem stance_emit : (s.emit p m).stance = s.stance := rfl

@[simp] theorem stance_modTrk (f : Trk → Trk) : (s.modTrk p t f).stance = s.stance := rfl

@[simp] theorem stance_sendForward (opc o : Nat) (named : Bool) : (s.sendForward p t opc o a named).stance = s.stance := by
  simp [State.sendForward]

@[simp] theorem stance_sendVector (opc : Nat) (vec : BitVec 64) : (s.sendVector p t opc a vec).stance = s.stance := by
  simp [State.sendVector]

@[simp] theorem stance_handleStart : (s.handleStart p t a).stance = s.stance := by
  simp [State.handleStart]

@[simp] theorem stance_freeLine : (s.freeLine p a).stance = s.stance := rfl

@[simp] theorem stance_victimEnd (v : LineAddr) : (s.victimEnd p t v).stance = s.stance := by
  unfold State.victimEnd
  split <;> simp

@[simp] theorem stance_modHlc (f : Hlc → Hlc) : (s.modHlc p f).stance = s.stance := rfl

@[simp] theorem stance_slcEvent (code : Nat) (amount : Nat) : (s.slcEvent p code amount).stance = s.stance := rfl

@[simp] theorem stance_count (c : Cnt) : (s.count p c).stance = s.stance := by
  unfold State.count
  split <;> simp

@[simp] theorem stance_fireSlice (k : Nat) : (s.fireSlice p k).stance = s.stance := rfl

@[simp] theorem stance_sliceErr (cls code : Nat) (addr : Option LineAddr) (agent : Option (BitVec 10))
    (detail : BitVec 64) (extra : BitVec 16) (byTest : Bool) :
    (s.sliceErr p cls code addr agent detail extra byTest).stance = s.stance := by
  simp [State.sliceErr]

@[simp] theorem stance_hError (q : Nat) (tag : BitVec 31) (groups : BitVec 8) (tagErr : Bool) (kind cls code : Nat)
    (a : Option LineAddr) : (s.hError p q tag groups tagErr kind cls code a).stance = s.stance := by
  simp [State.hError]

@[simp] theorem stance_hDataCheck (q : Nat) : (s.hDataCheck p q).stance = s.stance := by
  unfold State.hDataCheck
  extract_lets l
  (repeat' split) <;> simp

@[simp] theorem stance_hMoveCheck (q : Nat) : (s.hMoveCheck p q).stance = s.stance := by
  simp [State.hMoveCheck]

@[simp] theorem stance_vacate (q : Nat) : (s.vacate p q).1.stance = s.stance := by
  simp only [State.vacate]
  (repeat' split) <;> simp

@[simp] theorem stance_install (data : LineData) (poison : BitVec 8) (dirty pf : Bool) :
    (s.install p a data poison dirty pf).1.stance = s.stance := by
  have vacated (q : Nat) : (s.vacate p q).1.stance = s.stance := stance_vacate ..
  simp only [State.install]
  (repeat' split)
  · simp
  · simp
  · next q _ _ _ out => simp [← vacated q, out]
  · next q _ _ _ out => simp [← vacated q, out]

@[simp] theorem stance_storeLine (data : LineData) (poison : BitVec 8) (waiter : Option Nat) :
    (s.storeLine p a data poison waiter).1.stance = s.stance := by
  unfold State.storeLine
  extract_lets wrote h direct entry merged
  have kept : merged.stance = s.stance := by
    unfold merged
    clear_value entry
    split <;> simp [wrote]
  have directs (u : State) : (direct u).1.stance = u.stance := stance_modHlc ..
  have installed := stance_install merged p a data poison true false
  clear_value direct merged entry h
  (repeat' split)
  · simp [kept]
  · simp [kept]
  · simp [kept, directs]
  · simp [kept]
  · next out => simpa [out, kept] using installed
  · next out => simpa [out, kept, directs] using installed
  · simp [kept, directs]

@[simp] theorem stance_victimWrite (v : LineAddr) (poison : Bool) : (s.victimWrite p t v poison).stance = s.stance := by
  have stored := stance_storeLine s p v 0 0xFF (some t)
  unfold State.victimWrite
  split
  · simp
  · split <;> next out => rw [out] at stored; simpa using stored

@[simp] theorem stance_setDir (st : BitVec 2) (vec : BitVec 64) (poison : Bool) :
    (s.setDir p a st vec poison).stance = s.stance := by
  unfold State.setDir
  split <;> simp

@[simp] theorem stance_closeTrk : (s.closeTrk p t).stance = s.stance := by
  unfold State.closeTrk
  split <;> simp

@[simp] theorem stance_endWith (opc : Nat) (f : Msg → Msg) : (s.endWith p t opc f).stance = s.stance := by
  unfold State.endWith
  split <;> simp

@[simp] theorem stance_endErr (stat : BitVec 4) : (s.endErr p t stat).stance = s.stance := by
  simp [State.endErr]

@[simp] theorem stance_protoError (st mode : BitVec 2) : (s.protoError p m st mode).stance = s.stance := by
  simp [State.protoError]

@[simp] theorem stance_breakWatch : (s.breakWatch p a).stance = s.stance := rfl

@[simp] theorem stance_forwardRead (o : Nat) (shared : Bool) : (s.forwardRead p t a o shared).stance = s.stance := by
  unfold State.forwardRead
  split <;> simp

@[simp] theorem stance_takeEntry : (s.takeEntry p t a).stance = s.stance := by
  unfold State.takeEntry
  (repeat' split) <;> simp

@[simp] theorem stance_hTagCheck (q : Nat) : (s.hTagCheck p q).stance = s.stance := by
  unfold State.hTagCheck
  extract_lets l
  (repeat' split) <;> simp

@[simp] theorem stance_hTagScan : (s.hTagScan p a).stance = s.stance := by
  unfold State.hTagScan
  exact stance_foldl (fun _ _ => stance_hTagCheck ..) ..

@[simp] theorem stance_hRead (demand : Bool) : (s.hRead p a demand).1.stance = s.stance := by
  unfold State.hRead
  extract_lets scanned checked h
  have kept : checked.stance = s.stance := by
    unfold checked
    split <;> simp [scanned]
  clear_value checked h
  (repeat' split) <;> simp [kept]

@[simp] theorem stance_missJoin (w : Waiter) (demand : Bool) : (s.missJoin p a w demand).1.stance = s.stance := by
  simp only [State.missJoin]
  (repeat' split) <;> simp

@[simp] theorem stance_offer (r : ℤ) : (s.offer p r).stance = s.stance := by
  simp only [State.offer]
  (repeat' split) <;> simp

@[simp] theorem stance_trainStream : (s.trainStream p m).stance = s.stance := by
  simp only [State.trainStream]
  (repeat' split) <;> simp

@[simp] theorem stance_needData : (s.needData p t).stance = s.stance := by
  unfold State.needData
  split
  · rfl
  · next k _ =>
    extract_lets a needing trains
    have read := stance_hRead needing p a true
    have needs : needing.stance = s.stance := stance_modTrk ..
    rw [needs] at read
    clear_value needing
    split
    · next out =>
      rw [out] at read
      split <;> simpa using read
    · next u _ out =>
      rw [out] at read
      have joined := stance_missJoin u p a (.tracker t) true
      extract_lets asked
      have kept : asked.stance = s.stance := by
        unfold asked
        split <;> next out => rw [out] at joined; simpa [read] using joined
      split <;> simp [kept]

@[simp] theorem stance_loadRecent : (s.loadRecent p a).stance = s.stance := rfl

@[simp] theorem stance_chainOwn (o : Nat) (mode : BitVec 2) : (s.chainOwn p t a o mode).stance = s.stance := by
  unfold State.chainOwn
  split <;> simp

@[simp] theorem stance_setWatch (e : SfEnt) : (s.setWatch p m e).stance = s.stance := by
  simp [State.setWatch]

@[simp] theorem stance_act : (s.act p t a).stance = s.stance := by
  simp only [State.act]
  (repeat' split) <;> simp

@[simp] theorem stance_doWrite (k : Trk) : (s.doWrite p t k).1.stance = s.stance := by
  unfold State.doWrite
  extract_lets a full offs len old data poison e cleaned
  have kept : cleaned.stance = s.stance := by
    unfold cleaned
    split <;> simp
  have stored := stance_storeLine cleaned p a data poison (some t)
  rw [kept] at stored
  clear_value cleaned
  split <;> next out => rw [out] at stored; simpa using stored

@[simp] theorem stance_maintFinish : (s.maintFinish p).stance = s.stance := by
  unfold State.maintFinish
  refine (stance_foldl (fun u m => ?_) _ _).trans (stance_modHlc ..)
  cases m.src <;> simp

@[simp] theorem stance_maintAt (q : Nat) (op : BitVec 4) : (s.maintAt p q op).1.stance = s.stance := by
  unfold State.maintAt
  extract_lets checked x l
  have kept : checked.stance = s.stance := by simp [checked]
  clear_value checked
  split
  · exact kept
  · split
    · split <;> simp [kept]
    · split
      · exact kept
      · next _ moved _ _ _ =>
        have moved_kept : moved.stance = s.stance := (stance_modHlc ..).trans kept
        split
        · exact moved_kept
        · exact (stance_count ..).trans moved_kept

@[simp] theorem stance_maintTry (i : Nat) : (s.maintTry p i).stance = s.stance := by
  unfold State.maintTry
  extract_lets x
  split
  · rfl
  · next mt _ =>
    extract_lets place open_ pinned
    clear_value place
    split
    · simp
    · split
      · rfl
      · split
        · simp
        · next q =>
          split
          · rfl
          · have applied := stance_maintAt s p q mt.op
            split <;> next out => rw [out] at applied; simpa using applied

@[simp] theorem stance_maintRetry : (s.maintRetry p).stance = s.stance := by
  simp [State.maintRetry]

@[simp] theorem stance_farLeave : (s.farLeave p t).stance = s.stance := rfl

@[simp] theorem stance_farDecline (stat : BitVec 4) : (s.farDecline p t stat).stance = s.stance := by
  simp [State.farDecline]

@[simp] theorem stance_farBecomesReady (k : Trk) : (s.farBecomesReady p t k).1.stance = s.stance := by
  simp only [State.farBecomesReady]
  (repeat' split) <;> simp

@[simp] theorem stance_complete (k : Trk) : (s.complete p t k).1.stance = s.stance := by
  unfold State.complete
  (repeat' split) <;> simp

@[simp] theorem stance_victimStart (q : Nat) : (s.victimStart p t q).stance = s.stance := by
  simp [State.victimStart]

@[simp] theorem stance_startHead (set : Nat) : (s.startHead p set).stance = s.stance := by
  unfold State.startHead
  (repeat' split) <;> simp

@[simp] theorem stance_joinWait : (s.joinWait p t).stance = s.stance := by
  unfold State.joinWait
  split <;> simp

@[simp] theorem stance_serve : (s.serve p t a).stance = s.stance := by
  simp [State.serve]

@[simp] theorem stance_settleStep : (s.settleStep p a).stance = s.stance := by
  simp only [State.settleStep]
  (repeat' split) <;> simp

@[simp] theorem stance_settle : (s.settle p a).stance = s.stance := by
  simp [State.settle]

@[simp] theorem stance_declineReady : (s.declineReady p).stance = s.stance := by
  unfold State.declineReady
  refine stance_foldl (fun s t => ?_) ..
  (repeat' split) <;> simp

/-! Engines -/

@[simp] theorem stance_dropRsv : (s.dropRsv e).stance = s.stance := by
  simp [State.dropRsv]

@[simp] theorem stance_endActive : (s.endActive n).stance = s.stance := rfl

@[simp] theorem stance_leaveActive : (s.leaveActive e n).stance = s.stance := by
  simp [State.leaveActive]

@[simp] theorem stance_pushSlot (v : Option Nat) : (s.pushSlot e v).stance = s.stance := by
  simp only [State.pushSlot]
  (repeat' split) <;> simp

@[simp] theorem stance_glbEvent (code : Nat) (amount : Nat) : (s.glbEvent code amount).stance = s.stance := rfl

@[simp] theorem stance_rpqLevel (q before : Nat) : (s.rpqLevel q before).stance = s.stance := by
  simp [State.rpqLevel]

@[simp] theorem stance_rpqPush (q : Nat) (val : BitVec 32) (n : Fin 5) : (s.rpqPush q val n).stance = s.stance := by
  simp [State.rpqPush]

@[simp] theorem stance_tandemLeaves (a : TandemOut) : (s.tandemLeaves a).stance = s.stance := by
  unfold State.tandemLeaves
  split <;> simp

@[simp] theorem stance_diverge : s.diverge.stance = s.stance := by
  simp [State.diverge]

@[simp] theorem stance_tandemOut (o : TandemOut) : (s.tandemOut e o).stance = s.stance := by
  simp only [State.tandemOut]
  (repeat' split) <;> simp

@[simp] theorem stance_engSend (since : Nat) : (s.engSend e m since).stance = s.stance := by
  simp [State.engSend]

@[simp] theorem stance_engReq (opc : Nat) (addr : Word) (kind : OutKind) (since : Nat) (f : Msg → Msg) (ent : Nat) :
    (s.engReq e opc addr kind since f ent).stance = s.stance := by
  simp [State.engReq]

@[simp] theorem stance_sbSendOne : (s.sbSendOne e).stance = s.stance := by
  unfold State.sbSendOne
  (repeat' split) <;> simp

@[simp] theorem stance_pump : (s.pump e).stance = s.stance := by
  unfold State.pump
  (repeat' split) <;> simp

@[simp] theorem stance_emptyRecord : (s.emptyRecord e).stance = s.stance := by
  unfold State.emptyRecord
  extract_lets g emptied left
  have slots : emptied.stance = s.stance := stance_foldl (fun u v => by cases v <;> simp) ..
  have irq : left.stance = s.stance := by
    unfold left
    split <;> simp [slots]
  rw [stance_modEng, irq]

@[simp] theorem stance_halt (cause : Nat) : (s.halt e cause).stance = s.stance := by
  simp [State.halt]

@[simp] theorem stance_enter (cause : Nat) (epc eaddr target : Word) (slot : Option Nat) :
    (s.enter e cause epc eaddr target slot).stance = s.stance := by
  simp [State.enter]

@[simp] theorem stance_checkEntry : s.checkEntry.stance = s.stance := by
  unfold State.checkEntry
  (repeat' split) <;> simp

@[simp] theorem stance_tellChecker (v : Option (Nat × Word)) : (s.tellChecker e v).stance = s.stance := by
  simp [State.tellChecker]

@[simp] theorem stance_boundary : (s.boundary e).stance = s.stance := by
  simp only [State.boundary]
  (repeat' split) <;> simp

@[simp] theorem stance_commitMark : (s.commitMark n).stance = s.stance := by
  simp [State.commitMark]

@[simp] theorem stance_deliverTo : (s.deliverTo e n).stance = s.stance := by
  simp [State.deliverTo]

@[simp] theorem stance_commitEngine : (s.commitEngine n).stance = s.stance := by
  simp [State.commitEngine]

@[simp] theorem stance_wake : (s.wake e).stance = s.stance := by
  unfold State.wake
  (repeat' split) <;> simp

@[simp] theorem stance_resume : (s.resume e).stance = s.stance := by
  simp [State.resume]

/-! Ports -/

@[simp] theorem stance_modCopy (c : Nat) (f : Copy → Copy) : (s.modCopy c f).stance = s.stance := by
  simp [State.modCopy]

@[simp] theorem stance_modStop (st : Stop) (f : StopSt → StopSt) : (s.modStop st f).stance = s.stance := by
  unfold State.modStop
  split <;> simp

@[simp] theorem stance_sendHome : (s.sendHome n m).stance = s.stance := by
  simp [State.sendHome]

@[simp] theorem stance_ncAsk (l : Nat) : (s.ncAsk n l).stance = s.stance := by
  simp only [State.ncAsk]
  (repeat' split) <;> simp

@[simp] theorem stance_leaveSlot : (s.leaveSlot n m).stance = s.stance := rfl

@[simp] theorem stance_ncServeOne (l : Nat) : (s.ncServeOne n l).stance = s.stance := by
  unfold State.ncServeOne
  split <;> simp

@[simp] theorem stance_ncServe (l : Nat) : (s.ncServe n l).stance = s.stance := by
  simp [State.ncServe]

@[simp] theorem stance_ncServeAll : (s.ncServeAll n).stance = s.stance := by
  simp [State.ncServeAll]

@[simp] theorem stance_maintServeOne : (s.maintServeOne n).stance = s.stance := by
  unfold State.maintServeOne
  split <;> simp

@[simp] theorem stance_maintServe : (s.maintServe n).stance = s.stance := by
  simp [State.maintServe]

@[simp] theorem stance_sendNode : (s.sendNode n m).stance = s.stance := rfl

@[simp] theorem stance_passOn : (s.passOn n m).stance = s.stance := by
  simp [State.passOn]

@[simp] theorem stance_releaseHeld : (s.releaseHeld n).stance = s.stance := by
  unfold State.releaseHeld
  extract_lets served taken
  have kept : taken.stance = served.stance := stance_foldl (fun u m => by (repeat' split) <;> simp) ..
  rw [stance_maintServe, kept, stance_ncServeAll]

@[simp] theorem stance_releaseAll : s.releaseAll.stance = s.stance := stance_foldl (fun _ _ => stance_releaseHeld ..) ..

end

end Sys2Proof.Machine
end

section
/-! SUPPORT. Power transitions: entry and exit completed or given up, rails, and held edges (R351 to R359, O41). -/

namespace Sys2Proof.Machine

open Sys2Proof

theorem stance_eq_iff (s : State) (p : Pwr) (g : Glb) (k : Kick) :
    s.stance = (p, g, k) ↔ s.pwr = p ∧ s.glb = g ∧ s.saf.kick = k := by
  simp only [State.stance, Prod.mk.injEq]

/-! Engines and ports go on (R28, R356, R359) -/

section
variable (s : State)

theorem stance_resumeOwn : s.resumeOwn.stance = ({ s.pwr with quiesced := [] }, s.glb, s.saf.kick) := by
  have resumed : (s.pwr.quiesced.foldl (fun s e => s.resume e) s).stance = s.stance := by simp
  simp only [State.stance, State.resumeOwn, State.modPwr, pwr_of_stance resumed, glb_of_stance resumed,
    kick_of_stance resumed]

theorem stance_startSteward : s.startSteward.stance = ({ s.pwr with stwStopped := false }, s.glb, s.saf.kick) := by
  have resumed : ((s.resume 132).resume 133).stance = s.stance := by simp
  simp only [State.stance, State.startSteward, State.modPwr, State.modSaf, pwr_of_stance resumed, glb_of_stance resumed,
    kick_of_stance resumed]

/-- The hold of R352 is lifted where neither kickstand nor held edges keep it (R359, R385). -/
theorem stance_liftHold : s.liftHold.stance = (s.pwr, (if s.saf.kick = .none ∧ s.pwr.edgeHold = false then
    { s.glb with ingressHold := false } else s.glb), s.saf.kick) := by
  unfold State.liftHold
  split
  · rw [stance_releaseAll]
    rfl
  · rfl

@[simp] theorem stance_relink : s.relink.stance = s.stance := by
  unfold State.relink
  exact stance_foldl (fun u n => by split <;> rfl) ..

@[simp] theorem stance_copiesLost : s.copiesLost.stance = s.stance := rfl

end

/-! An entry completed (R353, R354, R359) -/

theorem mem_arrived_fire (s : State) (n : Nat) : n ∈ (s.fire n).iag.arrived := List.mem_append_right _ List.mem_cons_self

/-- The domains whose edges an entry to `goal` latches. -/
def Pwr.latched (p : Pwr) (goal : BitVec 2) : List Nat :=
  if goal = 2 then (List.range 322).filter (fun d => d != 319 && !p.domOff d) else []

/-- The power state after a completed entry to `goal` (R353, R354). -/
def Pwr.entered (p : Pwr) (goal : BitVec 2) : Pwr :=
  let q := { p with
    held := p.held ++ (p.latched goal).filter (fun d => !p.held.contains d), state := goal, trans := none }
  if goal = 1 then { q with coastCnt := satInc16 q.coastCnt, coasts := q.coasts + 1 }
  else { q with fwCnt := satInc16 q.fwCnt, freewheels := q.freewheels + 1 }

theorem powerEntered_eq (s : State) (x : PwrTrans) :
    s.powerEntered x = ((s.modPwr fun p => p.entered x.goal).fire 1443).awaitEnd .power 0 0 := by
  simp only [State.powerEntered, State.modPwr, Pwr.entered, Pwr.latched]

theorem held_entered (p : Pwr) (goal : BitVec 2) :
    (p.entered goal).held = p.held ++ (p.latched goal).filter (fun d => !p.held.contains d) := by
  simp only [Pwr.entered]
  split <;> rfl

theorem mem_held_of_freewheel {p : Pwr} {d : Nat} (domain : d < 322) (always_on : d ≠ 319) (on : p.domOff d = false) :
    d ∈ (p.entered 2).held := by
  have latched : d ∈ p.latched 2 := by simp [Pwr.latched, domain, always_on, on]
  rw [held_entered, List.mem_append]
  by_cases already : d ∈ p.held
  · exact .inl already
  · exact .inr (List.mem_filter.mpr ⟨latched, by simp [already]⟩)

/-- What a completed entry leaves (R353, R354): `s` and `t` are the states before and after. -/
structure State.EntryEnds (s : State) (x : PwrTrans) (t : State) : Prop where
  pwr : t.pwr = s.pwr.entered x.goal
  fired : 1443 ∈ t.iag.arrived
  glb : t.glb = s.glb
  slices : t.slices = s.slices
  engines : t.engines = s.engines

theorem powerEntered_ends (s : State) (x : PwrTrans) : s.EntryEnds x (s.powerEntered x) := by
  have answers := State.OnlyAnswers.awaitEnd ((s.modPwr fun p => p.entered x.goal).fire 1443) .power 0 0
  rw [powerEntered_eq]
  have told := answers.arrived (mem_arrived_fire _ 1443)
  obtain ⟨v, more, eq⟩ := answers
  rw [eq] at told ⊢
  exact ⟨rfl, told, rfl, rfl, rfl⟩

/-! An exit completed (R356, R359, R387) -/

/-- The power state back in Run. -/
def Pwr.running (p : Pwr) : Pwr := { p with state := 0, trans := none, assist := decide (p.vcore.toNat ≤ 11) }

theorem followAssist_running (p : Pwr) : ({ p with state := 0, trans := none } : Pwr).followAssist = p.running := by
  simp [Pwr.followAssist, Pwr.assists, Pwr.running]

/-- The power state after the exit from `origin`, held edges released where firmware has not kept them (R359). -/
def Pwr.edgesReleased (p : Pwr) (origin : BitVec 2) : Pwr :=
  { p with held := if origin = 2 ∧ p.relEdges = true then p.held.filter fun d => p.domOff d else p.held }

/-- The windows of the ring controller and the links begin anew (R356). -/
def State.linksBegin (s : State) (origin : BitVec 2) : State :=
  let s := { s with
    crg := { s.crg with winAt := [(0, s.time), (1, s.time), (2, s.time)] }
    rings := NMap.mapv noRing (fun _ x => { x with carried := 0 }) s.rings }
  if origin = 2 then s.relink.copiesLost
  else { s with ports := NMap.mapv Port.dflt (fun _ x => { x with exitAt := x.exitAt.map fun _ => s.time }) s.ports }

def State.edgesReleased (s : State) (origin : BitVec 2) : State :=
  if origin = 2 ∧ s.pwr.relEdges = true then s.modPwr fun p => { p with held := p.held.filter fun d => p.domOff d } else s

/-- Engines that the block quiesced go on, but for kickstand, and the steward. -/
def State.enginesGoOn (s : State) (own : Bool) : State := (if own then s.resumeOwn else s).startSteward

/-- Ports go on, unless edges are left held. -/
def State.portsGoOn (s : State) (origin : BitVec 2) : State :=
  (s.modPwr fun p => { p with edgeHold := origin == 2 && !s.heldLive.isEmpty }).liftHold

/-- The state in which the block is in Run, its links begun anew, and nothing goes on yet. -/
def State.linked (s : State) (origin : BitVec 2) : State :=
  ((s.modPwr fun p => { p with state := 0, trans := none }.followAssist).linksBegin origin).edgesReleased origin

/-- The state in which the block runs again and nothing has been answered. -/
def State.ranAgain (s : State) (origin : BitVec 2) : State :=
  ((s.linked origin).enginesGoOn (origin = 1 && !((s.linked origin).saf.kick == .waking))).portsGoOn origin

section
variable {s : State} {p : Pwr} {g : Glb} {k : Kick} (before : s.stance = (p, g, k))
include before

theorem stance_linksBegin (origin : BitVec 2) : (s.linksBegin origin).stance = (p, g, k) := by
  refine Eq.trans ?_ before
  unfold State.linksBegin
  split
  · exact (stance_copiesLost _).trans (stance_relink _)
  · rfl

theorem stance_edgesReleased (origin : BitVec 2) : (s.edgesReleased origin).stance = (p.edgesReleased origin, g, k) := by
  obtain ⟨rfl, rfl, rfl⟩ := (stance_eq_iff ..).mp before
  unfold State.edgesReleased Pwr.edgesReleased
  split <;> rfl

theorem stance_enginesGoOn (own : Bool) :
    ∃ quiesced, (s.enginesGoOn own).stance = ({ p with quiesced, stwStopped := false }, g, k) := by
  obtain ⟨rfl, rfl, rfl⟩ := (stance_eq_iff ..).mp before
  unfold State.enginesGoOn
  rw [stance_startSteward]
  cases own with
  | true =>
    obtain ⟨pwr, glb, kick⟩ := (stance_eq_iff ..).mp (stance_resumeOwn s)
    exact ⟨[], by simp only [if_true, pwr, glb, kick]⟩
  | false => exact ⟨s.pwr.quiesced, rfl⟩

theorem stance_portsGoOn (origin : BitVec 2) : ∃ hold, (origin ≠ 2 → hold = false) ∧ (s.portsGoOn origin).stance
    = ({ p with edgeHold := hold }, (if k = .none ∧ hold = false then { g with ingressHold := false } else g), k) := by
  obtain ⟨rfl, rfl, rfl⟩ := (stance_eq_iff ..).mp before
  exact ⟨origin == 2 && !s.heldLive.isEmpty, fun other => by rw [beq_eq_false_iff_ne.mpr other, Bool.false_and],
    stance_liftHold _⟩

end

section
variable (s : State) (origin : BitVec 2)

theorem stance_linked : (s.linked origin).stance = (s.pwr.running.edgesReleased origin, s.glb, s.saf.kick) := by
  have run : (s.modPwr fun p => { p with state := 0, trans := none }.followAssist).stance
      = (s.pwr.running, s.glb, s.saf.kick) := congrArg (·, s.glb, s.saf.kick) (followAssist_running s.pwr)
  exact stance_edgesReleased (stance_linksBegin run origin) origin

/-- The power state, the hold of ports and kickstand's stage once the block runs again. -/
theorem stance_ranAgain : ∃ quiesced hold, (origin ≠ 2 → hold = false) ∧ (s.ranAgain origin).stance
    = ({ s.pwr.running.edgesReleased origin with quiesced, stwStopped := false, edgeHold := hold },
      (if s.saf.kick = .none ∧ hold = false then { s.glb with ingressHold := false } else s.glb), s.saf.kick) := by
  obtain ⟨quiesced, going⟩ := stance_enginesGoOn (stance_linked s origin)
    (origin = 1 && !((s.linked origin).saf.kick == .waking))
  obtain ⟨hold, unheld, kept⟩ := stance_portsGoOn going origin
  exact ⟨quiesced, hold, unheld, kept⟩

end

theorem powerLeft_eq (s : State) (x : PwrTrans) : s.powerLeft x = if (s.linked x.origin).saf.kick == .waking then
    (s.ranAgain x.origin).modSaf fun y => { y with kick := .window }
  else ((s.ranAgain x.origin).fire 1443).awaitEnd .power 0 0 := rfl

/-- What a completed exit leaves: `s` and `t` are the states before and after. -/
structure State.ExitEnds (s : State) (x : PwrTrans) (t : State) : Prop where
  pwr : ∃ quiesced hold, t.pwr
    = { s.pwr.running.edgesReleased x.origin with quiesced, stwStopped := false, edgeHold := hold }
  fired : s.saf.kick = .none → 1443 ∈ t.iag.arrived
  window : s.saf.kick = .waking → t.saf.kick = .window
  lifted : s.saf.kick = .none → x.origin ≠ 2 → t.glb.ingressHold = false

theorem powerLeft_ends (s : State) (x : PwrTrans) : s.ExitEnds x (s.powerLeft x) := by
  obtain ⟨-, -, began⟩ := (stance_eq_iff ..).mp (stance_linked s x.origin)
  obtain ⟨quiesced, hold, unheld, kept⟩ := stance_ranAgain s x.origin
  rw [powerLeft_eq, began]
  generalize s.ranAgain x.origin = u at kept ⊢
  obtain ⟨pwr, glb, -⟩ := (stance_eq_iff ..).mp kept
  have lifted (calm : s.saf.kick = .none) (other : x.origin ≠ 2) : u.glb.ingressHold = false := by
    rw [glb, if_pos ⟨calm, unheld other⟩]
  split
  · next woken => exact ⟨⟨quiesced, hold, pwr⟩, fun calm => by simp [calm] at woken, fun _ => rfl, lifted⟩
  · next asleep =>
    have answers := State.OnlyAnswers.awaitEnd (u.fire 1443) .power 0 0
    have same : ((u.fire 1443).awaitEnd .power 0 0).stance = u.stance := answers.stance
    exact ⟨⟨quiesced, hold, (pwr_of_stance same).trans pwr⟩, fun _ => answers.arrived (mem_arrived_fire u 1443),
      fun woken => by simp [woken] at asleep,
      fun calm other => (congrArg Glb.ingressHold (glb_of_stance same)).trans (lifted calm other)⟩

/-! An entry undone (R351, R358) -/

/-- The power state after a refused command (R351). -/
def Pwr.refused (p : Pwr) (cause : BitVec 3) : Pwr :=
  { p with trans := none, lastRefuse := cause, refuseCnt := satInc16 p.refuseCnt, refusals := p.refusals + 1 }

/-- The power state with an entry undone. -/
def Pwr.undone (p : Pwr) : Pwr := { p with bias := 0, stateReq := 0, retBias := false, trans := none }.followAssist

theorem powerRefuse_ends (s : State) (cause : BitVec 3) :
    (s.powerRefuse cause).pwr = s.pwr.refused cause ∧ 1444 ∈ (s.powerRefuse cause).iag.arrived := by
  have answers := State.OnlyAnswers.awaitEnd ((s.modPwr fun p => p.refused cause).fire 1444) .power 2 (cause.setWidth 8)
  exact ⟨pwr_of_stance answers.stance, answers.arrived (mem_arrived_fire _ 1444)⟩

theorem powerUndo_eq (s : State) (cause : BitVec 3) :
    s.powerUndo cause = (((s.modPwr Pwr.undone).enginesGoOn true).liftHold).powerRefuse cause := rfl

theorem powerUndo_ends (s : State) (cause : BitVec 3) : (∃ quiesced, (s.powerUndo cause).pwr
    = Pwr.refused { s.pwr.undone with quiesced, stwStopped := false } cause) ∧ 1444 ∈ (s.powerUndo cause).iag.arrived := by
  have undone : (s.modPwr Pwr.undone).stance = (s.pwr.undone, s.glb, s.saf.kick) := rfl
  obtain ⟨quiesced, going⟩ := stance_enginesGoOn undone true
  obtain ⟨pwr, fired⟩ := powerRefuse_ends (((s.modPwr Pwr.undone).enginesGoOn true).liftHold) cause
  rw [((stance_eq_iff ..).mp (stance_liftHold _)).1, ((stance_eq_iff ..).mp going).1] at pwr
  rw [powerUndo_eq]
  exact ⟨⟨quiesced, pwr⟩, fired⟩

/-! Fatal power errors (R358) -/

theorem pwrFatal_reports (s : State) : Recorded s s.pwrFatal 2 0x50 0 ∧ s.pwrFatal.saf.fatal.isSome = true
    ∧ s.pwrFatal.pwr = s.pwr := by
  refine ⟨?_, record_fatal _ _ rfl, pwr_of_stance (stance_record ..)⟩
  rw [State.pwrFatal, record_eq _ _ (.inl (show (2 : BitVec 2) ≠ 0 by decide))]
  exact ⟨_, rfl, rfl, rfl, rfl, rfl⟩

/-! Held edges (R56, R359) -/

theorem edgesLeft_of_held {s : State} {d : Nat} (held : d ∈ s.pwr.held) (live : 264 ≤ d) : s.edgesLeft = s := by
  have kept : d ∈ s.heldLive := List.mem_filter.mpr ⟨held, by simp [Nat.not_lt.mpr live]⟩
  refine if_neg ?_
  simp [List.ne_nil_of_mem kept]

theorem pwr_edgesLeft (s : State) : ∃ hold, s.edgesLeft.pwr = { s.pwr with edgeHold := hold } := by
  unfold State.edgesLeft
  split
  · exact ⟨false, ((stance_eq_iff ..).mp (stance_liftHold _)).1⟩
  · exact ⟨s.pwr.edgeHold, rfl⟩

/-- With no domain held but those of retired slices the ports' holds are let go (R359, R375). -/
theorem edgesLeft_lifts {s : State} (holds : s.pwr.edgeHold = true) (calm : s.saf.kick = .none)
    (retired : ∀ x ∈ s.pwr.held, x < 264 ∧ x % 132 ∈ s.spare.retired) :
    s.edgesLeft.pwr.edgeHold = false ∧ s.edgesLeft.glb.ingressHold = false := by
  have none_live : s.heldLive = [] := List.filter_eq_nil_iff.mpr fun x held => by
    obtain ⟨slice, retired⟩ := retired x held
    simp [slice, retired]
  obtain ⟨pwr, glb, -⟩ := (stance_eq_iff ..).mp (stance_liftHold (s.modPwr fun p => { p with edgeHold := false }))
  rw [if_pos ⟨calm, rfl⟩] at glb
  rw [State.edgesLeft, if_pos (by simp [holds, none_live]), pwr, glb]
  exact ⟨rfl, rfl⟩

/-! The rows -/

theorem exec_bbOk (s : State) : exec .bbOk s = execBbOk s := rfl
theorem exec_pwrStateAck (s : State) : exec .pwrStateAck s = execPwrStateAck s := rfl
theorem exec_powerHandshakeTimeout (s : State) : exec .powerHandshakeTimeout s = execPowerHandshakeTimeout s := rfl

section
variable {s : State}

theorem handshakes_idle_of_none (settled : s.pwr.trans = none) :
    Idles .bbOk s ∧ Idles .pwrStateAck s ∧ Idles .powerHandshakeTimeout s := by
  refine ⟨?_, ?_, ?_⟩
  · rw [Idles, exec_bbOk, execBbOk, settled]
  · rw [Idles, exec_pwrStateAck, execPwrStateAck, settled]
  · rw [Idles, exec_powerHandshakeTimeout, execPowerHandshakeTimeout, settled]

variable {x : PwrTrans} (begun : s.pwr.trans = some x)
include begun

theorem handshakes_idle_of_drain (drain : x.phase = .drain) :
    Idles .bbOk s ∧ Idles .pwrStateAck s ∧ Idles .powerHandshakeTimeout s := by
  refine ⟨?_, ?_, ?_⟩
  · simp only [Idles, exec_bbOk, execBbOk, begun, drain]
  · simp only [Idles, exec_pwrStateAck, execPwrStateAck, begun, drain]
  · simp only [Idles, exec_powerHandshakeTimeout, execPowerHandshakeTimeout, begun, drain, true_or, if_true]

theorem exec_bbOk_entry (bias : x.phase = .entryBias) : exec .bbOk s = .next (if x.goal = 1 ∨ x.acked = true then
    s.powerEntered x else s.modPwr fun p => { p with trans := some { x with phase := .entryAck, since := s.time } }) := by
  simp only [exec_bbOk, execBbOk, begun, bias]

theorem exec_bbOk_exit (bias : x.phase = .exitBias) : exec .bbOk s = .next (if x.origin = 1 ∨ x.acked = true then
    (s.modPwr fun p => { p with retBias := false }).powerLeft x else s.modPwr fun p =>
      { p with retBias := false, trans := some { x with phase := .exitAck, since := s.time } }) := by
  simp only [exec_bbOk, execBbOk, begun, bias]
  rfl

theorem exec_pwrStateAck_entry (ack : x.phase = .entryAck) : exec .pwrStateAck s = .next (s.powerEntered x) := by
  simp only [exec_pwrStateAck, execPwrStateAck, begun, ack]

theorem exec_pwrStateAck_exit (ack : x.phase = .exitAck) :
    exec .pwrStateAck s = .next ((s.modPwr fun p => { p with railOk := 0xF }).powerLeft x) := by
  simp only [exec_pwrStateAck, execPwrStateAck, begun, ack]

theorem powerHandshakeTimeout_waits (early : s.time - x.since < x.bound) : Idles .powerHandshakeTimeout s := by
  simp only [Idles, exec_powerHandshakeTimeout, execPowerHandshakeTimeout, begun, early, or_true, if_true]

theorem exec_powerHandshakeTimeout_due (due : x.bound ≤ s.time - x.since) (handshake : x.phase ≠ .drain) :
    exec .powerHandshakeTimeout s
      = .next (if x.phase = .entryBias ∨ x.phase = .entryAck then s.powerUndo 6 else s.pwrFatal) := by
  simp only [exec_powerHandshakeTimeout, execPowerHandshakeTimeout, begun, handshake, Nat.not_lt.mpr due, or_self, if_false]

end

/-! What the statement says of completed entries and exits -/

theorem entered_fields (p : Pwr) (goal : BitVec 2) : (p.entered goal).state = goal ∧ (p.entered goal).trans = none
    ∧ (p.entered goal).coasts = (if goal = 1 then p.coasts + 1 else p.coasts)
    ∧ (p.entered goal).freewheels = (if goal = 1 then p.freewheels else p.freewheels + 1) := by
  unfold Pwr.entered
  split <;> exact ⟨rfl, rfl, rfl, rfl⟩

theorem powerEntered_spec (s : State) (x : PwrTrans) : (s.powerEntered x).pwr.state = x.goal
    ∧ (s.powerEntered x).pwr.trans = none ∧ 1443 ∈ (s.powerEntered x).iag.arrived
    ∧ (s.powerEntered x).pwr.coasts = (if x.goal = 1 then s.pwr.coasts + 1 else s.pwr.coasts)
    ∧ (s.powerEntered x).pwr.freewheels = (if x.goal = 1 then s.pwr.freewheels else s.pwr.freewheels + 1)
    ∧ (x.goal = 2 → ∀ d, d < 322 → d ≠ 319 → s.pwr.domOff d = false → d ∈ (s.powerEntered x).pwr.held)
    ∧ (s.powerEntered x).glb = s.glb ∧ (s.powerEntered x).slices = s.slices ∧ (s.powerEntered x).engines = s.engines := by
  obtain ⟨pwr, fired, glb, slices, engines⟩ := powerEntered_ends s x
  obtain ⟨state, trans, coasts, freewheels⟩ := entered_fields s.pwr x.goal
  rw [pwr]
  exact ⟨state, trans, fired, coasts, freewheels,
    fun freewheel d domain always_on on => by rw [freewheel]; exact mem_held_of_freewheel domain always_on on,
    glb, slices, engines⟩

/-- An exit completed from a state `u` that differs from `s` in pins alone. -/
theorem powerLeft_spec {s u : State} (x : PwrTrans) (pins : ∃ b r, u.pwr = { s.pwr with retBias := b, railOk := r })
    (kick : u.saf.kick = s.saf.kick) : (u.powerLeft x).pwr.state = 0 ∧ (u.powerLeft x).pwr.trans = none
      ∧ (s.saf.kick = .none → 1443 ∈ (u.powerLeft x).iag.arrived)
      ∧ (s.saf.kick = .waking → (u.powerLeft x).saf.kick = .window)
      ∧ (x.origin = 2 → s.pwr.relEdges = true → ∀ d ∈ (u.powerLeft x).pwr.held, (u.powerLeft x).pwr.domOff d = true)
      ∧ (s.saf.kick = .none → x.origin ≠ 2 → (u.powerLeft x).glb.ingressHold = false)
      ∧ (u.powerLeft x).pwr.stwStopped = false ∧ (u.powerLeft x).pwr.assist = decide (s.pwr.vcore.toNat ≤ 11) := by
  obtain ⟨⟨quiesced, hold, pwr⟩, fired, window, lifted⟩ := powerLeft_ends u x
  obtain ⟨b, r, pins⟩ := pins
  rw [kick] at fired window lifted
  rw [pwr, pins]
  refine ⟨rfl, rfl, fired, window, fun freewheel release d held => ?_, lifted, rfl, rfl⟩
  have kept := held
  simp only [Pwr.edgesReleased, Pwr.running, freewheel, release, and_self, if_true] at kept
  exact (List.mem_filter.mp kept).2

/-! Rails and edges (R356 to R359) -/

/-- The state in which the bit of rail `b` has fallen. -/
def State.railFell (s : State) (b : Fin 4) : State :=
  s.modPwr fun p => { p with railOk := p.railOk &&& ~~~(BitVec.ofNat 4 (2 ^ b.val)) }

theorem exec_railFault (b : Fin 4) (s : State) : exec (.railFault b) s
    = .next (if s.pwr.state ≠ 2 ∨ b = 2 then (s.railFell b).pwrFatal else s.railFell b) := rfl

theorem railFault_spec (b : Fin 4) (s : State) : Ends (.railFault b) s fun t =>
    t.pwr = { s.pwr with railOk := s.pwr.railOk &&& ~~~(BitVec.ofNat 4 (2 ^ b.val)) }
    ∧ ((s.pwr.state ≠ 2 ∨ b = 2) → Recorded s t 2 0x50 0 ∧ t.saf.fatal.isSome = true)
    ∧ (s.pwr.state = 2 → b ≠ 2 → { t with pwr := s.pwr } = s) := by
  by_cases fatal : s.pwr.state ≠ 2 ∨ b = 2
  · obtain ⟨recorded, captured, pwr⟩ := pwrFatal_reports (s.railFell b)
    exact ends_next ((exec_railFault b s).trans (congrArg _ (if_pos fatal))) ⟨pwr, fun _ => ⟨recorded, captured⟩,
      fun freewheel other => absurd fatal (by simp [freewheel, other])⟩
  · exact ends_next ((exec_railFault b s).trans (congrArg _ (if_neg fatal)))
      ⟨rfl, fun fails => absurd fails fatal, fun _ _ => rfl⟩

theorem exec_vcoreCodeChange (c : BitVec 4) (s : State) : exec (.vcoreCodeChange c) s = .next { s with pwr := { s.pwr with
    vcore := c, assistAck := false
    assist := s.pwr.state == 0 && s.pwr.trans.all (fun x => x.phase == .drain) && decide (c.toNat ≤ 11) } } := by
  refine congrArg Host.Outcome.next ?_
  simp only [State.modPwr, Pwr.followAssist, Pwr.assists]
  cases s.pwr.trans <;> rfl

theorem exec_edgeRelease (d : BitVec 16) (s : State) : exec (.edgeRelease d) s = .next (s.edgeRelease d.toNat).1 := rfl

section
variable {d : BitVec 16} {s : State}

theorem edgeRelease_idles (h : 323 < d.toNat ∨ s.wakes d.toNat = true ∨ s.pwr.domOff d.toNat = true) :
    Idles (.edgeRelease d) s := by
  rw [Idles, exec_edgeRelease, State.edgeRelease]
  split
  · rfl
  · next valid =>
    rw [if_pos (by tauto)]

variable (domain : d.toNat ≤ 323) (asleep : s.wakes d.toNat = false) (on : s.pwr.domOff d.toNat = false)
include domain asleep on

theorem exec_edgeRelease_on :
    exec (.edgeRelease d) s = .next (s.modPwr fun p => p.release d.toNat).edgesLeft := by
  rw [exec_edgeRelease, State.edgeRelease, if_neg (by simp [asleep, domain]), if_neg (by simp [on])]

theorem edgeRelease_spec : Ends (.edgeRelease d) s fun t => d.toNat ∉ t.pwr.held ∧ t.pwr.state = s.pwr.state
    ∧ (s.pwr.edgeHold = true → (∀ x ∈ s.pwr.held, x = d.toNat ∨ (x < 264 ∧ x % 132 ∈ s.spare.retired)) →
        s.saf.kick = .none → t.pwr.edgeHold = false ∧ t.glb.ingressHold = false)
    ∧ (s.pwr.edgeHold = true → (∃ x ∈ s.pwr.held, x ≠ d.toNat ∧ 264 ≤ x) →
        t.pwr.edgeHold = true ∧ t.glb.ingressHold = s.glb.ingressHold) := by
  refine ends_next (exec_edgeRelease_on domain asleep on) ?_
  obtain ⟨hold, pwr⟩ := pwr_edgesLeft (s.modPwr fun p => p.release d.toNat)
  have gone : d.toNat ∉ (s.pwr.release d.toNat).held := by simp [Pwr.release]
  refine ⟨by rw [pwr]; exact gone, by rw [pwr]; rfl, fun holds retired calm => ?_, fun holds ⟨x, held, other, live⟩ => ?_⟩
  · refine edgesLeft_lifts holds calm fun x held => ?_
    obtain ⟨held, other⟩ := List.mem_filter.mp held
    exact (retired x held).resolve_left (by simpa using other)
  · have still_held : x ∈ (s.pwr.release d.toNat).held := List.mem_filter.mpr ⟨held, by simpa using other⟩
    rw [edgesLeft_of_held still_held live]
    exact ⟨holds, rfl⟩

end

/-- Settles O41: completed entries and exits by the state they leave, where engines and ports go on (`ExitEnds`); a wait
that runs out undoes an entry and is fatal on exit; rails, memory assist and edges each by their row. -/
theorem powerHandshakesCompleteOrFail : Obligations.PowerHandshakesCompleteOrFail := by
  intro s
  refine ⟨handshakes_idle_of_none, fun x begun => ?_, fun b => railFault_spec b s, fun c => exec_vcoreCodeChange c s,
    fun d => ⟨edgeRelease_idles, fun domain asleep on unheld => ?_, edgeRelease_spec⟩⟩
  · intro entered left
    have entry : entered (s.powerEntered x) := powerEntered_spec s x
    refine ⟨handshakes_idle_of_drain begun, fun bias ready => ?_, fun bias other unacked => ?_, fun bias ready => ?_,
      fun bias other unacked => ?_, fun bias => ?_, fun bias => ?_, fun ack => ?_, fun ack => ?_,
      powerHandshakeTimeout_waits begun, fun due entering => ?_, fun due leaving => ?_⟩
    · exact ends_next ((exec_bbOk_entry begun bias).trans (congrArg _ (if_pos ready))) entry
    · exact (exec_bbOk_entry begun bias).trans (congrArg _ (if_neg fun ready => ready.elim other (by simp [unacked])))
    · exact ends_next ((exec_bbOk_exit begun bias).trans (congrArg _ (if_pos ready)))
        (powerLeft_spec x ⟨false, s.pwr.railOk, rfl⟩ rfl)
    · exact (exec_bbOk_exit begun bias).trans (congrArg _ (if_neg fun ready => ready.elim other (by simp [unacked])))
    · simp only [exec_pwrStateAck, execPwrStateAck, begun, bias, State.modPwr]
    · simp only [exec_pwrStateAck, execPwrStateAck, begun, bias, State.modPwr]
    · exact ends_next (exec_pwrStateAck_entry begun ack) entry
    · exact ends_next (exec_pwrStateAck_exit begun ack) (powerLeft_spec x ⟨s.pwr.retBias, 0xF, rfl⟩ rfl)
    · have handshake : x.phase ≠ .drain := by rintro drain; simp [drain] at entering
      obtain ⟨⟨quiesced, pwr⟩, fired⟩ := powerUndo_ends s 6
      refine ends_next ((exec_powerHandshakeTimeout_due begun due handshake).trans (congrArg _ (if_pos entering))) ?_
      rw [pwr]
      exact ⟨rfl, rfl, rfl, rfl, fired⟩
    · have handshake : x.phase ≠ .drain := by rintro drain; simp [drain] at leaving
      have not_entering : ¬(x.phase = .entryBias ∨ x.phase = .entryAck) := by
        obtain exiting | exiting := leaving <;> simp [exiting]
      exact ends_next ((exec_powerHandshakeTimeout_due begun due handshake).trans (congrArg _ (if_neg not_entering)))
        (pwrFatal_reports s)
  · have settled := edgesLeft_of_unheld (s := s.modPwr fun p => p.release d.toNat) unheld
    exact (exec_edgeRelease_on domain asleep on).trans (congrArg _ settled)

end Sys2Proof.Machine
end

section
/-! SUPPORT. The flit as bits: a message and a routing field are read back from where they were put (R60 to R67). -/
namespace Sys2Proof.Machine
open Sys2Proof

/-! A message in flit bits 735:48 (Table 4.3) -/

/-- Each field is read at the position at which the fields below it end. -/
theorem msgOfBits_msgBits (m : Msg) : msgOfBits (msgBits m) = m := by
  unfold msgOfBits msgBits
  simp (disch := decide) only [BitVec.extractLsb'_append_eq_of_le, BitVec.extractLsb'_append_eq_of_add_le,
    BitVec.extractLsb'_eq_self, BitVec.getLsbD_append, BitVec.getLsbD_ofBool, Nat.reduceSub, Nat.reduceLT, if_true, if_false,
    decide_true, Bool.true_and]

/-! The regions of a packed flit (Table 4.1) -/

section
variable (routing : BitVec 40) (body : BitVec 688)

theorem extractLsb'_packFlit_rchk : (packFlit routing body).extractLsb' 0 8 = rchkOf routing := by
  rw [packFlit, BitVec.extractLsb'_append_eq_right]

theorem extractLsb'_packFlit_routing {lo len : Nat} (h : lo + len ≤ 40) :
    (packFlit routing body).extractLsb' (8 + lo) len = routing.extractLsb' lo len := by
  rw [packFlit, BitVec.extractLsb'_append_eq_of_le (by omega), BitVec.extractLsb'_append_eq_of_add_le (by omega),
    Nat.add_sub_cancel_left]

theorem getLsbD_packFlit_routing {i : Nat} (h : i < 40) :
    (packFlit routing body).getLsbD (8 + i) = routing.getLsbD i := by
  rw [packFlit, BitVec.getLsbD_append, if_neg (by omega), BitVec.getLsbD_append, if_pos (by omega), Nat.add_sub_cancel_left]

theorem rawRouting_packFlit : rawRouting (packFlit routing body) = routing :=
  (extractLsb'_packFlit_routing routing body (lo := 0) le_rfl).trans BitVec.extractLsb'_eq_self

theorem rawBody_packFlit : rawBody (packFlit routing body) = body := by
  rw [rawBody, packFlit, BitVec.extractLsb'_append_eq_of_le (by omega), BitVec.extractLsb'_append_eq_of_le (by omega)]
  exact BitVec.extractLsb'_append_eq_right

theorem extractLsb'_packFlit_crc : (packFlit routing body).extractLsb' 736 32 = crcOf body := by
  rw [packFlit, BitVec.extractLsb'_append_eq_of_le (by omega), BitVec.extractLsb'_append_eq_of_le (by omega)]
  exact BitVec.extractLsb'_append_eq_left

/-- A packed flit passes both checks of R67, whatever it carries. -/
theorem rawGood_packFlit : rawGood (packFlit routing body) = true := by
  rw [rawGood, rawRouting_packFlit, rawBody_packFlit, extractLsb'_packFlit_rchk, extractLsb'_packFlit_crc, BEq.rfl, BEq.rfl,
    Bool.and_self]

end

/-! The routing field of a chainring (Table 4.2) -/

theorem rawSeq_packFlit (f : Flit) (q : BitVec 12) (body : BitVec 688) :
    rawSeq (packFlit (ringRouting f q) body) = q :=
  (extractLsb'_packFlit_routing _ body (lo := 0) (by omega)).trans BitVec.extractLsb'_append_eq_right

/-- Each field of the routing is read at the position at which the fields below it end. -/
theorem ringRouting_fields (f : Flit) (q : BitVec 12) :
    (ringRouting f q).extractLsb' 12 2 = f.dkind ∧ (ringRouting f q).extractLsb' 14 10 = f.dest
      ∧ (ringRouting f q).extractLsb' 24 7 = f.orig ∧ (ringRouting f q).getLsbD 31 = f.dir1
      ∧ (ringRouting f q).getLsbD 32 = f.rev ∧ (ringRouting f q).extractLsb' 33 7 = f.revpos := by
  unfold ringRouting
  simp (disch := decide) only [BitVec.extractLsb'_append_eq_of_le, BitVec.extractLsb'_append_eq_of_add_le,
    BitVec.extractLsb'_eq_self, BitVec.getLsbD_append, BitVec.getLsbD_ofBool, Nat.reduceSub, Nat.reduceLT, if_true, if_false,
    decide_true, Bool.true_and, and_self]

theorem ringFlit_packFlit (f : Flit) (q : BitVec 12) (body : BitVec 688) :
    ringFlit (packFlit (ringRouting f q) body) = { f with dropped := false, msg := msgOfBits body } := by
  obtain ⟨dkind, dest, orig, dir, rev, revpos⟩ := ringRouting_fields f q
  have field {lo len : Nat} (h : lo + len ≤ 40) := extractLsb'_packFlit_routing (ringRouting f q) body h
  have bit {i : Nat} (h : i < 40) := getLsbD_packFlit_routing (ringRouting f q) body h
  unfold ringFlit
  rw [(field (lo := 12) (by omega)).trans dkind, (field (lo := 14) (by omega)).trans dest,
    (field (lo := 24) (by omega)).trans orig, (bit (i := 31) (by omega)).trans dir, (bit (i := 32) (by omega)).trans rev,
    (field (lo := 33) (by omega)).trans revpos, rawBody_packFlit]

/-- Settles O60: a message is read back field by field, a packed flit is checked against the very regions it was packed
from, and its routing field is read back above RCHK. -/
theorem flitsSurviveTheirEncoding : Obligations.FlitsSurviveTheirEncoding :=
  ⟨msgOfBits_msgBits, fun f q => ⟨rawGood_packFlit .., rawSeq_packFlit ..,
    (ringFlit_packFlit f q _).trans (by rw [msgOfBits_msgBits])⟩⟩

end Sys2Proof.Machine
end

section
/-! SUPPORT. Answers as an engine takes them (R9, R71, R88, R250): the taking itself, what an answer leaves where nothing
waits to be sent or entered, and answers to transactions that a cold reset has ended (Table 13.3). -/
namespace Sys2Proof.Machine
open Sys2Proof

/-! Taking a message -/

section
variable (s : State) (e : Nat) (m : Msg)

@[simp] theorem eng_engTake (j : Nat) : (s.engTake e m).eng j = s.eng j := by
  unfold State.engTake; dsimp only; split
  · rfl
  · split <;> rfl

@[simp] theorem entries_engTake : (s.engTake e m).stw.entries = s.stw.entries := by
  unfold State.engTake; dsimp only; split
  · rfl
  · split <;> rfl

@[simp] theorem scFailed_engTake (j : Nat) : ((s.engTake e m).slice j).scFailed = (s.slice j).scFailed := by
  unfold State.engTake; dsimp only; split
  · rfl
  · split
    · rfl
    · rw [slice_modSlice]
      split
      · subst e; split <;> rfl
      · rfl

end

/-- The engine has taken the message and is left as `g`. -/
def State.tookAs (s : State) (e : Nat) (m : Msg) (g : Eng) : State := (s.engTake e m).modEng e fun _ => g

section
variable (s : State) (e : Nat) (m : Msg) (g : Eng) (f : Eng → Eng)

theorem modEng_engTake : (s.engTake e m).modEng e f = s.tookAs e m (f (s.eng e)) := modEng_congr (by rw [eng_engTake])

@[simp] theorem eng_tookAs : (s.tookAs e m g).eng e = g := by simp [State.tookAs]

@[simp] theorem entries_tookAs : (s.tookAs e m g).stw.entries = s.stw.entries := entries_engTake s e m

theorem tookAs_modEng : (s.tookAs e m g).modEng e f = s.tookAs e m (f g) := modEng_modEng ..

@[simp] theorem besidesEngines_tookAs : (s.tookAs e m g).besidesEngines = (s.engTake e m).besidesEngines := rfl

theorem noEntry_tookAs (irq : g.irq = (s.eng e).irq) : (s.tookAs e m g).noEntry e = s.noEntry e :=
  noEntry_congr (by rw [eng_tookAs, irq]) (entries_tookAs ..)

end

/-! What follows an answer -/

/-- With nothing to send or to enter, the answer leaves the engine as it has made it. -/
theorem pump_boundary_tookAs {s : State} {e : Nat} {g : Eng} (m : Msg) (sb : g.sb = []) (walk : g.walk = none)
    (irq : g.irq = (s.eng e).irq) (entry : s.noEntry e = true) :
    ((s.tookAs e m g).pump e).boundary e = s.tookAs e m g := by
  rw [pump_idle (by rwa [eng_tookAs]) (by rwa [eng_tookAs]), boundary_of_noEntry (by rwa [noEntry_tookAs _ _ _ _ irq])]

/-- An engine inside an entry takes no other; the checker engine is to follow none. -/
theorem boundary_of_eip {s : State} {e : Nat} (eip : (s.eng e).eip = true) (checker : e = 133 → s.stw.entries = []) :
    s.boundary e = s := by
  unfold State.boundary
  by_cases h : e = 133
  · simp [h, State.checkEntry, State.checkDue, checker h]
  · dsimp only
    rw [if_neg h]
    split
    · rfl
    · rw [if_neg (by simp [eip])]

theorem tryWarm_of_not_warm {s : State} {e : Nat} (warm : (s.eng e).warm = false) : s.tryWarm e = s :=
  if_neg (by simp [warm])

theorem pump_tryWarm_tookAs {s : State} {e : Nat} {g : Eng} (m : Msg) (sb : g.sb = []) (walk : g.walk = none)
    (warm : g.warm = false) : ((s.tookAs e m g).pump e).tryWarm e = s.tookAs e m g := by
  rw [pump_idle (by rwa [eng_tookAs]) (by rwa [eng_tookAs]), tryWarm_of_not_warm (by rwa [eng_tookAs])]

/-- The engine's one open transaction after an answer: ended with CRET, else left as `o`. -/
def Eng.outAfter (g : Eng) (m : Msg) (o : OutTxn) : Eng := { g with out := if m.cret = true then [] else [o] }

theorem returned_sole {g : Eng} {m : Msg} {o : OutTxn} (out : g.out = [o]) (txn : o.txn = m.txn) :
    g.returned m = g.outAfter m o := by
  unfold Eng.returned Eng.outAfter
  split
  · simp [out, txn]
  · rw [← out]

/-! Transactions open at a cold reset (Table 13.3) -/

theorem staleTake_fresh {s : State} {e : Nat} {m : Msg} (go : State → State) (fresh : m.txn ∉ (s.eng e).stale) :
    s.staleTake e m go = go s := if_neg (by simpa using fresh)

/-- With CRET the engine forgets the TXN. -/
def Eng.forgets (g : Eng) (m : Msg) : Eng := { g with
  stale := if m.cret = true then g.stale.filter (fun x => x != m.txn) else g.stale
  staleSc := if m.cret = true then g.staleSc.filter (fun x => x != m.txn) else g.staleSc }

/-- The answer is only taken, and with CRET the slice forgets too whether that `SC` failed. -/
theorem staleTake_stale {s : State} {e : Nat} {m : Msg} (go : State → State) (stale : m.txn ∈ (s.eng e).stale) :
    s.staleTake e m go = if m.cret && isSpoke e
      then (s.tookAs e m ((s.eng e).forgets m)).modSlice e fun x => { x with scFailed := x.scFailed.filter (· != m.txn) }
      else s.tookAs e m ((s.eng e).forgets m) := by
  have forgets : (if m.cret then { s.eng e with
      stale := (s.eng e).stale.filter (· != m.txn), staleSc := (s.eng e).staleSc.filter (· != m.txn) } else s.eng e)
      = (s.eng e).forgets m := by
    unfold Eng.forgets; split <;> rfl
  unfold State.staleTake
  rw [if_pos (by simpa using stale), modEng_engTake, forgets]

theorem staleTake_spec {s : State} {e : Nat} {m : Msg} (go : State → State) (stale : m.txn ∈ (s.eng e).stale) :
    { s.staleTake e m go with engines := s.engines, slices := s.slices }
        = { s.engTake e m with engines := s.engines, slices := s.slices }
      ∧ (s.staleTake e m go).eng e = (s.eng e).forgets m
      ∧ ∀ j, (s.staleTake e m go).slice j = { (s.engTake e m).slice j with
          scFailed := if m.cret = true ∧ isSpoke e = true ∧ j = e then (s.slice j).scFailed.filter (· != m.txn)
            else (s.slice j).scFailed } := by
  have frame {t u : State} (h : t.besidesEngines = u.besidesEngines) :
      { t with engines := s.engines, slices := s.slices } = { u with engines := s.engines, slices := s.slices } :=
    congrArg (fun x : State => { x with engines := s.engines, slices := s.slices }) h
  rw [staleTake_stale go stale]
  split
  next both =>
    obtain ⟨cret, spoke⟩ := Bool.and_eq_true_iff.mp both
    refine ⟨frame (by simp), by simp, fun j => ?_⟩
    rw [slice_modSlice]
    by_cases here : e = j
    · subst here
      rw [if_pos rfl, if_pos ⟨cret, spoke, rfl⟩, ← scFailed_engTake s e m]
      rfl
    · rw [if_neg here, if_neg fun ⟨_, _, there⟩ => here there.symm, ← scFailed_engTake s e m]
      rfl
  next other =>
    refine ⟨frame (by simp), by simp, fun j => ?_⟩
    rw [if_neg fun ⟨cret, spoke, _⟩ => other (Bool.and_eq_true_iff.mpr ⟨cret, spoke⟩), ← scFailed_engTake s e m]
    rfl

end Sys2Proof.Machine
end

section
/-! SUPPORT. Load returns, store completions and timeouts, walk reads and `TlbInvDone` of an engine (R83, R257, R258, R262,
R268, R270, R271, R274). -/
namespace Sys2Proof.Machine
open Sys2Proof

theorem exec_engineLoadReturn (e : Fin 134) (m : Msg) (s : State) :
    exec (.engineLoadReturn e m) s = execEngineLoadReturn e m s := rfl
theorem exec_engineStoreComplete (e : Fin 134) (m : Msg) (s : State) :
    exec (.engineStoreComplete e m) s = execEngineStoreComplete e m s := rfl
theorem exec_walkReadReturn (e : Fin 134) (m : Msg) (s : State) :
    exec (.walkReadReturn e m) s = execWalkReadReturn e m s := rfl
theorem exec_storeTimeout (e : Fin 134) (txn : BitVec 12) (s : State) :
    exec (.storeTimeout e txn) s = execStoreTimeout e txn s := rfl
theorem exec_tlbiDone (e : Fin 134) (m : Msg) (s : State) : exec (.tlbiDone e m) s = execTlbiDone e m s := rfl

/-! ENGINE_LOAD_RETURN -/

theorem loadAnswer_unknown {g : Eng} {m : Msg} (out : ∀ o ∈ g.out, o.txn ≠ m.txn) (loads : ∀ p ∈ g.loads, p.txn ≠ m.txn) :
    g.loadAnswer m = g := by
  have unread : g.out.any (fun o => o.txn == m.txn && (o.kind == .load || o.kind == .lr || o.kind == .prefetch)) = false := by
    rw [List.any_eq_false]; exact fun o ho => by simp [out o ho]
  have kept : (g.out.map fun o => if (o.txn == m.txn && (o.kind == .load || o.kind == .lr || o.kind == .prefetch)) = true
      then { o with got := true } else o) = g.out := by
    rw [List.map_congr_left (g := id) fun o ho => by simp [out o ho], List.map_id]
  have unpending : g.loads.find? (fun p => p.txn == m.txn) = none := by simpa using loads
  unfold Eng.loadAnswer
  dsimp only
  rw [unpending, unread]
  dsimp only
  rw [kept]
  rfl

theorem poisonedAt_clean {m : Msg} (clean : m.poison = 0) (o size : Nat) : poisonedAt m o size = false := by
  simp [poisonedAt, clean]

theorem loadFault_none {s : State} {e : Nat} (h : ∀ p ∈ (s.eng e).loads, p.fault = none) : s.loadFault e = s := by
  unfold State.loadFault
  split
  next p rest loads => rw [h p (loads ▸ List.mem_cons_self)]
  next => rfl

/-- The engine with its pending loads, its stall and its walk given up (R246). -/
def Eng.givenUp (g : Eng) : Eng := { g with loads := [], stall := .none, walk := none }

theorem loadFault_sole {s : State} {e c : Nat} {p : PendLoad} (loads : (s.eng e).loads = [p]) (fault : p.fault = some c) :
    s.loadFault e = (s.modEng e Eng.givenUp).exc e c p.pc p.addr := by
  simp only [State.loadFault, loads, fault]
  rfl

/-- The engine once the data has been written to rd (R257). -/
def Eng.loaded (g : Eng) (m : Msg) (p : PendLoad) : Eng := { g with
  regs := g.regs.set zero64 p.rd (BitVec.ofNat 64 (lineBytes m.data (p.pa.toNat % 64) p.size)), loads := [] }

theorem eip_raised (g : Eng) (cause : Nat) (epc eaddr target : Word) : (g.raised cause epc eaddr target).eip = true := by
  simp [Eng.eip, Eng.raised]

/-- The engine's one open transaction is a load, whose data or error the message brings. -/
structure Eng.AwaitsLoad (g : Eng) (m : Msg) (o : OutTxn) (p : PendLoad) : Prop where
  out : g.out = [o]
  sent : o.txn = m.txn
  kind : o.kind = .load
  loads : g.loads = [p]
  txn : p.txn = m.txn
  data : m.opc ≠ 0x2F

section
variable {g : Eng} {m : Msg} {o : OutTxn} {p : PendLoad} (waits : g.AwaitsLoad m o p)
include waits

theorem loadAnswer_sole : g.loadAnswer m = (g.loadData m p).returned m := by
  have pending : g.loads.find? (fun p => p.txn == m.txn) = some p := by simp [waits.loads, waits.txn]
  have reads : g.out.any (fun o => o.txn == m.txn && (o.kind == .load || o.kind == .lr || o.kind == .prefetch)) = true := by
    simp [waits.out, waits.sent, waits.kind]
  unfold Eng.loadAnswer
  dsimp only
  rw [pending, reads, if_pos rfl]
  exact congrArg (fun x : Eng => x.returned m) (if_neg waits.data)

theorem loadAnswer_clean (opc : m.opc ≠ 0x31) (clean : m.poison = 0) (rd : p.rd ≠ 0) :
    g.loadAnswer m = (g.loaded m p).outAfter m o := by
  have written : g.loadData m p = g.loaded m p := by
    simp only [Eng.loadData, if_neg opc, poisonedAt_clean clean, Eng.setFwReg, if_neg rd, waits.loads, Bool.false_eq_true,
      if_false, List.filter_cons, bne_self_eq_false, List.filter_nil, Eng.loaded]
  rw [loadAnswer_sole waits, written]
  exact returned_sole waits.out waits.sent

/-- An error answer gives the load the cause LOAD_ERR (Table 12.7). -/
theorem loadAnswer_error (opc : m.opc = 0x31) :
    g.loadAnswer m = { g with loads := [{ p with fault := some 0x0B }] : Eng }.outAfter m o := by
  have noted : g.loadData m p = { g with loads := [{ p with fault := some 0x0B }] } := by
    simp [Eng.loadData, opc, waits.loads]
  rw [loadAnswer_sole waits, noted]
  exact returned_sole waits.out waits.sent

end

section
variable {e : Fin 134} {m : Msg} {s : State} (fresh : m.txn ∉ (s.eng e).stale)
include fresh

theorem exec_engineLoadReturn_fresh : exec (.engineLoadReturn e m) s
    = .next ((((s.tookAs e m ((s.eng e).loadAnswer m)).loadFault e).pump e).boundary e) := by
  rw [exec_engineLoadReturn, execEngineLoadReturn, staleTake_fresh _ fresh, modEng_engTake]

theorem exec_engineLoadReturn_unknown (out : ∀ o ∈ (s.eng e).out, o.txn ≠ m.txn)
    (loads : ∀ p ∈ (s.eng e).loads, p.txn ≠ m.txn ∧ p.fault = none) (sb : (s.eng e).sb = [])
    (walk : (s.eng e).walk = none) (entry : s.noEntry e = true) :
    exec (.engineLoadReturn e m) s = .next (s.tookAs e m (s.eng e)) := by
  rw [exec_engineLoadReturn_fresh fresh, loadAnswer_unknown out fun p hp => (loads p hp).1,
    loadFault_none (by rw [eng_tookAs]; exact fun p hp => (loads p hp).2), pump_boundary_tookAs m sb walk rfl entry]

variable {o : OutTxn} {p : PendLoad} (waits : (s.eng e).AwaitsLoad m o p) (sb : (s.eng e).sb = [])
  (walk : (s.eng e).walk = none)
include waits sb

include walk in
theorem exec_engineLoadReturn_clean (opc : m.opc ≠ 0x31) (clean : m.poison = 0) (rd : p.rd ≠ 0) (entry : s.noEntry e = true) :
    exec (.engineLoadReturn e m) s = .next (s.tookAs e m (((s.eng e).loaded m p).outAfter m o)) := by
  rw [exec_engineLoadReturn_fresh fresh, loadAnswer_clean waits opc clean rd, loadFault_none,
    pump_boundary_tookAs (g := ((s.eng e).loaded m p).outAfter m o) m sb walk rfl entry]
  rw [eng_tookAs]
  exact fun p hp => absurd hp List.not_mem_nil

/-- The exception is taken at the load, whose answer has ended it (R246, Table 12.7). -/
theorem exec_engineLoadReturn_error (opc : m.opc = 0x31) (mode : (s.eng e).mode ≠ .farOp)
    (eip : (s.eng e).status.getLsbD 3 = false) (slots : (s.eng e).slots = []) (checker : e.val = 133 → s.stw.entries = [])
    (valid : validPc e ((s.eng e).evbase + 704) = true) :
    exec (.engineLoadReturn e m) s = .next (((s.tookAs e m ((s.eng e).givenUp.outAfter m o)).unwatch e).modEng e
      fun g => g.raised 0x0B p.pc p.addr (g.evbase + 704)) := by
  have raised : (s.tookAs e m ((s.eng e).loadAnswer m)).loadFault e
      = ((s.tookAs e m ((s.eng e).givenUp.outAfter m o)).unwatch e).modEng e
        fun g => g.raised 0x0B p.pc p.addr (g.evbase + 704) := by
    rw [loadAnswer_error waits opc, loadFault_sole (p := { p with fault := some 0x0B }) (by rw [eng_tookAs]; rfl) rfl,
      tookAs_modEng]
    refine (exc_raises (s := s.tookAs e m ((s.eng e).givenUp.outAfter m o)) 0x0B p.pc p.addr ?_ ?_ ?_ ?_).trans
      (modEng_congr (by rw [eng_unwatch]; rfl))
    all_goals rw [eng_tookAs]
    exacts [mode, eip, ⟨sb, rfl, slots⟩, valid]
  rw [exec_engineLoadReturn_fresh fresh, raised, pump_idle, boundary_of_eip]
  · simp [eip_raised]
  · simpa using checker
  · simpa [Eng.raised, Eng.outAfter, Eng.givenUp] using sb
  · simp [Eng.raised, Eng.outAfter, Eng.givenUp]

end

/-! ENGINE_STORE_COMPLETE and STORE_TIMEOUT -/

/-- The transaction once its completion has come. -/
def OutTxn.answered (o : OutTxn) : OutTxn := { o with got := true }

theorem storeAnswer_sole {g : Eng} {m : Msg} {o : OutTxn} (out : g.out = [o]) (sent : o.txn = m.txn) :
    g.storeAnswer m = g.outAfter m o.answered := by
  simp [Eng.storeAnswer, Eng.outAfter, out, sent, OutTxn.answered]

/-- The engine no longer stalls. -/
def Eng.unstalled (g : Eng) : Eng := { g with stall := .none }

/-- A store message is complete: its entry goes once all its messages are (R262). -/
def Eng.sbAfter (g : Eng) (txn : BitVec 12) : List SbEnt :=
  (g.sb.map fun b => if b.inflight.contains txn then { b with inflight := b.inflight.filter (· != txn) } else b).filter
    fun b => !(b.sending && b.unsent.isEmpty && b.inflight.isEmpty)

theorem storeDone_drained {s : State} {e : Nat} {txn : BitVec 12} (drained : (s.eng e).sbAfter txn = [])
    (walk : (s.eng e).walk = none) (warm : (s.eng e).warm = false) :
    s.storeDone e txn = s.modEng e fun g => { g with sb := [] } := by
  have emptied : (s.modEng e fun g => { g with sb := g.sbAfter txn }) = s.modEng e fun g => { g with sb := [] } :=
    modEng_congr (by rw [drained])
  rw [State.storeDone]
  change ((s.modEng e fun g => { g with sb := g.sbAfter txn }).pump e).tryWarm e = _
  rw [emptied, pump_idle (by simp) (by simpa using walk), tryWarm_of_not_warm (by simpa using warm)]

theorem sbAfter_of_empty {g : Eng} (txn : BitVec 12) (sb : g.sb = []) : g.sbAfter txn = [] := by
  simp [Eng.sbAfter, sb]

theorem sbAfter_of_last {g : Eng} {b : SbEnt} {txn : BitVec 12} (sb : g.sb = [b]) (sending : b.sending = true)
    (unsent : b.unsent = []) (inflight : b.inflight = [txn]) : g.sbAfter txn = [] := by
  simp [Eng.sbAfter, sb, sending, unsent, inflight]

/-- The end of an `SC` that waited at a good address (R268). -/
theorem scEnd_valid {s : State} {e rd : Nat} (failed : Bool) (written : rd ≠ 0)
    (next : validPc e ((s.eng e).pc + 4) = true) :
    s.scEnd e rd failed = (s.unwatch e).modEng e fun g => { g with
      rsvValid := false, rsvRemote := false, rsvLine := 0
      regs := g.regs.set zero64 rd (if failed then 1 else 0) : Eng }.goto e (g.pc + 4) := by
  rw [State.scEnd, dropRsv_eq, modEng_modEng]
  simp only [Eng.setFwReg, if_neg written]
  rw [State.fwAdvance, gotoPc_valid, modEng_modEng]
  · exact modEng_congr (by simp)
  · simpa using next

section
variable {e : Fin 134} {m : Msg} {s : State} {o : OutTxn} (fresh : m.txn ∉ (s.eng e).stale)

include fresh in
/-- An answer to no store of the engine is only taken. -/
theorem exec_engineStoreComplete_unknown (out : ∀ o ∈ (s.eng e).out, o.txn ≠ m.txn) :
    exec (.engineStoreComplete e m) s = .next (s.engTake e m) := by
  have none : (s.eng e).out.find? (fun o => o.txn == m.txn && (o.kind == .store || o.kind == .sc)) = none := by
    rw [List.find?_eq_none]; exact fun o ho => by simp [out o ho]
  rw [exec_engineStoreComplete, execEngineStoreComplete, staleTake_fresh _ fresh]
  dsimp only
  rw [none]

variable (out : (s.eng e).out = [o]) (sent : o.txn = m.txn) (walk : (s.eng e).walk = none) (warm : (s.eng e).warm = false)
  (sb : (s.eng e).sb = [])

include out sent in
theorem find_store_sole (kind : o.kind = .store ∨ o.kind = .sc) :
    (s.eng e).out.find? (fun o => o.txn == m.txn && (o.kind == .store || o.kind == .sc)) = some o := by
  obtain kind | kind := kind <;> simp [out, sent, kind]

include fresh out sent walk warm

include sb in
theorem exec_engineStoreComplete_got (kind : o.kind = .store ∨ o.kind = .sc) (got : o.got = true) :
    exec (.engineStoreComplete e m) s = .next (s.tookAs e m ((s.eng e).outAfter m o)) := by
  have again : o.answered = o := by rw [OutTxn.answered, ← got]
  simp only [exec_engineStoreComplete, execEngineStoreComplete, staleTake_fresh _ fresh, find_store_sole out sent kind,
    if_pos got, modEng_engTake, storeAnswer_sole out sent, again]
  exact congrArg _ (pump_tryWarm_tookAs m sb walk warm)

include sb in
/-- A store that timed out earlier only counts as late (R258). -/
theorem exec_engineStoreComplete_late (kind : o.kind = .store) (got : o.got = false) (late : o.timedOut = true) :
    exec (.engineStoreComplete e m) s = .next (s.tookAs e m
      { (s.eng e).outAfter m o.answered with serrLate := satInc16 (s.eng e).serrLate }) := by
  simp only [exec_engineStoreComplete, execEngineStoreComplete, staleTake_fresh _ fresh, find_store_sole out sent (.inl kind),
    got, kind, late, reduceCtorEq, Bool.false_eq_true, if_false, if_true, modEng_engTake, storeAnswer_sole out sent,
    tookAs_modEng]
  exact congrArg _ (pump_tryWarm_tookAs m sb walk warm)

theorem exec_engineStoreComplete_last {b : SbEnt} (kind : o.kind = .store) (got : o.got = false) (timely : o.timedOut = false)
    (opc : m.opc ≠ 0x31) (stall : (s.eng e).stall = .none) (sb : (s.eng e).sb = [b]) (sending : b.sending = true)
    (unsent : b.unsent = []) (inflight : b.inflight = [m.txn]) :
    exec (.engineStoreComplete e m) s = .next (s.tookAs e m
      { (s.eng e).outAfter m o.answered with sb := [] }) := by
  simp only [exec_engineStoreComplete, execEngineStoreComplete, staleTake_fresh _ fresh, find_store_sole out sent (.inl kind),
    got, kind, timely, if_neg opc, stall, reduceCtorEq, Bool.false_eq_true, if_false, modEng_engTake,
    storeAnswer_sole out sent]
  rw [storeDone_drained, tookAs_modEng]
  all_goals rw [eng_tookAs]
  exacts [sbAfter_of_last sb sending unsent inflight, walk, warm]

omit walk warm in
/-- The completion of an `SC` that the slice has served writes 0 to rd and moves on (R268). -/
theorem engineStoreComplete_sc {rd : Nat} (kind : o.kind = .sc) (got : o.got = false) (timely : o.timedOut = false)
    (opc : m.opc ≠ 0x31) (served : m.txn ∉ (s.slice e).scFailed) (stall : (s.eng e).stall = .sc rd m.txn)
    (written : rd ≠ 0) (entry : s.noEntry e = true) (next : validPc e ((s.eng e).pc + 4) = true) :
    Ends (.engineStoreComplete e m) s fun t => t.eng e = { (s.eng e).goto e ((s.eng e).pc + 4) with
      out := if m.cret = true then [] else [{ o with got := true }]
      stall := .none, rsvValid := false, rsvRemote := false, rsvLine := 0
      regs := (s.eng e).regs.set zero64 rd 0 } := by
  let u : State := ((s.tookAs e m ((s.eng e).outAfter m o.answered)).modSlice e fun x => { x with
    scFailed := x.scFailed.filter (· != m.txn) }).modEng e Eng.unstalled
  have engine : u.eng e = ((s.eng e).outAfter m o.answered).unstalled := by simp [u]
  have success : (m.opc == 0x31 || (s.slice e).scFailed.contains m.txn) = false := by
    rw [beq_eq_false_iff_ne.mpr opc, Bool.false_or, List.contains_eq_mem, decide_eq_false served]
  have run : exec (.engineStoreComplete e m) s = .next ((u.scEnd e rd false).boundary e) := by
    simp only [exec_engineStoreComplete, execEngineStoreComplete, staleTake_fresh _ fresh, find_store_sole out sent (.inr kind),
      got, if_pos kind, timely, if_neg opc, stall, Bool.false_eq_true, if_false, if_true, modEng_engTake,
      storeAnswer_sole out sent, success]
    rfl
  rw [scEnd_valid false written (by rw [engine]; exact next), boundary_of_noEntry] at run
  · refine ends_next run ?_
    rw [eng_modEng, if_pos rfl, eng_unwatch, engine]
    rfl
  · rw [← entry]
    exact noEntry_congr (by rw [eng_modEng, if_pos rfl, eng_unwatch, engine]; rfl) (by simp [u])

end

theorem storeError_running {s : State} {e : Nat} (addr : Word) (timeout : Bool) (state : (s.eng e).state ≠ 3)
    (warm : (s.eng e).warm = false) :
    s.storeError e addr timeout = s.modEng e fun g => { g with
      serrPending := true, serrTimeout := timeout, serrAddr := addr
      serrErrors := if g.serrErrors = 0xFFFF then 0xFFFF else g.serrErrors + 1 } :=
  if_neg <| by simpa [warm] using state

/-- Nothing waits for `txn` so long that it is late (R258). -/
theorem storeTimeout_idles {e : Fin 134} {txn : BitVec 12} {s : State}
    (h : (s.eng e).out.find? (fun o => o.txn == txn && (o.kind == .store || o.kind == .sc) && !o.timedOut && !o.got) = none
      ∨ ∃ o, (s.eng e).out.find? (fun o => o.txn == txn && (o.kind == .store || o.kind == .sc) && !o.timedOut && !o.got) = some o
        ∧ s.time - o.sentAt < (s.eng e).storeTo.toNat) : Idles (.storeTimeout e txn) s := by
  rw [Idles, exec_storeTimeout, execStoreTimeout]
  dsimp only
  obtain none | ⟨o, found, early⟩ := h
  · rw [none]
  · rw [found]
    dsimp only
    rw [if_pos early]

/-- The engine with its one store timed out (R258). -/
def Eng.timesOut (g : Eng) (o : OutTxn) : Eng := { g with
  out := [{ o with timedOut := true }], serrPending := true, serrTimeout := true, serrAddr := o.addr
  serrErrors := if g.serrErrors = 0xFFFF then 0xFFFF else g.serrErrors + 1, sb := [] }

theorem exec_storeTimeout_due {e : Fin 134} {s : State} {o : OutTxn} (out : (s.eng e).out = [o]) (kind : o.kind = .store)
    (timely : o.timedOut = false) (got : o.got = false) (due : (s.eng e).storeTo.toNat ≤ s.time - o.sentAt)
    (stall : (s.eng e).stall = .none) (sb : (s.eng e).sb = []) (walk : (s.eng e).walk = none)
    (warm : (s.eng e).warm = false) (state : (s.eng e).state ≠ 3) :
    exec (.storeTimeout e o.txn) s = .next (s.modEng e fun g => g.timesOut o) := by
  have found : (s.eng e).out.find?
      (fun p => p.txn == o.txn && (p.kind == .store || p.kind == .sc) && !p.timedOut && !p.got) = some o := by
    simp [out, kind, timely, got]
  rw [exec_storeTimeout, execStoreTimeout]
  dsimp only
  rw [found]
  dsimp only
  rw [if_neg (Nat.not_lt.mpr due), stall]
  dsimp only
  rw [storeError_running, modEng_modEng, storeDone_drained, modEng_modEng]
  · exact congrArg _ (modEng_congr (by simp [Eng.timesOut, out]))
  · exact sbAfter_of_empty _ (by simpa using sb)
  all_goals simpa

/-! WALK_READ_RETURN and TLBI_DONE -/

/-- An answer to a walk's read returns its credit. -/
def Eng.walkReturned (g : Eng) (m : Msg) : Eng :=
  if g.out.any (fun o => o.txn == m.txn && o.kind == .walk) then g.returned m else g

theorem walkReturned_unknown {g : Eng} {m : Msg} (out : ∀ o ∈ g.out, o.txn ≠ m.txn) : g.walkReturned m = g :=
  if_neg (by simpa using fun o ho sent => absurd sent (out o ho))

theorem walkReturned_sole {g : Eng} {m : Msg} {o : OutTxn} (out : g.out = [o]) (sent : o.txn = m.txn)
    (kind : o.kind = .walk) : g.walkReturned m = g.outAfter m o :=
  (if_pos (by simp [out, sent, kind])).trans (returned_sole out sent)

section
variable {e : Fin 134} {m : Msg} {s : State} {g : Eng} (fresh : m.txn ∉ (s.eng e).stale)
  (answer : (s.eng e).walkReturned m = g) (irq : g.irq = (s.eng e).irq) (sb : g.sb = []) (entry : s.noEntry e = true)
include fresh answer irq sb entry

theorem exec_walkReadReturn_over (walk : g.walk = none) : exec (.walkReadReturn e m) s = .next (s.tookAs e m g) := by
  unfold Eng.walkReturned at answer
  simp only [exec_walkReadReturn, execWalkReadReturn, staleTake_fresh _ fresh, modEng_engTake, answer, eng_tookAs, walk]
  exact congrArg _ (pump_boundary_tookAs m sb walk irq entry)

/-- The last read of a walk whose entry is a good page (R271 step 4). -/
theorem exec_walkReadReturn_page {k : PtWalk} (walk : g.walk = some k) (txn : k.txn = some m.txn) (once : k.again = false)
    (data : m.opc ≠ 0x2F) (opc : m.opc ≠ 0x31) (clean : m.poison = 0) {v : Word}
    (read : v = BitVec.ofNat 64 (lineBytes m.data
      ((k.table + 8 * ((k.va >>> (39 - 9 * k.level)) &&& 0x1FF)).toNat % 64) 8))
    (good : pteFault v k.level = false) (leaf : v.getLsbD 1 = true) :
    exec (.walkReadReturn e m) s = .next (s.tookAs e m { g.fillTlb k.va v with walk := none }) := by
  have page : (s.tookAs e m g).walkData e m k
      = ((s.tookAs e m { g.fillTlb k.va v with walk := none }).pump e) := by
    unfold State.walkData
    dsimp only
    rw [if_neg (by simp [once]), if_neg fun bad => bad.elim opc (by simp [poisonedAt_clean clean]), ← read,
      if_neg (by simp [good]), if_pos leaf, tookAs_modEng]
  unfold Eng.walkReturned at answer
  simp only [exec_walkReadReturn, execWalkReadReturn, staleTake_fresh _ fresh, modEng_engTake, answer, eng_tookAs, walk,
    if_pos (And.intro txn data), page]
  exact congrArg _ (pump_boundary_tookAs (g := { g.fillTlb k.va v with walk := none }) m sb rfl irq entry)

end

theorem exec_tlbiDone_ends {e : Fin 134} {m : Msg} {s : State} (stall : (s.eng e).stall = .tlbi m.txn)
    (entry : s.noEntry e = true) (next : validPc e ((s.eng e).pc + 4) = true) :
    exec (.tlbiDone e m) s
      = .next (s.tookAs e m (((s.eng e).tlbReturned m).unstalled.goto e ((s.eng e).pc + 4))) := by
  have stalled : ((s.eng e).tlbReturned m).stall = .tlbi m.txn := stall
  have moved : (s.tookAs e m ((s.eng e).tlbReturned m).unstalled).fwAdvance e
      = s.tookAs e m (((s.eng e).tlbReturned m).unstalled.goto e ((s.eng e).pc + 4)) := by
    rw [State.fwAdvance, gotoPc_valid (by rw [eng_tookAs]; exact next), tookAs_modEng, eng_tookAs]
    rfl
  rw [exec_tlbiDone, execTlbiDone, modEng_engTake]
  dsimp only
  rw [eng_tookAs, stalled]
  dsimp only
  rw [if_pos rfl]
  change Host.Outcome.next ((((s.tookAs e m _).modEng e Eng.unstalled).fwAdvance e).boundary e) = _
  rw [tookAs_modEng, moved, boundary_of_noEntry]
  refine (noEntry_tookAs s e m _ ?_).trans entry
  rfl

section
variable {e : Fin 134} {m : Msg} {s : State} (credit : (s.eng e).tlbTxn = some m.txn)
include credit

theorem tlbReturned_own : (s.eng e).tlbReturned m = { s.eng e with tlbTxn := none } := by
  rw [Eng.tlbReturned, if_pos credit]

theorem exec_tlbiDone_over (stall : (s.eng e).stall = .none) :
    exec (.tlbiDone e m) s = .next (s.tookAs e m { s.eng e with tlbTxn := none }) := by
  rw [exec_tlbiDone, execTlbiDone, modEng_engTake, ← tlbReturned_own credit]
  dsimp only
  rw [eng_tookAs, Eng.tlbReturned, stall]

end

end Sys2Proof.Machine
end

section
/-! SUPPORT. STORE_BUFFER_SEND (R262, R263): which entries start, and what an entry of a full line sends. -/
namespace Sys2Proof.Machine
open Sys2Proof

theorem exec_storeBufferSend (e : Fin 134) (a : LineAddr) (s : State) :
    exec (.storeBufferSend e a) s = execStoreBufferSend e a s := rfl

/-- The open entries of the line whose first store is 64 ECLK old (R263). -/
def State.sendsNow (s : State) (a : LineAddr) (b : SbEnt) : Bool := b.addr == a && decide (b.since + 64 ≤ s.eclk)

/-- An entry as it starts sending. -/
def SbEnt.started (b : SbEnt) (time : Nat) : SbEnt :=
  { b with sending := true, sendAt := time, unsent := maskRuns b.mask }

theorem startSend_none {g : Eng} (time : Nat) {c : SbEnt → Bool} (h : ∀ b ∈ g.sb, c b = false) : g.startSend time c = g := by
  have kept : (g.sb.map fun b =>
      if !b.sending && c b then { b with sending := true, sendAt := time, unsent := maskRuns b.mask } else b) = g.sb := by
    rw [List.map_congr_left (g := id) fun b hb => by simp [h b hb], List.map_id]
  rw [Eng.startSend, kept]

theorem startSend_sole {g : Eng} {b : SbEnt} (time : Nat) {c : SbEnt → Bool} (sb : g.sb = [b]) (unsent : b.sending = false)
    (h : c b = true) : g.startSend time c = { g with sb := [b.started time] } := by
  simp [Eng.startSend, sb, unsent, h, SbEnt.started]

/-! The pump with no walk to serve -/

theorem ready_mem {g : Eng} {b : SbEnt} {l : List SbEnt} {seen : List LineAddr} (h : g.ready l seen = some b) : b ∈ l := by
  induction l generalizing seen with
  | nil => simp [Eng.ready] at h
  | cons c rest ih =>
    unfold Eng.ready at h
    split at h
    · cases h; exact List.mem_cons_self
    · exact List.mem_cons_of_mem _ (ih h)

section
variable {s : State} {e : Nat} (walk : (s.eng e).walk = none)
include walk

theorem pump_of_sent (sent : ∀ b ∈ (s.eng e).sb, b.unsent = []) : s.pump e = s := by
  have nothing : ((s.eng e).sb.map (fun b => b.unsent.length)).sum = 0 :=
    List.sum_eq_zero (by simpa using fun b hb => sent b hb)
  unfold State.pump
  simp only [walk, nothing, List.range_zero, List.foldl_nil, ite_self]

omit walk in
theorem sbSendOne_no_credit (credit : ∀ b ∈ (s.eng e).sb, s.engCredit e b.addr = false) : s.sbSendOne e = s := by
  unfold State.sbSendOne
  split
  next => rfl
  next b ready =>
    split
    next => rfl
    next => exact if_pos (credit b (ready_mem ready))

theorem pump_no_credit (credit : ∀ b ∈ (s.eng e).sb, s.engCredit e b.addr = false) : s.pump e = s := by
  unfold State.pump
  simp only [walk]
  rw [List.foldl_fixed' (f := fun (u : State) (_ : Nat) => u.sbSendOne e) fun _ => sbSendOne_no_credit credit, ite_self]

theorem pump_one {b : SbEnt} {run : Nat × Nat} (evac : s.evacHeld e = false) (sb : (s.eng e).sb = [b])
    (unsent : b.unsent = [run]) : s.pump e = s.sbSendOne e := by
  unfold State.pump
  simp only [evac, walk, sb, unsent, Bool.false_eq_true, if_false, List.map_cons, List.map_nil, List.length_cons,
    List.length_nil, List.sum_cons, List.sum_nil]
  rfl

end

theorem engCredit_modEng (s : State) {e : Nat} {f : Eng → Eng} (a : LineAddr) (out : (f (s.eng e)).out = (s.eng e).out) :
    (s.modEng e f).engCredit e a = s.engCredit e a := by
  have outs : ((s.modEng e f).eng e).out = (s.eng e).out := by rw [eng_modEng, if_pos rfl, out]
  simp only [State.engCredit, State.portHolds, outs]
  rfl

/-! A full line -/

theorem maskRuns_allOnes : maskRuns (BitVec.allOnes 64) = [(0, 64)] := by decide

theorem line_of_byteAddr (a : LineAddr) : (byteAddr a).extractLsb' 6 46 = a := by
  unfold byteAddr
  refine BitVec.eq_of_getLsbD_eq fun i hi => ?_
  have width : 6 + i < 64 := by omega
  simp [hi, width]

theorem ready_sole {g : Eng} {b : SbEnt} (sending : b.sending = true) (unsent : b.unsent ≠ []) (loads : g.loads = [])
    (timely : ∀ o ∈ g.out, o.timedOut = false) : g.ready [b] [] = some b := by
  have unread : g.loadingMask b = false := by simp [Eng.loadingMask, Eng.loading, loads]
  have none_late : g.out.any (fun o => o.timedOut && o.ent != b.id && o.addr.extractLsb' 6 46 == b.addr) = false := by
    rw [List.any_eq_false]; exact fun o ho => by simp [timely o ho]
  simp [Eng.ready, sending, unsent, unread, none_late]

/-- The entry once its one message has left. -/
def SbEnt.sent (b : SbEnt) (txn : BitVec 12) : SbEnt := { b with unsent := [], inflight := b.inflight ++ [txn] }

theorem sbSendOne_full {s : State} {e : Nat} {b : SbEnt} (sb : (s.eng e).sb = [b]) (sending : b.sending = true)
    (unsent : b.unsent = [(0, 64)]) (loads : (s.eng e).loads = []) (timely : ∀ o ∈ (s.eng e).out, o.timedOut = false)
    (credit : s.engCredit e b.addr = true) :
    s.sbSendOne e = (s.modEng e fun g => { g with sb := [b.sent g.freeTxn] }).engReq e 0x04 (byteAddr b.addr) .store b.sendAt
      (fun m => { m with data := b.data }) b.id := by
  have ready : (s.eng e).ready (s.eng e).sb [] = some b := by
    rw [sb]; exact ready_sole sending (by simp [unsent]) loads timely
  have replaced : (s.modEng e fun g => { g with
      sb := sbReplace b { b with unsent := [], inflight := b.inflight ++ [(s.eng e).freeTxn] } g.sb })
      = s.modEng e fun g => { g with sb := [b.sent g.freeTxn] } :=
    modEng_congr (by simp [sb, sbReplace, SbEnt.sent])
  unfold State.sbSendOne
  simp only [ready, unsent, credit, Bool.true_eq_false, if_false, if_true, BitVec.ofNat_eq_ofNat, BitVec.add_zero]
  rw [replaced]

/-- A message of a spoke engine as it leaves its slice's stop for the steward port, which relays it (R9). -/
def relayFlit (m : Msg) : Flit := { flitOf m 0 with dkind := 1, dest := 1020 }

/-- A request of a spoke engine for a home, sent as soon as it is tried, goes to the engine's own slice or leaves through the
slice's stop for the steward port (R9, R29, R63). -/
theorem engSend_home {s : State} {e : Nat} {m : Msg} (spoke : isSpoke e = true) (age : m.age = 0) (dst : m.dst = 1023) :
    s.engSend e m = if s.ownLine e m.addr = true then s.modSlice e fun x => { x with local_ := x.local_ ++ [m] }
      else s.modSlice e fun x => { x with stop := { x.stop with
        outbox := x.stop.outbox ++ [relayFlit m] } } := by
  have below : ¬ 132 ≤ e := by simpa [isSpoke] using spoke
  have unaged : (if m.cls = 0 ∧ isSpoke e = true then { m with age := s.ageSince s.time } else m) = m := by
    split
    · have now : s.ageSince s.time = m.age := by rw [age]; simp [State.ageSince]
      rw [now]
    · rfl
  unfold State.engSend
  rw [unaged, if_neg below]
  dsimp only
  rw [dst]
  simp only [true_and]
  rfl

/-- `WriteNcFull` of a line (R262). -/
def lineWrite (g : Eng) (e : Nat) (a : LineAddr) (data : LineData) : Msg := { mkMsg 0x04 (engAgent e) 1023 with
  reqid := engAgent e, txn := g.freeTxn, home := lsliceOf a, addr := a, data }

theorem engReq_line (s : State) (e : Nat) (a : LineAddr) (data : LineData) (ent : Nat) :
    s.engReq e 0x04 (byteAddr a) .store s.time (fun m => { m with data }) ent
      = (s.modEng e fun g => { g with out := g.out ++ [{ txn := (s.eng e).freeTxn, kind := .store, addr := byteAddr a
                                                         own := s.ownLine e a, sentAt := s.time, ent }] }).engSend e
          (lineWrite (s.eng e) e a data) := by
  unfold State.engReq
  dsimp only
  rw [line_of_byteAddr]
  rfl

section
variable {e : Fin 134} {s : State} {b : SbEnt} (sb : (s.eng e).sb = [b]) (waiting : b.sending = false)
  (old : b.since + 64 ≤ s.eclk) (walk : (s.eng e).walk = none)

/-- The state once the one entry of the store buffer has started. -/
def State.started (s : State) (e : Nat) (b : SbEnt) : State := s.modEng e fun g => { g with sb := [b.started s.time] }

include sb waiting old in
theorem exec_storeBufferSend_sole : exec (.storeBufferSend e b.addr) s = .next ((s.started e b).pump e) := by
  have started : (s.modEng e fun g => g.startSend s.time (s.sendsNow b.addr)) = s.started e b :=
    modEng_congr (startSend_sole _ sb waiting (by simp [State.sendsNow, old]))
  rw [exec_storeBufferSend, execStoreBufferSend, ← started]
  rfl

@[simp] theorem eng_started (s : State) (e : Nat) (b : SbEnt) :
    (s.started e b).eng e = { s.eng e with sb := [b.started s.time] } := by simp [State.started]

theorem engCredit_started (s : State) (e : Nat) (b : SbEnt) (a : LineAddr) :
    (s.started e b).engCredit e a = s.engCredit e a := engCredit_modEng s a rfl

include sb waiting old walk

/-- Without a credit the entry has started and waits. -/
theorem storeBufferSend_waits (credit : s.engCredit e b.addr = false) :
    Ends (.storeBufferSend e b.addr) s fun t =>
      (t.eng e).sb = [b.started s.time] ∧ { t with engines := s.engines } = s := by
  have idle : (s.started e b).pump e = s.started e b := by
    refine pump_no_credit (by rwa [eng_started]) ?_
    rw [eng_started]
    rintro _ (_ | _)
    · exact (engCredit_started ..).trans credit
    · contradiction
  refine ends_next ((exec_storeBufferSend_sole sb waiting old).trans (congrArg _ idle)) ⟨?_, rfl⟩
  rw [eng_started]

variable (evac : s.evacHeld e = false) (full : b.mask = BitVec.allOnes 64) (loads : (s.eng e).loads = [])
  (timely : ∀ o ∈ (s.eng e).out, o.timedOut = false) (credit : s.engCredit e b.addr = true)
include evac full loads timely credit

/-- The transaction that a full line opens. -/
def SbEnt.fullTxn (b : SbEnt) (s : State) (e : Nat) : OutTxn :=
  { txn := (s.eng e).freeTxn, kind := .store, addr := byteAddr b.addr, own := s.ownLine e b.addr, sentAt := s.time, ent := b.id }

theorem exec_storeBufferSend_full : exec (.storeBufferSend e b.addr) s
    = .next ((s.modEng e fun g => { g with
        sb := [(b.started s.time).sent (s.eng e).freeTxn], out := g.out ++ [b.fullTxn s e] }).engSend e
      (lineWrite (s.eng e) e b.addr b.data)) := by
  have unsent : (b.started s.time).unsent = [(0, 64)] := (congrArg maskRuns full).trans maskRuns_allOnes
  have sole : ((s.started e b).eng e).sb = [b.started s.time] := by rw [eng_started]
  have sent := sbSendOne_full (s := s.started e b) sole rfl unsent (by rwa [eng_started]) (by rwa [eng_started])
    ((engCredit_started ..).trans credit)
  rw [exec_storeBufferSend_sole sb waiting old, pump_one (s := s.started e b) (by rwa [eng_started]) evac sole unsent, sent]
  refine congrArg _ ((engReq_line _ e b.addr b.data b.id).trans ?_)
  rw [State.started, modEng_modEng, modEng_modEng, eng_modEng, if_pos rfl, eng_modEng, if_pos rfl]
  rfl

/-- A full line leaves as `WriteNcFull` to the engine's own slice, or through the slice's stop (R9, R29, R262). -/
theorem storeBufferSend_full (spoke : isSpoke e = true) : Ends (.storeBufferSend e b.addr) s fun t =>
    (t.eng e).sb = [(b.started s.time).sent (s.eng e).freeTxn]
      ∧ (∃ o, (t.eng e).out = (s.eng e).out ++ [o] ∧ o.txn = (s.eng e).freeTxn ∧ o.kind = .store ∧ o.sentAt = s.time)
      ∧ (s.ownLine e b.addr = true → (t.slice e).local_ = (s.slice e).local_ ++ [lineWrite (s.eng e) e b.addr b.data]
        ∧ (t.slice e).stop = (s.slice e).stop)
      ∧ (s.ownLine e b.addr = false → (t.slice e).local_ = (s.slice e).local_
        ∧ (t.slice e).stop.outbox = (s.slice e).stop.outbox
          ++ [relayFlit (lineWrite (s.eng e) e b.addr b.data)]) := by
  refine ends_next (exec_storeBufferSend_full sb waiting old walk evac full loads timely credit) ?_
  have own_kept (f : Eng → Eng) :
      (s.modEng e f).ownLine e (lineWrite (s.eng e) e b.addr b.data).addr = s.ownLine e b.addr := rfl
  rw [engSend_home spoke rfl rfl, own_kept]
  split
  next own =>
    refine ⟨?_, ⟨b.fullTxn s e, ?_, rfl, rfl, rfl⟩, fun _ => ⟨?_, ?_⟩, fun other => absurd (own.symm.trans other) (by decide)⟩
    all_goals simp
  next other =>
    refine ⟨?_, ⟨b.fullTxn s e, ?_, rfl, rfl, rfl⟩, fun own => absurd own other, fun _ => ⟨?_, ?_⟩⟩
    all_goals simp

end

/-- With no entry of the line that is old enough, and nothing left to send, nothing changes. -/
theorem storeBufferSend_early {e : Fin 134} {a : LineAddr} {s : State}
    (early : ∀ b ∈ (s.eng e).sb, b.sending = false ∧ (b.addr ≠ a ∨ s.eclk < b.since + 64) ∧ b.unsent = [])
    (walk : (s.eng e).walk = none) :
    Ends (.storeBufferSend e a) s fun t => t.eng e = s.eng e ∧ { t with engines := s.engines } = s := by
  have none : (s.eng e).startSend s.time (s.sendsNow a) = s.eng e := by
    refine startSend_none _ fun b hb => Bool.and_eq_false_iff.mpr ?_
    obtain ⟨-, other | young, -⟩ := early b hb
    · exact .inl (beq_eq_false_iff_ne.mpr other)
    · exact .inr (decide_eq_false (Nat.not_le.mpr young))
  have kept : (s.modEng e fun g => g.startSend s.time (s.sendsNow a)).eng e = s.eng e := by
    rw [eng_modEng, if_pos rfl, none]
  have idle : (s.modEng e fun g => g.startSend s.time (s.sendsNow a)).pump e
      = s.modEng e fun g => g.startSend s.time (s.sendsNow a) :=
    pump_of_sent (by rw [kept, walk]) (by
      rw [kept]
      intro b hb
      obtain ⟨-, -, sent⟩ := early b hb
      exact sent)
  have run : exec (.storeBufferSend e a) s = .next (s.modEng e fun g => g.startSend s.time (s.sendsNow a)) :=
    congrArg Host.Outcome.next idle
  exact ends_next run ⟨kept, rfl⟩

end Sys2Proof.Machine
end

section
/-! SUPPORT. The answers to an engine's transactions together (O31). -/
namespace Sys2Proof.Machine
open Sys2Proof

section
variable {e : Fin 134} {m : Msg} {s : State}

/-- The three commands take an answer to a transaction of before a cold reset alike (Table 13.3). -/
theorem answer_takes_stale {c : Instr}
    (h : c ∈ ([.engineLoadReturn e m, .engineStoreComplete e m, .walkReadReturn e m] : List Instr)) :
    ∃ go, exec c s = .next (s.staleTake e m go) := by
  revert c
  simp only [List.forall_mem_cons, List.not_mem_nil, false_implies, implies_true, and_true]
  exact ⟨⟨_, rfl⟩, ⟨_, rfl⟩, ⟨_, rfl⟩⟩

/-- An answer to no transaction of its kind is only taken. -/
theorem answer_unknown (fresh : m.txn ∉ (s.eng e).stale) (out : ∀ o ∈ (s.eng e).out, o.txn ≠ m.txn)
    (loads : ∀ p ∈ (s.eng e).loads, p.txn ≠ m.txn ∧ p.fault = none) (sb : (s.eng e).sb = [])
    (walk : (s.eng e).walk = none) (entry : s.noEntry e = true) {c : Instr}
    (h : c ∈ ([.engineLoadReturn e m, .engineStoreComplete e m, .walkReadReturn e m] : List Instr)) :
    Ends c s fun t => { t with engines := s.engines } = { s.engTake e m with engines := s.engines } ∧ t.eng e = s.eng e := by
  revert c
  simp only [List.forall_mem_cons, List.not_mem_nil, false_implies, implies_true, and_true]
  refine ⟨?_, ?_, ?_⟩
  · exact ends_next (exec_engineLoadReturn_unknown fresh out loads sb walk entry) ⟨rfl, eng_tookAs ..⟩
  · exact ends_next (exec_engineStoreComplete_unknown fresh out) ⟨rfl, eng_engTake ..⟩
  · exact ends_next (exec_walkReadReturn_over fresh (walkReturned_unknown out) rfl sb entry walk) ⟨rfl, eng_tookAs ..⟩

end

/-- Settles O31: each answer by what the engine becomes that takes it (`tookAs`), with nothing more to send, to enter or to
reset; STORE_BUFFER_SEND by the entries that start and the one message that a full line sends. -/
theorem engineAnswersEndTransactions : Obligations.EngineAnswersEndTransactions := by
  unfold Obligations.EngineAnswersEndTransactions
  intro e m s
  refine ⟨?stale, ?unknown, ?load, ?store, ?early, ?timeout, ?walk, ?tlbi, ?tlbiOver, ?sendNone, ?send⟩
  case stale =>
    intro stale c hc
    obtain ⟨go, run⟩ := answer_takes_stale hc
    exact ends_next run (staleTake_spec go stale)
  case unknown => exact fun fresh out loads sb walk entry c => answer_unknown fresh out loads sb walk entry
  case early => exact fun txn => storeTimeout_idles
  case sendNone => exact fun a => storeBufferSend_early
  case load =>
    intro o p fresh out sent kind loads txn data sb walk
    have waits : (s.eng e).AwaitsLoad m o p := ⟨out, sent, kind, loads, txn, data⟩
    refine ⟨fun opc clean rd entry => ends_next (exec_engineLoadReturn_clean fresh waits sb walk opc clean rd entry)
      (eng_tookAs ..), fun opc mode eip slots checker valid =>
        ends_next (exec_engineLoadReturn_error fresh waits sb opc mode eip slots checker valid) ?_⟩
    rw [eng_modEng, if_pos rfl, eng_unwatch, eng_tookAs]
    exact ⟨rfl, rfl, rfl, rfl, rfl, rfl, rfl⟩
  case store =>
    intro o fresh out sent walk warm
    refine ⟨fun kind got sb => ?_, fun kind got late sb => ?_, fun b kind got timely opc stall sb sending unsent inflight => ?_,
      fun rd kind got timely opc served sb stall written entry next => ?_⟩
    · exact ends_next (exec_engineStoreComplete_got fresh out sent walk warm sb kind got) (eng_tookAs ..)
    · refine ends_next (exec_engineStoreComplete_late fresh out sent walk warm sb kind got late) ?_
      rw [eng_tookAs]
      exact ⟨rfl, satInc16_eq _, rfl, rfl⟩
    · exact ends_next (exec_engineStoreComplete_last fresh out sent walk warm kind got timely opc stall sb sending unsent
        inflight) (eng_tookAs ..)
    · exact engineStoreComplete_sc fresh out sent kind got timely opc served stall written entry next
  case timeout =>
    rintro _ o out rfl kind timely got due stall sb walk warm state
    refine ends_next (exec_storeTimeout_due out kind timely got due stall sb walk warm state) ?_
    rw [eng_modEng, if_pos rfl]
    exact ⟨rfl, rfl, rfl, rfl, rfl, rfl⟩
  case walk =>
    intro o fresh out sent kind sb entry
    have answer := walkReturned_sole out sent kind
    exact ⟨fun walk => ends_next (exec_walkReadReturn_over fresh answer rfl sb entry walk) (eng_tookAs ..),
      fun k v walk txn once data opc clean read good leaf =>
        ends_next (exec_walkReadReturn_page fresh answer rfl sb entry walk txn once data opc clean read good leaf)
          (eng_tookAs ..)⟩
  case tlbi =>
    intro stall credit entry next
    refine ends_next (exec_tlbiDone_ends stall entry next) ?_
    rw [eng_tookAs, tlbReturned_own credit]
    rfl
  case tlbiOver => exact fun stall credit => ends_next (exec_tlbiDone_over credit stall) (eng_tookAs ..)
  case send =>
    intro b sb waiting old walk
    refine ⟨storeBufferSend_waits sb waiting old walk, ?_⟩
    rintro _ credit evac spoke full loads timely rfl
    exact storeBufferSend_full sb waiting old walk evac full loads timely credit spoke

end Sys2Proof.Machine
end

section
/-! SUPPORT. What breakaway and the watchdog do to a tracker (R99, R100, R102). -/

namespace Sys2Proof.Machine

open Sys2Proof

/-! Counting and queueing (R100, R114, R324) -/

/-- The state without its slices and performance counters. -/
def State.besidesCounted (s : State) : State := { s with slices := [], pmc := {} }

theorem eq_of_besidesCounted_eq {s t : State} (h : t.besidesCounted = s.besidesCounted) :
    { t with slices := s.slices, pmc := s.pmc } = s :=
  congrArg (fun x : State => { x with slices := s.slices, pmc := s.pmc }) h

@[simp] theorem besidesCounted_count (s : State) (p : Nat) (c : Cnt) : (s.count p c).besidesCounted = s.besidesCounted := by
  unfold State.count
  split <;> rfl

theorem cnt_count (s : State) (p : Nat) (c : Cnt) : ((s.count p c).slice p).cnt.get zeroNat c.ctorIdx
    = satAdd c.cap ((s.slice p).cnt.get zeroNat c.ctorIdx) 1 := by
  unfold State.count
  split
  · rw [slice_slcEvent, slice_modSlice, if_pos rfl]
    exact NMap.get_set_self ..
  · rw [slice_modSlice, if_pos rfl]
    exact NMap.get_set_self ..

/-- Tracker content that has reached breakaway in FCLK `fclk` (R100). -/
def Trk.broken (fclk : Nat) (k : Trk) : Trk := { k with brk := true, brkAt := fclk }

/-- The conflict queue of line `a` once tracker `t` has joined it: at its tail, or at breakaway where R100 puts it. -/
def State.joined (s : State) (p t : Nat) (a : LineAddr) : List Nat :=
  let x := s.slice p
  let q := (x.line a).queue.filter (· != t)
  let ahead := fun i => match x.trk i, x.trk t with
    | some j, some k => j.brk && s.brkAhead j k
    | _, _ => false
  if (x.trk t).any (·.brk) then q.takeWhile ahead ++ [t] ++ q.dropWhile ahead else q ++ [t]

theorem mem_joined (s : State) (p t : Nat) (a : LineAddr) : t ∈ s.joined p t a := by
  unfold State.joined
  dsimp only
  split <;> simp

theorem joined_of_young {s : State} {p t : Nat} {k : Trk} (open_ : (s.slice p).trk t = some k) (young : k.brk = false)
    (a : LineAddr) : s.joined p t a = ((s.slice p).line a).queue.filter (· != t) ++ [t] := by
  simp only [State.joined, open_, Option.any_some, young, Bool.false_eq_true, if_false]

/-- Joining a conflict queue changes the line's queue and the tracker's phase (R114). -/
theorem slice_enqueue (s : State) (p t : Nat) (a : LineAddr) : (s.enqueue p t a).slice p
    = ((s.slice p).setLine a { (s.slice p).line a with queue := s.joined p t a }).setTrk t
      (((s.slice p).trk t).map fun k => { k with phase := .queued }) := by
  unfold State.enqueue
  dsimp only
  rw [slice_modTrk, slice_modLine]
  rfl

theorem besidesCounted_enqueue (s : State) (p t : Nat) (a : LineAddr) :
    (s.enqueue p t a).besidesCounted = s.besidesCounted := rfl

theorem sentNothing_enqueue (s : State) (p t : Nat) (a : LineAddr) : SentNothing s (s.enqueue p t a) p := by
  refine sentNothing_of_slice ?_ ?_ <;> rw [slice_enqueue] <;> rfl

theorem trk_breakOut {s : State} {p t : Nat} {k : Trk} (open_ : (s.slice p).trk t = some k) :
    ((s.breakOut p t).slice p).trk t = some (k.broken s.fclk) := by
  rw [State.breakOut, trk_modTrk, (onlyCounts_count s p .brk).trk, open_]
  rfl

theorem besidesTrks_breakOut (s : State) (p t : Nat) : ((s.breakOut p t).slice p).besidesTrks = (s.slice p).besidesTrks := by
  rw [State.breakOut, slice_modTrk, besidesTrks_setTrk]
  exact besidesTrks_of_onlyCounts (onlyCounts_count s p .brk)

theorem olt_breakOut (s : State) (p t : Nat) : ((s.breakOut p t).slice p).olt = (s.slice p).olt :=
  (congrArg (fun x : Slice => x.olt) (besidesTrks_breakOut s p t) :)

theorem sentNothing_breakOut (s : State) (p t : Nat) : SentNothing s (s.breakOut p t) p :=
  sentNothing_of_slice (congrArg (fun x : Slice => x.stop) (besidesTrks_breakOut s p t) :)
    (congrArg (fun x : Slice => x.local_) (besidesTrks_breakOut s p t) :)

theorem cnt_breakOut (s : State) (p t : Nat) : ((s.breakOut p t).slice p).cnt.get zeroNat Cnt.brk.ctorIdx
    = satAdd 0xFFFF ((s.slice p).cnt.get zeroNat Cnt.brk.ctorIdx) 1 := by
  rw [State.breakOut, slice_modTrk]
  exact cnt_count s p .brk

theorem besidesCounted_breakOut (s : State) (p t : Nat) : (s.breakOut p t).besidesCounted = s.besidesCounted :=
  besidesCounted_count s p .brk

/-- The watchdog of tracker `t` has reported (R102). -/
def State.watchdogDone (s : State) (p t : Nat) : State := s.modSlice p fun x => { x with wdogDone := x.wdogDone ++ [t] }

/-- The report of a tracker that is open too long (R102, R384). -/
def State.overdue (s : State) (p : Nat) (k : Trk) : State :=
  (s.sliceErr p 2 0x13 (some k.lineAddr) (some k.req.src)
    (BitVec.ofNat 64 (k.req.txn.toNat + (min (s.time - k.arr) 65535) * 65536))).fire 1453

theorem slice_watchdogDone (s : State) (p t : Nat) :
    (s.watchdogDone p t).slice p = { s.slice p with wdogDone := (s.slice p).wdogDone ++ [t] } := by
  rw [State.watchdogDone, slice_modSlice, if_pos rfl]

theorem slice_overdue (s : State) (p : Nat) (k : Trk) : (s.overdue p k).slice p = s.slice p := by
  rw [State.overdue, slice_fire, slice_sliceErr]

theorem arrived_overdue (s : State) (p : Nat) (k : Trk) : (s.overdue p k).iag.arrived = s.iag.arrived ++ [1453] := by
  rw [State.overdue, arrived_fire, State.sliceErr, record_eq _ _ (.inl (show (2 : BitVec 2) ≠ 0 by decide))]

/-! BREAKAWAY (R99, R100) -/

section
variable {p : Fin 132} {n : Fin 256} {s : State} {k : Trk}

theorem tracker_rows_idle_of_free (free : (s.slice p).trk n = none) :
    Idles (.breakaway p n) s ∧ Idles (.trackerWatchdogExpiry p n) s ∧ Idles (.allocWaitRelease p n) s := by
  simp [Idles, exec, execBreakaway, execTrackerWatchdogExpiry, execAllocWaitRelease, free]

variable (open_ : (s.slice p).trk n = some k)
include open_

theorem breakaway_idles (early : k.brk = true ∨ s.broke p k = false ∨ (k.phase ≠ .queued ∧ k.phase ≠ .allocWait)) :
    Idles (.breakaway p n) s := by
  rw [Idles, exec, execBreakaway, open_]
  refine congrArg Host.Outcome.next ?_
  obtain marked | young | ⟨not_queued, not_waiting⟩ := early
  · exact if_pos (by simp [marked])
  · exact if_pos (by simp [young])
  · dsimp only
    rw [if_neg not_queued, if_neg not_waiting, ite_self]

theorem exec_breakaway_waiting (unmarked : k.brk = false) (old : s.broke p k = true) (waits : k.phase = .allocWait) :
    exec (.breakaway p n) s = .next (s.breakOut p n) := by
  simp [exec, execBreakaway, open_, unmarked, old, waits]

theorem exec_breakaway_queued (unmarked : k.brk = false) (old : s.broke p k = true) (queued : k.phase = .queued) :
    exec (.breakaway p n) s = .next ((s.breakOut p n).enqueue p n k.req.addr) := by
  simp [exec, execBreakaway, open_, unmarked, old, queued]

theorem breakaway_waiting (unmarked : k.brk = false) (old : s.broke p k = true) (waits : k.phase = .allocWait) :
    Ends (.breakaway p n) s fun t => (t.slice p).trk n = some { k with brk := true, brkAt := s.fclk }
      ∧ (t.slice p).cnt.get zeroNat Cnt.brk.ctorIdx = satAdd 0xFFFF ((s.slice p).cnt.get zeroNat Cnt.brk.ctorIdx) 1
      ∧ (t.slice p).olt = (s.slice p).olt ∧ SentNothing s t p ∧ { t with slices := s.slices, pmc := s.pmc } = s :=
  ends_next (exec_breakaway_waiting open_ unmarked old waits) ⟨trk_breakOut open_, cnt_breakOut .., olt_breakOut ..,
    sentNothing_breakOut .., eq_of_besidesCounted_eq (besidesCounted_breakOut ..)⟩

/-- A queued request at breakaway stays queued on its line, where R100 puts it. -/
theorem breakaway_queued (unmarked : k.brk = false) (old : s.broke p k = true) (queued : k.phase = .queued) :
    Ends (.breakaway p n) s fun t => (t.slice p).trk n = some { k with brk := true, brkAt := s.fclk }
      ∧ n.val ∈ ((t.slice p).line k.req.addr).queue
      ∧ ((t.slice p).line k.req.addr).mode = ((s.slice p).line k.req.addr).mode ∧ SentNothing s t p
      ∧ { t with slices := s.slices, pmc := s.pmc } = s := by
  have line : ((s.breakOut p n).slice p).line k.req.addr = (s.slice p).line k.req.addr :=
    congrArg (NMap.get Olt.dflt · k.req.addr.toNat) (olt_breakOut ..)
  have moved := slice_enqueue (s.breakOut p n) p n k.req.addr
  refine ends_next (exec_breakaway_queued open_ unmarked old queued) ⟨?_, ?_, ?_,
    (sentNothing_breakOut ..).trans (sentNothing_enqueue ..),
    eq_of_besidesCounted_eq ((besidesCounted_enqueue ..).trans (besidesCounted_breakOut ..))⟩
  · rw [moved, trk_setTrk_self, trk_breakOut open_, Option.map_some, Trk.broken, queued]
  · rw [moved, line_setTrk, line_setLine_self]
    exact mem_joined ..
  · rw [moved, line_setTrk, line_setLine_self, line]

/-! TRACKER_WATCHDOG_EXPIRY (R102) -/

theorem watchdog_idles (early : n.val ∈ (s.slice p).wdogDone ∨ s.time - k.arr < (s.slice p).wdogUs.toNat) :
    Idles (.trackerWatchdogExpiry p n) s := by
  rw [Idles, exec, execTrackerWatchdogExpiry, open_]
  exact congrArg Host.Outcome.next (if_pos (early.imp_left List.contains_iff_mem.mpr))

theorem exec_watchdog_reports (first : n.val ∉ (s.slice p).wdogDone) (late : (s.slice p).wdogUs.toNat ≤ s.time - k.arr) :
    exec (.trackerWatchdogExpiry p n) s = .next ((s.watchdogDone p n).overdue p k) := by
  rw [exec, execTrackerWatchdogExpiry, open_]
  exact congrArg Host.Outcome.next (if_neg (by simp [first, late]))

theorem watchdog_reports (first : n.val ∉ (s.slice p).wdogDone) (late : (s.slice p).wdogUs.toNat ≤ s.time - k.arr) :
    Ends (.trackerWatchdogExpiry p n) s fun t => Recorded s t 2 0x13 p ∧ t.saf.fatal.isSome = true
      ∧ t.iag.arrived = s.iag.arrived ++ [1453] ∧ (t.slice p).wdogDone = (s.slice p).wdogDone ++ [n.val]
      ∧ (t.slice p).trks = (s.slice p).trks := by
  refine ends_next (exec_watchdog_reports open_ first late) ⟨recorded_sliceErr (s.watchdogDone p n) p 2 0x13 _ _ _ _ _
    (.inl (by decide)), record_fatal _ _ rfl, ?_, ?_, ?_⟩
  · rw [arrived_overdue]
    rfl
  · rw [slice_overdue, slice_watchdogDone]
  · rw [slice_overdue, slice_watchdogDone]

end

end Sys2Proof.Machine
end

section
/-! SUPPORT. The head of a wait list and its victim phase (R21, R93, R181, R182). -/

namespace Sys2Proof.Machine

open Sys2Proof

/-! An owner-directed forward (R93) -/

theorem line_emit (s : State) (p : Nat) (m : Msg) (a : LineAddr) : ((s.emit p m).slice p).line a = (s.slice p).line a := by
  rw [slice_emit]
  rfl

theorem sfl_emit (s : State) (p : Nat) (m : Msg) : ((s.emit p m).slice p).sfl = (s.slice p).sfl := by
  rw [slice_emit]

@[simp] theorem sfl_setLine (x : Slice) (a : LineAddr) (o : Olt) : (x.setLine a o).sfl = x.sfl := rfl
@[simp] theorem sfl_setTrk (x : Slice) (t : Nat) (k : Option Trk) : (x.setTrk t k).sfl = x.sfl := rfl

/-- Tracker content that awaits the answer of agent `o` to an owner-directed forward. -/
def Trk.forwards (o : Nat) (k : Trk) : Trk := { k with awaits := k.awaits ||| agentBit o, ownerForm := true }

/-- The forward of line `a` to its owner for tracker `t`, without the requester's name (Table 4.6). -/
def Slice.forwardMsg (x : Slice) (t opc o : Nat) (a : LineAddr) : Msg :=
  { x.homeMsg opc (BitVec.ofNat 10 o) a with htag := BitVec.ofNat 8 t }

section
variable {s : State} {p t opc o : Nat} {a : LineAddr} (present : s.glb.agents.getLsbD o = true)
include present

theorem sendForward_of_present : s.sendForward p t opc o a false
    = (s.emit p ((s.slice p).forwardMsg t opc o a)).modTrk p t (Trk.forwards o) := by
  unfold State.sendForward
  cases (s.slice p).trk t <;> simp [present] <;> rfl

theorem slice_sendForward : (s.sendForward p t opc o a false).slice p
    = ((s.emit p ((s.slice p).forwardMsg t opc o a)).slice p).setTrk t (((s.slice p).trk t).map (Trk.forwards o)) := by
  rw [sendForward_of_present present, slice_modTrk, slice_emit]
  rfl

end

/-! A victim phase that recalls its line (R182) -/

/-- Line `v` is served for the victim phase of tracker `t` at position `q`. -/
def Olt.victimOf (t q : Nat) (o : Olt) : Olt := { o with mode := 2, serve := some t, pos := some q }

/-- The victim phase of tracker `t` has taken the line at position `q`, and counts (R182 step 1). -/
def State.victimTaken (s : State) (p t q : Nat) : State :=
  ((s.count p .vict).modTrk p t fun k => { k with victim := some ((s.slice p).lineOf q) }).modLine p ((s.slice p).lineOf q)
    (Olt.victimOf t q)

/-- The line at position `q` is recalled from its owner for tracker `t` (R182 step 2). -/
def State.victimRecalled (s : State) (p t q : Nat) : State :=
  ((s.victimTaken p t q).sendForward p t 0x24 ((s.slice p).ent q).owner ((s.slice p).lineOf q) false).modLine p
    ((s.slice p).lineOf q) fun o => { o with pend := 3 }

theorem victimStart_of_owned {s : State} {p q : Nat} (owned : ((s.slice p).ent q).st = 2) (t : Nat) :
    s.victimStart p t q = s.victimRecalled p t q := by
  have waits : (((s.victimRecalled p t q).slice p).line ((s.slice p).lineOf q)).pend ≠ 0 := by
    rw [State.victimRecalled, slice_modLine, line_setLine_self]
    exact (by decide : (3 : BitVec 2) ≠ 0)
  unfold State.victimStart
  simp only [owned]
  exact if_neg fun rest => waits rest.2

section
variable (s : State) (p t q : Nat)

theorem slice_victimTaken : (s.victimTaken p t q).slice p = (((s.count p .vict).slice p).setTrk t
    (((s.slice p).trk t).map fun k => { k with victim := some ((s.slice p).lineOf q) })).setLine ((s.slice p).lineOf q)
      (((s.slice p).line ((s.slice p).lineOf q)).victimOf t q) := by
  have counted := onlyCounts_count s p .vict
  have line : ((s.count p .vict).slice p).line ((s.slice p).lineOf q) = (s.slice p).line ((s.slice p).lineOf q) :=
    congrArg (NMap.get Olt.dflt · ((s.slice p).lineOf q).toNat) counted.olt
  rw [State.victimTaken, slice_modLine, slice_modTrk, line_setTrk, line, counted.trk]

theorem sentNothing_victimTaken : SentNothing s (s.victimTaken p t q) p := by
  refine (onlyCounts_count s p .vict).sentNothing.trans (sentNothing_of_slice ?_ ?_) <;> rw [slice_victimTaken] <;> rfl

theorem glb_victimTaken : (s.victimTaken p t q).glb = s.glb := (onlyCounts_count s p .vict).glb

theorem lslice_victimTaken : ((s.victimTaken p t q).slice p).lslice = (s.slice p).lslice := by
  rw [slice_victimTaken]
  exact (onlyCounts_count s p .vict).lslice

theorem sfl_victimTaken : ((s.victimTaken p t q).slice p).sfl = (s.slice p).sfl := by
  rw [slice_victimTaken]
  exact (onlyCounts_count s p .vict).sfl

end

section
variable {s : State} {p t q : Nat} (present : s.glb.agents.getLsbD ((s.slice p).ent q).owner = true)
include present

theorem slice_victimRecalled : (s.victimRecalled p t q).slice p
    = ((((s.victimTaken p t q).emit p ((s.slice p).forwardMsg t 0x24 ((s.slice p).ent q).owner ((s.slice p).lineOf q))).slice
        p).setTrk t ((((s.victimTaken p t q).slice p).trk t).map (Trk.forwards ((s.slice p).ent q).owner))).setLine
      ((s.slice p).lineOf q) { ((s.slice p).line ((s.slice p).lineOf q)).victimOf t q with pend := 3 } := by
  have here : (s.victimTaken p t q).glb.agents.getLsbD ((s.slice p).ent q).owner = true := by
    rwa [glb_victimTaken]
  have line : ((s.victimTaken p t q).slice p).line ((s.slice p).lineOf q)
      = ((s.slice p).line ((s.slice p).lineOf q)).victimOf t q := by
    rw [slice_victimTaken, line_setLine_self]
  have named : ((s.victimTaken p t q).slice p).forwardMsg t 0x24 ((s.slice p).ent q).owner ((s.slice p).lineOf q)
      = (s.slice p).forwardMsg t 0x24 ((s.slice p).ent q).owner ((s.slice p).lineOf q) := by
    rw [Slice.forwardMsg, homeMsg_congr (lslice_victimTaken ..), Slice.forwardMsg]
  rw [State.victimRecalled, slice_modLine, slice_sendForward here, named, line_setTrk, line_emit, line]

theorem trk_victimRecalled {k : Trk} (open_ : (s.slice p).trk t = some k) : ((s.victimRecalled p t q).slice p).trk t
    = some { k with
      victim := some ((s.slice p).lineOf q), awaits := k.awaits ||| agentBit ((s.slice p).ent q).owner, ownerForm := true } := by
  rw [slice_victimRecalled present, trk_setLine, trk_setTrk_self, slice_victimTaken, trk_setLine, trk_setTrk_self, open_]
  rfl

theorem line_victimRecalled : ((s.victimRecalled p t q).slice p).line ((s.slice p).lineOf q)
    = { (s.slice p).line ((s.slice p).lineOf q) with mode := 2, serve := some t, pos := some q, pend := 3 } := by
  rw [slice_victimRecalled present, line_setLine_self]
  rfl

theorem sfl_victimRecalled : ((s.victimRecalled p t q).slice p).sfl = (s.slice p).sfl := by
  rw [slice_victimRecalled present, sfl_setLine, sfl_setTrk, sfl_emit, sfl_victimTaken]

theorem sent_victimRecalled : Sent s (s.victimRecalled p t q) p
    ((s.slice p).forwardMsg t 0x24 ((s.slice p).ent q).owner ((s.slice p).lineOf q)) := by
  refine Sent.from_before (sent_of_slice_emit ?_ ?_) (sentNothing_victimTaken s p t q)
  · rw [slice_victimRecalled present, stop_setLine, stop_setTrk]
  · rw [slice_victimRecalled present, local_setLine, local_setTrk]

/-- A line whose recall is not answered is at rest (R115, R182). -/
theorem settle_victimRecalled {k : Trk} (open_ : (s.slice p).trk t = some k) :
    (s.victimRecalled p t q).settle p ((s.slice p).lineOf q) = s.victimRecalled p t q :=
  settle_of_rest (by
    simp [State.settleStep, line_victimRecalled present, trk_victimRecalled present open_])

end

/-! The head of a set's list (R181) -/

theorem startHead_of_empty {s : State} {p set : Nat} (none_ : (s.slice p).sfl.wait.get noNats set = []) :
    s.startHead p set = s := by
  simp only [State.startHead, none_]

section
variable {s : State} {p set t : Nat} {l : List Nat} {k : Trk} (list : (s.slice p).sfl.wait.get noNats set = t :: l)
  (open_ : (s.slice p).trk t = some k)
include list open_

theorem startHead_of_reserved {q : Nat} (resv : k.resv = some q) : s.startHead p set = s := by
  simp [State.startHead, list, open_, resv]

variable (resv : k.resv = none) (victim : k.victim = none)
include resv victim

theorem startHead_of_full (full : (s.slice p).allocate set = .full) : s.startHead p set = s := by
  simp [State.startHead, list, open_, resv, victim, full]

/-- An overflow victim goes to the eldest head alone. -/
theorem startHead_of_younger {q : Nat} (gives : (s.slice p).allocate set = .victim q) (ovf : isOvf q = true)
    (younger : s.eldest p ≠ some t) : s.startHead p set = s := by
  simp [State.startHead, list, open_, resv, victim, gives, ovf, younger]

theorem startHead_of_victim {q : Nat} (gives : (s.slice p).allocate set = .victim q)
    (mine : isOvf q = false ∨ s.eldest p = some t) : s.startHead p set = s.victimStart p t q := by
  have taken : (!(isOvf q) || s.eldest p == some t) = true := by simpa using mine
  simp [State.startHead, list, open_, resv, victim, gives, taken]

end

/-! The release of a head without a reserved way (R181) -/

section
variable {s : State} {p t : Nat} {k : Trk} (open_ : (s.slice p).trk t = some k)
include open_

theorem release_of_behind (behind : ((s.slice p).sfl.wait.get noNats (sfSetOf k.req.addr).toNat).head? ≠ some t) :
    s.release p t = s := by
  simp [State.release, open_, behind]

variable {l : List Nat} (list : (s.slice p).sfl.wait.get noNats (sfSetOf k.req.addr).toNat = t :: l)
include list

theorem release_of_stuck (resv : k.resv = none) (victim : k.victim = none)
    (stuck : s.startHead p (sfSetOf k.req.addr).toNat = s) : s.release p t = s := by
  simp [State.release, open_, list, stuck, resv, victim]

/-- A head whose victim phase starts waits for its end at the victim's line. -/
theorem release_of_started {u : State} {k' : Trk} {v : LineAddr} (starts : s.startHead p (sfSetOf k.req.addr).toNat = u)
    (started : (u.slice p).trk t = some k') (resv : k'.resv = none) (victim : k'.victim = some v)
    (rest : u.settle p v = u) : s.release p t = u := by
  simp [State.release, open_, list, starts, started, resv, victim, rest]

end

/-! ALLOC_WAIT_RELEASE without a reserved way -/

section
variable {p : Fin 132} {n : Fin 256} {s : State} {k : Trk} (open_ : (s.slice p).trk n = some k)
include open_

theorem allocWaitRelease_idles_of_other_phase (served : k.phase ≠ .allocWait) : Idles (.allocWaitRelease p n) s := by
  simp [Idles, exec, execAllocWaitRelease, open_, served]

theorem allocWaitRelease_idles_of_behind
    (behind : ((s.slice p).sfl.wait.get noNats (sfSetOf k.req.addr).toNat).head? ≠ some n.val) :
    Idles (.allocWaitRelease p n) s := by
  simp [Idles, exec, execAllocWaitRelease, open_, release_of_behind open_ behind]

variable (waits : k.phase = .allocWait)
include waits

theorem exec_allocWaitRelease : exec (.allocWaitRelease p n) s = .next (s.release p n) := by
  simp [exec, execAllocWaitRelease, open_, waits]

variable {l : List Nat} (list : (s.slice p).sfl.wait.get noNats (sfSetOf k.req.addr).toNat = n.val :: l)
  (resv : k.resv = none) (victim : k.victim = none)
include list resv victim

theorem allocWaitRelease_idles_of_full (full : (s.slice p).allocate (sfSetOf k.req.addr).toNat = .full) :
    Idles (.allocWaitRelease p n) s := by
  rw [Idles, exec_allocWaitRelease open_ waits,
    release_of_stuck open_ list resv victim (startHead_of_full list open_ resv victim full)]

variable {q : Nat} (gives : (s.slice p).allocate (sfSetOf k.req.addr).toNat = .victim q)
include gives

theorem allocWaitRelease_idles_of_younger (ovf : isOvf q = true) (younger : s.eldest p ≠ some n.val) :
    Idles (.allocWaitRelease p n) s := by
  rw [Idles, exec_allocWaitRelease open_ waits,
    release_of_stuck open_ list resv victim (startHead_of_younger list open_ resv victim gives ovf younger)]

theorem allocWaitRelease_recalls (owned : ((s.slice p).ent q).st = 2)
    (present : s.glb.agents.getLsbD ((s.slice p).ent q).owner = true) (mine : isOvf q = false ∨ s.eldest p = some n.val) :
    exec (.allocWaitRelease p n) s = .next (s.victimRecalled p n q) := by
  have starts : s.startHead p (sfSetOf k.req.addr).toNat = s.victimRecalled p n q :=
    (startHead_of_victim list open_ resv victim gives mine).trans (victimStart_of_owned owned n)
  rw [exec_allocWaitRelease open_ waits, release_of_started open_ list starts (trk_victimRecalled present open_) resv rfl
    (settle_victimRecalled present open_)]

end

end Sys2Proof.Machine
end

section
/-! SUPPORT. Filter entries, and lookups of a filter that holds none (R106, R175 to R180, R191). -/

namespace Sys2Proof.Machine

open Sys2Proof

/-! An entry that is written (R178, R179) -/

/-- Each field of an entry is read at the position at which the fields below it end (Table 9.1). -/
theorem entOf_bitsOfEnt (e : SfEnt) : entOf (bitsOfEnt e) = e := by
  unfold entOf bitsOfEnt
  simp (disch := decide) only [BitVec.extractLsb'_append_eq_of_le, BitVec.extractLsb'_append_eq_of_add_le,
    BitVec.extractLsb'_eq_self, BitVec.getLsbD_append, BitVec.getLsbD_ofBool, Nat.reduceSub, Nat.reduceLT, if_true, if_false,
    decide_true, Bool.true_and]

theorem row_write (b : SfBlock) (i : Nat) (d : BitVec 109) : (b.write i d).row i = { data := d, rp := parity d } := by
  unfold SfBlock.write
  split
  · next written => exact (if_pos written).trans (NMap.get_set_self ..)
  · exact (if_pos rfl).trans (NMap.get_set_self ..)

theorem sfBlock_setEnt (x : Slice) (q : Nat) (e : SfEnt) :
    (x.setEnt q e).sfBlock (q / 8) = (x.sfBlock (q / 8)).write (q % 8) (bitsOfEnt e) := by
  unfold Slice.setEnt
  dsimp only
  split <;> exact NMap.get_set_self ..

theorem ent_setEnt_self (x : Slice) (q : Nat) (e : SfEnt) : (x.setEnt q e).ent q = e := by
  rw [Slice.ent, sfBlock_setEnt, row_write, entOf_bitsOfEnt]

theorem ent_touchSf (x : Slice) (q r : Nat) : (x.touchSf q).ent r = x.ent r := by
  unfold Slice.touchSf
  split <;> rfl

/-- A slice without its counters and without the entries of its filter and their orders. -/
def Slice.besidesEntries (x : Slice) : Slice :=
  { x.besidesCounts with sfl := { x.sfl with blocks := [], ovfOrder := [], lru := [] } }

@[simp] theorem besidesEntries_setEnt (x : Slice) (q : Nat) (e : SfEnt) : (x.setEnt q e).besidesEntries = x.besidesEntries := by
  unfold Slice.setEnt
  dsimp only
  split <;> rfl

@[simp] theorem besidesEntries_touchSf (x : Slice) (q : Nat) : (x.touchSf q).besidesEntries = x.besidesEntries := by
  unfold Slice.touchSf
  split <;> rfl

theorem besidesEntries_of_onlyCounts {s t : State} {p : Nat} (h : s.OnlyCounts p t) :
    (t.slice p).besidesEntries = (s.slice p).besidesEntries := (congrArg Slice.besidesEntries h.slice :)

/-! Presence bits (R21, R106) -/

theorem getLsbD_agentBit (n i : Nat) : (agentBit n).getLsbD i = (decide (i < 64) && decide (n = i)) := by
  rw [agentBit, BitVec.getLsbD_ofNat, Nat.testBit_two_pow]

theorem agentBit_and_of_present {v : BitVec 64} {n : Nat} (present : v.getLsbD n = true) : agentBit n &&& v = agentBit n := by
  refine BitVec.eq_of_getLsbD_eq fun i _ => ?_
  rw [BitVec.getLsbD_and, getLsbD_agentBit]
  by_cases same : n = i
  · subst same
    simp [present]
  · simp [same]

theorem agentBit_ne_zero {n : Nat} (small : n < 64) : agentBit n ≠ 0 := by
  intro zero
  have bit := getLsbD_agentBit n n
  rw [zero] at bit
  simp [small] at bit

/-- The first reader of a line is written at the line's position (R106). -/
theorem setDir_of_present {s : State} {p q n : Nat} {a : LineAddr} (held : ((s.slice p).line a).pos = some q)
    (present : s.glb.agents.getLsbD n = true) : s.setDir p a 1 (agentBit n) false
      = s.modSlice p fun x => (x.setEnt q (mkEnt a q 1 (agentBit n) false)).touchSf q := by
  have small : n < 64 := BitVec.lt_of_getLsbD present
  simp only [State.setDir, held, agentBit_and_of_present present, agentBit_ne_zero small, if_false]

/-! A filter without entries -/

section
variable {x : Slice} (empty : x.sfl.blocks = [])
include empty

theorem sfBlock_of_no_blocks (k : Nat) : x.sfBlock k = {} := by
  rw [Slice.sfBlock, empty]
  rfl

theorem ent_of_no_blocks (q : Nat) : x.ent q = {} := by
  have row : (({} : SfBlock).row (q % 8)).data = bitsOfEnt {} := rfl
  rw [Slice.ent, sfBlock_of_no_blocks empty, row, entOf_bitsOfEnt]

theorem sfHits_of_no_blocks (a : LineAddr) : x.sfHits a = [] := by
  simp [Slice.sfHits, ent_of_no_blocks empty, SfEnt.allocated]

end

theorem parity_zero (w : Nat) : parity (0 : BitVec w) = false := by
  unfold parity
  exact List.foldl_fixed' (fun i => by simp) _

theorem lookupFails_unwritten (rows : List Nat) : lookupFails {} rows = false := by
  have sound : rows.any (fun i => (({} : SfBlock).row i).rp != parity (({} : SfBlock).row i).data) = false :=
    List.any_eq_false.mpr fun i _ => by
      rw [show ({} : SfBlock).row i = {} from rfl, parity_zero]
      exact Bool.false_ne_true
  rw [lookupFails, sound]
  rfl

theorem sfl_of_besidesCache {x y : Slice} (h : y.besidesCache = x.besidesCache) : y.sfl = x.sfl :=
  (congrArg (fun z : Slice => z.sfl) h :)

section
variable {s : State} {p : Nat} (empty : (s.slice p).sfl.blocks = [])
include empty

theorem sfLookup_of_no_blocks (a : LineAddr) : s.sfLookup p a = (s, none) := by
  have checked : s.sfLookupChecks p (sfSetOf a).toNat = s :=
    List.foldl_fixed' (fun k => by rw [sfBlock_of_no_blocks empty, lookupFails_unwritten]; rfl) _
  unfold State.sfLookup
  simp only [checked, sfHits_of_no_blocks empty, State.sfDuplicate]

/-- In a filter without entries a lookup checks the cache's tags, and finds nothing (R109, R177). -/
theorem lookup_of_no_blocks (a : LineAddr) : s.lookup p a = (s.hTagScan p a, none) := by
  refine sfLookup_of_no_blocks ?_ a
  rw [sfl_of_besidesCache (besidesCache_of_besidesLines (besidesLines_hTagScan s p a)), empty]

end

end Sys2Proof.Machine
end

section
/-! SUPPORT. The first read of a closed line on the way reserved for it (R106, R118, R180, R223, R225). -/

namespace Sys2Proof.Machine

open Sys2Proof

/-! Reading home data that the cache does not hold (R118, R223, R225) -/

/-- The stream that the first request of its identity begins (R225). -/
def Stream.first (m : Msg) : Stream := { reqid := m.reqid, stream := m.stream, region := regionOf m.addr }

/-- Stream `m` is the only one. -/
def Hlc.onlyStream (m : Msg) (h : Hlc) : Hlc := { h with streams := [Stream.first m] }

theorem besidesCounts_modHlc {x y : Slice} (h : y.besidesCounts = x.besidesCounts) (f : Hlc → Hlc) :
    (y.modHlc f).besidesCounts = (x.modHlc f).besidesCounts := (congrArg (·.modHlc f) h :)

theorem trainStream_of_no_streams {s : State} {p : Nat} (none_ : (s.slice p).hlc.streams = []) (m : Msg) :
    s.trainStream p m = s.modHlc p (Hlc.onlyStream m) := by
  simp only [State.trainStream, none_, List.find?_nil, List.length_nil, Nat.zero_lt_succ, if_true, List.nil_append]
  rfl

/-- Tracker content that awaits home data (R118). -/
def Trk.needing (k : Trk) : Trk := { k with needs := true }

section
variable {s : State} {p t : Nat} {k : Trk} (open_ : (s.slice p).trk t = some k) (opc : k.req.opc = 0)
  (lines : (s.slice p).hlc.lines = []) (mshrs : (s.slice p).hlc.mshrs = []) (writes : (s.slice p).hlc.writes = [])
  (streams : (s.slice p).hlc.streams = [])
include open_ opc lines mshrs writes streams

/-- A read that finds an empty cache opens a miss register and begins a stream. -/
theorem needData_of_empty : s.needData p t = (((s.modTrk p t Trk.needing).modHlc p
    (Hlc.addMshr ((s.slice p).firstMshr k.req.addr t))).count p .miss).modHlc p (Hlc.onlyStream k.req) := by
  have cache : ((s.modTrk p t Trk.needing).slice p).hlc = (s.slice p).hlc := by rw [slice_modTrk, hlc_setTrk]
  have register : ((s.modTrk p t Trk.needing).slice p).firstMshr k.req.addr t = (s.slice p).firstMshr k.req.addr t := by
    rw [Slice.firstMshr, cache, Slice.firstMshr]
  have none_ : ((((s.modTrk p t Trk.needing).modHlc p (Hlc.addMshr ((s.slice p).firstMshr k.req.addr t))).count p
      .miss).slice p).hlc.streams = [] := by
    rw [(onlyCounts_count ..).hlc, hlc_modHlc, cache]
    exact streams
  have read := hRead_of_empty (cache ▸ lines) (cache ▸ writes) k.req.addr true
  have joins := missJoin_of_no_mshrs (cache ▸ mshrs) k.req.addr t
  rw [register] at joins
  have needing : (fun k : Trk => { k with needs := true }) = Trk.needing := rfl
  simp only [State.needData, open_, needing, read, joins, opc, BEq.rfl, Bool.true_or, if_true]
  exact trainStream_of_no_streams none_ k.req

theorem slice_needData_of_empty : ((s.needData p t).slice p).besidesCounts = (((s.slice p).setTrk t (some k.needing)).modHlc
    fun h => (h.addMshr ((s.slice p).firstMshr k.req.addr t)).onlyStream k.req).besidesCounts := by
  have counted := (onlyCounts_count
    ((s.modTrk p t Trk.needing).modHlc p (Hlc.addMshr ((s.slice p).firstMshr k.req.addr t))) p .miss).slice
  have opened : ((s.modTrk p t Trk.needing).modHlc p (Hlc.addMshr ((s.slice p).firstMshr k.req.addr t))).slice p
      = ((s.slice p).setTrk t (some k.needing)).modHlc (Hlc.addMshr ((s.slice p).firstMshr k.req.addr t)) := by
    rw [slice_modHlc, if_pos rfl, slice_modTrk, open_, Option.map_some]
  rw [needData_of_empty open_ opc lines mshrs writes streams, slice_modHlc, if_pos rfl]
  rw [opened] at counted
  exact besidesCounts_modHlc counted (Hlc.onlyStream k.req)

end

/-! The entry of the line (R180) -/

/-- The line of tracker `t` holds position `q`, and no way is reserved for the tracker (R181). -/
def State.held (s : State) (p t : Nat) (a : LineAddr) (q : Nat) : State :=
  (s.modLine p a fun o => { o with pos := some q }).modTrk p t fun k => { k with resv := none }

section
variable {s : State} {p t q : Nat} {k : Trk} (open_ : (s.slice p).trk t = some k)
include open_

theorem takeEntry_of_reserved {a : LineAddr} (resv : k.resv = some q) (free : ((s.slice p).line a).pos = none) :
    (s.held p t a q).OnlyCounts p (s.takeEntry p t a) := by
  have entry : s.takeEntry p t a = if isOvf q then (s.held p t a q).count p .ovf else s.held p t a q := by
    simp only [State.takeEntry, open_, free, Option.isSome_none, Bool.false_eq_true, if_false, Slice.giveEntry, resv]
    rfl
  rw [entry]
  split
  · exact onlyCounts_count ..
  · exact State.OnlyCounts.refl ..

theorem slice_held (a : LineAddr) : (s.held p t a q).slice p
    = ((s.slice p).setLine a { (s.slice p).line a with pos := some q }).setTrk t (some { k with resv := none }) := by
  rw [State.held, slice_modTrk, slice_modLine, trk_setLine, open_, Option.map_some]

end

end Sys2Proof.Machine
end

section
/-! SUPPORT. The release of the head of a wait list with a way reserved for it (R114, R115, R181). -/

namespace Sys2Proof.Machine

open Sys2Proof

/-! A read that is served on a reserved way (R106, R118, R180) -/

@[simp] theorem setTrk_setTrk (x : Slice) (t : Nat) (k j : Option Trk) : (x.setTrk t k).setTrk t j = x.setTrk t j :=
  congrArg (fun l => { x with trks := l }) (NMap.set_set noTrk x.trks t k j)

theorem setLine_setTrk (x : Slice) (t : Nat) (k : Option Trk) (a : LineAddr) (o : Olt) :
    (x.setTrk t k).setLine a o = (x.setLine a o).setTrk t k := rfl

theorem brkUs_of_besidesCache {x y : Slice} (h : y.besidesCache = x.besidesCache) : y.brkUs = x.brkUs :=
  (congrArg (fun z : Slice => z.brkUs) h :)

theorem besidesEntries_of_besidesCounts {x y : Slice} (h : y.besidesCounts = x.besidesCounts) :
    y.besidesEntries = x.besidesEntries := (congrArg Slice.besidesEntries h :)

theorem ent_of_besidesCounts {x y : Slice} (h : y.besidesCounts = x.besidesCounts) (q : Nat) : y.ent q = x.ent q :=
  (congrArg (fun z : Slice => z.ent q) h :)

@[simp] theorem trk_modHlc (x : Slice) (f : Hlc → Hlc) (t : Nat) : (x.modHlc f).trk t = x.trk t := rfl
@[simp] theorem line_modHlc (x : Slice) (f : Hlc → Hlc) (a : LineAddr) : (x.modHlc f).line a = x.line a := rfl

section
variable {x y : Slice} (h : y.besidesEntries = x.besidesEntries)
include h

theorem trk_of_besidesEntries (t : Nat) : y.trk t = x.trk t := (congrArg (fun z : Slice => z.trk t) h :)
theorem line_of_besidesEntries (a : LineAddr) : y.line a = x.line a := (congrArg (fun z : Slice => z.line a) h :)
theorem hlc_of_besidesEntries : y.hlc = x.hlc := (congrArg (fun z : Slice => z.hlc) h :)
theorem wait_of_besidesEntries : y.sfl.wait = x.sfl.wait := (congrArg (fun z : Slice => z.sfl.wait) h :)
theorem stop_of_besidesEntries : y.stop = x.stop := (congrArg (fun z : Slice => z.stop) h :)
theorem local_of_besidesEntries : y.local_ = x.local_ := (congrArg (fun z : Slice => z.local_) h :)

end

/-- Tracker `t` holds on content `k` a `ReadShared` of a present agent, with way `q` reserved for it, and the cache holds and
awaits nothing. -/
structure State.ReadWaits (s : State) (p t q : Nat) (k : Trk) : Prop where
  open_ : (s.slice p).trk t = some k
  resv : k.resv = some q
  victim : k.victim = none
  kind : k.kind = .readShared
  opc : k.req.opc = 0
  empty : k.have_ = false
  present : s.glb.agents.getLsbD k.req.src.toNat = true
  lines : (s.slice p).hlc.lines = []
  mshrs : (s.slice p).hlc.mshrs = []
  writes : (s.slice p).hlc.writes = []
  streams : (s.slice p).hlc.streams = []

theorem State.ReadWaits.congr {s u : State} {p t q : Nat} {k : Trk} (waits : s.ReadWaits p t q k)
    (trk : (u.slice p).trk t = (s.slice p).trk t) (hlc : (u.slice p).hlc = (s.slice p).hlc) (glb : u.glb = s.glb) :
    u.ReadWaits p t q k where
  open_ := trk.trans waits.open_
  resv := waits.resv
  victim := waits.victim
  kind := waits.kind
  opc := waits.opc
  empty := waits.empty
  present := glb ▸ waits.present
  lines := hlc ▸ waits.lines
  mshrs := hlc ▸ waits.mshrs
  writes := hlc ▸ waits.writes
  streams := hlc ▸ waits.streams

/-- Tracker content of a read in service. -/
def Trk.gathers (k : Trk) : Trk :=
  { k with kind := .readShared, phase := .gather, onPoison := false, awaits := 0, ownerForm := false }

/-- From slice `x` to slice `y` the read of tracker `t` on content `k` has begun at position `q`: the line holds the position,
whose entry names the reader, and the read awaits home data. -/
structure Slice.ReadStarts (x y : Slice) (t q : Nat) (k : Trk) : Prop where
  trk : y.trk t = some { k.gathers with resv := none, needs := true }
  line : y.line k.req.addr = { x.line k.req.addr with pos := some q }
  ent : y.ent q = mkEnt k.req.addr q 1 (agentBit k.req.src.toNat) false
  mshrs : y.hlc.mshrs = [x.firstMshr k.req.addr t]
  wait : y.sfl.wait = x.sfl.wait
  stop : y.stop = x.stop
  local_ : y.local_ = x.local_

/-- The reader is entered for its line at the position it is given. -/
def State.readEntered (s : State) (p t : Nat) (k : Trk) : State :=
  ((s.modTrk p t Trk.gathers).takeEntry p t k.req.addr).setDir p k.req.addr 1 (agentBit k.req.src.toNat) false

section
variable {s : State} {p t q : Nat} {k : Trk} (waits : s.ReadWaits p t q k)
include waits

theorem act_of_read (free : ((s.slice p).line k.req.addr).pos = none) :
    s.act p t k.req.addr = (s.readEntered p t k).needData p t := by
  have dir : (s.slice p).dir k.req.addr = {} := by rw [Slice.dir, free, Slice.entAt]
  have noOwner : ¬ ({} : SfEnt).st = 2 := by decide
  have kind : kindOn k {} = .readShared := by simp [kindOn, waits.kind]
  have plain : ∀ u : State, u.isStoreCond p k.req = false := fun u => by simp [State.isStoreCond, waits.opc]
  have first : (0 : BitVec 64) ||| agentBit k.req.src.toNat = agentBit k.req.src.toNat := BitVec.zero_or
  simp only [State.act, waits.open_, dir, kind, plain, Bool.false_and, Bool.false_eq_true, if_false, reduceCtorEq, or_self,
    noOwner, first]
  rfl

theorem slice_entered (free : ((s.slice p).line k.req.addr).pos = none) :
    ((s.readEntered p t k).slice p).besidesEntries = (((s.slice p).setLine k.req.addr
      { (s.slice p).line k.req.addr with pos := some q }).setTrk t (some { k.gathers with resv := none })).besidesEntries
    ∧ ((s.readEntered p t k).slice p).ent q = mkEnt k.req.addr q 1 (agentBit k.req.src.toNat) false := by
  have gathers : (s.modTrk p t Trk.gathers).slice p = (s.slice p).setTrk t (some k.gathers) := by
    rw [slice_modTrk, waits.open_, Option.map_some]
  have trk : ((s.modTrk p t Trk.gathers).slice p).trk t = some k.gathers := by rw [gathers, trk_setTrk_self]
  have line : ((s.modTrk p t Trk.gathers).slice p).line k.req.addr = (s.slice p).line k.req.addr := by rw [gathers, line_setTrk]
  have taken := takeEntry_of_reserved trk (a := k.req.addr) waits.resv (line ▸ free)
  have held := slice_held (q := q) trk k.req.addr
  have pos : (((s.modTrk p t Trk.gathers).takeEntry p t k.req.addr).slice p).line k.req.addr
      = { (s.slice p).line k.req.addr with pos := some q } := by
    rw [Slice.line, taken.olt, held, ← Slice.line, line_setTrk, line_setLine_self, line]
  have entered : s.readEntered p t k = _ := setDir_of_present (by rw [pos]) (by
    rw [taken.glb]
    exact waits.present)
  rw [entered, slice_modSlice, if_pos rfl, ent_touchSf, ent_setEnt_self, besidesEntries_touchSf, besidesEntries_setEnt,
    besidesEntries_of_onlyCounts taken, held, line, gathers, setLine_setTrk, setTrk_setTrk]
  exact ⟨rfl, rfl⟩

theorem act_starts (free : ((s.slice p).line k.req.addr).pos = none) :
    (s.slice p).ReadStarts ((s.act p t k.req.addr).slice p) t q k := by
  obtain ⟨entered, entry⟩ := slice_entered waits free
  have hlc : ((s.readEntered p t k).slice p).hlc = (s.slice p).hlc := (hlc_of_besidesEntries entered :)
  have open_ : ((s.readEntered p t k).slice p).trk t = some { k.gathers with resv := none } := by
    rw [trk_of_besidesEntries entered, trk_setTrk_self]
  have counted := slice_needData_of_empty open_ waits.opc (hlc ▸ waits.lines) (hlc ▸ waits.mshrs) (hlc ▸ waits.writes)
    (hlc ▸ waits.streams)
  rw [← act_of_read waits free] at counted
  have reads := besidesEntries_of_besidesCounts counted
  have register : ((s.readEntered p t k).slice p).firstMshr k.req.addr t = (s.slice p).firstMshr k.req.addr t := by
    rw [Slice.firstMshr, hlc, Slice.firstMshr]
  generalize (s.readEntered p t k).slice p = y at entered entry hlc counted reads register
  refine ⟨?_, ?_, ?_, ?_, ?_, ?_, ?_⟩
  · rw [trk_of_besidesEntries reads, trk_modHlc, trk_setTrk_self]
    rfl
  · rw [line_of_besidesEntries reads, line_modHlc, line_setTrk, line_of_besidesEntries entered, line_setTrk, line_setLine_self]
  · rw [ent_of_besidesCounts counted]
    exact entry
  · have opened : ((s.act p t k.req.addr).slice p).hlc.mshrs = y.hlc.mshrs ++ [y.firstMshr k.req.addr t] :=
      (congrArg Hlc.mshrs (hlc_of_besidesEntries reads) :)
    rw [opened, hlc, waits.mshrs, register]
    rfl
  · exact (wait_of_besidesEntries reads).trans (wait_of_besidesEntries entered :)
  · exact (stop_of_besidesEntries reads).trans (stop_of_besidesEntries entered :)
  · exact (local_of_besidesEntries reads).trans (local_of_besidesEntries entered :)

theorem readWaits_modLine (a : LineAddr) (f : Olt → Olt) : (s.modLine p a f).ReadWaits p t q k :=
  waits.congr (by rw [slice_modLine, trk_setLine]) (by rw [slice_modLine, hlc_setLine]) rfl

variable (closed : (s.slice p).line k.req.addr = {})
include closed

theorem serve_starts : ((s.slice p).setLine k.req.addr { mode := 2, serve := some t }).ReadStarts
    ((s.serve p t k.req.addr).slice p) t q k := by
  have line : (s.modLine p k.req.addr fun o => { o with mode := 2, serve := some t }).slice p
      = (s.slice p).setLine k.req.addr { mode := 2, serve := some t } := by rw [slice_modLine, closed]
  have free : (((s.modLine p k.req.addr fun o => { o with mode := 2, serve := some t }).slice p).line k.req.addr).pos
      = none := by rw [line, line_setLine_self]
  have dir : ((s.modLine p k.req.addr fun o => { o with mode := 2, serve := some t }).slice p).dir k.req.addr = {} := by
    rw [Slice.dir, free, Slice.entAt]
  have starts := act_starts (readWaits_modLine waits k.req.addr fun o => { o with mode := 2, serve := some t }) free
  rw [line] at starts
  unfold State.serve
  dsimp only
  rw [dir]
  exact starts

theorem settle_of_read : (s.serve p t k.req.addr).settle p k.req.addr = s.serve p t k.req.addr := by
  have starts := serve_starts waits closed
  have line := starts.line
  rw [line_setLine_self] at line
  refine settle_of_rest ?_
  simp [State.settleStep, line, starts.trk, Trk.gathers, waits.victim, waits.empty]

theorem decideReq_of_closed (young : s.broke p k = false) : s.decideReq p t none
    = (s.modLine p k.req.addr fun o => { o with pos := none }).serve p t k.req.addr := by
  have entry : (s.slice p).giveEntry k = some q := by rw [Slice.giveEntry, waits.resv]
  have settled := settle_of_read (readWaits_modLine waits k.req.addr fun o => { o with pos := none })
    (by rw [slice_modLine, line_setLine_self, closed])
  have triggers : ∀ (u : State) (e : SfEnt) (o : Olt), e.st = 0 → u.trigger p k e o = true := fun u e o idle => by
    simp [State.trigger, idle]
  simp [State.decideReq, waits.open_, young, closed, entry, Slice.entAt, triggers, settled]

end

/-! The release of a head that is alone in its list (R181) -/

theorem besidesCache_setTrk_setLine {x y : Slice} (h : y.besidesCache = x.besidesCache) (a : LineAddr) (o : Olt) (t : Nat)
    (k : Option Trk) : ((y.setLine a o).setTrk t k).besidesCache = ((x.setLine a o).setTrk t k).besidesCache :=
  (congrArg (fun z : Slice => (z.setLine a o).setTrk t k) h :)

/-- The list of set `set` is empty. -/
def State.leaveWait (s : State) (p set : Nat) : State :=
  s.modSlice p fun x => { x with sfl := { x.sfl with wait := x.sfl.wait.set noNats set [] } }

theorem slice_leaveWait (s : State) (p set : Nat) : (s.leaveWait p set).slice p
    = { s.slice p with sfl := { (s.slice p).sfl with wait := (s.slice p).sfl.wait.set noNats set [] } } := by
  rw [State.leaveWait, slice_modSlice, if_pos rfl]

theorem wait_leaveWait (s : State) (p set : Nat) : ((s.leaveWait p set).slice p).sfl.wait.get noNats set = [] := by
  rw [slice_leaveWait]
  exact NMap.get_set_self noNats _ set []

theorem readWaits_leaveWait {s : State} {p t q : Nat} {k : Trk} (waits : s.ReadWaits p t q k) (set : Nat) :
    (s.leaveWait p set).ReadWaits p t q k :=
  waits.congr (by rw [slice_leaveWait]; rfl) (by rw [slice_leaveWait]) rfl

/-- No way is reserved for tracker `t` (R181). -/
def State.unreserve (s : State) (p t : Nat) : State := s.modTrk p t fun k => { k with resv := none }

theorem slice_unreserve {s : State} {p t : Nat} {k : Trk} (open_ : (s.slice p).trk t = some k) :
    (s.unreserve p t).slice p = (s.slice p).setTrk t (some { k with resv := none }) := by
  rw [State.unreserve, slice_modTrk, open_, Option.map_some]

theorem broke_congr {s u : State} {p : Nat} (time : u.time = s.time) (threshold : (u.slice p).brkUs = (s.slice p).brkUs)
    (k : Trk) : u.broke p k = s.broke p k := by
  simp only [State.broke, time, threshold]

theorem time_of_rest {s u : State} (h : u.rest = s.rest) : u.time = s.time := (congrArg State.time h :)

theorem broke_leaveWait (s : State) (p set : Nat) (k : Trk) : (s.leaveWait p set).broke p k = s.broke p k :=
  broke_congr (s := s) (u := s.leaveWait p set) rfl (congrArg Slice.brkUs (slice_leaveWait s p set) :) k

theorem broke_hTagScan (s : State) (p : Nat) (a : LineAddr) (k : Trk) : (s.hTagScan p a).broke p k = s.broke p k :=
  broke_congr (time_of_rest (State.hTagScan_rest s p a))
    (brkUs_of_besidesCache (besidesCache_of_besidesLines (besidesLines_hTagScan s p a))) k

section
variable {s : State} {p t q : Nat} {k : Trk} (open_ : (s.slice p).trk t = some k)
include open_

theorem release_of_reserved (resv : k.resv = some q)
    (alone : (s.slice p).sfl.wait.get noNats (sfSetOf k.req.addr).toNat = [t])
    (left : (((s.leaveWait p (sfSetOf k.req.addr).toNat).arrive p t).slice p).sfl.wait.get noNats
      (sfSetOf k.req.addr).toNat = []) :
    s.release p t = ((s.leaveWait p (sfSetOf k.req.addr).toNat).arrive p t).unreserve p t := by
  have stays := startHead_of_reserved alone open_ resv
  have after : ((((s.leaveWait p (sfSetOf k.req.addr).toNat).arrive p t).unreserve p t).slice p).sfl.wait.get noNats
      (sfSetOf k.req.addr).toNat = [] := by
    rw [State.unreserve, slice_modTrk, sfl_setTrk, left]
  simp only [State.release, open_, alone, List.head?_cons, ne_eq, not_true_eq_false, if_false, stays, resv, List.drop_one,
    List.tail_cons, ite_self]
  exact startHead_of_empty after

theorem arrive_of_no_blocks (empty : (s.slice p).sfl.blocks = []) :
    s.arrive p t = (s.hTagScan p k.req.addr).decideReq p t none := by
  simp only [State.arrive, open_, lookup_of_no_blocks empty]

theorem decideReq_of_ordered (young : s.broke p k = false) (ordered : ((s.slice p).line k.req.addr).mode = 2
    ∨ ((s.slice p).line k.req.addr).mode = 3) (hit : Option Nat) : s.decideReq p t hit = s.enqueue p t k.req.addr := by
  simp only [State.decideReq, open_, young, Bool.false_and, Bool.false_eq_true, if_false, ordered, if_true]

/-- A line that is home-ordered or draining takes a young request at the tail of its conflict queue (R114). -/
theorem arrive_of_ordered (empty : (s.slice p).sfl.blocks = []) (young : s.broke p k = false) (unmarked : k.brk = false)
    (ordered : ((s.slice p).line k.req.addr).mode = 2 ∨ ((s.slice p).line k.req.addr).mode = 3) :
    ((s.arrive p t).slice p).besidesCache = (((s.slice p).setLine k.req.addr { (s.slice p).line k.req.addr with
      queue := ((s.slice p).line k.req.addr).queue.filter (· != t) ++ [t] }).setTrk t
        (some { k with phase := .queued })).besidesCache := by
  have scanned := besidesCache_of_besidesLines (besidesLines_hTagScan s p k.req.addr)
  have still := broke_hTagScan s p k.req.addr k
  rw [arrive_of_no_blocks open_ empty]
  generalize s.hTagScan p k.req.addr = u at scanned still
  have uOpen : (u.slice p).trk t = some k := (trk_of_besidesCache scanned t).trans open_
  have line : (u.slice p).line k.req.addr = (s.slice p).line k.req.addr := line_of_besidesCache scanned _
  rw [decideReq_of_ordered uOpen (still.trans young) (line ▸ ordered), slice_enqueue, joined_of_young uOpen unmarked, uOpen,
    Option.map_some, line]
  exact besidesCache_setTrk_setLine scanned ..

/-- A read of a closed line is served on the way reserved for it (R106, R180). -/
theorem arrive_of_read (waits : s.ReadWaits p t q k) (empty : (s.slice p).sfl.blocks = []) (young : s.broke p k = false)
    (closed : (s.slice p).line k.req.addr = {}) : ((s.slice p).setLine k.req.addr { mode := 2, serve := some t }).ReadStarts
      ((s.arrive p t).slice p) t q k := by
  have starts := serve_starts (readWaits_modLine waits k.req.addr fun o => { o with pos := none })
    (by rw [slice_modLine, line_setLine_self, closed])
  rw [slice_modLine, setLine_setLine] at starts
  rwa [arrive_of_no_blocks open_ empty, hTagScan_of_no_lines waits.lines, decideReq_of_closed waits closed young]

end

/-! ALLOC_WAIT_RELEASE with a reserved way -/

section
variable {s : State} {p : Fin 132} {n : Fin 256} {q : Nat} {k : Trk} (open_ : (s.slice p).trk n = some k)
  (waits : k.phase = .allocWait) (young : s.broke p k = false) (resv : k.resv = some q)
  (empty : (s.slice p).sfl.blocks = []) (alone : (s.slice p).sfl.wait.get noNats (sfSetOf k.req.addr).toNat = [n.val])
include open_ waits young resv empty alone

theorem allocWaitRelease_queues (unmarked : k.brk = false)
    (ordered : ((s.slice p).line k.req.addr).mode = 2 ∨ ((s.slice p).line k.req.addr).mode = 3) :
    Ends (.allocWaitRelease p n) s fun t => (t.slice p).sfl.wait.get noNats (sfSetOf k.req.addr).toNat = []
      ∧ (t.slice p).trk n = some { k with phase := .queued, resv := none }
      ∧ (t.slice p).line k.req.addr = { (s.slice p).line k.req.addr with
          queue := ((s.slice p).line k.req.addr).queue.filter (· != n.val) ++ [n.val] }
      ∧ SentNothing s t p := by
  have left := slice_leaveWait s p (sfSetOf k.req.addr).toNat
  have wait := wait_leaveWait s p (sfSetOf k.req.addr).toNat
  have still := broke_leaveWait s p (sfSetOf k.req.addr).toNat k
  have release := release_of_reserved open_ resv alone
  generalize s.leaveWait p (sfSetOf k.req.addr).toNat = u at left wait still release
  have joined := arrive_of_ordered (s := u) (by rw [left]; exact open_) (by rw [left]; exact empty) (still.trans young) unmarked
    (by rw [left]; exact ordered)
  generalize u.arrive p n = v at joined release
  have after := slice_unreserve ((trk_of_besidesCache joined n).trans (trk_setTrk_self ..))
  have vWait := (congrArg (fun l : Sfl => l.wait.get noNats (sfSetOf k.req.addr).toNat) (sfl_of_besidesCache joined)).trans wait
  refine ends_next ((exec_allocWaitRelease open_ waits).trans (congrArg Host.Outcome.next (release vWait))) ⟨?_, ?_, ?_, ?_⟩
  · rw [after, sfl_setTrk]
    exact vWait
  · rw [after, trk_setTrk_self]
  · rw [after, line_setTrk, line_of_besidesCache joined, line_setTrk, line_setLine_self, left]
    rfl
  · refine sentNothing_of_slice ?_ ?_
    · rw [after, stop_setTrk, stop_of_besidesCache joined, stop_setTrk, stop_setLine, left]
    · rw [after, local_setTrk, local_of_besidesCache joined, local_setTrk, local_setLine, left]

theorem allocWaitRelease_reads (reads : s.ReadWaits p n q k) (closed : (s.slice p).line k.req.addr = {}) :
    Ends (.allocWaitRelease p n) s fun t => (t.slice p).sfl.wait.get noNats (sfSetOf k.req.addr).toNat = []
      ∧ (t.slice p).line k.req.addr = { mode := 2, serve := some n.val, pos := some q }
      ∧ (t.slice p).ent q = mkEnt k.req.addr q 1 (agentBit k.req.src.toNat) false
      ∧ (∃ r, (t.slice p).hlc.mshrs = [r] ∧ r.addr = k.req.addr ∧ r.waiters = [.tracker n.val])
      ∧ SentNothing s t p := by
  have left := slice_leaveWait s p (sfSetOf k.req.addr).toNat
  have wait := wait_leaveWait s p (sfSetOf k.req.addr).toNat
  have still := broke_leaveWait s p (sfSetOf k.req.addr).toNat k
  have release := release_of_reserved open_ resv alone
  have uReads := readWaits_leaveWait reads (sfSetOf k.req.addr).toNat
  generalize s.leaveWait p (sfSetOf k.req.addr).toNat = u at left wait still release uReads
  have starts := arrive_of_read uReads.open_ uReads (by rw [left]; exact empty) (still.trans young) (by rw [left]; exact closed)
  generalize u.arrive p n = v at starts release
  have after := slice_unreserve starts.trk
  have vWait := (congrArg (NMap.get noNats · (sfSetOf k.req.addr).toNat) starts.wait).trans wait
  refine ends_next ((exec_allocWaitRelease open_ waits).trans (congrArg Host.Outcome.next (release vWait)))
    ⟨?_, ?_, ?_, ⟨_, (congrArg (fun x : Slice => x.hlc.mshrs) after).trans starts.mshrs, rfl, rfl⟩,
      sentNothing_of_slice ?_ ?_⟩
  · rw [after, sfl_setTrk]
    exact vWait
  · rw [after, line_setTrk, starts.line, line_setLine_self]
  · rw [after]
    exact starts.ent
  · rw [after, stop_setTrk, starts.stop, stop_setLine, left]
  · rw [after, local_setTrk, starts.local_, local_setLine, left]

end

/-- Settles O17: a tracker that is free or not in the state of a row leaves the row idle; the head of a wait list by what the
allocation order gives it, and by the line its request is for where a way is reserved. -/
theorem trackersAgeAndWait : Obligations.TrackersAgeAndWait := by
  intro p n s
  refine ⟨tracker_rows_idle_of_free, fun k open_ => ⟨breakaway_idles open_, breakaway_waiting open_, breakaway_queued open_,
    watchdog_idles open_, watchdog_reports open_, ?idle, ?full⟩,
    fun k open_ waits unmarked young => ⟨?younger, ?victim, ?reserved⟩⟩
  case idle =>
    rintro (served | behind)
    · exact allocWaitRelease_idles_of_other_phase open_ served
    · exact allocWaitRelease_idles_of_behind open_ behind
  case full => exact fun j l waits resv victim list full _ => allocWaitRelease_idles_of_full open_ waits list resv victim full
  case younger =>
    exact fun q l resv victim ovf younger list gives =>
      allocWaitRelease_idles_of_younger open_ waits list resv victim gives ovf younger
  case victim =>
    intro q l resv victim owned present mine list gives
    exact ends_next (allocWaitRelease_recalls open_ waits list resv victim gives owned present mine)
      ⟨trk_victimRecalled present open_, line_victimRecalled present, sfl_victimRecalled present, sent_victimRecalled present⟩
  case reserved =>
    intro q resv victim empty alone
    exact ⟨allocWaitRelease_queues open_ waits young resv empty alone unmarked,
      fun closed kind opc lines mshrs writes streams none_ present =>
        allocWaitRelease_reads open_ waits young resv empty alone
          ⟨open_, resv, victim, kind, opc, none_, present, lines, mshrs, writes, streams⟩ closed⟩

end Sys2Proof.Machine
end

section
/-! SUPPORT. What each operation of the ordering protocol makes of a slice (R9, R21, R93, R106, R110, R117, R267). -/

namespace Sys2Proof.Machine

open Sys2Proof

/-! What the protocol reads of a slice -/

/-- A slice without what the ordering protocol only notes in it: its counters, the watch of its engine's reservation and its
predictions. -/
def Slice.besidesNotes (x : Slice) : Slice := { x.besidesCounts with watch := none, far := { x.far with pred := [] } }

section
variable {x y : Slice} (h : y.besidesNotes = x.besidesNotes)
include h

theorem trks_of_besidesNotes : y.trks = x.trks := (congrArg (fun z : Slice => z.trks) h :)
theorem trk_of_besidesNotes (t : Nat) : y.trk t = x.trk t := (congrArg (fun z : Slice => z.trk t) h :)
theorem olt_of_besidesNotes : y.olt = x.olt := (congrArg (fun z : Slice => z.olt) h :)
theorem line_of_besidesNotes (a : LineAddr) : y.line a = x.line a := (congrArg (fun z : Slice => z.line a) h :)
theorem ent_of_besidesNotes (q : Nat) : y.ent q = x.ent q := (congrArg (fun z : Slice => z.ent q) h :)
theorem sfl_of_besidesNotes : y.sfl = x.sfl := (congrArg (fun z : Slice => z.sfl) h :)
theorem hlc_of_besidesNotes : y.hlc = x.hlc := (congrArg (fun z : Slice => z.hlc) h :)
theorem stop_of_besidesNotes : y.stop = x.stop := (congrArg (fun z : Slice => z.stop) h :)
theorem local_of_besidesNotes : y.local_ = x.local_ := (congrArg (fun z : Slice => z.local_) h :)
theorem lslice_of_besidesNotes : y.lslice = x.lslice := (congrArg (fun z : Slice => z.lslice) h :)
theorem farQueue_of_besidesNotes : y.far.queue = x.far.queue := (congrArg (fun z : Slice => z.far.queue) h :)

end

/-- What sending message `m` makes of slice `x`, number `p` (R9). -/
def Slice.sends (x : Slice) (p : Nat) (m : Msg) : Slice := { x with
  stop := (((State.setSlice {} p x).emit p m).slice p).stop, local_ := (((State.setSlice {} p x).emit p m).slice p).local_ }

theorem slice_emit_eq_sends (s : State) (p : Nat) (m : Msg) : (s.emit p m).slice p = (s.slice p).sends p m := by
  rw [slice_emit, Slice.sends, slice_emit_congr (s := s) (t := State.setSlice {} p (s.slice p))]
  rw [slice_setSlice, if_pos rfl]

theorem stop_sends_congr {x y : Slice} (h : y.stop = x.stop) (p : Nat) (m : Msg) : (y.sends p m).stop = (x.sends p m).stop := by
  simp only [Slice.sends, State.emit, slice_modSlice, slice_setSlice, if_true]
  split
  · exact h
  · rw [h]

theorem local_sends_congr {x y : Slice} (h : y.local_ = x.local_) (p : Nat) (m : Msg) :
    (y.sends p m).local_ = (x.sends p m).local_ := by
  simp only [Slice.sends, State.emit, slice_modSlice, slice_setSlice, if_true]
  split
  · rw [h]
  · exact h

@[simp] theorem trk_sends (x : Slice) (p : Nat) (m : Msg) (t : Nat) : (x.sends p m).trk t = x.trk t := rfl
@[simp] theorem line_sends (x : Slice) (p : Nat) (m : Msg) (a : LineAddr) : (x.sends p m).line a = x.line a := rfl
@[simp] theorem ent_sends (x : Slice) (p : Nat) (m : Msg) (q : Nat) : (x.sends p m).ent q = x.ent q := rfl
@[simp] theorem hlc_sends (x : Slice) (p : Nat) (m : Msg) : (x.sends p m).hlc = x.hlc := rfl
@[simp] theorem ent_setTrk (x : Slice) (t : Nat) (k : Option Trk) (q : Nat) : (x.setTrk t k).ent q = x.ent q := rfl
@[simp] theorem ent_setLine (x : Slice) (a : LineAddr) (o : Olt) (q : Nat) : (x.setLine a o).ent q = x.ent q := rfl
@[simp] theorem ent_modHlc (x : Slice) (f : Hlc → Hlc) (q : Nat) : (x.modHlc f).ent q = x.ent q := rfl

section
variable {x y : Slice} (h : y.besidesEntries = x.besidesEntries)
include h

theorem trks_of_besidesEntries : y.trks = x.trks := (congrArg (fun z : Slice => z.trks) h :)
theorem olt_of_besidesEntries : y.olt = x.olt := (congrArg (fun z : Slice => z.olt) h :)
theorem lslice_of_besidesEntries : y.lslice = x.lslice := (congrArg (fun z : Slice => z.lslice) h :)

end

/-- Slice `x` with the directory entry of line `a` written at position `q` (R106, R178, R179). -/
def Slice.directed (x : Slice) (a : LineAddr) (q : Nat) (st : BitVec 2) (vec : BitVec 64) (poison : Bool) : Slice :=
  (x.setEnt q (mkEnt a q st vec poison)).touchSf q

section
variable (x : Slice) (a : LineAddr) (q : Nat) (st : BitVec 2) (vec : BitVec 64) (poison : Bool)

theorem besidesEntries_directed : (x.directed a q st vec poison).besidesEntries = x.besidesEntries := by
  rw [Slice.directed, besidesEntries_touchSf, besidesEntries_setEnt]

@[simp] theorem trk_directed (t : Nat) : (x.directed a q st vec poison).trk t = x.trk t :=
  trk_of_besidesEntries (besidesEntries_directed ..) t
@[simp] theorem line_directed (b : LineAddr) : (x.directed a q st vec poison).line b = x.line b :=
  line_of_besidesEntries (besidesEntries_directed ..) b
@[simp] theorem hlc_directed : (x.directed a q st vec poison).hlc = x.hlc := hlc_of_besidesEntries (besidesEntries_directed ..)
@[simp] theorem stop_directed : (x.directed a q st vec poison).stop = x.stop :=
  stop_of_besidesEntries (besidesEntries_directed ..)
@[simp] theorem local_directed : (x.directed a q st vec poison).local_ = x.local_ :=
  local_of_besidesEntries (besidesEntries_directed ..)
@[simp] theorem lslice_directed : (x.directed a q st vec poison).lslice = x.lslice :=
  lslice_of_besidesEntries (besidesEntries_directed ..)
@[simp] theorem ent_directed : (x.directed a q st vec poison).ent q = mkEnt a q st vec poison := by
  rw [Slice.directed, ent_touchSf, ent_setEnt_self]

end

theorem besidesNotes_setEnt (x : Slice) (q : Nat) (e : SfEnt) : (x.setEnt q e).besidesNotes = x.besidesNotes.setEnt q e := by
  unfold Slice.setEnt
  dsimp only
  split <;> rfl

theorem besidesNotes_touchSf (x : Slice) (q : Nat) : (x.touchSf q).besidesNotes = x.besidesNotes.touchSf q := by
  unfold Slice.touchSf
  split <;> rfl

theorem besidesNotes_sends (x : Slice) (p : Nat) (m : Msg) : (x.sends p m).besidesNotes = x.besidesNotes.sends p m := by
  have stop := stop_sends_congr (x := x) (y := x.besidesNotes) rfl p m
  have own := local_sends_congr (x := x) (y := x.besidesNotes) rfl p m
  have parts : x.besidesNotes.sends p m = { x.besidesNotes with
    stop := (x.besidesNotes.sends p m).stop, local_ := (x.besidesNotes.sends p m).local_ } := rfl
  rw [parts, stop, own]
  rfl

/-! One rule for each operation -/

/-- State `u` is state `s` with slice `p` become `x`, as far as the ordering protocol reads it. -/
structure State.Turns (s : State) (p : Nat) (x : Slice) (u : State) : Prop where
  slice : (u.slice p).besidesNotes = x.besidesNotes
  outside : u.outsideSlices = s.outsideSlices

namespace State.Turns

variable {s u : State} {p : Nat} {x : Slice}

protected theorem refl (s : State) (p : Nat) : s.Turns p (s.slice p) s := ⟨rfl, rfl⟩

theorem glb (h : s.Turns p x u) : u.glb = s.glb := (congrArg (fun z : State => z.glb) h.outside :)
theorem time (h : s.Turns p x u) : u.time = s.time := (congrArg (fun z : State => z.time) h.outside :)
theorem eng (h : s.Turns p x u) (e : Nat) : u.eng e = s.eng e := (congrArg (fun z : State => z.eng e) h.outside :)

theorem trk (h : s.Turns p x u) (t : Nat) : (u.slice p).trk t = x.trk t := trk_of_besidesNotes h.slice t
theorem line (h : s.Turns p x u) (a : LineAddr) : (u.slice p).line a = x.line a := line_of_besidesNotes h.slice a
theorem ent (h : s.Turns p x u) (q : Nat) : (u.slice p).ent q = x.ent q := ent_of_besidesNotes h.slice q
theorem hlc (h : s.Turns p x u) : (u.slice p).hlc = x.hlc := hlc_of_besidesNotes h.slice
theorem dir (h : s.Turns p x u) (a : LineAddr) : (u.slice p).dir a = x.dir a := (congrArg (fun z : Slice => z.dir a) h.slice :)

theorem sentNothing (h : s.Turns p x u) (stop : x.stop = (s.slice p).stop) (own : x.local_ = (s.slice p).local_) :
    SentNothing s u p :=
  sentNothing_of_slice ((stop_of_besidesNotes h.slice).trans stop) ((local_of_besidesNotes h.slice).trans own)

theorem sent {y : Slice} {m : Msg} (h : s.Turns p x u) (stop : x.stop = (y.sends p m).stop)
    (own : x.local_ = (y.sends p m).local_) (before : y.stop = (s.slice p).stop) (ownBefore : y.local_ = (s.slice p).local_) :
    Sent s u p m := by
  refine sent_of_slice_emit ?_ ?_
  · rw [stop_of_besidesNotes h.slice, stop, slice_emit_eq_sends, stop_sends_congr before]
  · rw [local_of_besidesNotes h.slice, own, slice_emit_eq_sends, local_sends_congr ownBefore]

/-- A rule may change the state by counts alone. -/
theorem onlyCounts {v : State} (h : s.Turns p x u) (counts : u.OnlyCounts p v) : s.Turns p x v :=
  ⟨(congrArg Slice.besidesNotes counts.slice :).trans h.slice, counts.outside.trans h.outside⟩

theorem count (h : s.Turns p x u) (c : Cnt) : s.Turns p x (u.count p c) := h.onlyCounts (onlyCounts_count ..)

/-- A rule that changes the slice as `f` does, which reads no notes. -/
theorem modSlice (h : s.Turns p x u) {f : Slice → Slice} {y : Slice} (after : (f (u.slice p)).besidesNotes = y.besidesNotes) :
    s.Turns p y (u.modSlice p f) :=
  ⟨by rw [slice_modSlice, if_pos rfl, after], h.outside⟩

theorem modTrk {t : Nat} {k : Trk} (h : s.Turns p x u) (open_ : x.trk t = some k) (f : Trk → Trk) :
    s.Turns p (x.setTrk t (some (f k))) (u.modTrk p t f) := by
  refine h.modSlice ?_
  rw [h.trk, open_, Option.map_some]
  exact (congrArg (fun z : Slice => z.setTrk t (some (f k))) h.slice :)

theorem modLine (h : s.Turns p x u) (a : LineAddr) (f : Olt → Olt) :
    s.Turns p (x.setLine a (f (x.line a))) (u.modLine p a f) := by
  refine h.modSlice ?_
  rw [h.line]
  exact (congrArg (fun z : Slice => z.setLine a (f (x.line a))) h.slice :)

theorem modHlc (h : s.Turns p x u) (f : Hlc → Hlc) : s.Turns p (x.modHlc f) (u.modHlc p f) :=
  h.modSlice (congrArg (fun z : Slice => z.modHlc f) h.slice :)

theorem emit (h : s.Turns p x u) (m : Msg) : s.Turns p (x.sends p m) (u.emit p m) := by
  refine ⟨?_, h.outside⟩
  rw [slice_emit_eq_sends, besidesNotes_sends, h.slice, besidesNotes_sends]

theorem breakWatch (h : s.Turns p x u) (a : LineAddr) : s.Turns p x (u.breakWatch p a) := by
  refine h.modSlice ?_
  split
  · exact h.slice
  · exact h.slice

theorem setWatch (h : s.Turns p x u) (m : Msg) (e : SfEnt) : s.Turns p x (u.setWatch p m e) := by
  unfold State.setWatch
  split
  · exact h.modSlice h.slice
  · exact h

theorem loadRecent (h : s.Turns p x u) (a : LineAddr) : s.Turns p x (u.loadRecent p a) := h.modSlice h.slice

/-- The directory state of an open line is written at its position, no bit for an absent agent (R21, R106). -/
theorem setDir {a : LineAddr} {q : Nat} (h : s.Turns p x u) (held : (x.line a).pos = some q) (st : BitVec 2) (vec : BitVec 64)
    (poison : Bool) : s.Turns p (x.directed a q (if vec &&& s.glb.agents = 0 then 0 else st) (vec &&& s.glb.agents) poison)
      (u.setDir p a st vec poison) := by
  rw [← h.line] at held
  simp only [State.setDir, held, h.glb]
  refine h.modSlice ?_
  rw [besidesNotes_touchSf, besidesNotes_setEnt, h.slice, Slice.directed, besidesNotes_touchSf, besidesNotes_setEnt]

end State.Turns

/-- The vector-addressed message of tracker `t` for line `a` (R75). -/
def Slice.vectorMsg (x : Slice) (t opc : Nat) (a : LineAddr) (v : BitVec 64) : Msg :=
  { x.homeMsg opc 1022 a with htag := BitVec.ofNat 8 t, data := v.setWidth 512 }

/-- The forward of line `a` to its owner `o` for tracker `t` on content `k`, in the requester's name (Table 4.6). -/
def Slice.namedForward (x : Slice) (t opc o : Nat) (a : LineAddr) (k : Trk) : Msg :=
  { x.forwardMsg t opc o a with reqid := k.req.src, txn := k.req.txn }

/-- Tracker content that awaits the `InvAck` of every agent of `v` (R117). -/
def Trk.invalidates (v : BitVec 64) (k : Trk) : Trk := { k with awaits := v, ownerForm := false }

namespace State.Turns

variable {s u : State} {p t : Nat} {x : Slice} {k : Trk}

theorem sendForward {o : Nat} (h : s.Turns p x u) (open_ : x.trk t = some k) (present : s.glb.agents.getLsbD o = true) (opc : Nat)
    (a : LineAddr) : s.Turns p ((x.sends p (x.namedForward t opc o a k)).setTrk t (some (k.forwards o)))
      (u.sendForward p t opc o a true) := by
  have named : (u.slice p).namedForward t opc o a k = x.namedForward t opc o a k := by
    rw [Slice.namedForward, Slice.forwardMsg, homeMsg_congr (lslice_of_besidesNotes h.slice)]
    rfl
  have sends : u.sendForward p t opc o a true
      = (u.emit p ((u.slice p).namedForward t opc o a k)).modTrk p t (Trk.forwards o) := by
    simp only [State.sendForward, h.trk, h.glb, open_, present]
    rfl
  rw [sends, named]
  exact (h.emit _).modTrk open_ _

theorem sendVector_none {vec : BitVec 64} (h : s.Turns p x u) (none_ : vec &&& s.glb.agents = 0) (opc : Nat) (a : LineAddr) :
    s.Turns p x (u.sendVector p t opc a vec) := by
  simp only [State.sendVector, h.glb, none_, if_true]
  exact h

theorem sendVector {vec : BitVec 64} (h : s.Turns p x u) (open_ : x.trk t = some k) (some_ : vec &&& s.glb.agents ≠ 0) (opc : Nat)
    (a : LineAddr) : s.Turns p (((x.sends p (x.vectorMsg t opc a (vec &&& s.glb.agents))).setTrk t
        (some (k.invalidates (vec &&& s.glb.agents)))).setLine a
          { x.line a with ackcnt := (bitsOf (vec &&& s.glb.agents)).length }) (u.sendVector p t opc a vec) := by
  have home : (u.slice p).homeMsg opc 1022 a = x.homeMsg opc 1022 a := homeMsg_congr (lslice_of_besidesNotes h.slice) ..
  simp only [State.sendVector, h.glb, some_, if_false, home]
  exact ((h.emit (x.vectorMsg t opc a (vec &&& s.glb.agents))).modTrk open_ (Trk.invalidates _)).modLine a
    fun o => { o with ackcnt := (bitsOf (vec &&& s.glb.agents)).length }

end State.Turns

/-! The end of a transaction, and of an open line -/

/-- What the end of tracker `t`, on content `k`, makes of slice `x` besides its answer (R73). -/
def Slice.closes (x : Slice) (t : Nat) (k : Trk) : Slice :=
  let x := { x.setTrk t none with wdogDone := x.wdogDone.filter (· != t) }
  match holderOf k.req.src.toNat with
  | some h => if isShared k.req then { x with g := x.g.set zeroNat h (x.held h - 1) } else x
  | none => x

/-- Slice `x` with line `a` no longer open; an entry that it leaves free is erased (R110, R179). -/
def Slice.frees (x : Slice) (a : LineAddr) : Slice :=
  (match (x.line a).pos with
    | some q => if (x.ent q).allocated then x else x.setEnt q {}
    | none => x).setLine a {}

section
variable (x : Slice) (t : Nat) (k : Trk)

theorem closes_eq : x.closes t k = { x.setTrk t none with wdogDone := (x.closes t k).wdogDone, g := (x.closes t k).g } := by
  unfold Slice.closes
  dsimp only
  split
  · split <;> rfl
  · rfl

theorem besidesNotes_closes : (x.closes t k).besidesNotes = x.besidesNotes.closes t k := by
  unfold Slice.closes
  dsimp only
  split
  · split <;> rfl
  · rfl

@[simp] theorem trks_closes : (x.closes t k).trks = (x.setTrk t none).trks := by rw [closes_eq]
@[simp] theorem line_closes (a : LineAddr) : (x.closes t k).line a = x.line a := by rw [closes_eq]; rfl
@[simp] theorem olt_closes : (x.closes t k).olt = x.olt := by rw [closes_eq]; rfl
@[simp] theorem ent_closes (q : Nat) : (x.closes t k).ent q = x.ent q := by rw [closes_eq]; rfl
@[simp] theorem hlc_closes : (x.closes t k).hlc = x.hlc := by rw [closes_eq]; rfl
@[simp] theorem far_closes : (x.closes t k).far = x.far := by rw [closes_eq]; rfl
@[simp] theorem stop_closes : (x.closes t k).stop = x.stop := by rw [closes_eq]; rfl
@[simp] theorem local_closes : (x.closes t k).local_ = x.local_ := by rw [closes_eq]; rfl
theorem trk_closes_self : (x.closes t k).trk t = none := by
  rw [Slice.trk, trks_closes]
  exact trk_setTrk_self x t none

variable (a : LineAddr)

theorem besidesEntries_frees : (x.frees a).besidesEntries = (x.setLine a {}).besidesEntries := by
  unfold Slice.frees
  split
  · split
    · rfl
    · exact congrArg (fun z : Slice => z.setLine a {}) (besidesEntries_setEnt ..)
  · rfl

theorem besidesNotes_frees : (x.frees a).besidesNotes = x.besidesNotes.frees a := by
  unfold Slice.frees
  split
  · next q held =>
    simp only [show (x.besidesNotes.line a).pos = some q from held, show x.besidesNotes.ent q = x.ent q from rfl]
    split
    · rfl
    · rw [← besidesNotes_setEnt]
      rfl
  · next none_ =>
    simp only [show (x.besidesNotes.line a).pos = none from none_]
    rfl

@[simp] theorem trk_frees : (x.frees a).trk t = x.trk t := trk_of_besidesEntries (besidesEntries_frees ..) t
@[simp] theorem line_frees_self : (x.frees a).line a = {} :=
  (line_of_besidesEntries (besidesEntries_frees ..) a).trans (line_setLine_self ..)
@[simp] theorem hlc_frees : (x.frees a).hlc = x.hlc :=
  (hlc_of_besidesEntries (besidesEntries_frees x a) :)
@[simp] theorem stop_frees : (x.frees a).stop = x.stop :=
  (stop_of_besidesEntries (besidesEntries_frees x a) :)
@[simp] theorem local_frees : (x.frees a).local_ = x.local_ :=
  (local_of_besidesEntries (besidesEntries_frees x a) :)

theorem ent_frees_of_allocated {x : Slice} {a : LineAddr} {q : Nat} (held : (x.line a).pos = some q)
    (allocated : (x.ent q).allocated = true) (i : Nat) : (x.frees a).ent i = x.ent i := by
  simp only [Slice.frees, held, allocated, if_true]
  rfl

end

theorem closeTrk_of_open {s : State} {p t : Nat} {k : Trk} (open_ : (s.slice p).trk t = some k) :
    s.closeTrk p t = s.modSlice p fun y => y.closes t k := by
  simp only [State.closeTrk, open_]
  rfl

namespace State.Turns

variable {s u : State} {p : Nat} {x : Slice}

theorem endWith {t : Nat} {k : Trk} (h : s.Turns p x u) (open_ : x.trk t = some k) (opc : Nat) (f : Msg → Msg) :
    s.Turns p ((x.sends p (f (x.endMsg opc k))).closes t k) (u.endWith p t opc f) := by
  have ends : u.endWith p t opc f
      = (u.emit p (f ((u.slice p).endMsg opc k))).modSlice p fun y => y.closes t k := by
    simp only [State.endWith, h.trk, open_]
    exact closeTrk_of_open (by rw [slice_emit_eq_sends, trk_sends, h.trk, open_])
  have same : (u.slice p).endMsg opc k = x.endMsg opc k := by
    rw [Slice.endMsg, homeMsg_congr (lslice_of_besidesNotes h.slice)]
    rfl
  rw [ends, same]
  refine (h.emit _).modSlice ?_
  rw [besidesNotes_closes, (h.emit _).slice, besidesNotes_closes]

theorem freeLine (h : s.Turns p x u) (a : LineAddr) : s.Turns p (x.frees a) (u.freeLine p a) := by
  refine ⟨?_, h.outside⟩
  have frees : (u.freeLine p a).slice p = (u.slice p).frees a := by
    rw [State.freeLine, slice_setSlice, if_pos rfl]
    rfl
  rw [frees, besidesNotes_frees, h.slice, besidesNotes_frees]

end State.Turns

end Sys2Proof.Machine
end

section
/-! SUPPORT. Requests that pass their checks, the lookup that finds one way entry, and the start of a read of home data
(R92, R100, R109, R118, R176, R177, R180, R223, R225, R226). -/

namespace Sys2Proof.Machine

open Sys2Proof

/-! Admission (R92, R100) -/

/-- A tracker's content at a request's arrival, at breakaway or not (R100). -/
def Trk.entered (m : Msg) (arr seq : Nat) (brk : Bool) (brkAt : Nat) : Trk := { Trk.queued m arr seq with brk, brkAt }

/-- State `u` is state `s` with the request of `k` taken into tracker `t` on content `k`, which says whether it arrived at
breakaway (R92, R100, R109). -/
structure State.Admits (s u : State) (p t : Nat) (k : Trk) : Prop where
  turns : (s.takeMsg p k.req).Turns p (((s.takeMsg p k.req).slice p).opens t k) u
  marked : u.broke p k = k.brk

theorem turns_queueTrk {s u : State} {p : Nat} {x : Slice} (h : s.Turns p x u) (t : Nat) (k : Trk) :
    s.Turns p (x.opens t k) (u.queueTrk p t k) :=
  h.modSlice (congrArg (fun z : Slice => z.opens t k) h.slice :)

theorem broke_of_turns {s u : State} {p : Nat} {x : Slice} (h : s.Turns p x u) (k : Trk) :
    u.broke p k = decide (x.brkUs.toNat ≤ effAge s.time k.req.age.toNat k.arr) := by
  have threshold : (u.slice p).brkUs = x.brkUs := (congrArg (fun z : Slice => z.brkUs) h.slice :)
  rw [State.broke, threshold, h.time]

theorem setTrk_opens (x : Slice) (t : Nat) (j k : Trk) : (x.opens t j).setTrk t (some k) = x.opens t k :=
  congrArg (fun l => { x with trks := l, arrivals := x.arrivals + 1 }) (NMap.set_set noTrk x.trks t (some j) (some k))

theorem openTrk_enters {s u : State} {p : Nat} {x : Slice} (h : s.Turns p x u) (t : Nat) (m : Msg) (arr seq : Nat) :
    ∃ brk brkAt, s.Turns p (x.opens t (.entered m arr seq brk brkAt)) (u.openTrk p t (.queued m arr seq))
      ∧ (u.openTrk p t (.queued m arr seq)).broke p (.entered m arr seq brk brkAt) = brk := by
  have queued := turns_queueTrk h t (.queued m arr seq)
  unfold State.openTrk
  split
  · next old =>
    have broken := (queued.count .brk).modTrk (t := t) (k := .queued m arr seq)
      (trk_setTrk_self x t (some (.queued m arr seq))) (Trk.broken (u.queueTrk p t (.queued m arr seq)).fclk)
    rw [setTrk_opens] at broken
    refine ⟨true, _, broken, ?_⟩
    rw [broke_of_turns queued] at old
    rw [State.breakOut]
    exact (broke_of_turns broken _).trans old
  · next young =>
    exact ⟨false, 0, queued, Bool.not_eq_true _ ▸ young⟩

theorem request_of_accepted {s : State} {p t : Nat} {m : Msg} (accepted : s.accepts p m) (free : (s.slice p).freeTrk = some t)
    (go : State → Nat → State) : s.request p m go = go (((s.takeMsg p m).noted p m).openTrk p t
      (.queued m ((s.takeMsg p m).noted p m).time ((s.takeMsg p m).slice p).arrivals)) t := by
  obtain ⟨next, home, fits, -, valid, region⟩ := accepted
  have fits' : ((s.takeMsg p m).slice p).allowed p m = true := (allowed_takeMsg ..).trans fits
  have free' : ((s.takeMsg p m).slice p).freeTrk = some t := (freeTrk_takeMsg ..).trans free
  have home' : homeMatches ((s.takeMsg p m).slice p) m true = true := (homeMatches_takeMsg ..).trans home
  have port (k : Trk) : ¬ ((((s.takeMsg p m).noted p m).openTrk p t k).portOf m.addr).isNone = true := by
    rw [portOf_openTrk, (onlyCounts_noted ..).portOf, portOf_takeMsg]
    simpa [← Option.isSome_iff_ne_none] using region
  rw [State.request, taking_of_next next]
  refine (if_neg (by simp [fits'])).trans ?_
  rw [free']
  refine (if_neg (by simp [home'])).trans ?_
  refine (if_neg (by simp [valid])).trans ?_
  exact if_neg (port _)

/-- A request that passes its checks goes on with a tracker opened on it. -/
theorem request_admits {s : State} {p t : Nat} {m : Msg} (accepted : s.accepts p m) (free : (s.slice p).freeTrk = some t)
    (go : State → Nat → State) : ∃ u seq brk brkAt, s.request p m go = go u t
      ∧ s.Admits u p t (.entered m s.time seq brk brkAt) := by
  have noted := (State.Turns.refl (s.takeMsg p m) p).onlyCounts (onlyCounts_noted (s.takeMsg p m) p m)
  have time : ((s.takeMsg p m).noted p m).time = s.time := (onlyCounts_noted ..).time
  obtain ⟨brk, brkAt, turns, marked⟩ := openTrk_enters noted t m s.time ((s.takeMsg p m).slice p).arrivals
  exact ⟨_, _, brk, brkAt, (request_of_accepted accepted free go).trans (by rw [time]), turns, marked⟩

/-! A lookup that finds one way entry (R176, R177, R183) -/

theorem foldl_of_fixed {α β : Type} {f : α → β → α} {x : α} (l : List β) (h : ∀ b ∈ l, f x b = x) : l.foldl f x = x := by
  induction l with
  | nil => rfl
  | cons b l ih => rw [List.foldl_cons, h b List.mem_cons_self, ih fun c hc => h c (List.mem_cons_of_mem b hc)]

theorem get_mem_or_dflt {α : Type} (d : Nat → α) (m : NMap α) (k : Nat) : m.get d k = d k ∨ (k, m.get d k) ∈ m := by
  induction m with
  | nil => exact .inl rfl
  | cons e rest ih =>
    obtain ⟨i, v⟩ := e
    by_cases same : i = k
    · subst same
      exact .inr (by simp [NMap.get])
    · simpa [NMap.get, same, Ne.symm same] using ih

theorem lookupFails_of_all_rows {b : SfBlock} (h : lookupFails b (List.range 8) = false) {rows : List Nat}
    (inside : ∀ i ∈ rows, i < 8) : lookupFails b rows = false := by
  simp only [lookupFails, Bool.or_eq_false_iff, List.any_eq_false] at h ⊢
  obtain ⟨⟨sound, check⟩, written⟩ := h
  exact ⟨⟨fun i hi => sound i (List.mem_range.mpr (inside i hi)), check⟩, written⟩

theorem sfLookupChecks_of_sound {s : State} {p : Nat}
    (sound : ∀ b ∈ (s.slice p).sfl.blocks, lookupFails b.2 (List.range 8) = false) (set : Nat) :
    s.sfLookupChecks p set = s := by
  have block (k : Nat) : lookupFails ((s.slice p).sfBlock k) (List.range 8) = false := by
    rcases get_mem_or_dflt SfBlock.dflt (s.slice p).sfl.blocks k with none_ | listed
    · rw [Slice.sfBlock, none_]
      exact lookupFails_unwritten _
    · exact sound _ listed
  refine foldl_of_fixed _ fun k hk => if_neg ?_
  rw [Bool.not_eq_true]
  refine lookupFails_of_all_rows (block k.1) ?_
  rcases List.mem_append.mp hk with hk | hk
  · obtain ⟨w, -, rfl⟩ := List.mem_map.mp hk
    simpa using Nat.mod_lt set (by decide)
  · obtain ⟨b, -, rfl⟩ := List.mem_map.mp hk
    simp

/-- The one way that a line's lookup finds becomes the most recently used of its set (R176, R177, R179). -/
theorem lookup_of_finds {s : State} {p q : Nat} {a : LineAddr} (found : (s.slice p).finds a q) :
    s.lookup p a = ((s.slcEvent p 0x02).modSlice p fun x => x.touchSf q, some q) := by
  obtain ⟨hits, way, sound, lines, -⟩ := found
  have stays : (s.slcEvent p 0x02).sfMigrate p q = s.slcEvent p 0x02 := if_neg (by simp [way])
  simp only [State.lookup, hTagScan_of_no_lines lines, State.sfLookup, sfLookupChecks_of_sound sound, hits, State.sfDuplicate,
    stays, slice_slcEvent, List.headD_cons]

theorem lookup_finds {s u : State} {p q : Nat} {x : Slice} {a : LineAddr} (h : s.Turns p x u) (found : x.finds a q) :
    ∃ v, u.lookup p a = (v, some q) ∧ s.Turns p (x.touchSf q) v := by
  have here : (u.slice p).finds a q := (congrArg (fun z : Slice => z.finds a q) h.slice :).mpr found
  refine ⟨_, lookup_of_finds here, (h.onlyCounts (onlyCounts_slcEvent u p 0x02 1)).modSlice ?_⟩
  rw [slice_slcEvent, besidesNotes_touchSf, h.slice, besidesNotes_touchSf]

/-! The entry of an open line (R180) -/

theorem giveEntry_of_besidesNotes {x y : Slice} (h : y.besidesNotes = x.besidesNotes) (k : Trk) : y.giveEntry k = x.giveEntry k :=
  (congrArg (fun z : Slice => z.giveEntry k) h :)

/-- A line that holds its position keeps it, and one that holds none takes the way it is given. -/
theorem turns_takeEntry {s u : State} {p t q : Nat} {x : Slice} {a : LineAddr} {o : Olt} {k : Trk}
    (h : s.Turns p ((x.setLine a o).setTrk t (some k)) u) (resv : k.resv = none)
    (place : o.pos = some q ∨ (o.pos = none ∧ ((x.setLine a o).setTrk t (some k)).giveEntry k = some q ∧ isOvf q = false)) :
    s.Turns p ((x.setLine a { o with pos := some q }).setTrk t (some k)) (u.takeEntry p t a) := by
  have open_ := h.trk t
  have line := h.line a
  rw [trk_setTrk_self] at open_
  rw [line_setTrk, line_setLine_self] at line
  unfold State.takeEntry
  rw [open_, line]
  rcases place with held | ⟨free, gives, way⟩
  · simp only [held, Option.isSome_some, if_true]
    have same : { o with pos := some q } = o := by rw [← held]
    rwa [same]
  · have gives' := (giveEntry_of_besidesNotes h.slice k).trans gives
    have taken := (h.modLine a fun o => { o with pos := some q }).modTrk (t := t) (k := k)
      (by rw [trk_setLine, trk_setTrk_self]) fun k => { k with resv := none }
    have same : { k with resv := none } = k := by rw [← resv]
    rw [same, setLine_setTrk, setTrk_setTrk, setLine_setLine, line_setTrk, line_setLine_self] at taken
    simp only [free, Option.isSome_none, Bool.false_eq_true, if_false, gives', way]
    exact taken

/-! Home data (R118, R223, R225, R226) -/

/-- State `u` is state `s` with slice `p` become `x` but for its cache, which stores no line. -/
def State.Caches (s : State) (p : Nat) (x : Slice) (u : State) : Prop :=
  ∃ c : Hlc, s.Turns p (x.modHlc fun _ => c) u ∧ c.lines = []

section
variable {s u : State} {p : Nat} {x : Slice}

theorem State.Caches.count (h : s.Caches p x u) (c : Cnt) : s.Caches p x (u.count p c) := by
  obtain ⟨cache, turns, empty⟩ := h
  exact ⟨cache, turns.count c, empty⟩

theorem State.Caches.modHlc (h : s.Caches p x u) {f : Hlc → Hlc} (keeps : ∀ c, (f c).lines = c.lines) :
    s.Caches p x (u.modHlc p f) := by
  obtain ⟨cache, turns, empty⟩ := h
  exact ⟨f cache, turns.modHlc f, (keeps cache).trans empty⟩

theorem State.Caches.missJoin (h : s.Caches p x u) (a : LineAddr) (w : Waiter) (demand : Bool) :
    s.Caches p x (u.missJoin p a w demand).1 := by
  unfold State.missJoin
  dsimp only
  split
  · split
    · dsimp only
      split
      · exact .count (.count (.modHlc h (by exact fun _ => rfl)) _) _
      · exact .count (.modHlc h (by exact fun _ => rfl)) _
    · exact h
  · split
    · dsimp only
      split
      · exact .count (.modHlc h (by exact fun _ => rfl)) _
      · exact .modHlc h (by exact fun _ => rfl)
    · exact h

theorem State.Caches.offer (h : s.Caches p x u) (r : Int) : s.Caches p x (u.offer p r) := by
  have lines : (u.slice p).hlc.lines = [] := by
    obtain ⟨cache, turns, empty⟩ := h
    rw [turns.hlc]
    exact empty
  unfold State.offer
  simp only [hTagScan_of_no_lines lines]
  split
  · exact h
  · split
    · exact h
    · split
      · exact h
      · split
        · exact h.count _
        · split
          · exact h.count _
          · exact (h.missJoin ..).count _

theorem State.Caches.trainStream (h : s.Caches p x u) (m : Msg) : s.Caches p x (u.trainStream p m) := by
  unfold State.trainStream
  dsimp only
  split
  · exact h.modHlc (by exact fun _ => rfl)
  · exact foldl_inv (s.Caches p x) _ (fun _ r h => h.offer r) _ _ (h.modHlc (by exact fun _ => rfl))

end

/-- A tracker that needs home data of an empty cache opens the slice's only miss register; where the cache knows streams, a
prefetch may open more (R223, R225, R226). -/
theorem turns_needData {s u : State} {p t : Nat} {x : Slice} {k : Trk} (h : s.Turns p x u) (open_ : x.trk t = some k)
    (lines : x.hlc.lines = []) (mshrs : x.hlc.mshrs = []) (writes : x.hlc.writes = []) :
    ∃ c : Hlc, s.Turns p ((x.setTrk t (some k.needing)).modHlc fun _ => c) (u.needData p t)
      ∧ (x.hlc.streams = [] → c.mshrs = [x.firstMshr k.req.addr t]) := by
  have open' := (h.trk t).trans open_
  have needs := h.modTrk open_ Trk.needing
  have cache : ((u.modTrk p t Trk.needing).slice p).hlc = x.hlc := needs.hlc
  have register : ((u.modTrk p t Trk.needing).slice p).firstMshr k.req.addr t = x.firstMshr k.req.addr t := by
    rw [Slice.firstMshr, cache, Slice.firstMshr]
  have read := hRead_of_empty (by rw [cache, lines]) (by rw [cache, writes]) k.req.addr true
  have joins := missJoin_of_no_mshrs (by rw [cache, mshrs]) k.req.addr t
  have opened := (needs.modHlc (Hlc.addMshr (x.firstMshr k.req.addr t))).count .miss
  have first : (x.hlc.addMshr (x.firstMshr k.req.addr t)).mshrs = [x.firstMshr k.req.addr t] := by
    rw [Hlc.addMshr, mshrs]
    rfl
  have needing : (fun k : Trk => { k with needs := true }) = Trk.needing := rfl
  simp only [State.needData, open', needing, read, joins, register]
  generalize ((u.modTrk p t Trk.needing).modHlc p (Hlc.addMshr (x.firstMshr k.req.addr t))).count p .miss = v at opened ⊢
  split
  · by_cases none_ : x.hlc.streams = []
    · have quiet : (v.slice p).hlc.streams = [] := by
        rw [opened.hlc]
        exact none_
      rw [trainStream_of_no_streams quiet]
      exact ⟨_, opened.modHlc (Hlc.onlyStream k.req), fun _ => first⟩
    · obtain ⟨c, trained, -⟩ := State.Caches.trainStream ⟨_, opened, lines⟩ k.req
      exact ⟨c, trained, fun empty => absurd empty none_⟩
  · exact ⟨_, opened, fun _ => first⟩

end Sys2Proof.Machine
end

section
/-! SUPPORT. The service of a request that finds its line closed (R106, R114, R116 to R119, Table 6.5). -/

namespace Sys2Proof.Machine

open Sys2Proof

/-! Service (R114, Table 6.5) -/

/-- Tracker content in service as a request of the kind (R123, Table 6.5). -/
def Trk.servedAs (kind : ReqKind) (onPoison : Bool) (k : Trk) : Trk :=
  { k with kind, phase := .gather, onPoison, awaits := 0, ownerForm := false }

/-- Line `a` is served for tracker `t`, and holds position `pos` (R114). -/
def State.servedAt (s : State) (p t : Nat) (a : LineAddr) (pos : Option Nat) : State :=
  s.modLine p a fun o => { o with mode := 2, serve := some t, pos }

theorem modLine_modLine (s : State) (p : Nat) (a : LineAddr) (f g : Olt → Olt) :
    (s.modLine p a f).modLine p a g = s.modLine p a fun o => g (f o) := by
  simp only [State.modLine, State.modSlice, State.setSlice, State.slice, NMap.get_set_self, NMap.set_set, line_setLine_self,
    setLine_setLine]

section
variable {s : State} {p t : Nat} {k : Trk} (open_ : (s.slice p).trk t = some k)
include open_

/-- A request of a closed line that is not `DIR_M` is served, where the entry that it needs can be given (R113, R114). -/
theorem decideReq_serves (marked : s.broke p k = k.brk) (closed : (s.slice p).line k.req.addr = {}) {hit : Option Nat}
    (given : needsEntry k ((s.slice p).entAt hit) hit = true → ((s.slice p).giveEntry k).isSome = true)
    (unowned : ((s.slice p).entAt hit).st = 0 ∨ ((s.slice p).entAt hit).st = 1) :
    s.decideReq p t hit = ((s.servedAt p t k.req.addr hit).act p t k.req.addr).settle p k.req.addr := by
  have noWait : ¬ (needsEntry k ((s.slice p).entAt hit) hit = true ∧ ((s.slice p).giveEntry k).isNone = true) :=
    fun ⟨needs, none_⟩ => by simp [Option.isSome_iff_ne_none.mp (given needs)] at none_
  have triggers (u : State) : u.trigger p k ((s.slice p).entAt hit) {} = true := by
    rcases unowned with st | st <;> simp [State.trigger, st]
  have dir : ((s.servedAt p t k.req.addr hit).slice p).dir k.req.addr = (s.slice p).entAt hit := by
    rw [State.servedAt, slice_modLine, Slice.dir, line_setLine_self]
    cases hit <;> rfl
  have sound : ¬ ((s.slice p).entAt hit).st = 3 := by rcases unowned with st | st <;> simp [st]
  have served : ((s.modLine p k.req.addr fun o => { o with pos := hit }).modLine p k.req.addr fun o =>
      { o with mode := 2, serve := some t }) = s.servedAt p t k.req.addr hit := modLine_modLine ..
  have idle : ¬ ((0 : BitVec 2) = 2 ∨ (0 : BitVec 2) = 3) := by decide
  have unchained : ¬ (0 : BitVec 2) = 1 := by decide
  simp only [State.decideReq, open_, marked, Bool.and_not_self, Bool.false_eq_true, if_false, closed, idle, if_true, true_and,
    noWait, triggers, unchained, State.serve, served, dir, sound]

variable {a : LineAddr} (plain : ∀ u : State, u.isStoreCond p k.req = false)
include plain

section
variable (unowned : ((s.slice p).dir a).st ≠ 2)
include unowned

theorem act_readShared (kind : kindOn k ((s.slice p).dir a) = .readShared) : s.act p t a
    = (((s.modTrk p t (.servedAs .readShared ((s.slice p).dir a).poison)).takeEntry p t a).setDir p a 1
      (((s.slice p).dir a).vec ||| agentBit k.req.src.toNat) ((s.slice p).dir a).poison).needData p t := by
  simp only [State.act, open_, kind, plain, unowned, Bool.false_and, Bool.false_eq_true, if_false, reduceCtorEq, or_self]
  rfl

theorem act_readOwn (kind : kindOn k ((s.slice p).dir a) = .readOwn) : s.act p t a
    = ((((s.modTrk p t (.servedAs .readOwn ((s.slice p).dir a).poison)).takeEntry p t a).setDir p a 2
      (agentBit k.req.src.toNat) false).breakWatch p a |>.sendVector p t 0x23 a
        (((s.slice p).dir a).vec &&& ~~~(agentBit k.req.src.toNat))).needData p t := by
  simp only [State.act, open_, kind, plain, unowned, Bool.false_and, Bool.false_eq_true, if_false, reduceCtorEq, or_self]
  rfl

theorem act_readNc (kind : kindOn k ((s.slice p).dir a) = .readNc) : s.act p t a
    = ((s.modTrk p t (.servedAs .readNc ((s.slice p).dir a).poison)).setWatch p k.req ((s.slice p).dir a)).needData p t := by
  simp only [State.act, open_, kind, plain, unowned, Bool.false_and, Bool.false_eq_true, if_false, reduceCtorEq, or_self]
  rfl

variable (unshared : ((s.slice p).dir a).st ≠ 1)
include unshared

theorem act_writePartial (kind : kindOn k ((s.slice p).dir a) = .writePartial) : s.act p t a
    = ((s.modTrk p t (.servedAs .writePartial ((s.slice p).dir a).poison)).breakWatch p a).needData p t := by
  simp only [State.act, open_, kind, plain, unowned, unshared, Bool.false_and, Bool.false_eq_true, if_false, reduceCtorEq,
    or_true, if_true]
  rfl

theorem act_writeFull (kind : kindOn k ((s.slice p).dir a) = .writeFull) : s.act p t a
    = (s.modTrk p t (.servedAs .writeFull ((s.slice p).dir a).poison)).breakWatch p a := by
  simp only [State.act, open_, kind, plain, unowned, unshared, Bool.false_and, Bool.false_eq_true, if_false, reduceCtorEq,
    true_or, if_true]
  rfl

end

/-- Tracker content that is answered with `Grant` (Table 6.5). -/
def Trk.granted (k : Trk) : Trk := { k with grant := true }

theorem act_upgrade (kind : kindOn k ((s.slice p).dir a) = .upgrade) : s.act p t a
    = ((((s.modTrk p t (.servedAs .upgrade ((s.slice p).dir a).poison)).setDir p a 2 (agentBit k.req.src.toNat) false).breakWatch
      p a).modTrk p t Trk.granted).sendVector p t 0x23 a (((s.slice p).dir a).vec &&& ~~~(agentBit k.req.src.toNat)) := by
  simp only [State.act, open_, kind, plain, Bool.false_and, Bool.false_eq_true, if_false, reduceCtorEq, or_self]
  rfl

/-- Tracker content of a far operation that waits for its service start (R201). -/
def Trk.farStarts (k : Trk) : Trk := { k with phase := .farStart }

theorem act_far {kind : ReqKind} (far : kind = .farAtomic ∨ kind = .farProgram) (is : kindOn k ((s.slice p).dir a) = kind) :
    s.act p t a = (s.modTrk p t (.servedAs kind ((s.slice p).dir a).poison)).modTrk p t Trk.farStarts := by
  rcases far with rfl | rfl <;>
  · simp only [State.act, open_, is, plain, Bool.false_and, Bool.false_eq_true, if_false, reduceCtorEq, or_self]
    rfl

end

/-! Lines at rest (R115) -/

/-- A line whose served request still waits is at rest: for home data, or in a phase that the line does not end. -/
theorem settle_waiting {s : State} {p t : Nat} {a : LineAddr} {k : Trk} (mode : ((s.slice p).line a).mode = 2)
    (served : ((s.slice p).line a).serve = some t) (open_ : (s.slice p).trk t = some k) (victim : k.victim = none)
    (waits : k.phase ≠ .handling ∧ (k.phase = .gather → k.needs = true ∧ k.have_ = false)) : s.settle p a = s := by
  obtain ⟨other, data⟩ := waits
  refine settle_of_rest ?_
  by_cases gather : k.phase = .gather
  · obtain ⟨needs, empty⟩ := data gather
    simp [State.settleStep, mode, served, open_, victim, gather, needs, empty]
  · simp [State.settleStep, mode, served, open_, victim, gather, other]

end Sys2Proof.Machine
end

section
/-! SUPPORT. What the service of a request of a closed line makes of its slice, request by request (Table 6.5). -/

namespace Sys2Proof.Machine

open Sys2Proof

/-! A request of a closed line -/

/-- In slice `x` tracker `t` holds on content `k` a request of a closed line, with no way reserved for it, and the cache holds
and awaits nothing. -/
structure Slice.Ready (x : Slice) (t : Nat) (k : Trk) : Prop where
  open_ : x.trk t = some k
  closed : x.line k.req.addr = {}
  resv : k.resv = none
  victim : k.victim = none
  needs : k.needs = false
  empty : k.have_ = false
  lines : x.hlc.lines = []
  mshrs : x.hlc.mshrs = []
  writes : x.hlc.writes = []

/-- Slice `x` with line `a` at position `pos` served for tracker `t` on content `k`. -/
def Slice.serving (x : Slice) (t : Nat) (a : LineAddr) (pos : Option Nat) (k : Trk) : Slice :=
  (x.setLine a { mode := 2, serve := some t, pos }).setTrk t (some k)

/-- Position `q` is that of the request's line: the lookup has found it, or it can be given (R180). -/
def Slice.Places (x : Slice) (t : Nat) (k : Trk) (hit : Option Nat) (q : Nat) : Prop :=
  hit = some q ∨ (hit = none ∧ isOvf q = false ∧ (x.giveEntry k).isSome = true
    ∧ ∀ kind poison, (x.serving t k.req.addr none (k.servedAs kind poison)).giveEntry (k.servedAs kind poison) = some q)

section
variable (x : Slice) (t : Nat) (a : LineAddr) (pos : Option Nat) (k : Trk)

@[simp] theorem trk_serving : (x.serving t a pos k).trk t = some k := trk_setTrk_self ..
@[simp] theorem line_serving : (x.serving t a pos k).line a = { mode := 2, serve := some t, pos } := by
  rw [Slice.serving, line_setTrk, line_setLine_self]
@[simp] theorem hlc_serving : (x.serving t a pos k).hlc = x.hlc := rfl

end

theorem unowned_ne {st : BitVec 2} (unowned : st = 0 ∨ st = 1) : st ≠ 2 := by rcases unowned with rfl | rfl <;> decide

theorem length_bitsOf_ne_zero {v : BitVec 64} (h : v ≠ 0) : (bitsOf v).length ≠ 0 := by
  intro none_
  refine h (BitVec.eq_of_getLsbD_eq fun i hi => ?_)
  have unset := List.filter_eq_nil_iff.mp (List.length_eq_zero_iff.mp none_) i (List.mem_range.mpr hi)
  simpa using unset

/-- The directory state that a written entry takes is the one asked for, where a present agent has a bit (R21, R106). -/
theorem st_of_present {g v : BitVec 64} {n : Nat} (present : g.getLsbD n = true) (mine : v.getLsbD n = true) (st : BitVec 2) :
    (if v &&& g = 0 then 0 else st) = st := by
  refine if_neg fun zero => ?_
  have bit := congrArg (fun w : BitVec 64 => w.getLsbD n) zero
  simp [BitVec.getLsbD_and, present, mine] at bit

theorem getLsbD_agentBit_self {n : Nat} (small : n < 64) : (agentBit n).getLsbD n = true := by
  simp [getLsbD_agentBit, small]

/-- State `u` is state `s` with slice `p` become `y`, whose tracker `t`, on content `k`, awaits home data that a miss register
reads; where the cache knows no streams it is the only one (R118, R223). -/
def State.AwaitsData (s : State) (p : Nat) (y : Slice) (t : Nat) (k : Trk) (u : State) : Prop :=
  ∃ c : Hlc, s.Turns p ((y.setTrk t (some k.needing)).modHlc fun _ => c) u
    ∧ (y.hlc.streams = [] → c.mshrs = [y.firstMshr k.req.addr t])

section
variable {s u : State} {p t : Nat} {y : Slice} {k : Trk} (h : s.AwaitsData p y t k u)
include h

theorem State.AwaitsData.trk : (u.slice p).trk t = some k.needing := by
  obtain ⟨c, turns, -⟩ := h
  exact (turns.trk t).trans (trk_setTrk_self y t (some k.needing))

theorem State.AwaitsData.line (a : LineAddr) : (u.slice p).line a = y.line a := by
  obtain ⟨c, turns, -⟩ := h
  exact turns.line a

theorem State.AwaitsData.ent (q : Nat) : (u.slice p).ent q = y.ent q := by
  obtain ⟨c, turns, -⟩ := h
  exact turns.ent q

theorem State.AwaitsData.farQueue : (u.slice p).far.queue = y.far.queue := by
  obtain ⟨c, turns, -⟩ := h
  exact (congrArg (fun z : Slice => z.far.queue) turns.slice :)

theorem State.AwaitsData.dir (a : LineAddr) : (u.slice p).dir a = y.dir a := by
  obtain ⟨c, turns, -⟩ := h
  exact turns.dir a

theorem State.AwaitsData.mshrs (none_ : y.hlc.streams = []) : (u.slice p).hlc.mshrs = [y.firstMshr k.req.addr t] := by
  obtain ⟨c, turns, only⟩ := h
  rw [turns.hlc]
  exact only none_

theorem State.AwaitsData.outside : u.outsideSlices = s.outsideSlices := by
  obtain ⟨c, turns, -⟩ := h
  exact turns.outside

theorem State.AwaitsData.sentNothing (stop : y.stop = (s.slice p).stop) (own : y.local_ = (s.slice p).local_) :
    SentNothing s u p := by
  obtain ⟨c, turns, -⟩ := h
  exact turns.sentNothing stop own

theorem State.AwaitsData.sent {z : Slice} {m : Msg} (stop : y.stop = (z.sends p m).stop) (own : y.local_ = (z.sends p m).local_)
    (before : z.stop = (s.slice p).stop) (ownBefore : z.local_ = (s.slice p).local_) : Sent s u p m := by
  obtain ⟨c, turns, -⟩ := h
  exact turns.sent stop own before ownBefore

/-- A request that waits for home data leaves its line at rest. -/
theorem State.AwaitsData.settle {a : LineAddr} (mode : (y.line a).mode = 2) (served : (y.line a).serve = some t)
    (gather : k.phase = .gather) (victim : k.victim = none) (empty : k.have_ = false) : u.settle p a = u := by
  refine settle_waiting (k := k.needing) ?_ ?_ h.trk victim ⟨fun handling => ?_, fun _ => ⟨rfl, empty⟩⟩
  · rw [h.line, mode]
  · rw [h.line, served]
  · exact absurd (gather.symm.trans handling) (by decide)

end

section
variable {s u : State} {p t : Nat} {x : Slice} {k : Trk} (ready : x.Ready t k)
include ready

/-- The request is served, and its line then comes to rest. -/
theorem decideReq_ready (h : s.Turns p x u) (marked : u.broke p k = k.brk) {hit : Option Nat}
    (given : needsEntry k (x.entAt hit) hit = true → (x.giveEntry k).isSome = true)
    (unowned : (x.entAt hit).st = 0 ∨ (x.entAt hit).st = 1) :
    u.decideReq p t hit = ((u.servedAt p t k.req.addr hit).act p t k.req.addr).settle p k.req.addr
    ∧ s.Turns p (x.setLine k.req.addr { mode := 2, serve := some t, pos := hit }) (u.servedAt p t k.req.addr hit)
    ∧ ((u.servedAt p t k.req.addr hit).slice p).dir k.req.addr = x.entAt hit := by
  have entAt : (u.slice p).entAt hit = x.entAt hit := (congrArg (fun z : Slice => z.entAt hit) h.slice :)
  have gives : (u.slice p).giveEntry k = x.giveEntry k := giveEntry_of_besidesNotes h.slice k
  have served := h.modLine k.req.addr fun o => { o with mode := 2, serve := some t, pos := hit }
  rw [ready.closed] at served
  refine ⟨decideReq_serves ((h.trk t).trans ready.open_) marked ((h.line _).trans ready.closed) ?_ ?_, served, ?_⟩
  · rwa [entAt, gives]
  · rwa [entAt]
  · refine (served.dir k.req.addr).trans ?_
    rw [Slice.dir, line_setLine_self]
    cases hit <;> rfl

/-- The request keeps its tracker while its line is served. -/
theorem opened_of_ready (o : Olt) : (x.setLine k.req.addr o).trk t = some k := by
  rw [trk_setLine, ready.open_]

/-- The cache that holds and awaits nothing reads the line by a miss register. -/
theorem awaitsData_needData {v : State} {y : Slice} {j : Trk} (h : s.Turns p y v) (open_ : y.trk t = some j)
    (cache : y.hlc = x.hlc) : s.AwaitsData p y t j (v.needData p t) :=
  turns_needData h open_ (by rw [cache, ready.lines]) (by rw [cache, ready.mshrs]) (by rw [cache, ready.writes])

/-- The request is in service as its kind. -/
theorem turns_servedAs {hit : Option Nat} (served : s.Turns p (x.setLine k.req.addr { mode := 2, serve := some t, pos := hit })
    (u.servedAt p t k.req.addr hit)) (kind : ReqKind) (poison : Bool) :
    s.Turns p (x.serving t k.req.addr hit (k.servedAs kind poison))
      ((u.servedAt p t k.req.addr hit).modTrk p t (.servedAs kind poison)) :=
  served.modTrk (opened_of_ready ready _) _

/-- The line of a request in service has its position. -/
theorem turns_placed {v : State} {q : Nat} {hit : Option Nat} {kind : ReqKind} {poison : Bool} (place : x.Places t k hit q)
    (served : s.Turns p (x.serving t k.req.addr hit (k.servedAs kind poison)) v) :
    s.Turns p (x.serving t k.req.addr (some q) (k.servedAs kind poison)) (v.takeEntry p t k.req.addr) := by
  refine turns_takeEntry (o := { mode := 2, serve := some t, pos := hit }) served ready.resv ?_
  rcases place with found | ⟨none_, way, -, gives⟩
  · exact .inl found
  · refine .inr ⟨none_, ?_, way⟩
    rw [none_]
    exact gives kind poison

end

theorem given_of_places {x : Slice} {t q : Nat} {k : Trk} {hit : Option Nat} (place : x.Places t k hit q) :
    needsEntry k (x.entAt hit) hit = true → (x.giveEntry k).isSome = true := by
  intro needs
  rcases place with rfl | ⟨-, -, gives, -⟩
  · simp [needsEntry] at needs
  · exact gives

/-- Slice `x` with line `a` served for tracker `t` on content `k` and its directory entry written at position `q`, no bit for an
absent agent. -/
def Slice.granting (x : Slice) (g : BitVec 64) (t : Nat) (a : LineAddr) (q : Nat) (k : Trk) (st : BitVec 2) (vec : BitVec 64)
    (poison : Bool) : Slice :=
  (x.serving t a (some q) k).directed a q (if vec &&& g = 0 then 0 else st) (vec &&& g) poison

section
variable (x : Slice) (g : BitVec 64) (t : Nat) (a : LineAddr) (q : Nat) (k : Trk) (st : BitVec 2) (vec : BitVec 64)
  (poison : Bool)

@[simp] theorem trk_granting : (x.granting g t a q k st vec poison).trk t = some k := by
  rw [Slice.granting, trk_directed, trk_serving]
@[simp] theorem line_granting :
    (x.granting g t a q k st vec poison).line a = { mode := 2, serve := some t, pos := some q } := by
  rw [Slice.granting, line_directed, line_serving]
@[simp] theorem hlc_granting : (x.granting g t a q k st vec poison).hlc = x.hlc := hlc_directed ..
@[simp] theorem stop_granting : (x.granting g t a q k st vec poison).stop = x.stop := stop_directed ..
@[simp] theorem local_granting : (x.granting g t a q k st vec poison).local_ = x.local_ := local_directed ..
theorem farQueue_granting : (x.granting g t a q k st vec poison).far.queue = x.far.queue :=
  (congrArg (fun z : Slice => z.far.queue) (besidesEntries_directed (x.serving t a (some q) k) a q _ _ poison) :)
@[simp] theorem ent_granting : (x.granting g t a q k st vec poison).ent q
    = mkEnt a q (if vec &&& g = 0 then 0 else st) (vec &&& g) poison := ent_directed ..

end

/-- Slice `x` with the agents of `v` asked to give up line `a` for tracker `t` on content `k` (R75, R117). -/
def Slice.invalidating (x : Slice) (p t : Nat) (a : LineAddr) (k : Trk) (v : BitVec 64) : Slice :=
  ((x.sends p (x.vectorMsg t 0x23 a v)).setTrk t (some (k.invalidates v))).setLine a
    { x.line a with ackcnt := (bitsOf v).length }

section
variable (x : Slice) (p t : Nat) (a : LineAddr) (k : Trk) (v : BitVec 64)

@[simp] theorem trk_invalidating : (x.invalidating p t a k v).trk t = some (k.invalidates v) := by
  rw [Slice.invalidating, trk_setLine, trk_setTrk_self]
@[simp] theorem line_invalidating :
    (x.invalidating p t a k v).line a = { x.line a with ackcnt := (bitsOf v).length } := line_setLine_self ..
@[simp] theorem ent_invalidating (q : Nat) : (x.invalidating p t a k v).ent q = x.ent q := rfl

end

section
variable {s u : State} {p t : Nat} {x : Slice} {k : Trk} (h : s.Turns p x u) (ready : x.Ready t k)
  (marked : u.broke p k = k.brk) (plain : ∀ v : State, v.isStoreCond p k.req = false) {hit : Option Nat}
  (unowned : (x.entAt hit).st = 0 ∨ (x.entAt hit).st = 1)
include h ready marked plain unowned

section
variable {q : Nat} (place : x.Places t k hit q)
include place

/-- A read for sharing adds its bit and reads the line (Table 6.5). -/
theorem readShared_starts (kind : kindOn k (x.entAt hit) = .readShared) : s.AwaitsData p
    (x.granting s.glb.agents t k.req.addr q (k.servedAs .readShared (x.entAt hit).poison) 1
      ((x.entAt hit).vec ||| agentBit k.req.src.toNat) (x.entAt hit).poison)
    t (k.servedAs .readShared (x.entAt hit).poison) (u.decideReq p t hit) := by
  obtain ⟨decided, served, dir⟩ := decideReq_ready ready h marked (given_of_places place) unowned
  have acts := act_readShared ((served.trk t).trans (opened_of_ready ready _)) plain (a := k.req.addr)
    (by rw [dir]; exact unowned_ne unowned) (by rw [dir, kind])
  rw [dir] at acts
  have placed := turns_placed ready place (turns_servedAs ready served .readShared (x.entAt hit).poison)
  have written := placed.setDir (by rw [line_serving]) 1 ((x.entAt hit).vec ||| agentBit k.req.src.toNat) (x.entAt hit).poison
  have reads := awaitsData_needData ready written (trk_granting ..) (hlc_granting ..)
  rw [← acts] at reads
  rw [decided, reads.settle (by simp) (by simp) rfl ready.victim ready.empty]
  exact reads

section
variable (kind : kindOn k (x.entAt hit) = .readOwn)
include kind

/-- A read for ownership takes the entry over; its line is then served. -/
theorem readOwn_takes : ∃ v, s.Turns p (x.granting s.glb.agents t k.req.addr q (k.servedAs .readOwn (x.entAt hit).poison) 2
      (agentBit k.req.src.toNat) false) v
    ∧ u.decideReq p t hit = ((v.sendVector p t 0x23 k.req.addr
        ((x.entAt hit).vec &&& ~~~(agentBit k.req.src.toNat))).needData p t).settle p k.req.addr := by
  obtain ⟨decided, served, dir⟩ := decideReq_ready ready h marked (given_of_places place) unowned
  have acts := act_readOwn ((served.trk t).trans (opened_of_ready ready _)) plain (a := k.req.addr)
    (by rw [dir]; exact unowned_ne unowned) (by rw [dir, kind])
  rw [dir] at acts
  have placed := turns_placed ready place (turns_servedAs ready served .readOwn (x.entAt hit).poison)
  exact ⟨_, (placed.setDir (by rw [line_serving]) 2 (agentBit k.req.src.toNat) false).breakWatch k.req.addr, by
    rw [decided, acts]⟩

/-- A read for ownership without another sharer reads the line (Table 6.5). -/
theorem readOwn_starts (alone : (x.entAt hit).vec &&& ~~~(agentBit k.req.src.toNat) &&& s.glb.agents = 0) : s.AwaitsData p
    (x.granting s.glb.agents t k.req.addr q (k.servedAs .readOwn (x.entAt hit).poison) 2 (agentBit k.req.src.toNat) false)
    t (k.servedAs .readOwn (x.entAt hit).poison) (u.decideReq p t hit) := by
  obtain ⟨v, taken, decided⟩ := readOwn_takes h ready marked plain unowned place kind
  have reads := awaitsData_needData ready (taken.sendVector_none (t := t) alone 0x23 k.req.addr) (trk_granting ..)
    (hlc_granting ..)
  rw [decided, reads.settle (by simp) (by simp) rfl ready.victim ready.empty]
  exact reads

/-- A read for ownership with other sharers invalidates them, and reads the line (R117, Table 6.5). -/
theorem readOwn_invalidates {v : BitVec 64} (others : (x.entAt hit).vec &&& ~~~(agentBit k.req.src.toNat) &&& s.glb.agents = v)
    (some_ : v ≠ 0) : s.AwaitsData p
      ((x.granting s.glb.agents t k.req.addr q (k.servedAs .readOwn (x.entAt hit).poison) 2 (agentBit k.req.src.toNat)
        false).invalidating p t k.req.addr (k.servedAs .readOwn (x.entAt hit).poison) v)
      t ((k.servedAs .readOwn (x.entAt hit).poison).invalidates v) (u.decideReq p t hit) := by
  obtain ⟨w, taken, decided⟩ := readOwn_takes h ready marked plain unowned place kind
  have asked := taken.sendVector (trk_granting ..) (others ▸ some_) 0x23 k.req.addr
  rw [others] at asked
  have reads := awaitsData_needData ready asked (trk_invalidating ..) (hlc_granting ..)
  have waits := settle_awaiting (s := (w.sendVector p t 0x23 k.req.addr
    ((x.entAt hit).vec &&& ~~~(agentBit k.req.src.toNat))).needData p t) (p := p) (a := k.req.addr) (t := t)
    (by rw [reads.line]; simp [line_setLine_self]) (by rw [reads.line]; simp [line_setLine_self]) reads.trk
    (by rw [reads.line, line_setLine_self]; exact length_bitsOf_ne_zero some_)
  rw [decided, waits]
  exact reads

end

end

/-- A read without caching reads the line (Table 6.5). -/
theorem readNc_starts (kind : kindOn k (x.entAt hit) = .readNc) : s.AwaitsData p
    (x.serving t k.req.addr hit (k.servedAs .readNc (x.entAt hit).poison))
    t (k.servedAs .readNc (x.entAt hit).poison) (u.decideReq p t hit) := by
  obtain ⟨decided, served, dir⟩ := decideReq_ready ready h marked (by simp [needsEntry, kind]) unowned
  have acts := act_readNc ((served.trk t).trans (opened_of_ready ready _)) plain (a := k.req.addr)
    (by rw [dir]; exact unowned_ne unowned) (by rw [dir, kind])
  rw [dir] at acts
  have reads := awaitsData_needData ready ((turns_servedAs ready served .readNc (x.entAt hit).poison).setWatch k.req (x.entAt hit))
    (trk_serving ..) rfl
  rw [← acts] at reads
  rw [decided, reads.settle (by simp) (by simp) rfl ready.victim ready.empty]
  exact reads

/-- A partial write of a line without sharers reads the line (Table 6.5). -/
theorem writePartial_starts (kind : kindOn k (x.entAt hit) = .writePartial) (unshared : (x.entAt hit).st ≠ 1) : s.AwaitsData p
    (x.serving t k.req.addr hit (k.servedAs .writePartial (x.entAt hit).poison))
    t (k.servedAs .writePartial (x.entAt hit).poison) (u.decideReq p t hit) := by
  obtain ⟨decided, served, dir⟩ := decideReq_ready ready h marked (by simp [needsEntry, kind]) unowned
  have acts := act_writePartial ((served.trk t).trans (opened_of_ready ready _)) plain (a := k.req.addr)
    (by rw [dir]; exact unowned_ne unowned) (by rwa [dir]) (by rw [dir, kind])
  rw [dir] at acts
  have reads := awaitsData_needData ready ((turns_servedAs ready served .writePartial (x.entAt hit).poison).breakWatch k.req.addr)
    (trk_serving ..) rfl
  rw [← acts] at reads
  rw [decided, reads.settle (by simp) (by simp) rfl ready.victim ready.empty]
  exact reads

/-- A full write of a line without sharers is in service, ready to end. -/
theorem writeFull_starts (kind : kindOn k (x.entAt hit) = .writeFull) (unshared : (x.entAt hit).st ≠ 1) : ∃ v,
    s.Turns p (x.serving t k.req.addr hit (k.servedAs .writeFull (x.entAt hit).poison)) v
    ∧ u.decideReq p t hit = v.settle p k.req.addr := by
  obtain ⟨decided, served, dir⟩ := decideReq_ready ready h marked (by simp [needsEntry, kind]) unowned
  have acts := act_writeFull ((served.trk t).trans (opened_of_ready ready _)) plain (a := k.req.addr)
    (by rw [dir]; exact unowned_ne unowned) (by rwa [dir]) (by rw [dir, kind])
  rw [dir] at acts
  exact ⟨_, (turns_servedAs ready served .writeFull (x.entAt hit).poison).breakWatch k.req.addr, by rw [decided, acts]⟩

/-- An upgrade of a sharer takes the entry over; its line is then served. -/
theorem upgrade_takes (kind : kindOn k (x.entAt hit) = .upgrade) {q : Nat} (found : hit = some q) : ∃ v,
    s.Turns p ((x.granting s.glb.agents t k.req.addr q (k.servedAs .upgrade (x.entAt hit).poison) 2
      (agentBit k.req.src.toNat) false).setTrk t (some (k.servedAs .upgrade (x.entAt hit).poison).granted)) v
    ∧ u.decideReq p t hit = (v.sendVector p t 0x23 k.req.addr
        ((x.entAt hit).vec &&& ~~~(agentBit k.req.src.toNat))).settle p k.req.addr := by
  obtain ⟨decided, served, dir⟩ := decideReq_ready ready h marked (by simp [needsEntry, kind]) unowned
  have acts := act_upgrade ((served.trk t).trans (opened_of_ready ready _)) plain (a := k.req.addr) (by rw [dir, kind])
  rw [dir] at acts
  have written := (turns_servedAs ready served .upgrade (x.entAt hit).poison).setDir (q := q) (by rw [line_serving, found]) 2
    (agentBit k.req.src.toNat) false
  rw [found] at written acts decided ⊢
  exact ⟨_, (written.breakWatch k.req.addr).modTrk (trk_granting ..) Trk.granted, by rw [decided, acts]⟩

/-- A far operation waits for its service start (R201). -/
theorem far_starts {kind : ReqKind} (far : kind = .farAtomic ∨ kind = .farProgram) (is : kindOn k (x.entAt hit) = kind) :
    s.Turns p ((x.serving t k.req.addr hit (k.servedAs kind (x.entAt hit).poison)).setTrk t
      (some (k.servedAs kind (x.entAt hit).poison).farStarts)) (u.decideReq p t hit) := by
  have noEntry : needsEntry k (x.entAt hit) hit = false := by rcases far with rfl | rfl <;> simp [needsEntry, is]
  obtain ⟨decided, served, dir⟩ := decideReq_ready ready h marked (by simp [noEntry]) unowned
  have acts := act_far ((served.trk t).trans (opened_of_ready ready _)) plain (a := k.req.addr) far (by rw [dir, is])
  rw [dir] at acts
  have starts := (turns_servedAs ready served kind (x.entAt hit).poison).modTrk (trk_serving ..) Trk.farStarts
  rw [← acts] at starts
  have waits := settle_waiting (a := k.req.addr) (k := (k.servedAs kind (x.entAt hit).poison).farStarts)
    (by rw [starts.line, line_setTrk, line_serving]) (by rw [starts.line, line_setTrk, line_serving])
    ((starts.trk t).trans (trk_setTrk_self ..)) ready.victim ⟨by simp [Trk.farStarts], by simp [Trk.farStarts]⟩
  rw [decided, waits]
  exact starts

end

end Sys2Proof.Machine
end

section
/-! SUPPORT. A request at a slice that holds nothing (R109, R180, R223). -/

namespace Sys2Proof.Machine

open Sys2Proof

/-! A row's end -/

theorem Ends.mono {c : Instr} {s : State} {P Q : State → Prop} (h : Ends c s P) (f : ∀ t, P t → Q t) : Ends c s Q := by
  obtain ⟨t, run, holds⟩ := h
  exact ⟨t, run, f t holds⟩

theorem Ends.onlySlices {c : Instr} {s : State} {P : State → Prop} (h : Ends c s P) (slice : sliceCommand c = true) :
    Ends c s fun t => P t ∧ OnlySlices s t := by
  obtain ⟨t, run, holds⟩ := h
  exact ⟨t, run, holds, (onlySlices_iff s t).mpr (keepsRest_of_sliceCommand c slice s t run)⟩

theorem ends_request {c : Instr} {s : State} {p t : Nat} {m : Msg} {go : State → Nat → State} {P : State → Prop}
    (row : exec c s = .next (s.request p m go)) (accepted : s.accepts p m) (free : (s.slice p).freeTrk = some t)
    (h : ∀ u seq brk brkAt, s.Admits u p t (.entered m s.time seq brk brkAt) → P (go u t)) : Ends c s P := by
  obtain ⟨u, seq, brk, brkAt, goes, admits⟩ := request_admits accepted free go
  exact ⟨go u t, row.trans (congrArg _ goes), h u seq brk brkAt admits⟩

theorem arrive_of_lookup {u v : State} {p t : Nat} {k : Trk} {hit : Option Nat} (open_ : (u.slice p).trk t = some k)
    (look : u.lookup p k.req.addr = (v, hit)) : u.arrive p t = v.decideReq p t hit := by
  simp only [State.arrive, open_, look]

theorem trk_opens_self (x : Slice) (t : Nat) (k : Trk) : (x.opens t k).trk t = some k := trk_setTrk_self x t (some k)

theorem isStoreCond_of_opc {m : Msg} (h : m.opc ≠ 5) (p : Nat) (s : State) : s.isStoreCond p m = false := by
  rw [State.isStoreCond, beq_eq_false_iff_ne.mpr h, Bool.false_and]

theorem isStoreCond_of_src {m : Msg} {p : Nat} (h : m.src ≠ BitVec.ofNat 10 (320 + p)) (s : State) :
    s.isStoreCond p m = false := by
  rw [State.isStoreCond, State.ownKind, beq_eq_false_iff_ne.mpr h, Bool.false_and, Bool.false_and, Bool.or_false,
    Bool.and_false]

/-! A slice that holds nothing -/

theorem mem_setTrk {x : Slice} {t : Nat} {k : Trk} {e : Nat × Option Trk} (h : e ∈ (x.setTrk t (some k)).trks) :
    e = (t, some k) ∨ e ∈ x.trks := by
  rcases NMap.mem_insert (show e ∈ NMap.insert (NMap.erase x.trks t) t (some k) from h) with new | old
  · exact .inl new
  · exact .inr (NMap.mem_erase old)

theorem mem_setLine {x : Slice} {a : LineAddr} {o : Olt} {e : Nat × Olt} (h : e ∈ (x.setLine a o).olt) :
    e.2 = o ∨ e ∈ x.olt := by
  simp only [Slice.setLine, NMap.set] at h
  split at h
  · exact .inr (NMap.mem_erase h)
  · rcases NMap.mem_insert h with rfl | old
    · exact .inl rfl
    · exact .inr (NMap.mem_erase old)

theorem freeTrk_of_no_trks {x : Slice} (none_ : x.trks = []) : x.freeTrk = some 0 := by
  have free (t : Nat) : x.trk t = none := by
    rw [Slice.trk, none_]
    rfl
  rw [Slice.freeTrk, List.range_succ_eq_map, List.find?_cons_of_pos (by simp [free])]

/-- In an empty filter a line is given the first way of its set (R180). -/
theorem giveEntry_of_empty {x : Slice} {k : Trk} (blocks : x.sfl.blocks = []) (wait : x.sfl.wait = [])
    (olt : ∀ e ∈ x.olt, e.2.pos = none) (trks : ∀ e ∈ x.trks, ∀ j, e.2 = some j → j.resv = none) (resv : k.resv = none) :
    x.giveEntry k = some (sfSetOf k.req.addr).toNat := by
  have unpinned (q : Nat) : x.pinned q = false := by
    rw [Slice.pinned, Bool.or_eq_false_iff, List.any_eq_false, List.any_eq_false]
    refine ⟨fun e he => by simp [olt e he], fun e he => ?_⟩
    obtain ⟨⟨t, j⟩, listed, is⟩ := List.mem_filterMap.mp he
    obtain ⟨i, rfl, rfl⟩ := Option.map_eq_some_iff.mp is
    simp [trks _ listed i rfl]
  have way : isOvf (sfSetOf k.req.addr).toNat = false := by
    have small := (sfSetOf k.req.addr).isLt
    simp only [isOvf, decide_eq_false_iff_not]
    omega
  have first : x.allocate (sfSetOf k.req.addr).toNat = .free (sfSetOf k.req.addr).toNat := by
    simp [Slice.allocate, setPositions, List.range_succ_eq_map, ent_of_no_blocks blocks, SfEnt.allocated, unpinned, wayPos]
  have waits : x.sfl.wait.get noNats (sfSetOf k.req.addr).toNat = [] := by
    rw [wait]
    rfl
  simp [Slice.giveEntry, resv, waits, first, way]

section
variable {s : State} {p : Nat} {m : Msg} {k : Trk} (fresh : (s.slice p).fresh)
include fresh

theorem freeTrk_of_fresh : (s.slice p).freeTrk = some 0 := by
  obtain ⟨trks, -⟩ := fresh
  exact freeTrk_of_no_trks trks

theorem sentNothing_takeMsg_of_fresh : SentNothing s (s.takeMsg p m) p := by
  obtain ⟨-, -, -, -, -, -, -, -, -, -, -, -, -, -, -, -, -, -, own, -⟩ := fresh
  exact sentNothing_takeMsg own m

end

/-- Where a request is alone at a slice with an empty filter, its line is given the first way of its set (R180). -/
theorem places_of_alone {x : Slice} {k : Trk} (blocks : x.sfl.blocks = []) (wait : x.sfl.wait = []) (olt : x.olt = [])
    (alone : x.trks = [(0, some k)]) (resv : k.resv = none) : x.Places 0 k none (sfSetOf k.req.addr).toNat := by
  have opened : ∀ e ∈ x.trks, ∀ j, e.2 = some j → j.resv = none := by
    intro e he j is
    rw [alone, List.mem_singleton] at he
    rw [he, Option.some.injEq] at is
    rwa [← is]
  have closed : ∀ e ∈ x.olt, e.2.pos = none := by simp [olt]
  have small := (sfSetOf k.req.addr).isLt
  refine .inr ⟨rfl, by simp only [isOvf, decide_eq_false_iff_not]; omega, ?_, fun kind poison => ?_⟩
  · rw [giveEntry_of_empty blocks wait closed opened resv, Option.isSome_some]
  · refine giveEntry_of_empty blocks wait (fun e he => ?_) (fun e he j is => ?_) resv
    · rcases mem_setLine (show e ∈ (x.setLine k.req.addr { mode := 2, serve := some 0, pos := none }).olt from he) with new | old
      · rw [new]
      · exact closed e old
    · rcases mem_setTrk he with rfl | old
      · cases is
        exact resv
      · exact opened e old j is

end Sys2Proof.Machine
end

section
/-! SUPPORT. The rows of reads and partial writes at a slice that holds nothing (R106, R118, R119, R180, R223). -/

namespace Sys2Proof.Machine

open Sys2Proof

/-- Tracker 0 of slice `p` holds request `m`, which awaits home data that the only miss register reads; its line is served, with
directory state `st` and presence bits `vec`, and nothing is sent (R118, R223). -/
def ReadsHome (s t : State) (p : Nat) (m : Msg) (st : BitVec 2) (vec : BitVec 64) : Prop :=
  (∃ k, (t.slice p).trk 0 = some k ∧ k.req = m ∧ k.phase = .gather ∧ k.needs = true ∧ k.have_ = false ∧ k.awaits = 0)
  ∧ ((t.slice p).line m.addr).mode = 2 ∧ ((t.slice p).line m.addr).serve = some 0
  ∧ (∃ r, (t.slice p).hlc.mshrs = [r] ∧ r.addr = m.addr ∧ r.demand = true ∧ r.waiters = [.tracker 0] ∧ r.sent = false)
  ∧ ((t.slice p).dir m.addr).st = st ∧ ((t.slice p).dir m.addr).vec = vec ∧ SentNothing s t p

/-- The request of `k`, taken in state `s` into tracker `t` of slice `p`, is to be decided in state `u`, where the slice has become
`x`: its line is closed, and nothing is sent yet. -/
structure State.Arrived (s u : State) (p t : Nat) (x : Slice) (k : Trk) : Prop where
  turns : (s.takeMsg p k.req).Turns p x u
  ready : x.Ready t k
  marked : u.broke p k = k.brk
  cache : x.hlc = (s.slice p).hlc
  lslice : x.lslice = (s.slice p).lslice
  stop : x.stop = ((s.takeMsg p k.req).slice p).stop
  own : x.local_ = ((s.takeMsg p k.req).slice p).local_

/-- The request of `k` has arrived at slice `p`, which held nothing in state `s` and is now `x`. -/
structure State.ArrivedAlone (s u : State) (p : Nat) (x : Slice) (k : Trk) : Prop extends s.Arrived u p 0 x k where
  filter : x.sfl = (s.slice p).sfl
  far : x.far = (s.slice p).far
  lines : x.olt = []
  alone : x.trks = [(0, some k)]
  unpinned : k.pin = none

section
variable {s : State} {p : Fin 132} {m : Msg} (fresh : (s.slice p).fresh)
include fresh

/-- A request at a slice that holds nothing arrives there alone (R92). -/
theorem arrivedAlone_of_admits {u : State} {seq brkAt : Nat} {brk : Bool}
    (admits : s.Admits u p 0 (.entered m s.time seq brk brkAt)) :
    s.ArrivedAlone u p (((s.takeMsg p m).slice p).opens 0 (.entered m s.time seq brk brkAt)) (.entered m s.time seq brk brkAt) := by
  obtain ⟨trks, olt, -, -, -, -, lines, mshrs, writes, -⟩ := fresh
  have line : ((s.takeMsg p m).slice p).line m.addr = {} := by
    rw [Slice.line, olt_takeMsg, olt]
    rfl
  have only : (((s.takeMsg p m).slice p).opens 0 (.entered m s.time seq brk brkAt)).trks
      = [(0, some (.entered m s.time seq brk brkAt))] := by
    have set := congrArg (fun l => NMap.set noTrk l 0 (some (.entered m s.time seq brk brkAt))) ((trks_takeMsg s p m).trans trks)
    exact set
  have cache := hlc_takeMsg s p m
  exact ⟨⟨admits.turns, ⟨trk_opens_self ((s.takeMsg p m).slice p) 0 _, line, rfl, rfl, rfl, rfl,
    (congrArg Hlc.lines cache).trans lines, (congrArg Hlc.mshrs cache).trans mshrs,
    (congrArg Hlc.writes cache).trans writes⟩,
    admits.marked, cache, lslice_takeMsg .., rfl, rfl⟩, sfl_takeMsg .., by rw [slice_takeMsg]; rfl, (olt_takeMsg ..).trans olt, only, rfl⟩

section
variable {u : State} {x : Slice} {k : Trk} (arrived : s.ArrivedAlone u p x k)
include arrived

theorem places_of_arrivedAlone : x.Places 0 k none (sfSetOf k.req.addr).toNat := by
  obtain ⟨-, -, -, blocks, wait, -⟩ := fresh
  exact places_of_alone (by rw [arrived.filter, blocks]) (by rw [arrived.filter, wait]) arrived.lines arrived.alone
    arrived.ready.resv

/-- Its lookup finds nothing (R109, R177). -/
theorem lookup_of_arrivedAlone (a : LineAddr) : u.lookup p a = (u, none) := by
  obtain ⟨-, -, -, blocks, -⟩ := fresh
  rw [lookup_of_no_blocks (by rw [sfl_of_besidesNotes arrived.turns.slice, arrived.filter, blocks]),
    hTagScan_of_no_lines (by rw [arrived.turns.hlc, arrived.ready.lines])]

end

/-- A request row at a slice that holds nothing goes on with its request arrived alone in tracker 0. -/
theorem ends_of_fresh {c : Instr} {go : State → Nat → State} {P : State → Prop} (row : exec c s = .next (s.request p m go))
    (accepted : s.accepts p m) (h : ∀ u x k, s.ArrivedAlone u p x k → k.req = m → k.kind = kindOf m.opc.toNat → P (go u 0)) :
    Ends c s P :=
  ends_request row accepted (freeTrk_of_fresh fresh) fun u _ _ _ admits =>
    h u _ _ (arrivedAlone_of_admits fresh admits) rfl rfl

/-- A request row at a slice that holds nothing goes on as its line decides. -/
theorem ends_arrive_of_fresh {c : Instr} {P : State → Prop} (row : exec c s = .next (s.request p m fun s t => s.arrive p t))
    (accepted : s.accepts p m) (h : ∀ u x k, s.ArrivedAlone u p x k → k.req = m → k.kind = kindOf m.opc.toNat →
      P (u.decideReq p 0 none)) : Ends c s P := by
  refine ends_of_fresh fresh row accepted fun u x k arrived req kind => ?_
  have open_ := (arrived.turns.trk 0).trans arrived.ready.open_
  rw [arrive_of_lookup open_ (lookup_of_arrivedAlone fresh arrived k.req.addr)]
  exact h u x k arrived req kind

theorem readsHome_of_awaitsData {y : Slice} {j : Trk} {u : State} {pos : Option Nat}
    (h : (s.takeMsg p j.req).AwaitsData p y 0 j u) (waits : j.phase = .gather ∧ j.have_ = false ∧ j.awaits = 0)
    (line : y.line j.req.addr = { mode := 2, serve := some 0, pos }) (cache : y.hlc = (s.slice p).hlc)
    (stop : y.stop = ((s.takeMsg p j.req).slice p).stop) (own : y.local_ = ((s.takeMsg p j.req).slice p).local_) :
    ReadsHome s u p j.req (y.entAt pos).st (y.entAt pos).vec := by
  obtain ⟨gather, empty, none_⟩ := waits
  have sent := (sentNothing_takeMsg_of_fresh fresh).trans (h.sentNothing stop own)
  obtain ⟨-, -, -, -, -, -, -, -, -, -, -, -, streams, -⟩ := fresh
  have dir : (u.slice p).dir j.req.addr = y.entAt pos := by rw [h.dir, Slice.dir, line]
  exact ⟨⟨j.needing, h.trk, rfl, gather, rfl, empty, none_⟩, by rw [h.line, line], by rw [h.line, line],
    ⟨_, h.mshrs (by rw [cache, streams]), rfl, rfl, rfl, rfl⟩, by rw [dir], by rw [dir], sent⟩

/-- A request that is granted the line's only presence bit reads home data. -/
theorem readsHome_granted {u v : State} {x : Slice} {k : Trk} {q : Nat} {kind : ReqKind} {onPoison poison : Bool} {st : BitVec 2}
    {vec : BitVec 64} (arrived : s.Arrived u p 0 x k) (bits : vec = agentBit k.req.src.toNat)
    (present : k.req.src.toNat < 64 ∧ s.glb.agents.getLsbD k.req.src.toNat = true)
    (h : (s.takeMsg p k.req).AwaitsData p
      (x.granting s.glb.agents 0 k.req.addr q (k.servedAs kind onPoison) st vec poison) 0 (k.servedAs kind onPoison) v) :
    ReadsHome s v p k.req st (agentBit k.req.src.toNat) := by
  subst bits
  obtain ⟨small, agent⟩ := present
  have home := readsHome_of_awaitsData (j := k.servedAs kind onPoison) fresh h ⟨rfl, arrived.ready.empty, rfl⟩ (line_granting ..)
    ((hlc_granting ..).trans arrived.cache) ((stop_granting ..).trans arrived.stop) ((local_granting ..).trans arrived.own)
  rwa [Slice.entAt, ent_granting, st_of_present agent (getLsbD_agentBit_self small), agentBit_and_of_present agent] at home

/-- A request in service for a line without an entry reads home data. -/
theorem readsHome_uncached {u v : State} {x : Slice} {k : Trk} {kind : ReqKind} {onPoison : Bool} (arrived : s.Arrived u p 0 x k)
    (h : (s.takeMsg p k.req).AwaitsData p (x.serving 0 k.req.addr none (k.servedAs kind onPoison)) 0
      (k.servedAs kind onPoison) v) : ReadsHome s v p k.req 0 0 :=
  readsHome_of_awaitsData (pos := none) (j := k.servedAs kind onPoison) fresh h ⟨rfl, arrived.ready.empty, rfl⟩
    (line_serving ..) arrived.cache arrived.stop arrived.own

section
variable (present : m.src.toNat < 64 ∧ s.glb.agents.getLsbD m.src.toNat = true)
include present

theorem readShared_fresh (accepted : s.accepts p (asOpc m 0x00)) :
    Ends (.readShared p m) s fun t => ReadsHome s t p (asOpc m 0x00) 1 (agentBit m.src.toNat) := by
  refine ends_arrive_of_fresh fresh rfl accepted fun u x k arrived req kind_ => ?_
  have kind : kindOn k (x.entAt none) = .readShared := by simp [kindOn, kind_, asOpc, kindOf]
  have starts := readShared_starts arrived.turns arrived.ready arrived.marked
    (fun v => isStoreCond_of_opc (by simp [req, asOpc]) p v) (.inl rfl)
    (places_of_arrivedAlone fresh arrived) kind
  have home := readsHome_granted fresh arrived.toArrived BitVec.zero_or (by rwa [req]) starts
  rwa [req] at home

/-- A read for ownership, or an upgrade converted into one (R116). -/
theorem readOwn_fresh {c : Instr} {opc : Nat} (row : exec c s = .next (s.request p (asOpc m opc) fun s t => s.arrive p t))
    (is : opc = 1 ∨ opc = 2) (accepted : s.accepts p (asOpc m opc)) :
    Ends c s fun t => ReadsHome s t p (asOpc m opc) 2 (agentBit m.src.toNat) := by
  refine ends_arrive_of_fresh fresh row accepted fun u x k arrived req kind_ => ?_
  have kind : kindOn k (x.entAt none) = .readOwn := by
    rcases is with rfl | rfl <;> simp [kindOn, kind_, asOpc, kindOf, Slice.entAt]
  have plain : k.req.opc ≠ 5 := by rcases is with rfl | rfl <;> simp [req, asOpc]
  have starts := readOwn_starts arrived.turns arrived.ready arrived.marked (fun v => isStoreCond_of_opc plain p v) (.inl rfl)
    (places_of_arrivedAlone fresh arrived) kind (by simp [Slice.entAt])
  have home := readsHome_granted fresh arrived.toArrived rfl (by rwa [req]) starts
  rwa [req] at home

end

theorem readNc_fresh (accepted : s.accepts p (asOpc m 0x03)) :
    Ends (.readNc p m) s fun t => ReadsHome s t p (asOpc m 0x03) 0 0 := by
  refine ends_arrive_of_fresh fresh rfl accepted fun u x k arrived req kind_ => ?_
  have kind : kindOn k (x.entAt none) = .readNc := by simp [kindOn, kind_, asOpc, kindOf]
  have home := readsHome_uncached fresh arrived.toArrived (readNc_starts arrived.turns arrived.ready arrived.marked
    (fun v => isStoreCond_of_opc (by simp [req, asOpc]) p v) (.inl rfl) kind)
  rwa [req] at home

theorem writePartial_fresh (accepted : s.accepts p (asOpc m 0x05)) (other : m.src ≠ BitVec.ofNat 10 (320 + p.val)) :
    Ends (.writeNcPartial p m) s fun t => ReadsHome s t p (asOpc m 0x05) 0 0 := by
  refine ends_arrive_of_fresh fresh rfl accepted fun u x k arrived req kind_ => ?_
  have kind : kindOn k (x.entAt none) = .writePartial := by simp [kindOn, kind_, asOpc, kindOf]
  have home := readsHome_uncached fresh arrived.toArrived (writePartial_starts arrived.turns arrived.ready arrived.marked
    (fun v => isStoreCond_of_src (by rw [req]; exact other) v) (.inl rfl) kind (by simp [Slice.entAt]))
  rwa [req] at home

end

end Sys2Proof.Machine
end

section
/-! SUPPORT. Atomic requests and far operations at a slice that holds nothing (R197, R200 to R202). -/

namespace Sys2Proof.Machine

open Sys2Proof

/-! The far queue (R197, R200, R201) -/

theorem State.Turns.predict {s u : State} {p : Nat} {x : Slice} (h : s.Turns p x u) (m : Msg) :
    s.Turns p x (u.predict p m) := h.modSlice h.slice

/-- Slice `x` with tracker `t` at the tail of the far queue. -/
def Slice.queuesFar (x : Slice) (t : Nat) : Slice := { x with far := { x.far with queue := x.far.queue ++ [t] } }

/-- Slice `x` with tracker `t` in no far-operation queue. -/
def Slice.leavesFar (x : Slice) (t : Nat) : Slice := { x with far := { x.far with
  queue := x.far.queue.filter (· != t), alu := x.far.alu.filter (· != t), prog := x.far.prog.filter (· != t) } }

/-- What the queues of far operations do with a request leaves how it arrived (R201). -/
theorem State.Arrived.queuesFar {s u : State} {p t : Nat} {x : Slice} {k : Trk} (h : s.Arrived u p t x k) :
    s.Arrived (u.modSlice p fun x => x.queuesFar t) p t (x.queuesFar t) k := by
  have turns := h.turns.modSlice (f := fun x => x.queuesFar t) (y := x.queuesFar t)
    (congrArg (fun z : Slice => z.queuesFar t) h.turns.slice :)
  refine ⟨turns, ⟨h.ready.open_, h.ready.closed, h.ready.resv, h.ready.victim, h.ready.needs, h.ready.empty,
    h.ready.lines, h.ready.mshrs, h.ready.writes⟩, ?_, h.cache, h.lslice, h.stop, h.own⟩
  rw [broke_of_turns turns, ← h.marked, broke_of_turns h.turns]
  rfl

/-- A prediction leaves how a request arrived. -/
theorem State.Arrived.predict {s u : State} {p t : Nat} {x : Slice} {k : Trk} (h : s.Arrived u p t x k) (m : Msg) :
    s.Arrived (u.predict p m) p t x k := by
  have turns := h.turns.predict m
  refine ⟨turns, h.ready, ?_, h.cache, h.lslice, h.stop, h.own⟩
  rw [broke_of_turns turns, ← h.marked, broke_of_turns h.turns]

theorem State.ArrivedAlone.predict {s u : State} {p : Nat} {x : Slice} {k : Trk} (h : s.ArrivedAlone u p x k) (m : Msg) :
    s.ArrivedAlone (u.predict p m) p x k := ⟨h.toArrived.predict m, h.filter, h.far, h.lines, h.alone, h.unpinned⟩

/-- An atomic request that its sender or its HINT makes far is resolved far (R74, R197). -/
theorem resolvesFar_of_told {m : Msg} (told : isCA m.src.toNat = false ∨ m.hint = 2) (x : Slice) : x.resolvesFar m = true := by
  rcases told with agent | hint
  · simp [Slice.resolvesFar, agent]
  · simp [Slice.resolvesFar, hint]

theorem resolvesFar_of_near {m : Msg} (agent : isCA m.src.toNat = true) (hint : m.hint = 1) (x : Slice) :
    x.resolvesFar m = false := by
  simp [Slice.resolvesFar, agent, hint]

theorem slotValid_of_arrived {s u : State} {p t : Nat} {x : Slice} {k : Trk} (h : s.Arrived u p t x k)
    (far : x.far = (s.slice p).far) (n : Nat) : u.slotValid p n = s.slotValid p n := by
  have loader : u.loader = s.loader := (congrArg (fun z : State => z.loader) h.turns.outside :)
  have eng : u.eng p = s.eng p := h.turns.eng p
  have done : (u.slice p).far.copyDone = x.far.copyDone := (congrArg (fun z : Slice => z.far.copyDone) h.turns.slice :)
  have bad : (u.slice p).far.slotBad = x.far.slotBad := (congrArg (fun z : Slice => z.far.slotBad) h.turns.slice :)
  rw [State.slotValid, State.slotValid, State.masterValid, State.masterValid, State.engineServes, State.engineServes, loader,
    eng, done, bad, far]

/-- A cache with every way on is available to far operations (R197). -/
theorem available_of_all_ways {h : Hlc} (on : h.state = 1) (ways : h.wayEn = 0xFFFF) : h.unavailable = false := by
  have each : (List.range 16).filter h.wayOn = List.range 16 := by
    refine List.filter_eq_self.mpr fun w hw => ?_
    have small := List.mem_range.mp hw
    simp only [Hlc.wayOn, ways]
    interval_cases w <;> decide
  simp [Hlc.unavailable, Hlc.waysOn, each, on]

/-- A request that arrived alone is alone with another kind too. -/
theorem State.ArrivedAlone.asKind {s u : State} {p : Nat} {x : Slice} {k : Trk} (h : s.ArrivedAlone u p x k) (kind : ReqKind) :
    s.ArrivedAlone (u.modTrk p 0 fun k => { k with kind }) p (x.setTrk 0 (some { k with kind })) { k with kind } := by
  have turns := h.turns.modTrk h.ready.open_ fun k => { k with kind }
  refine ⟨⟨turns, ⟨trk_setTrk_self .., h.ready.closed, h.ready.resv, h.ready.victim, h.ready.needs, h.ready.empty,
    h.ready.lines, h.ready.mshrs, h.ready.writes⟩, ?_, h.cache, h.lslice, h.stop, h.own⟩, h.filter, h.far, h.lines, ?_, h.unpinned⟩
  · rw [broke_of_turns turns]
    exact (broke_of_turns h.turns k).symm.trans h.marked
  · rw [Slice.setTrk, h.alone]
    rfl

section
variable {s : State} {p : Fin 132} {m : Msg} (fresh : (s.slice p).fresh)
include fresh

section
variable {u : State} {x : Slice} {k : Trk} (arrived : s.ArrivedAlone u p x k)
include arrived

theorem entOfLine_of_fresh : (u.slice p).entOfLine k.req.addr = {} := by
  obtain ⟨-, -, -, blocks, -⟩ := fresh
  have line : (u.slice p).line k.req.addr = {} := (arrived.turns.line _).trans arrived.ready.closed
  have none_ : (u.slice p).sfHits k.req.addr = [] :=
    sfHits_of_no_blocks (by rw [sfl_of_besidesNotes arrived.turns.slice, arrived.filter, blocks]) _
  simp [Slice.entOfLine, line, none_, Slice.entAt]

/-- A far operation that no check declines waits in the far queue for its service start (R200, R201, Table 10.1). -/
theorem farAdmit_of_fresh (valid : k.req.opc = 7 → s.slotValid p k.req.aux.toNat = true) :
    u.farAdmit p 0 k.req none = (u.modSlice p fun x => x.queuesFar 0).decideReq p 0 none := by
  have entry := entOfLine_of_fresh fresh arrived
  have slot := slotValid_of_arrived arrived.toArrived arrived.far k.req.aux.toNat
  have queue : (u.slice p).far.queue = (s.slice p).far.queue := by
    rw [farQueue_of_besidesNotes arrived.turns.slice, arrived.far]
  have cache : (u.slice p).hlc = (s.slice p).hlc := arrived.turns.hlc.trans arrived.cache
  obtain ⟨-, -, -, -, -, -, -, -, -, -, -, -, -, on, ways, -, empty, -⟩ := fresh
  have check : u.farCheck p k.req {} = none := by
    have open_ : ¬ (k.req.opc = 7 ∧ u.slotValid p k.req.aux.toNat = false) := fun ⟨opc, invalid⟩ => by
      simp [slot, valid opc] at invalid
    rw [State.farCheck, cache, available_of_all_ways on ways, if_neg Bool.false_ne_true, if_neg open_]
    rfl
  rw [State.farAdmit]
  simp only [entry, check, queue, empty]
  rfl

/-- A far operation of a slot that is not valid is answered with `FarDecline` of STAT 2 (R200, Table 10.1). -/
theorem farAdmit_of_invalid (opc : k.req.opc = 7) (invalid : s.slotValid p k.req.aux.toNat = false) :
    (s.takeMsg p k.req).Turns p (((x.leavesFar 0).sends p { x.endMsg 0x30 k with stat := 2 }).closes 0 k)
      (u.farAdmit p 0 k.req none) := by
  have entry := entOfLine_of_fresh fresh arrived
  have slot := slotValid_of_arrived arrived.toArrived arrived.far k.req.aux.toNat
  have cache : (u.slice p).hlc = (s.slice p).hlc := arrived.turns.hlc.trans arrived.cache
  obtain ⟨-, -, -, -, -, -, -, -, -, maint, -, -, -, on, ways, -⟩ := fresh
  have check : u.farCheck p k.req {} = some 2 := by
    rw [State.farCheck, cache, available_of_all_ways on ways, if_neg Bool.false_ne_true, if_pos ⟨opc, slot.trans invalid⟩]
  have left : (s.takeMsg p k.req).Turns p (x.leavesFar 0) ((u.count p .dSlot).farLeave p 0) :=
    (arrived.turns.count .dSlot).modSlice (f := fun x => x.leavesFar 0)
      (congrArg (fun z : Slice => z.leavesFar 0) (arrived.turns.count .dSlot).slice :)
  have answered := left.endWith arrived.ready.open_ 0x30 fun m => { m with stat := 2 }
  have empty := congrArg Hlc.maint answered.hlc
  rw [hlc_closes, hlc_sends, show (x.leavesFar 0).hlc = (s.slice p).hlc from arrived.cache, maint] at empty
  have noMaint (v : State) (h : (v.slice p).hlc.maint = []) : v.maintRetry p = v := by
    rw [State.maintRetry, h]
    rfl
  have declined : u.farAdmit p 0 k.req none = ((u.count p .dSlot).farLeave p 0).endWith p 0 0x30 fun m => { m with stat := 2 } := by
    rw [State.farAdmit]
    simp only [entry, check]
    exact noMaint _ empty
  rw [declined]
  exact answered

/-- A far request that waits for its service start: it is the only one of the far queue, and nothing is sent. -/
theorem farStarts_of_fresh {kind : ReqKind} (plain : k.req.opc ≠ 5) (far : kind = .farAtomic ∨ kind = .farProgram)
    (is : k.kind = kind) :
    let t := (u.modSlice p fun x => x.queuesFar 0).decideReq p 0 none
    (t.slice p).far.queue = [0] ∧ (∃ k, (t.slice p).trk 0 = some k ∧ k.phase = .farStart ∧ k.kind = kind)
      ∧ SentNothing s t p := by
  have waits := arrived.toArrived.queuesFar
  have same : kindOn k ((x.queuesFar 0).entAt none) = kind := by rcases far with rfl | rfl <;> simp [kindOn, is]
  have starts := far_starts (hit := none) waits.turns waits.ready waits.marked (isStoreCond_of_opc plain p) (.inl rfl) far same
  have sent := (sentNothing_takeMsg_of_fresh fresh).trans (starts.sentNothing arrived.stop arrived.own)
  obtain ⟨-, -, -, -, -, -, -, -, -, -, -, -, -, -, -, -, empty, -⟩ := fresh
  refine ⟨(farQueue_of_besidesNotes starts.slice).trans ?_, ⟨_, (starts.trk 0).trans (trk_setTrk_self ..), rfl, rfl⟩, sent⟩
  exact congrArg (· ++ [0]) ((congrArg (·.queue) arrived.far).trans empty)

end

theorem atomicReq_fresh (accepted : s.accepts p (asOpc m 0x06)) (told : isCA m.src.toNat = false ∨ m.hint = 2) :
    Ends (.atomicReq p m) s fun t => (t.slice p).far.queue = [0]
      ∧ (∃ k, (t.slice p).trk 0 = some k ∧ k.phase = .farStart ∧ k.kind = .farAtomic) ∧ SentNothing s t p := by
  refine ends_of_fresh fresh rfl accepted fun u x k arrived req kind => ?_
  have auto : (isCA (asOpc m 0x06).src.toNat && (asOpc m 0x06).hint == 0) = false := by
    rcases told with agent | hint <;> simp [asOpc, *]
  have predicted := arrived.predict (asOpc m 0x06)
  have queued := farAdmit_of_fresh fresh predicted (by simp [req, asOpc])
  rw [req] at queued
  simp only [lookup_of_arrivedAlone fresh arrived, resolvesFar_of_told (m := asOpc m 0x06) told, auto, Bool.false_eq_true,
    if_false, if_true, queued]
  exact farStarts_of_fresh fresh predicted (by simp [req, asOpc]) (.inl rfl) (by simp [kind, asOpc, kindOf])

theorem farOp_fresh (accepted : s.accepts p (asOpc m 0x07)) (valid : s.slotValid p m.aux.toNat = true) :
    Ends (.farOp p m) s fun t => (t.slice p).far.queue = [0]
      ∧ (∃ k, (t.slice p).trk 0 = some k ∧ k.phase = .farStart ∧ k.kind = .farProgram) ∧ SentNothing s t p := by
  refine ends_of_fresh fresh rfl accepted fun u x k arrived req kind => ?_
  have queued := farAdmit_of_fresh fresh arrived fun _ => by rw [req]; exact valid
  rw [req] at queued
  simp only [lookup_of_arrivedAlone fresh arrived, queued]
  exact farStarts_of_fresh fresh arrived (by simp [req, asOpc]) (.inr rfl) (by simp [kind, asOpc, kindOf])

theorem farOp_declined_fresh (accepted : s.accepts p (asOpc m 0x07)) (invalid : s.slotValid p m.aux.toNat = false) :
    Ends (.farOp p m) s fun t => (t.slice p).trk 0 = none ∧ (t.slice p).far.queue = [] ∧ (t.slice p).olt = []
      ∧ Sent (s.takeMsg p (asOpc m 0x07)) t p
        { (s.slice p).homeMsg 0x30 m.src m.addr with txn := m.txn, cret := true, stat := 2 } := by
  refine ends_of_fresh fresh rfl accepted fun u x k arrived req kind => ?_
  have declined := farAdmit_of_invalid fresh arrived (by simp [req, asOpc]) (by rw [req]; exact invalid)
  have sent := declined.sent (stop_closes ..) (local_closes ..) arrived.stop arrived.own
  rw [Slice.endMsg, req, homeMsg_congr arrived.lslice] at sent
  rw [req] at declined
  simp only [lookup_of_arrivedAlone fresh arrived]
  obtain ⟨-, -, -, -, -, -, -, -, -, -, -, -, -, -, -, -, queue, -⟩ := fresh
  refine ⟨(declined.trk 0).trans (trk_closes_self ..), (farQueue_of_besidesNotes declined.slice).trans ?_,
    (olt_of_besidesNotes declined.slice).trans ?_, sent⟩
  · rw [far_closes]
    exact (congrArg (fun f : Far => f.queue.filter (· != 0)) arrived.far).trans (by rw [queue]; rfl)
  · rw [olt_closes]
    exact arrived.lines

/-- A near atomic request starts as a read for ownership (R197). -/
theorem atomicReq_near_fresh (accepted : s.accepts p (asOpc m 0x06)) (agent : isCA m.src.toNat = true) (hint : m.hint = 1)
    (present : m.src.toNat < 64 ∧ s.glb.agents.getLsbD m.src.toNat = true) :
    Ends (.atomicReq p m) s fun t => (t.slice p).far.queue = []
      ∧ (∃ k, (t.slice p).trk 0 = some k ∧ k.phase = .gather ∧ k.kind = .readOwn)
      ∧ ((t.slice p).dir m.addr).st = 2 ∧ ((t.slice p).dir m.addr).vec = agentBit m.src.toNat ∧ SentNothing s t p := by
  refine ends_of_fresh fresh rfl accepted fun u x k arrived req kind => ?_
  have auto : (isCA (asOpc m 0x06).src.toNat && (asOpc m 0x06).hint == 0) = false := by simp [asOpc, hint]
  simp only [lookup_of_arrivedAlone fresh arrived, resolvesFar_of_near (m := asOpc m 0x06) agent hint, auto, Bool.false_eq_true,
    if_false]
  have near := (arrived.predict (asOpc m 0x06)).asKind .readOwn
  have starts := readOwn_starts near.turns near.ready near.marked (isStoreCond_of_opc (by simp [req, asOpc]) p) (.inl rfl)
    (places_of_arrivedAlone fresh near) (by simp [kindOn]) (by simp [Slice.entAt])
  obtain ⟨-, -, -, -, st, vec, nothing⟩ := readsHome_granted fresh near.toArrived rfl (by rwa [req]) starts
  rw [req] at st vec
  obtain ⟨-, -, -, -, -, -, -, -, -, -, -, -, -, -, -, -, queue, -⟩ := fresh
  exact ⟨starts.farQueue.trans ((farQueue_granting ..).trans ((congrArg (·.queue) near.far).trans queue)),
    ⟨_, starts.trk, rfl, rfl⟩, st, vec, nothing⟩

end

end Sys2Proof.Machine
end

section
/-! SUPPORT. What is stored at a home whose cache holds and awaits nothing, and a full write there (R118, R119, R213, R220, R221). -/

namespace Sys2Proof.Machine

open Sys2Proof

/-! Storing a line (R118, R220, R221) -/

/-- The position at which an empty cache installs line `a`, if it does (R213, R220, R221). -/
def Slice.placeFor (x : Slice) (a : LineAddr) : Option Nat :=
  if x.hlc.installs then (x.pinFor a).or (x.choosePos a) else none

/-- The cache with line `a` stored at the position, or its write to memory queued where there is none (R118). -/
def Hlc.stores (place : Option Nat) (a : LineAddr) (data : LineData) (poison : BitVec 8) (waiter : Option Nat) (h : Hlc) : Hlc :=
  match place with
  | some q => (h.setLine q (mkLine a data poison true false)).touch q
  | none => h.queueWrite false a data poison waiter

section
variable {s u : State} {p : Nat} {x : Slice} (h : s.Turns p x u) (lines : x.hlc.lines = [])
include h lines

theorem vacate_of_empty (q : Nat) : u.vacate p q = (u, true) := by
  have unset : (u.slice p).hlc.line q = {} := by rw [h.hlc, line_of_no_lines lines]
  have clean : u.hMoveCheck p q = u := hMoveCheck_of_clean (by rw [unset]; rfl)
  simp only [State.vacate, clean, unset]
  rfl

theorem turns_install (a : LineAddr) (data : LineData) (poison : BitVec 8) :
    (∀ q, (x.pinFor a).or (x.choosePos a) = some q → s.Turns p (x.modHlc (Hlc.stores (some q) a data poison none))
        (u.install p a data poison true false).1 ∧ (u.install p a data poison true false).2 = true)
    ∧ ((x.pinFor a).or (x.choosePos a) = none →
      s.Turns p x (u.install p a data poison true false).1 ∧ (u.install p a data poison true false).2 = false) := by
  have pin : (u.slice p).pinFor a = x.pinFor a := (congrArg (fun z : Slice => z.pinFor a) h.slice :)
  have choice : (u.slice p).choosePos a = x.choosePos a := (congrArg (fun z : Slice => z.choosePos a) h.slice :)
  have put (q : Nat) := h.modHlc (Hlc.stores (some q) a data poison none)
  simp only [State.install, pin, choice, vacate_of_empty h lines]
  cases x.pinFor a with
  | some q =>
    refine ⟨fun r is => ?_, fun is => absurd is (by simp)⟩
    cases is
    exact ⟨put q, rfl⟩
  | none =>
    cases x.choosePos a with
    | some q =>
      refine ⟨fun r is => ?_, fun is => absurd is (by simp)⟩
      cases is
      exact ⟨put q, rfl⟩
    | none => exact ⟨fun r is => absurd is (by simp), fun _ => ⟨h.count .notKept, rfl⟩⟩

/-- A line is stored in an empty cache where it is installed, and else written to memory (R118, R220). -/
theorem turns_storeLine (mshrs : x.hlc.mshrs = []) (writes : x.hlc.writes = []) (a : LineAddr) (data : LineData)
    (poison : BitVec 8) (waiter : Option Nat) :
    s.Turns p (x.modHlc (Hlc.stores (x.placeFor a) a data poison waiter)) (u.storeLine p a data poison waiter).1
    ∧ (u.storeLine p a data poison waiter).2 = (x.placeFor a).isSome := by
  have none_ : (x.modHlc fun h => { h with mshrs := h.mshrs.map fun m => if m.addr = a then { m with wrote := true } else m }) = x := by
    rw [Slice.modHlc, mshrs, List.map_nil, ← mshrs]
  have wrote := h.modHlc fun h => { h with mshrs := h.mshrs.map fun m => if m.addr = a then { m with wrote := true } else m }
  rw [none_] at wrote
  unfold State.storeLine
  generalize (u.modHlc p fun h => { h with mshrs := h.mshrs.map fun m => if m.addr = a then { m with wrote := true } else m }) = v
    at wrote ⊢
  have cache := wrote.hlc
  have direct {v : State} (h : s.Turns p x v) := h.modHlc (Hlc.stores none a data poison waiter)
  obtain ⟨installed, refused⟩ := turns_install wrote lines a data poison
  rcases result : v.install p a data poison true false with ⟨w, kept⟩
  rw [result] at installed refused
  simp only [cache, find_of_no_lines lines, evbFind_of_no_writes writes, Option.filter_none, Slice.placeFor, result]
  split
  · cases place : (x.pinFor a).or (x.choosePos a) with
    | some q =>
      obtain ⟨turns, rfl⟩ := installed q place
      exact ⟨turns, rfl⟩
    | none =>
      obtain ⟨turns, rfl⟩ := refused place
      exact ⟨direct turns, rfl⟩
  · exact ⟨direct wrote, rfl⟩

end

/-! A full write of a line without sharers (R119, R220) -/

theorem settle_step_last {s u : State} {p : Nat} {a : LineAddr} (step : s.settleStep p a = u)
    (mode : ((u.slice p).line a).mode = 2) (served : ((u.slice p).line a).serve = none)
    (alone : ((u.slice p).line a).depth = 0) (empty : ((u.slice p).line a).queue = []) : s.settle p a = u.freeLine p a := by
  have last : u.settleStep p a = u.freeLine p a := by simp [State.settleStep, mode, served, alone, empty]
  have closed : (u.freeLine p a).settleStep p a = u.freeLine p a := by
    simp [State.settleStep, (freeLine_spec u p a).1]
  obtain ⟨l, more⟩ : ∃ l, List.range (4 * (((s.slice p).line a).queue.length + 2)) = 0 :: 1 :: l :=
    ⟨_, by rw [show 4 * (((s.slice p).line a).queue.length + 2) = 4 * ((s.slice p).line a).queue.length + 6 + 1 + 1 by ring,
      List.range_succ_eq_map, List.range_succ_eq_map]; rfl⟩
  rw [State.settle, more, List.foldl_cons, List.foldl_cons, step, last]
  exact foldl_of_fixed l fun _ _ => closed

/-- Slice `x` after tracker `t`, on content `k`, has ended with message `m` as the last of line `a`, which closes (R115). -/
def Slice.endsLast (x : Slice) (p t : Nat) (a : LineAddr) (k : Trk) (m : Msg) : Slice :=
  (((x.sends p m).closes t k).setLine a { x.line a with serve := none }).frees a

section
variable (x : Slice) (p t : Nat) (a : LineAddr) (k : Trk) (m : Msg)

theorem trk_endsLast_self : (x.endsLast p t a k m).trk t = none := by
  rw [Slice.endsLast, trk_frees, trk_setLine, trk_closes_self]

@[simp] theorem line_endsLast_self : (x.endsLast p t a k m).line a = {} := line_frees_self ..

@[simp] theorem hlc_endsLast : (x.endsLast p t a k m).hlc = x.hlc := by
  rw [Slice.endsLast, hlc_frees, hlc_setLine, hlc_closes, hlc_sends]

theorem stop_endsLast : (x.endsLast p t a k m).stop = (x.sends p m).stop := (stop_frees ..).trans (stop_closes ..)

theorem local_endsLast : (x.endsLast p t a k m).local_ = (x.sends p m).local_ := (local_frees ..).trans (local_closes ..)

theorem olt_endsLast (unplaced : (x.line a).pos = none) : (x.endsLast p t a k m).olt = (x.setLine a {}).olt := by
  have none_ : (((x.sends p m).closes t k).setLine a { x.line a with serve := none }).line a = { x.line a with serve := none } :=
    line_setLine_self ..
  have frees : x.endsLast p t a k m = (((x.sends p m).closes t k).setLine a { x.line a with serve := none }).setLine a {} := by
    rw [Slice.endsLast, Slice.frees, none_, unplaced]
  rw [frees, setLine_setLine]
  exact congrArg (fun l => NMap.set Olt.dflt l a.toNat {}) (olt_closes (x.sends p m) t k)

theorem ent_endsLast_of_allocated {x : Slice} {a : LineAddr} {q : Nat} (held : (x.line a).pos = some q)
    (allocated : (x.ent q).allocated = true) :
    (x.endsLast p t a k m).ent q = x.ent q := by
  have placed : ((((x.sends p m).closes t k).setLine a { x.line a with serve := none }).line a).pos = some q := by
    rw [line_setLine_self, held]
  have same : (((x.sends p m).closes t k).setLine a { x.line a with serve := none }).ent q = x.ent q := by
    rw [ent_setLine, ent_closes, ent_sends]
  rw [Slice.endsLast, ent_frees_of_allocated placed (by rw [same, allocated]), same]

end

/-- A served request that has everything it awaits ends, and its line closes where nothing else waits on it (R115). -/
theorem settle_endsLast {s u c : State} {p t : Nat} {x y : Slice} {a : LineAddr} {k : Trk} {m : Msg} (h : s.Turns p x u)
    (open_ : x.trk t = some k) {pos : Option Nat} (line : x.line a = { mode := 2, serve := some t, pos }) (victim : k.victim = none)
    (gather : k.phase = .gather) (needs : k.needs = false) (complete : u.complete p t k = (c, true))
    (ends : s.Turns p ((y.sends p m).closes t k) c) (same : y.line a = x.line a) :
    s.Turns p (y.endsLast p t a k m) (u.settle p a) := by
  have freed := ends.modLine a fun o => { o with serve := none }
  rw [line_closes, line_sends] at freed
  have here : (u.slice p).line a = { mode := 2, serve := some t, pos } := (h.line a).trans line
  have step : u.settleStep p a = c.modLine p a fun o => { o with serve := none } := by
    simp [State.settleStep, here, (h.trk t).trans open_, victim, gather, needs, complete]
  have now := freed.line a
  rw [line_setLine_self, same, line] at now
  rw [settle_step_last step (by rw [now]) (by rw [now]) (by rw [now]) (by rw [now])]
  exact freed.freeLine a

/-- A full write of an uncached line that is installed: the line is stored, the writer answered, and the line closed. -/
theorem writeFull_ends {s u : State} {p t q : Nat} {y : Slice} {k : Trk} (h : s.Turns p y u) (open_ : y.trk t = some k)
    (line : y.line k.req.addr = { mode := 2, serve := some t }) (kind : k.kind = .writeFull) (victim : k.victim = none)
    (gather : k.phase = .gather) (needs : k.needs = false) (lines : y.hlc.lines = []) (mshrs : y.hlc.mshrs = [])
    (writes : y.hlc.writes = []) (place : y.placeFor k.req.addr = some q) :
    s.Turns p ((y.modHlc (Hlc.stores (some q) k.req.addr k.req.data k.req.poison (some t))).endsLast p t k.req.addr k
      (y.endMsg 0x2F k)) (u.settle p k.req.addr) := by
  obtain ⟨stored, held⟩ := turns_storeLine h lines mshrs writes k.req.addr k.req.data k.req.poison (some t)
  rw [place] at stored held
  have uncached : (u.slice p).dir k.req.addr = {} := by rw [h.dir, Slice.dir, line]; rfl
  have written : u.complete p t k = ((u.storeLine p k.req.addr k.req.data k.req.poison (some t)).1.endWith p t 0x2F id, true) := by
    rcases result : u.storeLine p k.req.addr k.req.data k.req.poison (some t) with ⟨w, kept⟩
    rw [result] at held
    have kept' : kept = true := held
    subst kept'
    simp [State.complete, kind, State.doWrite, uncached, result]
  exact settle_endsLast h open_ line victim gather needs written (stored.endWith open_ 0x2F id) rfl

/-- The first way of a set takes the first line that is stored in an empty cache with every way on (R221). -/
theorem placeFor_of_empty {x : Slice} {k : Trk} (lines : x.hlc.lines = []) (on : x.hlc.state = 1) (ways : x.hlc.wayEn = 0xFFFF)
    (alone : x.trks = [(0, some k)]) (unpinned : k.pin = none) (a : LineAddr) :
    x.placeFor a = some (16 * (hsetOf a).toNat) := by
  have used : x.used = [(0, k)] := by rw [Slice.used, alone]; rfl
  have installs : x.hlc.installs = true := by simp [Hlc.installs, on, ways]
  have noPin : x.pinFor a = none := by simp [Slice.pinFor, used, unpinned]
  have free : x.hPinned (16 * (hsetOf a).toNat) = false := by simp [Slice.hPinned, used, unpinned]
  have first : x.choosePos a = some (16 * (hsetOf a).toNat) := by
    have way : x.hlc.wayOn 0 = true := by simp [Hlc.wayOn, ways]
    rw [Slice.choosePos, hPositions, List.range_succ_eq_map, List.map_cons,
      List.find?_cons_of_pos (by simp [way, line_of_no_lines lines, free])]
    rfl
  rw [Slice.placeFor, if_pos installs, noPin, first]
  rfl

/-- A line stored at the first way of its set is found there. -/
theorem find_stores (h : Hlc) (a : LineAddr) (data : LineData) (poison : BitVec 8) (waiter : Option Nat) :
    (h.stores (some (16 * (hsetOf a).toNat)) a data poison waiter).find a = some (16 * (hsetOf a).toNat)
    ∧ (h.stores (some (16 * (hsetOf a).toNat)) a data poison waiter).line (16 * (hsetOf a).toNat)
      = mkLine a data poison true false := by
  have here : (h.stores (some (16 * (hsetOf a).toNat)) a data poison waiter).line (16 * (hsetOf a).toNat)
      = mkLine a data poison true false := NMap.get_set_self ..
  refine ⟨?_, here⟩
  rw [Hlc.find, hPositions, List.range_succ_eq_map, List.map_cons,
    List.find?_cons_of_pos (by rw [Nat.add_zero, here]; simp [mkLine]), Nat.add_zero]

theorem writeFull_fresh {s : State} {p : Fin 132} {m : Msg} (fresh : (s.slice p).fresh) (accepted : s.accepts p (asOpc m 0x04)) :
    Ends (.writeNcFull p m) s fun t => (t.slice p).trk 0 = none ∧ (t.slice p).olt = []
      ∧ (∃ q, (t.slice p).hlc.find m.addr = some q ∧ ((t.slice p).hlc.line q).data = m.data
        ∧ ((t.slice p).hlc.line q).poison = m.poison)
      ∧ Sent (s.takeMsg p (asOpc m 0x04)) t p { (s.slice p).homeMsg 0x2F m.src m.addr with txn := m.txn, cret := true } := by
  refine ends_arrive_of_fresh fresh rfl accepted fun u x k arrived req kind_ => ?_
  have kind : kindOn k (x.entAt none) = .writeFull := by simp [kindOn, kind_, asOpc, kindOf]
  obtain ⟨v, serves, decided⟩ := writeFull_starts arrived.turns arrived.ready arrived.marked
    (isStoreCond_of_opc (by simp [req, asOpc]) p) (.inl rfl) kind (by simp [Slice.entAt])
  have only : (x.serving 0 k.req.addr none (k.servedAs .writeFull (x.entAt none).poison)).trks
      = [(0, some (k.servedAs .writeFull (x.entAt none).poison))] := by
    rw [Slice.serving, Slice.setTrk, show (x.setLine k.req.addr _).trks = x.trks from rfl, arrived.alone]
    rfl
  obtain ⟨-, -, -, -, -, -, -, -, -, -, -, -, -, on, ways, -⟩ := fresh
  have place := placeFor_of_empty (x := x.serving 0 k.req.addr none (k.servedAs .writeFull (x.entAt none).poison))
    arrived.ready.lines (by rw [hlc_serving, arrived.cache, on]) (by rw [hlc_serving, arrived.cache, ways]) only arrived.unpinned
    k.req.addr
  have written := writeFull_ends serves (trk_serving ..) (line_serving ..) rfl arrived.ready.victim rfl arrived.ready.needs
    arrived.ready.lines arrived.ready.mshrs arrived.ready.writes place
  have same : v.settle p (k.servedAs .writeFull (x.entAt none).poison).req.addr = u.decideReq p 0 none := decided.symm
  rw [same] at written
  have sent := written.sent (stop_endsLast ..) (local_endsLast ..) arrived.stop arrived.own
  have answer : (x.serving 0 k.req.addr none (k.servedAs .writeFull (x.entAt none).poison)).endMsg 0x2F
      (k.servedAs .writeFull (x.entAt none).poison)
      = { (s.slice p).homeMsg 0x2F k.req.src k.req.addr with txn := k.req.txn, cret := true } := by
    rw [Slice.endMsg, homeMsg_congr (show Slice.lslice (x.serving ..) = _ from arrived.lslice)]
    rfl
  rw [answer, req] at sent
  obtain ⟨found, stored⟩ := find_stores x.hlc k.req.addr k.req.data k.req.poison (some 0)
  have cache : ((u.decideReq p 0 none).slice p).hlc = x.hlc.stores (some (16 * (hsetOf k.req.addr).toNat)) k.req.addr k.req.data
      k.req.poison (some 0) := written.hlc.trans (hlc_endsLast ..)
  rw [req] at found stored cache
  have closed := (olt_of_besidesNotes written.slice).trans (olt_endsLast _ _ _ _ _ _ (by
    rw [line_modHlc]
    exact congrArg Olt.pos (line_serving ..)))
  have none_ := NMap.set_set Olt.dflt x.olt k.req.addr.toNat { mode := 2, serve := some 0, pos := none } {}
  refine ⟨(written.trk 0).trans (trk_endsLast_self ..), closed.trans (none_.trans (by rw [arrived.lines]; rfl)),
    ⟨16 * (hsetOf m.addr).toNat, ?_⟩, sent⟩
  rw [cache]
  exact ⟨found, congrArg HLine.data stored, congrArg HLine.poison stored⟩

end Sys2Proof.Machine
end

section
/-! SUPPORT. A request whose lookup finds its line's way entry (R109, R117, R177, Table 6.5). -/

namespace Sys2Proof.Machine

open Sys2Proof

/-- Slice `p` of state `s` after the request of `k` was taken into tracker `t` and its lookup found way `q` (R92, R177). -/
def State.foundAt (s : State) (p t q : Nat) (k : Trk) : Slice := (((s.takeMsg p k.req).slice p).opens t k).touchSf q

/-- In state `u` the request of `k`, taken in state `s` into the free tracker `t` of slice `p`, has found way `q` and is to be
decided. -/
structure State.FoundAt (s u : State) (p t q : Nat) (k : Trk) : Prop where
  turns : (s.takeMsg p k.req).Turns p (s.foundAt p t q k) u
  marked : u.broke p k = k.brk
  arr : k.arr = s.time
  resv : k.resv = none
  victim : k.victim = none
  needs : k.needs = false
  empty : k.have_ = false
  awaits : k.awaits = 0

section
variable (s : State) (p t q : Nat) (k : Trk)

theorem besidesEntries_foundAt :
    (s.foundAt p t q k).besidesEntries = (((s.takeMsg p k.req).slice p).opens t k).besidesEntries := besidesEntries_touchSf ..

@[simp] theorem trk_foundAt : (s.foundAt p t q k).trk t = some k :=
  (trk_of_besidesEntries (besidesEntries_foundAt s p t q k) t).trans (trk_opens_self ..)
@[simp] theorem line_foundAt (a : LineAddr) : (s.foundAt p t q k).line a = (s.slice p).line a :=
  (line_of_besidesEntries (besidesEntries_foundAt s p t q k) a).trans (congrArg (·.get Olt.dflt a.toNat) (olt_takeMsg s p k.req))
@[simp] theorem ent_foundAt (r : Nat) : (s.foundAt p t q k).ent r = (s.slice p).ent r :=
  (ent_touchSf ..).trans (by rw [slice_takeMsg]; rfl)
@[simp] theorem hlc_foundAt : (s.foundAt p t q k).hlc = (s.slice p).hlc :=
  (hlc_of_besidesEntries (besidesEntries_foundAt s p t q k)).trans (hlc_takeMsg s p k.req)
@[simp] theorem lslice_foundAt : (s.foundAt p t q k).lslice = (s.slice p).lslice :=
  (lslice_of_besidesEntries (besidesEntries_foundAt s p t q k)).trans (lslice_takeMsg s p k.req)
@[simp] theorem stop_foundAt : (s.foundAt p t q k).stop = ((s.takeMsg p k.req).slice p).stop :=
  (stop_of_besidesEntries (besidesEntries_foundAt s p t q k) :)
@[simp] theorem local_foundAt : (s.foundAt p t q k).local_ = ((s.takeMsg p k.req).slice p).local_ :=
  (local_of_besidesEntries (besidesEntries_foundAt s p t q k) :)

end

section
variable {s : State} {p : Fin 132} {m : Msg} {q t : Nat} (found : (s.slice p).finds m.addr q) (free : (s.slice p).freeTrk = some t)
include found free

/-- A request row whose lookup finds way `q` goes on as the entry there decides (R109, R177). -/
theorem ends_arrive_of_finds {c : Instr} {opc : Nat} {P : State → Prop}
    (row : exec c s = .next (s.request p (asOpc m opc) fun s t => s.arrive p t)) (accepted : s.accepts p (asOpc m opc))
    (h : ∀ u k, s.FoundAt u p t q k → k.req = asOpc m opc → k.kind = kindOf (asOpc m opc).opc.toNat →
      P (u.decideReq p t (some q))) : Ends c s P := by
  refine ends_request row accepted free fun u seq brk brkAt admits => ?_
  have here : (((s.takeMsg p (asOpc m opc)).slice p).opens t (.entered (asOpc m opc) s.time seq brk brkAt)).finds m.addr q := by
    rw [slice_takeMsg]
    exact found
  obtain ⟨v, look, turns⟩ := lookup_finds admits.turns here
  rw [arrive_of_lookup ((admits.turns.trk t).trans (trk_opens_self ..)) look]
  refine h v _ ⟨turns, ?_, rfl, rfl, rfl, rfl, rfl, rfl⟩ rfl rfl
  rw [broke_of_turns turns, ← admits.marked, broke_of_turns admits.turns]
  exact congrArg (fun w : BitVec _ => decide (w.toNat ≤ _))
    (congrArg (fun z : Slice => z.brkUs) (besidesEntries_foundAt s p t q (.entered (asOpc m opc) s.time seq brk brkAt)) :)

end

/-- A request that has found a way of a closed line arrives there. -/
theorem State.FoundAt.arrived {s u : State} {p t q : Nat} {k : Trk} (h : s.FoundAt u p t q k)
    (found : (s.slice p).finds k.req.addr q) (closed : (s.slice p).line k.req.addr = {}) :
    s.Arrived u p t (s.foundAt p t q k) k := by
  obtain ⟨-, -, -, lines, writes, mshrs, -⟩ := found
  exact ⟨h.turns, ⟨trk_foundAt .., (line_foundAt ..).trans closed, h.resv, h.victim, h.needs, h.empty, by rw [hlc_foundAt, lines],
    by rw [hlc_foundAt, mshrs], by rw [hlc_foundAt, writes]⟩, h.marked, hlc_foundAt .., lslice_foundAt .., stop_foundAt ..,
    local_foundAt ..⟩

end Sys2Proof.Machine
end

section
/-! SUPPORT. Requests of a closed line that others share (R106, R116, R117, Table 6.5). -/

namespace Sys2Proof.Machine

open Sys2Proof

/-- The entry of agent `n` as owner stands at way `q` of slice `p` (R106). -/
def OwnedBy (t : State) (p q n : Nat) : Prop := ((t.slice p).ent q).st = 2 ∧ ((t.slice p).ent q).vec = agentBit n

/-- Slice `p` has made the sender of `m` owner at way `q` and asked the agents of `v` to give the line up; their answers are counted
for tracker `k`, which the line serves (R75, R117). -/
def AsksSharers (s t : State) (p k q : Nat) (m : Msg) (v : BitVec 64) : Prop :=
  OwnedBy t p q m.src.toNat ∧ ((t.slice p).line m.addr).mode = 2 ∧ ((t.slice p).line m.addr).serve = some k
    ∧ ((t.slice p).line m.addr).ackcnt = (bitsOf v).length
    ∧ Sent (s.takeMsg p m) t p
      { (s.slice p).homeMsg 0x23 1022 m.addr with htag := BitVec.ofNat 8 k, data := v.setWidth 512 }

theorem ent_granting_of_present {x : Slice} {g : BitVec 64} {n : Nat} (present : n < 64 ∧ g.getLsbD n = true) (t : Nat)
    (a : LineAddr) (q : Nat) (k : Trk) (st : BitVec 2) (poison : Bool) :
    (x.granting g t a q k st (agentBit n) poison).ent q = mkEnt a q st (agentBit n) poison := by
  obtain ⟨small, agent⟩ := present
  rw [ent_granting, st_of_present agent (getLsbD_agentBit_self small), agentBit_and_of_present agent]

/-- What asks the agents of `v` from a slice that took the line over asks them in the requester's name. -/
theorem asksSharers_of_turns {s w : State} {p t q : Nat} {y z : Slice} {m : Msg} {v : BitVec 64}
    (turns : (s.takeMsg p m).Turns p z w)
    (ent : z.ent q = mkEnt m.addr q 2 (agentBit m.src.toNat) false)
    (line : z.line m.addr = { mode := 2, serve := some t, pos := some q, ackcnt := (bitsOf v).length })
    (told : z.stop = (y.sends p (y.vectorMsg t 0x23 m.addr v)).stop)
    (own : z.local_ = (y.sends p (y.vectorMsg t 0x23 m.addr v)).local_) (lslice : y.lslice = (s.slice p).lslice)
    (stop : y.stop = ((s.takeMsg p m).slice p).stop) (before : y.local_ = ((s.takeMsg p m).slice p).local_) :
    AsksSharers s w p t q m v := by
  have sent := turns.sent told own stop before
  rw [Slice.vectorMsg, homeMsg_congr lslice] at sent
  refine ⟨⟨?_, ?_⟩, ?_, ?_, ?_, sent⟩
  · rw [turns.ent, ent]
    rfl
  · rw [turns.ent, ent]
    rfl
  all_goals rw [turns.line, line]

theorem lslice_granting (x : Slice) (g : BitVec 64) (t : Nat) (a : LineAddr) (q : Nat) (k : Trk) (st : BitVec 2) (vec : BitVec 64)
    (poison : Bool) : (x.granting g t a q k st vec poison).lslice = x.lslice :=
  (lslice_directed (x.serving t a (some q) k) a q _ _ poison :)

/-- The upgrade `m`, taken in state `s`, has taken its line over at way `q`: in state `w`, where slice `p` is `y`, tracker `t` serves
the line on content `k`. -/
structure State.Upgrades (s w : State) (p t q : Nat) (m : Msg) (y : Slice) (k : Trk) : Prop where
  turns : (s.takeMsg p m).Turns p y w
  open_ : y.trk t = some k
  req : k.req = m
  kind : k.kind = .upgrade
  victim : k.victim = none
  gather : k.phase = .gather
  needs : k.needs = false
  ent : y.ent q = mkEnt m.addr q 2 (agentBit m.src.toNat) false
  line : y.line m.addr = { mode := 2, serve := some t, pos := some q }
  lslice : y.lslice = (s.slice p).lslice
  stop : y.stop = ((s.takeMsg p m).slice p).stop
  own : y.local_ = ((s.takeMsg p m).slice p).local_

section
variable {s : State} {p : Fin 132} {m : Msg} {q t : Nat} (found : (s.slice p).finds m.addr q) (free : (s.slice p).freeTrk = some t)
  (closed : (s.slice p).line m.addr = {}) (shared : ((s.slice p).ent q).st = 1)
  (present : m.src.toNat < 64 ∧ s.glb.agents.getLsbD m.src.toNat = true)
include found free closed shared

omit shared in
/-- A request of a closed line whose way is found arrives there, ready to be served. -/
theorem ends_of_closed {c : Instr} {opc : Nat} {P : State → Prop}
    (row : exec c s = .next (s.request p (asOpc m opc) fun s t => s.arrive p t)) (accepted : s.accepts p (asOpc m opc))
    (h : ∀ u x k, s.Arrived u p t x k → x.entAt (some q) = (s.slice p).ent q → k.req = asOpc m opc →
      k.kind = kindOf (asOpc m opc).opc.toNat → P (u.decideReq p t (some q))) : Ends c s P :=
  ends_arrive_of_finds found free row accepted fun u k at_ req kind =>
    h u _ k (at_.arrived (by rw [req]; exact found) (by rw [req]; exact closed)) (ent_foundAt ..) req kind

include present

theorem readShared_shared (accepted : s.accepts p (asOpc m 0x00)) : Ends (.readShared p m) s fun w =>
    ((w.slice p).ent q).st = 1
    ∧ ((w.slice p).ent q).vec = (((s.slice p).ent q).vec ||| agentBit m.src.toNat) &&& s.glb.agents
    ∧ ((w.slice p).line m.addr).mode = 2 ∧ ((w.slice p).line m.addr).serve = some t
    ∧ (∃ y, (w.slice p).trk t = some y ∧ y.phase = .gather ∧ y.needs = true ∧ y.have_ = false)
    ∧ SentNothing (s.takeMsg p (asOpc m 0x00)) w p := by
  refine ends_of_closed found free closed rfl accepted fun u x k arrived ent req kind_ => ?_
  obtain ⟨small, agent⟩ := present
  have reads := readShared_starts arrived.turns arrived.ready arrived.marked (isStoreCond_of_opc (by simp [req, asOpc]) p)
    (.inr (by rw [ent, shared])) (.inl rfl) (by simp [kindOn, kind_, asOpc, kindOf])
  rw [ent] at reads
  have st := st_of_present (g := s.glb.agents) (v := ((s.slice p).ent q).vec ||| agentBit k.req.src.toNat) (n := k.req.src.toNat)
    (by rw [req]; exact agent) (by rw [BitVec.getLsbD_or, getLsbD_agentBit_self (by rw [req]; exact small), Bool.or_true]) 1
  have entry := (reads.ent q).trans (ent_granting ..)
  have line := (reads.line k.req.addr).trans (line_granting ..)
  have sent := reads.sentNothing ((stop_granting ..).trans arrived.stop) ((local_granting ..).trans arrived.own)
  rw [req] at line
  refine ⟨?_, ?_, congrArg Olt.mode line, congrArg Olt.serve line, ⟨_, reads.trk, rfl, rfl, arrived.ready.empty⟩, ?_⟩
  · rw [entry]
    exact st
  · rw [entry, req]
    rfl
  · rwa [req] at sent

theorem readOwn_shared {c : Instr} {opc : Nat} (row : exec c s = .next (s.request p (asOpc m opc) fun s t => s.arrive p t))
    (is : opc = 1 ∨ opc = 2 ∧ ((s.slice p).ent q).has m.src.toNat = false) (accepted : s.accepts p (asOpc m opc))
    {v : BitVec 64} (others : ((s.slice p).ent q).vec &&& ~~~(agentBit m.src.toNat) &&& s.glb.agents = v) (some_ : v ≠ 0) :
    Ends c s fun w => AsksSharers s w p t q (asOpc m opc) v
      ∧ ∃ y, (w.slice p).trk t = some y ∧ y.kind = .readOwn ∧ y.awaits = v ∧ y.needs = true ∧ y.have_ = false := by
  refine ends_of_closed found free closed row accepted fun u x k arrived ent req kind_ => ?_
  have kind : kindOn k (x.entAt (some q)) = .readOwn := by
    rcases is with rfl | ⟨rfl, unset⟩
    · simp [kindOn, kind_, asOpc, kindOf]
    · simp [kindOn, kind_, asOpc, kindOf, ent, req, unset]
  have plain : k.req.opc ≠ 5 := by rcases is with rfl | ⟨rfl, -⟩ <;> simp [req, asOpc]
  have reads := readOwn_invalidates arrived.turns arrived.ready arrived.marked (isStoreCond_of_opc plain p)
    (.inr (by rw [ent, shared])) (.inl rfl) kind (by rw [ent, req]; exact others) some_
  have trk := reads.trk
  obtain ⟨c, turns, -⟩ := reads
  have asks := asksSharers_of_turns (m := k.req) (q := q) (v := v) turns
    (by rw [ent_modHlc, ent_setTrk, ent_invalidating, ent_granting_of_present (by rwa [req])])
    (by rw [line_modHlc, line_setTrk, line_invalidating, line_granting]) rfl rfl ((lslice_granting ..).trans arrived.lslice)
    ((stop_granting ..).trans arrived.stop) ((local_granting ..).trans arrived.own)
  rw [req] at asks
  exact ⟨asks, _, trk, rfl, rfl, rfl, arrived.ready.empty⟩

/-- A sharer's upgrade takes the line over, and the line is then served. -/
theorem upgrade_shared (bit : ((s.slice p).ent q).has m.src.toNat = true) (accepted : s.accepts p (asOpc m 0x02)) {P : State → Prop}
    (h : ∀ w y k, s.Upgrades w p t q (asOpc m 0x02) y k →
      P ((w.sendVector p t 0x23 m.addr (((s.slice p).ent q).vec &&& ~~~(agentBit m.src.toNat))).settle p m.addr)) :
    Ends (.upgrade p m) s P := by
  refine ends_of_closed found free closed rfl accepted fun u x k arrived ent req kind_ => ?_
  have kind : kindOn k (x.entAt (some q)) = .upgrade := by simp [kindOn, kind_, asOpc, kindOf, ent, shared, req, bit]
  obtain ⟨w, taken, decided⟩ := upgrade_takes arrived.turns arrived.ready arrived.marked
    (isStoreCond_of_opc (by simp [req, asOpc]) p) (.inr (by rw [ent, shared])) kind rfl
  have stop := arrived.stop
  have own := arrived.own
  rw [ent, req] at decided
  rw [req] at taken stop own
  rw [decided]
  exact h w _ _ ⟨taken, trk_setTrk_self .., req, rfl, arrived.ready.victim, rfl, arrived.ready.needs,
    (ent_setTrk ..).trans (ent_granting_of_present present ..), (line_setTrk ..).trans (line_granting ..),
    (lslice_granting ..).trans arrived.lslice, (stop_granting ..).trans stop, (local_granting ..).trans own⟩

theorem upgrade_asks (bit : ((s.slice p).ent q).has m.src.toNat = true) (accepted : s.accepts p (asOpc m 0x02)) {v : BitVec 64}
    (others : ((s.slice p).ent q).vec &&& ~~~(agentBit m.src.toNat) &&& s.glb.agents = v) (some_ : v ≠ 0) :
    Ends (.upgrade p m) s fun w => AsksSharers s w p t q (asOpc m 0x02) v
      ∧ ∃ y, (w.slice p).trk t = some y ∧ y.kind = .upgrade ∧ y.awaits = v ∧ y.needs = false := by
  refine upgrade_shared found free closed shared present bit accepted fun w y k taken => ?_
  have asked := taken.turns.sendVector taken.open_ (others ▸ some_) 0x23 m.addr
  rw [show ((s.slice p).ent q).vec &&& ~~~(agentBit m.src.toNat) &&& (s.takeMsg p (asOpc m 0x02)).glb.agents = v from others] at asked
  have placed : y.line m.addr = { mode := 2, serve := some t, pos := some q } := taken.line
  have here : (y.invalidating p t m.addr k v).line m.addr
      = { mode := 2, serve := some t, pos := some q, ackcnt := (bitsOf v).length } := by rw [line_invalidating, placed]
  have line := (asked.line m.addr).trans here
  have open_ := (asked.trk t).trans (trk_invalidating y p t m.addr k v)
  rw [settle_awaiting (by rw [line]) (by rw [line]) open_ (by rw [line]; exact length_bitsOf_ne_zero some_)]
  exact ⟨asksSharers_of_turns (y := y) (z := y.invalidating p t m.addr k v) asked ((ent_invalidating ..).trans taken.ent) here rfl rfl
    taken.lslice taken.stop taken.own, _, open_, taken.kind, rfl, taken.needs⟩

theorem upgrade_alone (bit : ((s.slice p).ent q).has m.src.toNat = true) (accepted : s.accepts p (asOpc m 0x02))
    (others : ((s.slice p).ent q).vec &&& ~~~(agentBit m.src.toNat) &&& s.glb.agents = 0) :
    Ends (.upgrade p m) s fun w => OwnedBy w p q m.src.toNat ∧ (w.slice p).trk t = none ∧ (w.slice p).line m.addr = {}
      ∧ Sent (s.takeMsg p (asOpc m 0x02)) w p { (s.slice p).homeMsg 0x28 m.src m.addr with txn := m.txn, cret := true } := by
  refine upgrade_shared found free closed shared present bit accepted fun w y k taken => ?_
  have alone := taken.turns.sendVector_none (t := t) others 0x23 m.addr
  have ends := (alone.endWith taken.open_ 0x28 id).loadRecent k.req.addr
  have granted := settle_endsLast alone taken.open_ taken.line taken.victim taken.gather taken.needs
    (by simp only [State.complete, taken.kind]) ends rfl
  have sent := granted.sent (stop_endsLast ..) (local_endsLast ..) taken.stop taken.own
  rw [id_eq, Slice.endMsg, taken.req, homeMsg_congr taken.lslice] at sent
  have ent := (granted.ent q).trans (ent_endsLast_of_allocated _ _ _ _ (congrArg Olt.pos taken.line)
    (by rw [taken.ent]; rfl))
  rw [taken.ent] at ent
  exact ⟨⟨congrArg SfEnt.st ent, congrArg SfEnt.vec ent⟩, (granted.trk t).trans (trk_endsLast_self ..),
    (granted.line m.addr).trans (line_endsLast_self ..), sent⟩

end

end Sys2Proof.Machine
end

section
/-! SUPPORT. Requests of a line that another agent owns, with no trigger of Table 6.3 (R93, R110, R112, R113). -/

namespace Sys2Proof.Machine

open Sys2Proof

/-- Tracker content that its line no longer waits for, its forward on its way to the owner (R110). -/
def Trk.inPhase (phase : Phase) (k : Trk) : Trk := { k with phase }

/-! The operations (R110, R112) -/

section
variable {s u : State} {p t q o : Nat} {x : Slice} {a : LineAddr} {k : Trk} (h : s.Turns p x u) (open_ : x.trk t = some k)
  (owner : s.glb.agents.getLsbD o = true)
include h open_ owner

/-- A forward in the requester's name, after which the request is in another phase. -/
theorem turns_forwards (opc : Nat) (phase : Phase) :
    s.Turns p ((x.sends p (x.namedForward t opc o a k)).setTrk t (some ((k.forwards o).inPhase phase)))
      ((u.sendForward p t opc o a true).modTrk p t (Trk.inPhase phase)) := by
  have forwards := (h.sendForward open_ owner opc a).modTrk (trk_setTrk_self ..) (Trk.inPhase phase)
  rwa [setTrk_setTrk] at forwards

theorem turns_chainOwn (held : (x.line a).pos = some q)
    (sender : k.req.src.toNat < 64 ∧ s.glb.agents.getLsbD k.req.src.toNat = true) (mode : BitVec 2) {y : Slice}
    (is : y = (x.directed a q 2 (agentBit k.req.src.toNat) false).setLine a
      { x.line a with mode, depth := (x.line a).depth + 1 }) :
    s.Turns p ((y.sends p (y.namedForward t 0x20 o a k)).setTrk t (some ((k.forwards o).inPhase .chained)))
      (u.chainOwn p t a o mode) := by
  obtain ⟨small, agent⟩ := sender
  subst is
  have owns := h.setDir held 2 (agentBit k.req.src.toNat) false
  rw [st_of_present agent (getLsbD_agentBit_self small), agentBit_and_of_present agent] at owns
  have deeper := owns.modLine a fun l => { l with mode, depth := l.depth + 1 }
  rw [line_directed] at deeper
  have forwards := turns_forwards ((deeper.count .fwdOwn).breakWatch a) (by rw [trk_setLine, trk_directed, open_]) owner (a := a) 0x20
    .chained
  simp only [State.chainOwn, (h.trk t).trans open_]
  exact forwards.loadRecent a

end

/-! The decision (R113) -/

/-- The request `m` of tracker `t`, taken in state `s`, is to be forwarded to the owner at way `q` in state `v`, where slice `p` is
`x`. -/
structure State.Forwarding (s v : State) (p t q : Nat) (m : Msg) (x : Slice) (k : Trk) : Prop where
  turns : (s.takeMsg p m).Turns p x v
  open_ : x.trk t = some k
  req : k.req = m
  awaits : k.awaits = 0
  line : x.line m.addr = { (s.slice p).line m.addr with pos := some q }
  ent : x.ent q = (s.slice p).ent q
  lslice : x.lslice = (s.slice p).lslice
  stop : x.stop = ((s.takeMsg p m).slice p).stop
  own : x.local_ = ((s.takeMsg p m).slice p).local_

theorem State.Forwarding.setWatch {s v : State} {p t q : Nat} {m : Msg} {x : Slice} {k : Trk} (h : s.Forwarding v p t q m x k)
    (e : SfEnt) : s.Forwarding (v.setWatch p m e) p t q m x k :=
  ⟨h.turns.setWatch m e, h.open_, h.req, h.awaits, h.line, h.ent, h.lslice, h.stop, h.own⟩

theorem State.Forwarding.asKind {s v : State} {p t q : Nat} {m : Msg} {x : Slice} {k : Trk} (h : s.Forwarding v p t q m x k)
    (kind : ReqKind) : s.Forwarding (v.modTrk p t fun k => { k with kind }) p t q m (x.setTrk t (some { k with kind }))
      { k with kind } :=
  ⟨h.turns.modTrk h.open_ fun k => { k with kind }, trk_setTrk_self .., h.req, h.awaits, h.line, h.ent, h.lslice, h.stop, h.own⟩

/-- A read is forwarded to the owner from a line that then waits for its copy (R112). -/
theorem State.Forwarding.forwardRead {s v : State} {p t q o opc : Nat} {m : Msg} {x : Slice} {k : Trk}
    (h : s.Forwarding v p t q m x k) (owner : s.glb.agents.getLsbD o = true) (shared : Bool)
    (is : opc = if shared then 0x21 else 0x22) : ∃ (w : State) (y : Slice),
      y.line m.addr = { (s.slice p).line m.addr with pos := some q, mode := 2, serve := some t, pend := if shared then 1 else 2 }
      ∧ y.ent q = (s.slice p).ent q ∧ y.lslice = (s.slice p).lslice ∧ y.stop = ((s.takeMsg p m).slice p).stop
      ∧ y.local_ = ((s.takeMsg p m).slice p).local_
      ∧ (s.takeMsg p m).Turns p ((y.sends p (y.namedForward t opc o m.addr k)).setTrk t (some ((k.forwards o).inPhase .forward))) w
      ∧ v.forwardRead p t m.addr o shared
        = if shared then w.setDir p m.addr 1 (agentBit o ||| agentBit m.src.toNat) ((w.slice p).dir m.addr).poison else w := by
  have serves := h.turns.modLine m.addr fun l => { l with mode := 2, serve := some t, pend := if shared then 1 else 2 }
  refine ⟨_, _, (line_setLine_self ..).trans ?_, (ent_setLine ..).trans h.ent, h.lslice, h.stop, h.own,
    turns_forwards serves (by rw [trk_setLine, h.open_]) owner (a := m.addr) opc .forward, ?_⟩
  · rw [h.line]
  · simp only [State.forwardRead, (h.turns.trk t).trans h.open_, is, h.req]
    rfl

theorem not_le_effAge {s : State} {k : Trk} (arr : k.arr = s.time) {n : Nat} (young : k.req.age.toNat < n) :
    ¬ n ≤ effAge s.time k.req.age.toNat k.arr := by
  rw [arr, effAge, Nat.sub_self, Nat.add_zero]
  omega

section
variable {s u : State} {p t q : Nat} {k : Trk} (h : s.FoundAt u p t q k)
include h

/-- A request that arrives younger than the limit is not at breakaway (R99). -/
theorem State.FoundAt.young (young : k.req.age.toNat < (s.slice p).brkUs.toNat) : u.broke p k = false := by
  have limit : (s.foundAt p t q k).brkUs = (s.slice p).brkUs :=
    (congrArg (fun z : Slice => z.brkUs) (besidesEntries_foundAt s p t q k) :).trans (by rw [slice_takeMsg]; rfl)
  rw [broke_of_turns h.turns, limit]
  exact decide_eq_false (not_le_effAge h.arr young)

/-- No trigger of Table 6.3 holds for a request that nothing stops (R113). -/
theorem trigger_of_chains {v : State} {m : Msg} (req : k.req = m) (chains : s.chains p m q)
    (kind : k.kind = .readShared ∨ k.kind = .readOwn ∨ k.kind = .readNc)
    (turns : (s.takeMsg p m).Turns p ((s.foundAt p t q k).setLine m.addr { (s.slice p).line m.addr with pos := some q }) v) :
    v.trigger p k ((s.slice p).ent q) ((s.slice p).line m.addr) = false := by
  obtain ⟨st, sound, other, -, chainEn, shallow, pend, wbHeld, young, unheld⟩ := chains
  have besides := besidesEntries_foundAt s p t q k
  have taken := slice_takeMsg s p k.req
  have limit : (v.slice p).depthLim = (s.slice p).depthLim := (congrArg (fun z : Slice => z.depthLim) turns.slice :).trans
    ((congrArg (fun z : Slice => z.depthLim) besides :).trans (by rw [taken]; rfl))
  have chaining : (v.slice p).chainEn = true := (congrArg (fun z : Slice => z.chainEn) turns.slice :).trans
    ((congrArg (fun z : Slice => z.chainEn) besides :).trans (by rw [taken]; exact chainEn))
  have cache : (v.slice p).hlc = (s.slice p).hlc := turns.hlc.trans ((hlc_setLine ..).trans (hlc_foundAt ..))
  have spare : v.spare = s.spare := (congrArg (fun z : State => z.spare) turns.outside :)
  have maint : v.underMaint p m.addr = false := by
    rw [← unheld, State.underMaint, State.underMaint, Slice.maintOn, Slice.maintOn, State.evacHeld, State.evacHeld, cache, spare]
  have broke : v.broke p k = false := by
    rw [← h.young (by rw [req]; exact young), broke_of_turns turns, broke_of_turns h.turns]
    rfl
  have shallow' : ¬ (v.slice p).depthLim.toNat ≤ ((s.slice p).line m.addr).depth := by
    rw [limit]
    omega
  have near : (k.kind == .farAtomic || k.kind == .farProgram || k.kind == .writeFull || k.kind == .writePartial) = false := by
    rcases kind with is | is | is <;> rw [is] <;> rfl
  simp [State.trigger, st, sound, req, other, pend, wbHeld, shallow', near, broke, maint, chaining]

/-- A request that nothing stops is chained on its line, or forwarded to the owner (R110, R112, R113, Table 6.4). -/
theorem decideReq_chains {m : Msg} (req : k.req = m) (chains : s.chains p m q)
    (open_ : ((s.slice p).line m.addr).mode = 0 ∨ (((s.slice p).line m.addr).mode = 1 ∧ ((s.slice p).line m.addr).pos = some q))
    (kind : k.kind = .readShared ∨ k.kind = .readOwn ∨ k.kind = .readNc) :
    ∃ v x j, s.Forwarding v p t q m x j ∧ u.decideReq p t (some q) = match k.kind with
      | .readShared => v.forwardRead p t m.addr ((s.slice p).ent q).owner true
      | .readNc => (v.setWatch p m ((s.slice p).ent q)).forwardRead p t m.addr ((s.slice p).ent q).owner false
      | _ => v.chainOwn p t m.addr ((s.slice p).ent q).owner 1 := by
  have line : (u.slice p).line m.addr = (s.slice p).line m.addr := by rw [h.turns.line, line_foundAt]
  have placed := h.turns.modLine m.addr fun o => { o with pos := some q }
  rw [line_foundAt] at placed
  rw [req] at placed
  have untriggered := trigger_of_chains h req chains kind placed
  have stop := stop_foundAt s p t q k
  have own := local_foundAt s p t q k
  rw [req] at stop own
  have goes : s.Forwarding _ p t q m _ k := ⟨placed, (trk_setLine ..).trans (trk_foundAt ..), req, h.awaits, line_setLine_self ..,
    (ent_setLine ..).trans (ent_foundAt ..), lslice_foundAt .., stop, own⟩
  have pos : (if ((s.slice p).line m.addr).mode = 0 then some q else ((s.slice p).line m.addr).pos) = some q := by
    rcases open_ with closed | ⟨-, at_⟩
    · rw [if_pos closed]
    · rw [at_, ite_self]
  have unordered : ¬ (((s.slice p).line m.addr).mode = 2 ∨ ((s.slice p).line m.addr).mode = 3) := by
    rcases open_ with closed | ⟨chained, -⟩
    · rw [closed]; decide
    · rw [chained]; decide
  have entry : (u.slice p).ent q = (s.slice p).ent q := (h.turns.ent q).trans (ent_foundAt ..)
  have same : kindOn k ((s.slice p).ent q) = k.kind := by rcases kind with is | is | is <;> rw [kindOn, is] <;> rfl
  have held : needsEntry k ((s.slice p).ent q) (some q) = false := rfl
  simp only [State.decideReq, (h.turns.trk t).trans (trk_foundAt ..), h.marked, Bool.and_not_self, Bool.false_eq_true, if_false, line,
    unordered, pos, held, false_and, and_false, Slice.entAt, entry, same, req, untriggered]
  rcases kind with is | is | is <;> simp only [is]
  · exact ⟨_, _, k, goes, rfl⟩
  · exact ⟨_, _, _, goes.asKind .readOwn, rfl⟩
  · exact ⟨_, _, k, goes, rfl⟩

end

/-- The message that forwards the request `m` for tracker `t` to agent `o` (Table 4.6). -/
theorem namedForward_eq {x y : Slice} {k : Trk} {m : Msg} (req : k.req = m) (lslice : y.lslice = x.lslice) (t opc o : Nat) :
    y.namedForward t opc o m.addr k = { x.homeMsg opc (BitVec.ofNat 10 o) m.addr with
      htag := BitVec.ofNat 8 t, reqid := m.src, txn := m.txn } := by
  rw [Slice.namedForward, Slice.forwardMsg, homeMsg_congr lslice, req]

/-- Slice `p` has forwarded request `m` with opcode `opc` to the owner at way `q` for tracker `t`, which is in the phase; its line is
`l` and its entry has the state and the presence bits (R93, R110, R112). -/
def Forwards (s w : State) (p t q : Nat) (m : Msg) (opc : Nat) (phase : Phase) (l : Olt) (st : BitVec 2) (vec : BitVec 64) : Prop :=
  Sent (s.takeMsg p m) w p { (s.slice p).homeMsg opc (BitVec.ofNat 10 ((s.slice p).ent q).owner) m.addr with
    htag := BitVec.ofNat 8 t, reqid := m.src, txn := m.txn }
  ∧ (w.slice p).line m.addr = l ∧ ((w.slice p).ent q).st = st ∧ ((w.slice p).ent q).vec = vec
  ∧ ∃ y, (w.slice p).trk t = some y ∧ y.awaits = agentBit ((s.slice p).ent q).owner ∧ y.ownerForm = true ∧ y.phase = phase

theorem forwards_of_turns {s w : State} {p t q opc : Nat} {m : Msg} {y z : Slice} {k : Trk} {phase : Phase} {l : Olt} {e : SfEnt}
    (turns : (s.takeMsg p m).Turns p z w) (req : k.req = m) (unasked : k.awaits = 0)
    (trk : z.trk t = some ((k.forwards ((s.slice p).ent q).owner).inPhase phase)) (line : z.line m.addr = l) (ent : z.ent q = e)
    (told : z.stop = (y.sends p (y.namedForward t opc ((s.slice p).ent q).owner m.addr k)).stop)
    (own : z.local_ = (y.sends p (y.namedForward t opc ((s.slice p).ent q).owner m.addr k)).local_)
    (lslice : y.lslice = (s.slice p).lslice) (stop : y.stop = ((s.takeMsg p m).slice p).stop)
    (before : y.local_ = ((s.takeMsg p m).slice p).local_) : Forwards s w p t q m opc phase l e.st e.vec := by
  have sent := turns.sent told own stop before
  rw [namedForward_eq req lslice] at sent
  refine ⟨sent, (turns.line _).trans line, by rw [turns.ent, ent], by rw [turns.ent, ent], _, (turns.trk t).trans trk, ?_, rfl, rfl⟩
  exact (congrArg (· ||| _) unasked).trans BitVec.zero_or

section
variable {s : State} {p : Fin 132} {m : Msg} {q t : Nat} (found : (s.slice p).finds m.addr q) (free : (s.slice p).freeTrk = some t)
  (chains : s.chains p m q)
include found free chains

theorem readOwn_chains (accepted : s.accepts p (asOpc m 0x01))
    (sender : m.src.toNat < 64 ∧ s.glb.agents.getLsbD m.src.toNat = true) : Ends (.readOwn p m) s fun w =>
    Forwards s w p t q (asOpc m 0x01) 0x20 .chained
      { (s.slice p).line m.addr with pos := some q, mode := 1, depth := ((s.slice p).line m.addr).depth + 1 }
      2 (agentBit m.src.toNat) := by
  refine ends_arrive_of_finds found free rfl accepted fun u k at_ req kind => ?_
  obtain ⟨-, -, -, -, -, -, open_⟩ := found
  have is : k.kind = .readOwn := kind
  obtain ⟨v, x, j, goes, decided⟩ := decideReq_chains at_ req chains open_ (.inr (.inl is))
  obtain ⟨-, -, -, owner, -⟩ := chains
  simp only [is] at decided
  rw [decided]
  have owns := turns_chainOwn goes.turns goes.open_ owner (a := m.addr) (congrArg Olt.pos goes.line) (by rw [goes.req]; exact sender)
    1 rfl
  refine forwards_of_turns (e := mkEnt m.addr q 2 (agentBit m.src.toNat) false) owns goes.req goes.awaits (trk_setTrk_self ..) ?_ ?_
    rfl rfl ((lslice_directed ..).trans goes.lslice) ((stop_directed ..).trans goes.stop) ((local_directed ..).trans goes.own)
  · rw [line_setTrk, line_sends]
    exact (line_setLine_self ..).trans (congrArg (fun o : Olt => { o with mode := 1, depth := o.depth + 1 }) goes.line)
  · rw [ent_setTrk, ent_sends, ent_setLine, ent_directed, goes.req]
    rfl

theorem readNc_chains (accepted : s.accepts p (asOpc m 0x03)) : Ends (.readNc p m) s fun w =>
    Forwards s w p t q (asOpc m 0x03) 0x22 .forward { (s.slice p).line m.addr with pos := some q, mode := 2, serve := some t, pend := 2 }
      ((s.slice p).ent q).st ((s.slice p).ent q).vec := by
  refine ends_arrive_of_finds found free rfl accepted fun u k at_ req kind => ?_
  obtain ⟨-, -, -, -, -, -, open_⟩ := found
  have is : k.kind = .readNc := kind
  obtain ⟨v, x, j, goes, decided⟩ := decideReq_chains at_ req chains open_ (.inr (.inr is))
  obtain ⟨-, -, -, owner, -⟩ := chains
  simp only [is] at decided
  obtain ⟨w, y, line, ent, lslice, stop, own, reads, ends⟩ :=
    (goes.setWatch ((s.slice p).ent q)).forwardRead owner false rfl
  rw [decided, show State.forwardRead .. = w from ends]
  exact forwards_of_turns reads goes.req goes.awaits (trk_setTrk_self ..) line ent rfl rfl lslice stop own

theorem readShared_chains (accepted : s.accepts p (asOpc m 0x00))
    (sender : m.src.toNat < 64 ∧ s.glb.agents.getLsbD m.src.toNat = true) : Ends (.readShared p m) s fun w =>
    Forwards s w p t q (asOpc m 0x00) 0x21 .forward { (s.slice p).line m.addr with pos := some q, mode := 2, serve := some t, pend := 1 }
      1 (agentBit ((s.slice p).ent q).owner ||| agentBit m.src.toNat) := by
  refine ends_arrive_of_finds found free rfl accepted fun u k at_ req kind => ?_
  obtain ⟨-, -, -, -, -, -, open_⟩ := found
  have is : k.kind = .readShared := kind
  obtain ⟨v, x, j, goes, decided⟩ := decideReq_chains at_ req chains open_ (.inl is)
  obtain ⟨-, -, -, owner, -⟩ := chains
  obtain ⟨small, agent⟩ := sender
  simp only [is] at decided
  obtain ⟨w, y, line, ent, lslice, stop, own, reads, ends⟩ := goes.forwardRead owner true rfl
  rw [decided, show v.forwardRead p t (asOpc m 0x00).addr _ true = w.setDir p (asOpc m 0x00).addr 1 _ _ from ends]
  have both : (agentBit ((s.slice p).ent q).owner ||| agentBit m.src.toNat) &&& s.glb.agents
      = agentBit ((s.slice p).ent q).owner ||| agentBit m.src.toNat := by
    rw [BitVec.and_comm, BitVec.and_or_distrib_left, BitVec.and_comm, agentBit_and_of_present owner, BitVec.and_comm,
      agentBit_and_of_present agent]
  have st := st_of_present (g := s.glb.agents) (v := agentBit ((s.slice p).ent q).owner ||| agentBit m.src.toNat) (n := m.src.toNat) agent
    (by rw [BitVec.getLsbD_or, getLsbD_agentBit_self small, Bool.or_true]) 1
  have shares := reads.setDir (a := m.addr) (q := q) (congrArg Olt.pos line) 1
    (agentBit ((s.slice p).ent q).owner ||| agentBit m.src.toNat) ((w.slice p).dir m.addr).poison
  rw [show (s.takeMsg p (asOpc m 0x00)).glb.agents = s.glb.agents from rfl, st, both] at shares
  exact forwards_of_turns shares goes.req goes.awaits ((trk_directed ..).trans (trk_setTrk_self ..)) ((line_directed ..).trans line)
    (ent_directed ..) (stop_directed ..) (local_directed ..) lslice stop own

end

end Sys2Proof.Machine
end

section
/-! SUPPORT. The request rows on a fresh slice, and at a line with a way entry, together (O13). -/

namespace Sys2Proof.Machine

open Sys2Proof

/-- The rows of reads and partial writes at a slice that holds nothing. -/
theorem reads_on_fresh {p : Fin 132} {m : Msg} {s : State} (fresh : (s.slice p).fresh) {e : (Fin 132 → Msg → Instr) × Nat}
    (he : e ∈ ([(.readShared, 0x00), (.readOwn, 0x01), (.upgrade, 0x02), (.readNc, 0x03), (.writeNcPartial, 0x05)] :
      List ((Fin 132 → Msg → Instr) × Nat))) (accepted : s.accepts p (asOpc m e.2))
    (present : e.2 < 3 → m.src.toNat < 64 ∧ s.glb.agents.getLsbD m.src.toNat = true)
    (other : m.src ≠ BitVec.ofNat 10 (320 + p.val)) : Ends (e.1 p m) s fun t =>
      ReadsHome s t p (asOpc m e.2) (if e.2 = 0 then 1 else if e.2 < 3 then 2 else 0) (if e.2 < 3 then agentBit m.src.toNat else 0)
      ∧ OnlySlices s t := by
  simp only [List.mem_cons, List.not_mem_nil, or_false] at he
  obtain rfl | rfl | rfl | rfl | rfl := he
  · exact (readShared_fresh fresh (present (by decide)) accepted).onlySlices rfl
  · exact (readOwn_fresh fresh (present (by decide)) rfl (.inl rfl) accepted).onlySlices rfl
  · exact (readOwn_fresh fresh (present (by decide)) rfl (.inr rfl) accepted).onlySlices rfl
  · exact (readNc_fresh fresh accepted).onlySlices rfl
  · exact (writePartial_fresh fresh accepted other).onlySlices rfl

/-- The rows of reads at a line that another agent owns, with no trigger. -/
theorem reads_on_owned {p : Fin 132} {m : Msg} {s : State} {q k : Nat} (found : (s.slice p).finds m.addr q)
    (free : (s.slice p).freeTrk = some k) {e : (Fin 132 → Msg → Instr) × Nat × Nat}
    (he : e ∈ ([(.readOwn, 0x01, 0x20), (.readShared, 0x00, 0x21), (.readNc, 0x03, 0x22)] :
      List ((Fin 132 → Msg → Instr) × Nat × Nat))) (accepted : s.accepts p (asOpc m e.2.1)) (chains : s.chains p m q)
    (present : e.2.1 ≠ 3 → m.src.toNat < 64 ∧ s.glb.agents.getLsbD m.src.toNat = true) : Ends (e.1 p m) s fun t =>
      Forwards s t p k q (asOpc m e.2.1) e.2.2 (if e.2.1 = 1 then .chained else .forward)
        (if e.2.1 = 1 then
          { (s.slice p).line m.addr with pos := some q, mode := 1, depth := ((s.slice p).line m.addr).depth + 1 }
        else { (s.slice p).line m.addr with pos := some q, mode := 2, serve := some k, pend := if e.2.1 = 0 then 1 else 2 })
        (if e.2.1 = 0 then 1 else 2)
        (if e.2.1 = 1 then agentBit m.src.toNat
          else if e.2.1 = 0 then agentBit ((s.slice p).ent q).owner ||| agentBit m.src.toNat else ((s.slice p).ent q).vec) := by
  simp only [List.mem_cons, List.not_mem_nil, or_false] at he
  obtain rfl | rfl | rfl := he
  · exact readOwn_chains found free chains accepted (present (by decide))
  · exact readShared_chains found free chains accepted (present (by decide))
  · have forwards := readNc_chains found free chains accepted
    obtain ⟨st, -⟩ := chains
    rw [st] at forwards
    exact forwards

/-- Settles O13: each request row runs to its admitted request, whose lookup finds nothing, or the one way entry; what the decision
there does is followed operation by operation. -/
theorem requestsAreServedOnAFreshSlice : Obligations.RequestsAreServedOnAFreshSlice := by
  unfold Obligations.RequestsAreServedOnAFreshSlice
  refine ⟨fun p m s fresh => ⟨?_, ?_, ?_, ?_, ?_, ?_⟩, fun p m s q k found free => ⟨?_, ?_⟩⟩
  · intro e he accepted present other
    refine (reads_on_fresh fresh he accepted present other).mono fun t ⟨⟨trk, mode, serve, mshr, st, vec, nothing⟩, only⟩ => ?_
    exact ⟨trk, mode, serve, mshr, st, vec, nothing, only⟩
  · intro accepted _
    refine ((writeFull_fresh fresh accepted).onlySlices rfl).mono fun t ⟨⟨trk, olt, line, sent⟩, only⟩ => ?_
    exact ⟨trk, olt, line, sent, only⟩
  · intro accepted told
    exact ((atomicReq_fresh fresh accepted told).onlySlices rfl).mono fun t ⟨⟨queue, trk, nothing⟩, only⟩ =>
      ⟨queue, trk, nothing, only⟩
  · intro accepted agent present hint
    have small : m.src.toNat < 64 := BitVec.lt_of_getLsbD present
    exact ((atomicReq_near_fresh fresh accepted agent hint ⟨small, present⟩).onlySlices rfl).mono
      fun t ⟨⟨queue, trk, st, vec, nothing⟩, only⟩ => ⟨queue, trk, st, vec, nothing, only⟩
  · intro accepted valid
    exact ((farOp_fresh fresh accepted valid).onlySlices rfl).mono fun t ⟨⟨queue, trk, nothing⟩, only⟩ =>
      ⟨queue, trk, nothing, only⟩
  · intro accepted invalid
    exact ((farOp_declined_fresh fresh accepted invalid).onlySlices rfl).mono fun t ⟨⟨trk, queue, olt, sent⟩, only⟩ =>
      ⟨trk, queue, olt, sent, only⟩
  · intro e he accepted chains present
    refine (reads_on_owned found free he accepted chains present).mono fun t ⟨sent, line, st, vec, trk⟩ => ?_
    exact ⟨sent, line, st, vec, trk⟩
  · intro closed shared small agent
    refine ⟨fun e he accepted unset some_ => ?_, fun accepted bit => ⟨fun some_ => ?_, fun alone => ?_⟩, fun accepted => ?_⟩
    · simp only [List.mem_cons, List.not_mem_nil, or_false] at he
      obtain rfl | rfl := he
      · exact readOwn_shared found free closed shared ⟨small, agent⟩ rfl (.inl rfl) accepted rfl some_
      · exact readOwn_shared found free closed shared ⟨small, agent⟩ rfl (.inr ⟨rfl, unset rfl⟩) accepted rfl some_
    · exact upgrade_asks found free closed shared ⟨small, agent⟩ bit accepted rfl some_
    · refine (upgrade_alone found free closed shared ⟨small, agent⟩ bit accepted alone).mono fun t ⟨own, trk, line, sent⟩ => ?_
      exact ⟨own, trk, line, sent⟩
    · exact readShared_shared found free closed shared ⟨small, agent⟩ accepted

end Sys2Proof.Machine
end

section
/-! SUPPORT. What a lookup leaves of an open line, and requests that queue behind one (R107, R109, R114, R183). -/

namespace Sys2Proof.Machine

open Sys2Proof

/-! A lookup and the open lines (R177, R183, R186) -/

/-- A change of a table's values is read at a key that keeps a value of its own. -/
theorem get_mapv_of_ne {α : Type} [DecidableEq α] {d : Nat → α} {f : Nat → α → α} {m : NMap α} {k : Nat} (listed : m.get d k ≠ d k)
    (kept : f k (m.get d k) ≠ d k) : (NMap.mapv d f m).get d k = f k (m.get d k) := by
  induction m with
  | nil => exact absurd rfl listed
  | cons e rest ih =>
    obtain ⟨i, v⟩ := e
    have cons : NMap.mapv d f ((i, v) :: rest) = if f i v ≠ d i then (i, f i v) :: NMap.mapv d f rest else NMap.mapv d f rest := by
      simp [NMap.mapv, List.filter_cons]
    rw [cons]
    by_cases same : i = k
    · subst same
      simp only [NMap.get, if_true] at kept ⊢
      rw [if_pos kept]
      simp [NMap.get]
    · simp only [NMap.get, if_neg same] at listed kept ⊢
      split
      · simpa only [NMap.get, if_neg same] using ih listed kept
      · exact ih listed kept

theorem olt_ovfSync (x : Slice) (k : Nat) : (x.ovfSync k).olt = x.olt := by
  unfold Slice.ovfSync
  split <;> rfl

theorem olt_sfCapture (x : Slice) (c : BitVec 31) : (x.sfCapture c).olt = x.olt := by
  unfold Slice.sfCapture
  split <;> rfl

section
variable (s : State) (p : Nat)

theorem olt_count (c : Cnt) : ((s.count p c).slice p).olt = (s.slice p).olt :=
  (congrArg (fun z : Slice => z.olt) (onlyCounts_count s p c).slice :)

theorem olt_setSlice (x : Slice) : ((s.setSlice p x).slice p).olt = x.olt := by rw [slice_setSlice, if_pos rfl]

theorem olt_sfSuspect (key : Nat) (sc : BitVec 109) (patrol : Bool) (i : Nat) :
    ((s.sfSuspect p key sc patrol i).slice p).olt = (s.slice p).olt := by
  cases fate : s.suspectFate p key sc i with
  | zeroed => rw [sfSuspect_zeroed fate]
  | tagSuspect => rw [sfSuspect_tagSuspect fate, slice_sliceErr]
  | marked d => rw [sfSuspect_marked fate, slice_fireSlice, slice_sliceErr, olt_count]

/-- A block check leaves the open lines. -/
theorem olt_sfBlockCheck (key : Nat) (patrol : Bool) : ((s.sfBlockCheck p key patrol).slice p).olt = (s.slice p).olt := by
  cases outcome : ((s.slice p).sfBlock key).syndrome with
  | clean =>
    rw [sfBlockCheck_clean outcome]
    split
    · rfl
    · rw [olt_setSlice]
      rfl
  | corrected kind row =>
    rw [sfBlockCheck_corrected outcome, slice_fireSlice, slice_sliceErr, olt_count, olt_setSlice, Slice.corrected, olt_sfCapture,
      olt_ovfSync]
    rfl
  | uncorrectable =>
    unfold State.sfBlockCheck
    simp only [outcome]
    rw [slice_modSlice, if_pos rfl, olt_ovfSync]
    refine (foldl_keeps (fun u => (u.slice p).olt) _ (fun u i => olt_sfSuspect u p key _ patrol i) _ _).trans ?_
    rw [olt_setSlice, olt_sfCapture]

theorem olt_sfLookupChecks (set : Nat) : ((s.sfLookupChecks p set).slice p).olt = (s.slice p).olt := by
  refine foldl_keeps (fun u => (u.slice p).olt) _ (fun u k => ?_) _ _
  split
  · exact olt_sfBlockCheck ..
  · rfl

theorem olt_sfDuplicate (hits : List Nat) : ((s.sfDuplicate p hits).slice p).olt = (s.slice p).olt := by
  unfold State.sfDuplicate
  split
  · rw [slice_sliceErr, slice_modSlice, if_pos rfl, olt_sfCapture]
  · rfl

end

/-- A line keeps everything but its position. -/
def Olt.Stays (o o' : Olt) : Prop := ∃ pos, o' = { o with pos }

section
variable {s : State} {p : Nat} {a : LineAddr} (open_ : ((s.slice p).line a).mode ≠ 0)
include open_

theorem line_sfMigrate (q : Nat) : ((s.slice p).line a).Stays (((s.sfMigrate p q).slice p).line a) := by
  have self : ((s.slice p).line a).Stays ((s.slice p).line a) := ⟨_, rfl⟩
  unfold State.sfMigrate
  dsimp only
  split
  · split
    · exact self
    · next r _ =>
      have olt : ((((s.slice p).setEnt r { (s.slice p).ent q with set := 0 }).setEnt q {}).touchSf r).olt = (s.slice p).olt :=
        olt_of_besidesEntries (by rw [besidesEntries_touchSf, besidesEntries_setEnt, besidesEntries_setEnt])
      have listed : (s.slice p).olt.get Olt.dflt a.toNat ≠ Olt.dflt a.toNat := fun none_ => open_ (congrArg Olt.mode none_)
      simp only [Slice.line, olt_count, olt_setSlice, olt]
      rw [get_mapv_of_ne listed]
      · split
        · exact ⟨_, rfl⟩
        · exact self
      · split
        · exact fun none_ => open_ (congrArg Olt.mode none_)
        · exact listed
  · exact self

/-- A lookup may move the entry of an open line, and leaves the rest of it. -/
theorem line_lookup (b : LineAddr) : ((s.slice p).line a).Stays (((s.lookup p b).1.slice p).line a) := by
  have scanned := line_of_besidesCache (besidesCache_of_besidesLines (besidesLines_hTagScan s p b)) a
  rw [← scanned] at open_ ⊢
  rw [State.lookup, State.sfLookup]
  generalize s.hTagScan p b = u at open_ ⊢
  have checked (hits : List Nat) : (((u.sfLookupChecks p (sfSetOf b).toNat).sfDuplicate p hits).slice p).line a
      = (u.slice p).line a := by
    rw [Slice.line, olt_sfDuplicate, olt_sfLookupChecks, Slice.line]
  dsimp only
  split
  · next none_ =>
    rw [checked]
    exact ⟨_, rfl⟩
  · next q rest found =>
    rw [slice_modSlice, if_pos rfl, line_of_besidesEntries (besidesEntries_touchSf ..) a]
    have counted : ((((u.sfLookupChecks p (sfSetOf b).toNat).sfDuplicate p (((u.sfLookupChecks p (sfSetOf b).toNat).slice p).sfHits b)
        ).slcEvent p 0x02).slice p).line a = (u.slice p).line a := by
      rw [slice_slcEvent, checked]
    rw [← counted] at open_ ⊢
    exact line_sfMigrate open_ _

end

theorem trks_lookup (s : State) (p : Nat) (a : LineAddr) : ((s.lookup p a).1.slice p).trks = (s.slice p).trks :=
  (congrArg (fun z : Slice => z.trks) (besidesFilter_sfLookup (s.hTagScan p a) p a) :).trans
    (congrArg (fun z : Slice => z.trks) (besidesLines_hTagScan s p a) :)

theorem brkUs_lookup (s : State) (p : Nat) (a : LineAddr) : ((s.lookup p a).1.slice p).brkUs = (s.slice p).brkUs :=
  (congrArg (fun z : Slice => z.brkUs) (besidesFilter_sfLookup (s.hTagScan p a) p a) :).trans
    (congrArg (fun z : Slice => z.brkUs) (besidesLines_hTagScan s p a) :)

theorem time_lookup (s : State) (p : Nat) (a : LineAddr) : (s.lookup p a).1.time = s.time :=
  time_of_rest ((State.sfLookup_rest ..).trans (State.hTagScan_rest ..))

theorem broke_lookup (s : State) (p : Nat) (a : LineAddr) (k : Trk) : (s.lookup p a).1.broke p k = s.broke p k :=
  broke_congr (time_lookup s p a) (brkUs_lookup s p a) k

/-! Conflict queues (R107, R114) -/

/-- A young request queues behind a line that is home-ordered or draining, whatever its lookup finds (R109, R114). -/
theorem arrive_behind {s : State} {p t : Nat} {k : Trk} (open_ : (s.slice p).trk t = some k) (young : s.broke p k = false)
    (unmarked : k.brk = false)
    (ordered : ((s.slice p).line k.req.addr).mode = 2 ∨ ((s.slice p).line k.req.addr).mode = 3) :
    (∃ pos, ((s.arrive p t).slice p).line k.req.addr = { (s.slice p).line k.req.addr with
      queue := ((s.slice p).line k.req.addr).queue.filter (· != t) ++ [t], pos })
    ∧ ((s.arrive p t).slice p).trk t = some { k with phase := .queued } ∧ SentNothing s (s.arrive p t) p := by
  have some_ : ((s.slice p).line k.req.addr).mode ≠ 0 := by rcases ordered with h | h <;> simp [h]
  obtain ⟨pos, stays⟩ := line_lookup some_ k.req.addr
  have open' : ((s.lookup p k.req.addr).1.slice p).trk t = some k := by
    rw [Slice.trk, trks_lookup]
    exact open_
  have still := (broke_lookup s p k.req.addr k).trans young
  obtain ⟨quiet, -⟩ := lookup_spec s p k.req.addr
  rcases result : s.lookup p k.req.addr with ⟨v, hit⟩
  rw [result] at stays open' still quiet
  rw [arrive_of_lookup open_ result, decideReq_of_ordered open' still (by rwa [stays])]
  refine ⟨⟨pos, ?_⟩, ?_, quiet.trans (sentNothing_enqueue ..)⟩
  · rw [slice_enqueue, line_setTrk, line_setLine_self, joined_of_young open' unmarked, stays]
  · rw [slice_enqueue, trk_setTrk_self, open', Option.map_some]

/-- An accepted, young request for a line that is home-ordered or draining queues behind it. -/
theorem ends_behind {c : Instr} {s : State} {p t : Nat} {m : Msg} (row : exec c s = .next (s.request p m fun s t => s.arrive p t))
    (accepted : s.accepts p m) (free : (s.slice p).freeTrk = some t)
    (ordered : ((s.slice p).line m.addr).mode = 2 ∨ ((s.slice p).line m.addr).mode = 3)
    (young : m.age.toNat < (s.slice p).brkUs.toNat) (absent : t ∉ ((s.slice p).line m.addr).queue) : Ends c s fun w =>
      ((w.slice p).line m.addr).queue = ((s.slice p).line m.addr).queue ++ [t]
      ∧ ((w.slice p).line m.addr).mode = ((s.slice p).line m.addr).mode
      ∧ ((w.slice p).line m.addr).depth = ((s.slice p).line m.addr).depth
      ∧ ((w.slice p).line m.addr).serve = ((s.slice p).line m.addr).serve
      ∧ (∃ x, (w.slice p).trk t = some x ∧ x.req = m ∧ x.phase = .queued ∧ x.arr = s.time)
      ∧ SentNothing (s.takeMsg p m) w p := by
  refine ends_request row accepted free fun u seq brk brkAt admits => ?_
  have line : (u.slice p).line m.addr = (s.slice p).line m.addr :=
    (admits.turns.line m.addr).trans (congrArg (·.get Olt.dflt m.addr.toNat) (olt_takeMsg s p m))
  have limit : (((s.takeMsg p m).slice p).opens t (.entered m s.time seq brk brkAt)).brkUs = (s.slice p).brkUs := by
    rw [slice_takeMsg]
    rfl
  have unbroken : u.broke p (.entered m s.time seq brk brkAt) = false := by
    rw [← limit] at young
    rw [broke_of_turns admits.turns]
    exact decide_eq_false (not_le_effAge (k := .entered m s.time seq brk brkAt) rfl young)
  obtain ⟨⟨pos, joins⟩, trk, quiet⟩ := arrive_behind ((admits.turns.trk t).trans (trk_opens_self ..)) unbroken
    (admits.marked.symm.trans unbroken) (line.symm ▸ ordered)
  have there (i : Nat) (listed : i ∈ ((s.slice p).line m.addr).queue) : (i != t) = true :=
    bne_iff_ne.mpr fun same => absurd (same ▸ listed) absent
  rw [show (Trk.entered m s.time seq brk brkAt).req = m from rfl, line, List.filter_eq_self.mpr there] at joins
  exact ⟨by rw [joins], by rw [joins], by rw [joins], by rw [joins],
    ⟨_, trk, rfl, rfl, rfl⟩, (admits.turns.sentNothing rfl rfl).trans quiet⟩

end Sys2Proof.Machine
end

section
/-! SUPPORT. Writebacks and clean evictions (R25, R106, R109, R118, R121, R122, R124). -/

namespace Sys2Proof.Machine

open Sys2Proof

theorem Recorded.after {s t u : State} {cls : BitVec 2} {code : BitVec 8} {index : Nat} (h : Recorded s t cls code index)
    (ras : u.ras = t.ras) : Recorded s u cls code index := by
  unfold Recorded at h ⊢
  rwa [ras]

theorem ent_takeMsg (s : State) (p : Nat) (m : Msg) (q : Nat) : ((s.takeMsg p m).slice p).ent q = (s.slice p).ent q := by
  rw [Slice.ent, Slice.ent, Slice.sfBlock, Slice.sfBlock, sfl_takeMsg]

/-! Taking a WB-class message (R25, R109) -/

section
variable {s : State} {p : Nat} {m : Msg} {go : State → Option Nat → State}

/-- What a WB-class message goes on with after its lookup. -/
def State.wbNoted (s : State) (p : Nat) (m : Msg) : State := (s.takeMsg p m).noteTaken p m

theorem turns_wbNoted (s : State) (p : Nat) (m : Msg) :
    (s.takeMsg p m).Turns p ((s.takeMsg p m).slice p) (s.wbNoted p m) :=
  (State.Turns.refl ..).onlyCounts (onlyCounts_noteTaken ..)

theorem wbTake_waiting (waits : (s.slice p).mayTake p m = false) : s.wbTake p m go = s := taking_of_waiting waits _

theorem wbTake_elsewhere (next : (s.slice p).mayTake p m = true) (away : homeMatches (s.slice p) m true = false) :
    s.wbTake p m go = (s.takeMsg p m).homeMismatch p m := by
  rw [State.wbTake, taking_of_next next]
  exact if_pos (by simp [away])

theorem wbTake_here (next : (s.slice p).mayTake p m = true) (home : homeMatches (s.slice p) m true = true) {v : State}
    {hit : Option Nat} (look : (s.wbNoted p m).lookup p m.addr = (v, hit)) :
    s.wbTake p m go = go v ((v.slice p).posOf m.addr hit) := by
  rw [State.wbTake, taking_of_next next]
  refine (if_neg (by simp [home])).trans ?_
  rw [show (s.takeMsg p m).noteTaken p m = s.wbNoted p m from rfl, look]

/-- A WB-class message for a home that the slice is not is discarded, with a block-fatal record (R25). -/
theorem wbTake_discards (next : (s.slice p).mayTake p m = true) (away : homeMatches (s.slice p) m true = false) :
    Recorded s (s.wbTake p m go) 2 0x04 p ∧ (s.wbTake p m go).saf.fatal.isSome = true
    ∧ SentNothing (s.takeMsg p m) (s.wbTake p m go) p ∧ ((s.wbTake p m go).slice p).hlc = (s.slice p).hlc
    ∧ ((s.wbTake p m go).slice p).sfl = (s.slice p).sfl := by
  obtain ⟨recorded, fatal, slice⟩ := homeMismatch_spec (s.takeMsg p m) p m
  rw [wbTake_elsewhere next away]
  exact ⟨recorded.from_before rfl rfl, fatal, sentNothing_of_slice (by rw [slice]) (by rw [slice]), by rw [slice, hlc_takeMsg],
    by rw [slice, sfl_takeMsg]⟩

end

/-! The answer, and the entry that a writer leaves (R106, R122) -/

theorem stop_setEnt (x : Slice) (q : Nat) (e : SfEnt) : (x.setEnt q e).stop = x.stop :=
  stop_of_besidesEntries (besidesEntries_setEnt ..)
theorem local_setEnt (x : Slice) (q : Nat) (e : SfEnt) : (x.setEnt q e).local_ = x.local_ :=
  local_of_besidesEntries (besidesEntries_setEnt ..)
theorem lslice_setEnt (x : Slice) (q : Nat) (e : SfEnt) : (x.setEnt q e).lslice = x.lslice :=
  lslice_of_besidesEntries (besidesEntries_setEnt ..)

/-- The answer to the WB-class message `m`. -/
def Slice.wbMsg (x : Slice) (opc : Nat) (m : Msg) : Msg :=
  { x.homeMsg opc m.src m.addr with txn := m.txn, cret := true }

section
variable {s u : State} {p q : Nat} {x : Slice} {a : LineAddr} (h : s.Turns p x u)
include h

theorem turns_wbAnswer (m : Msg) (opc : Nat) : s.Turns p (x.sends p (x.wbMsg opc m)) (u.wbAnswer p m opc) := by
  have home := homeMsg_congr (lslice_of_besidesNotes h.slice) opc m.src m.addr
  have emits := h.emit (x.wbMsg opc m)
  rw [Slice.wbMsg, ← home] at emits ⊢
  exact emits

theorem turns_setEnt_if {c : Slice → Prop} [∀ y, Decidable (c y)] (same : c (u.slice p) ↔ c x) (e : SfEnt) :
    s.Turns p (x.setEnt q (if c x then {} else e))
      (u.modSlice p fun y => if c y then y.setEnt q {} else y.setEnt q e) := by
  refine h.modSlice ?_
  by_cases holds : c x
  · rw [if_pos (same.mpr holds), if_pos holds, besidesNotes_setEnt, h.slice, besidesNotes_setEnt]
  · rw [if_neg fun c => holds (same.mp c), if_neg holds, besidesNotes_setEnt, h.slice, besidesNotes_setEnt]

/-- The entry of a line that its owner has given up (R106, R121). -/
theorem turns_dropEntry (poison : Bool) :
    s.Turns p (x.setEnt q (if (x.line a).mode = 0 ∧ (!poison) = true then {} else mkEnt a q 0 0 poison))
      (u.dropEntry p a (some q) poison) :=
  turns_setEnt_if h (c := fun y => (y.line a).mode = 0 ∧ (!poison) = true) (by rw [h.line]) _

end

/-- A dropped entry is `DIR_I` of no agent, with the poison bit it was given. -/
theorem dropped_entry (c : Prop) [Decidable c] (a : LineAddr) (q : Nat) (poison : Bool) {e : SfEnt}
    (is : e = if c ∧ (!poison) = true then {} else mkEnt a q 0 0 poison) : e.st = 0 ∧ e.vec = 0 ∧ e.poison = poison := by
  split at is
  · next free =>
    obtain ⟨-, clean⟩ := free
    subst is
    exact ⟨rfl, rfl, by simpa using clean.symm⟩
  · subst is
    exact ⟨rfl, rfl, rfl⟩

/-- The entry that a caching agent that is not the owner leaves (R106, R122). -/
def SfEnt.without (e : SfEnt) (w : Nat) : SfEnt :=
  { e with vec := e.vec &&& ~~~(agentBit w), st := if e.st = 1 ∧ e.vec &&& ~~~(agentBit w) = 0 then 0 else e.st }

/-- An entry in use that a sharer leaves is erased only where it has become `DIR_I` of no agent. -/
theorem left_entry {e f : SfEnt} {w : Nat} (used : e.allocated = true) (c : Prop) [Decidable c]
    (is : f = if c ∧ (!(e.without w).allocated) = true then {} else e.without w) :
    f.vec = (e.without w).vec ∧ f.st = (e.without w).st := by
  split at is
  · next free =>
    obtain ⟨-, unused⟩ := free
    subst is
    simp only [SfEnt.allocated, Bool.not_eq_true', Bool.or_eq_false_iff, bne_eq_false_iff_eq] at unused used
    obtain ⟨st, clean⟩ := unused
    refine ⟨?_, st.symm⟩
    by_cases last : e.st = 1 ∧ e.vec &&& ~~~(agentBit w) = 0
    · obtain ⟨-, none_⟩ := last
      exact none_.symm
    · have same : (e.without w).st = e.st := if_neg last
      rw [same] at st
      have poison : e.poison = false := clean
      simp [st, poison] at used
  · subst is
    exact ⟨rfl, rfl⟩

/-- A way that a lookup finds is in use (R176). -/
theorem allocated_of_mem_sfHits {x : Slice} {a : LineAddr} {q : Nat} (hit : q ∈ x.sfHits a) : (x.ent q).allocated = true := by
  rcases List.mem_append.mp hit with way | ovf
  · have kept := (List.mem_filter.mp way).2
    simp only [Bool.and_eq_true] at kept
    exact kept.1
  · have kept := (List.mem_filter.mp ovf).2
    simp only [Bool.and_eq_true] at kept
    exact kept.1.1.2

theorem turns_clearBit {s u : State} {p q w : Nat} {x : Slice} (h : s.Turns p x u) (a : LineAddr) (bit : (x.ent q).has w = true) :
    s.Turns p (x.setEnt q (if (x.line a).mode = 0 ∧ (!((x.ent q).without w).allocated) = true then {} else (x.ent q).without w))
      (u.clearBit p a (some q) w) := by
  have clears : u.clearBit p a (some q) w = u.modSlice p fun y =>
      if (y.line a).mode = 0 ∧ (!((x.ent q).without w).allocated) = true then y.setEnt q {} else y.setEnt q ((x.ent q).without w) := by
    simp only [State.clearBit, h.ent, bit, Bool.not_true, Bool.false_eq_true, if_false]
    rfl
  rw [clears]
  exact turns_setEnt_if h (c := fun y => (y.line a).mode = 0 ∧ (!((x.ent q).without w).allocated) = true) (by rw [h.line]) _

/-! The decisions (R121, R122) -/

section
variable {u : State} {p q : Nat} {m : Msg}

theorem writeback_stale (alone : (u.slice p).forwardAwaits m.addr m.src.toNat = false) :
    u.writeback p m none false = (u.count p .stale).wbAnswer p m 0x2C := by
  have idle : ¬ ({} : SfEnt).st = 3 ∧ ¬ (({} : SfEnt).st = 2 ∧ ({} : SfEnt).has m.src.toNat = true) := by
    exact ⟨by decide, fun ⟨owned, _⟩ => absurd owned (by decide)⟩
  obtain ⟨sound, unowned⟩ := idle
  simp only [State.writeback, alone, Slice.entAt, sound, unowned, State.clearBit, Bool.false_eq_true, if_false]

theorem writeback_owned (alone : (u.slice p).forwardAwaits m.addr m.src.toNat = false) (st : ((u.slice p).ent q).st = 2)
    (bit : ((u.slice p).ent q).has m.src.toNat = true) : u.writeback p m (some q) false
      = ((u.storeLine p m.addr m.data m.poison none).1.dropEntry p m.addr (some q) ((u.slice p).ent q).poison).wbAnswer p m 0x2B := by
  have sound : ¬ (2 : BitVec 2) = 3 := by decide
  simp only [State.writeback, alone, Slice.entAt, st, bit, sound, Bool.false_eq_true, if_false, and_self, if_true]

theorem writeback_held (awaits : (u.slice p).forwardAwaits m.addr m.src.toNat = true) (pos : Option Nat) :
    u.writeback p m pos false = u.modLine p m.addr fun o => { o with wbHeld := o.wbHeld ++ [m] } := by
  simp only [State.writeback, awaits, if_true]

theorem evictClean_uncached : u.evictClean p m none = u.wbAnswer p m 0x2B := by
  have idle : ¬ ({} : SfEnt).st = 3 ∧ ¬ (({} : SfEnt).st = 2 ∧ ({} : SfEnt).has m.src.toNat = true) := by
    exact ⟨by decide, fun ⟨owned, _⟩ => absurd owned (by decide)⟩
  obtain ⟨sound, unowned⟩ := idle
  simp only [State.evictClean, Slice.entAt, sound, unowned, State.clearBit, if_false]

theorem evictClean_owned (st : ((u.slice p).ent q).st = 2) (bit : ((u.slice p).ent q).has m.src.toNat = true) :
    u.evictClean p m (some q) = ((u.protoError p m 2 ((u.slice p).line m.addr).mode).dropEntry p m.addr (some q) true).wbAnswer p m
      0x2B := by
  have sound : ¬ (2 : BitVec 2) = 3 := by decide
  simp only [State.evictClean, Slice.entAt, st, bit, sound, if_false, and_self, if_true]

theorem evictClean_shared (unowned : ((u.slice p).ent q).st ≠ 2) (sound : ((u.slice p).ent q).st ≠ 3) :
    u.evictClean p m (some q) = (u.clearBit p m.addr (some q) m.src.toNat).wbAnswer p m 0x2B := by
  simp only [State.evictClean, Slice.entAt, unowned, sound, if_false, false_and]

end

/-! At a slice that holds nothing for the line -/

theorem forwardAwaits_congr {x y : Slice} (h : y.trks = x.trks) (a : LineAddr) (w : Nat) : y.forwardAwaits a w = x.forwardAwaits a w := by
  rw [Slice.forwardAwaits, Slice.forwardAwaits, Slice.used, Slice.used, h]

section
variable {s : State} {p : Nat} {m : Msg} (fresh : (s.slice p).fresh)
include fresh

theorem wbTake_of_fresh (next : (s.slice p).mayTake p m = true) (home : homeMatches (s.slice p) m true = true)
    (go : State → Option Nat → State) : s.wbTake p m go = go (s.wbNoted p m) none := by
  have turns := turns_wbNoted s p m
  obtain ⟨-, olt, -, blocks, -, -, lines, -⟩ := fresh
  have look := lookup_of_no_blocks (s := s.wbNoted p m) (p := p)
    (by rw [sfl_of_besidesNotes turns.slice, sfl_takeMsg, blocks]) m.addr
  rw [hTagScan_of_no_lines (by rw [turns.hlc, hlc_takeMsg, lines])] at look
  have closed : ((s.wbNoted p m).slice p).line m.addr = {} := by
    rw [turns.line, Slice.line, olt_takeMsg, olt]
    rfl
  rw [wbTake_here next home look, Slice.posOf, closed]
  rfl

end

/-- A slice's answer to a WB-class message is what it has sent (R68). -/
theorem sent_wbAnswer {s u : State} {p : Nat} {x : Slice} {m q : Msg} (h : (s.takeMsg p q).Turns p x u)
    (stop : x.stop = ((s.takeMsg p q).slice p).stop) (own : x.local_ = ((s.takeMsg p q).slice p).local_)
    (lslice : x.lslice = (s.slice p).lslice) (opc : Nat) : Sent (s.takeMsg p q) (u.wbAnswer p m opc) p
      { (s.slice p).homeMsg opc m.src m.addr with txn := m.txn, cret := true } := by
  have sent := (turns_wbAnswer h m opc).sent rfl rfl stop own
  rwa [Slice.wbMsg, homeMsg_congr lslice] at sent

theorem exec_writeback (p : Fin 132) (m : Msg) (s : State) : exec (.writeback p m) s
    = .next (s.wbTake p (asOpc m 0x10) fun s pos => s.writeback p (asOpc m 0x10) pos false) := rfl

theorem exec_evictClean (p : Fin 132) (m : Msg) (s : State) : exec (.evictClean p m) s
    = .next (s.wbTake p (asOpc m 0x11) fun s pos => s.evictClean p (asOpc m 0x11) pos) := rfl

section
variable {s : State} {p : Fin 132} {m : Msg} (fresh : (s.slice p).fresh)
include fresh

theorem writeback_fresh (next : (s.slice p).mayTake p (asOpc m 0x10) = true) (home : homeMatches (s.slice p) m true = true) :
    Ends (.writeback p m) s fun t =>
      Sent (s.takeMsg p (asOpc m 0x10)) t p { (s.slice p).homeMsg 0x2C m.src m.addr with txn := m.txn, cret := true }
      ∧ (t.slice p).cnt.get zeroNat Cnt.stale.ctorIdx = satAdd 0xFFFF ((s.slice p).cnt.get zeroNat Cnt.stale.ctorIdx) 1
      ∧ (t.slice p).hlc = (s.slice p).hlc ∧ (t.slice p).sfl = (s.slice p).sfl := by
  have took := wbTake_of_fresh fresh next home fun s pos => s.writeback p (asOpc m 0x10) pos false
  have turns := turns_wbNoted s p (asOpc m 0x10)
  obtain ⟨none_, -⟩ := fresh
  have alone : ((s.wbNoted p (asOpc m 0x10)).slice p).forwardAwaits m.addr m.src.toNat = false := by
    rw [Slice.forwardAwaits, Slice.used, trks_of_besidesNotes turns.slice, trks_takeMsg, none_]
    rfl
  have stale := turns.count .stale
  have answered := turns_wbAnswer stale (asOpc m 0x10) 0x2C
  have before : ((s.wbNoted p (asOpc m 0x10)).slice p).cnt = (s.slice p).cnt := by
    rw [State.wbNoted, State.noteTaken]
    split
    · rw [slice_takeMsg]
    · rw [slice_modSlice, if_pos rfl, slice_takeMsg]
  have counted := cnt_count (s.wbNoted p (asOpc m 0x10)) p .stale
  rw [before, show Cnt.stale.cap = 0xFFFF from rfl] at counted
  refine ⟨_, (exec_writeback p m s).trans (congrArg Host.Outcome.next (took.trans (writeback_stale alone))), ?_, ?_, ?_, ?_⟩
  · exact sent_wbAnswer stale rfl rfl (lslice_takeMsg ..) 0x2C
  · rw [State.wbAnswer, slice_emit]
    exact counted
  · exact answered.hlc.trans (hlc_takeMsg ..)
  · exact (sfl_of_besidesNotes answered.slice).trans (sfl_takeMsg ..)

theorem evictClean_fresh (next : (s.slice p).mayTake p (asOpc m 0x11) = true) (home : homeMatches (s.slice p) m true = true) :
    Ends (.evictClean p m) s fun t =>
      Sent (s.takeMsg p (asOpc m 0x11)) t p { (s.slice p).homeMsg 0x2B m.src m.addr with txn := m.txn, cret := true }
      ∧ (t.slice p).hlc = (s.slice p).hlc ∧ (t.slice p).sfl = (s.slice p).sfl := by
  have took := wbTake_of_fresh fresh next home fun s pos => s.evictClean p (asOpc m 0x11) pos
  have turns := turns_wbNoted s p (asOpc m 0x11)
  have answered := turns_wbAnswer turns (asOpc m 0x11) 0x2B
  refine ⟨_, (exec_evictClean p m s).trans (congrArg Host.Outcome.next (took.trans evictClean_uncached)), ?_, ?_, ?_⟩
  · exact sent_wbAnswer turns rfl rfl (lslice_takeMsg ..) 0x2B
  · exact answered.hlc.trans (hlc_takeMsg ..)
  · exact (sfl_of_besidesNotes answered.slice).trans (sfl_takeMsg ..)

end

/-! Where the lookup finds the line's way entry -/

/-- Where a line is installed is a matter of the cache and of the open trackers (R213, R221). -/
theorem placeFor_congr {x y : Slice} (cache : y.hlc = x.hlc) (trks : y.trks = x.trks) (a : LineAddr) :
    y.placeFor a = x.placeFor a := by
  simp only [Slice.placeFor, Slice.pinFor, Slice.choosePos, Slice.hPinned, Slice.maintHolds, Slice.used, cache, trks]

/-- The WB-class message `m`, taken in state `s`, has found way `q` in state `v`, where slice `p` is `x`. -/
structure State.WbFound (s v : State) (p q : Nat) (m : Msg) (x : Slice) : Prop where
  turns : (s.takeMsg p m).Turns p x v
  ent : x.ent q = (s.slice p).ent q
  line : x.line m.addr = (s.slice p).line m.addr
  cache : x.hlc = (s.slice p).hlc
  place : x.placeFor m.addr = ((s.takeMsg p m).slice p).placeFor m.addr
  trks : x.trks = (s.slice p).trks
  lslice : x.lslice = (s.slice p).lslice
  stop : x.stop = ((s.takeMsg p m).slice p).stop
  own : x.local_ = ((s.takeMsg p m).slice p).local_

section
variable {s : State} {p : Nat} {m : Msg} {q : Nat} (found : (s.slice p).finds m.addr q)
include found

theorem wbTake_of_finds (next : (s.slice p).mayTake p m = true) (home : homeMatches (s.slice p) m true = true)
    (go : State → Option Nat → State) : ∃ v x, s.WbFound v p q m x ∧ s.wbTake p m go = go v (some q) := by
  have here : ((s.takeMsg p m).slice p).finds m.addr q := by
    rw [slice_takeMsg]
    exact found
  obtain ⟨v, look, turns⟩ := lookup_finds (turns_wbNoted s p m) here
  have touched := besidesEntries_touchSf ((s.takeMsg p m).slice p) q
  have line : (((s.takeMsg p m).slice p).touchSf q).line m.addr = (s.slice p).line m.addr :=
    (line_of_besidesEntries touched _).trans (congrArg (·.get Olt.dflt m.addr.toNat) (olt_takeMsg s p m))
  obtain ⟨-, -, -, -, -, -, open_⟩ := found
  have pos : (v.slice p).posOf m.addr (some q) = some q := by
    rw [Slice.posOf, turns.line, line]
    rcases open_ with closed | ⟨-, at_⟩
    · rw [if_pos closed]
    · rw [at_, ite_self]
  have trks : (((s.takeMsg p m).slice p).touchSf q).trks = ((s.takeMsg p m).slice p).trks :=
    trks_of_besidesEntries touched
  have lslice : (((s.takeMsg p m).slice p).touchSf q).lslice = ((s.takeMsg p m).slice p).lslice :=
    lslice_of_besidesEntries touched
  have cache := hlc_of_besidesEntries touched
  have ent := (ent_touchSf ((s.takeMsg p m).slice p) q q).trans (ent_takeMsg s p m q)
  have place := placeFor_congr cache trks m.addr
  have stop := stop_of_besidesEntries touched
  have own := local_of_besidesEntries touched
  refine ⟨v, _, ⟨turns, ent, line, cache.trans (hlc_takeMsg ..), place, trks.trans (trks_takeMsg ..), lslice.trans (lslice_takeMsg ..),
    stop, own⟩, ?_⟩
  rw [wbTake_here next home look, pos]

end

section
variable {s v : State} {p q : Nat} {m : Msg} {x : Slice} (at_ : s.WbFound v p q m x)
include at_

theorem State.WbFound.forwardAwaits (alone : (s.slice p).forwardAwaits m.addr m.src.toNat = false) :
    (v.slice p).forwardAwaits m.addr m.src.toNat = false := by
  rw [forwardAwaits_congr ((trks_of_besidesNotes at_.turns.slice).trans at_.trks), alone]

/-- What is stored for a writer is what is stored from the very state that took the message. -/
theorem State.WbFound.stores (found : (s.slice p).finds m.addr q) :
    (s.takeMsg p m).Turns p (x.modHlc (Hlc.stores (x.placeFor m.addr) m.addr m.data m.poison none))
      (v.storeLine p m.addr m.data m.poison none).1
    ∧ (x.modHlc (Hlc.stores (x.placeFor m.addr) m.addr m.data m.poison none)).hlc
      = (((s.takeMsg p m).storeLine p m.addr m.data m.poison none).1.slice p).hlc := by
  obtain ⟨-, -, -, lines, writes, mshrs, -⟩ := found
  have cache := at_.cache
  obtain ⟨stored, -⟩ := turns_storeLine at_.turns (by rw [cache, lines]) (by rw [cache, mshrs]) (by rw [cache, writes]) m.addr m.data
    m.poison none
  obtain ⟨direct, -⟩ := turns_storeLine (.refl (s.takeMsg p m) p) (by rw [hlc_takeMsg, lines]) (by rw [hlc_takeMsg, mshrs])
    (by rw [hlc_takeMsg, writes]) m.addr m.data m.poison none
  refine ⟨stored, ?_⟩
  rw [direct.hlc, at_.place]
  exact congrArg (Hlc.stores _ m.addr m.data m.poison none) (cache.trans (hlc_takeMsg ..).symm)

end

section
variable {s : State} {p : Fin 132} {m : Msg} {q : Nat} (found : (s.slice p).finds m.addr q)
  (home : homeMatches (s.slice p) m true = true)
include found home

theorem writeback_of_owner (alone : (s.slice p).forwardAwaits m.addr m.src.toNat = false)
    (next : (s.slice p).mayTake p (asOpc m 0x10) = true) (st : ((s.slice p).ent q).st = 2)
    (bit : ((s.slice p).ent q).has m.src.toNat = true) : Ends (.writeback p m) s fun t =>
      (t.slice p).hlc = (((s.takeMsg p (asOpc m 0x10)).storeLine p m.addr m.data m.poison none).1.slice p).hlc
      ∧ ((t.slice p).ent q).st = 0 ∧ ((t.slice p).ent q).vec = 0 ∧ ((t.slice p).ent q).poison = ((s.slice p).ent q).poison
      ∧ Sent (s.takeMsg p (asOpc m 0x10)) t p { (s.slice p).homeMsg 0x2B m.src m.addr with txn := m.txn, cret := true } := by
  obtain ⟨v, x, at_, took⟩ := wbTake_of_finds (m := asOpc m 0x10) found next home fun s pos => s.writeback p (asOpc m 0x10) pos false
  have entry : (v.slice p).ent q = (s.slice p).ent q := (at_.turns.ent q).trans at_.ent
  obtain ⟨stored, cache⟩ := at_.stores found
  have dropped := turns_dropEntry (q := q) (a := m.addr) stored ((s.slice p).ent q).poison
  have answered := turns_wbAnswer dropped (asOpc m 0x10) 0x2B
  have decided := writeback_owned (m := asOpc m 0x10) (at_.forwardAwaits alone) (by rw [entry, st]) (by rw [entry]; exact bit)
  rw [entry] at decided
  obtain ⟨free, none_, poison⟩ := dropped_entry _ _ _ _ ((answered.ent q).trans ((ent_sends ..).trans (ent_setEnt_self ..)))
  exact ⟨_, (exec_writeback p m s).trans (congrArg Host.Outcome.next (took.trans decided)),
    answered.hlc.trans ((hlc_sends ..).trans ((hlc_setEnt ..).trans cache)), free, none_, poison,
    sent_wbAnswer dropped ((stop_setEnt ..).trans at_.stop) ((local_setEnt ..).trans at_.own)
      ((lslice_setEnt ..).trans at_.lslice) 0x2B⟩

theorem evictClean_of_owner (next : (s.slice p).mayTake p (asOpc m 0x11) = true) (st : ((s.slice p).ent q).st = 2)
    (bit : ((s.slice p).ent q).has m.src.toNat = true) : Ends (.evictClean p m) s fun t =>
      Recorded s t 1 0x10 p ∧ ((t.slice p).ent q).st = 0 ∧ ((t.slice p).ent q).vec = 0 ∧ ((t.slice p).ent q).poison = true
      ∧ Sent (s.takeMsg p (asOpc m 0x11)) t p { (s.slice p).homeMsg 0x2B m.src m.addr with txn := m.txn, cret := true } := by
  obtain ⟨v, x, at_, took⟩ := wbTake_of_finds (m := asOpc m 0x11) found next home fun s pos => s.evictClean p (asOpc m 0x11) pos
  have entry : (v.slice p).ent q = (s.slice p).ent q := (at_.turns.ent q).trans at_.ent
  have decided := evictClean_owned (m := asOpc m 0x11) (by rw [entry, st]) (by rw [entry]; exact bit)
  have recorded := recorded_protoError v p (asOpc m 0x11) 2 ((v.slice p).line (asOpc m 0x11).addr).mode
  obtain ⟨img, c, erred⟩ := slice_protoError v p (asOpc m 0x11) 2 ((v.slice p).line (asOpc m 0x11).addr).mode
  generalize v.protoError p (asOpc m 0x11) 2 ((v.slice p).line (asOpc m 0x11).addr).mode = w at decided recorded erred
  have counted := at_.turns.count .perr
  have lslice : (w.slice p).lslice = (s.slice p).lslice := by
    rw [erred]
    exact (lslice_of_besidesNotes counted.slice).trans at_.lslice
  have quiet : SentNothing (s.takeMsg p (asOpc m 0x11)) w p := by
    refine sentNothing_of_slice ?_ ?_ <;> rw [erred]
    · exact (stop_of_besidesNotes counted.slice).trans at_.stop
    · exact (local_of_besidesNotes counted.slice).trans at_.own
  have dropped := turns_dropEntry (q := q) (a := m.addr) (.refl w p) true
  have answered := turns_wbAnswer dropped (asOpc m 0x11) 0x2B
  have sent := answered.sent rfl rfl (stop_setEnt ..) (local_setEnt ..)
  rw [Slice.wbMsg, homeMsg_congr ((lslice_setEnt ..).trans lslice)] at sent
  have kept : ((w.dropEntry p m.addr (some q) true).wbAnswer p (asOpc m 0x11) 0x2B).ras = w.ras :=
    (congrArg (fun z : State => z.ras) answered.outside :)
  have before : v.ras = s.ras := (congrArg (fun z : State => z.ras) at_.turns.outside :)
  obtain ⟨free, none_, poison⟩ := dropped_entry _ _ _ _ ((answered.ent q).trans ((ent_sends ..).trans (ent_setEnt_self ..)))
  exact ⟨_, (exec_evictClean p m s).trans (congrArg Host.Outcome.next (took.trans decided)),
    (recorded.after kept).from_before before at_.turns.time, free, none_, poison, sent.from_before quiet⟩

theorem evictClean_of_sharer (next : (s.slice p).mayTake p (asOpc m 0x11) = true) (unowned : ((s.slice p).ent q).st ≠ 2)
    (sound : ((s.slice p).ent q).st ≠ 3) (bit : ((s.slice p).ent q).has m.src.toNat = true) : Ends (.evictClean p m) s fun t =>
      ((t.slice p).ent q).vec = ((s.slice p).ent q).vec &&& ~~~(agentBit m.src.toNat)
      ∧ ((t.slice p).ent q).st = (if ((s.slice p).ent q).st = 1 ∧ ((s.slice p).ent q).vec &&& ~~~(agentBit m.src.toNat) = 0 then 0
        else ((s.slice p).ent q).st)
      ∧ (t.slice p).hlc = (s.slice p).hlc
      ∧ Sent (s.takeMsg p (asOpc m 0x11)) t p { (s.slice p).homeMsg 0x2B m.src m.addr with txn := m.txn, cret := true } := by
  obtain ⟨v, x, at_, took⟩ := wbTake_of_finds (m := asOpc m 0x11) found next home fun s pos => s.evictClean p (asOpc m 0x11) pos
  have entry : (v.slice p).ent q = (s.slice p).ent q := (at_.turns.ent q).trans at_.ent
  have decided := evictClean_shared (m := asOpc m 0x11) (q := q) (by rw [entry]; exact unowned) (by rw [entry]; exact sound)
  have cleared := turns_clearBit (q := q) at_.turns m.addr (by rw [at_.ent]; exact bit)
  have answered := turns_wbAnswer cleared (asOpc m 0x11) 0x2B
  have left := (answered.ent q).trans ((ent_sends ..).trans (ent_setEnt_self ..))
  rw [at_.ent] at left
  obtain ⟨hit, -⟩ := found
  obtain ⟨vec, st⟩ := left_entry (allocated_of_mem_sfHits (by rw [hit]; exact List.mem_singleton_self q)) _ left
  exact ⟨_, (exec_evictClean p m s).trans (congrArg Host.Outcome.next (took.trans decided)), vec, st,
    answered.hlc.trans ((hlc_sends ..).trans ((hlc_setEnt ..).trans at_.cache)),
    sent_wbAnswer cleared ((stop_setEnt ..).trans at_.stop) ((local_setEnt ..).trans at_.own) ((lslice_setEnt ..).trans at_.lslice) 0x2B⟩

end

/-! Where a forward to the writer is outstanding (R121) -/

/-- A writeback of an open line, to whose writer a forward is outstanding, is held with the line. -/
theorem writeback_of_awaited {s : State} {p : Fin 132} {m : Msg} (next : (s.slice p).mayTake p (asOpc m 0x10) = true)
    (home : homeMatches (s.slice p) m true = true) (awaits : (s.slice p).forwardAwaits m.addr m.src.toNat = true)
    (open_ : ((s.slice p).line m.addr).mode ≠ 0) : Ends (.writeback p m) s fun t =>
      ((t.slice p).line m.addr).wbHeld = ((s.slice p).line m.addr).wbHeld ++ [asOpc m 0x10]
      ∧ SentNothing (s.takeMsg p (asOpc m 0x10)) t p := by
  have turns := turns_wbNoted s p (asOpc m 0x10)
  have line : ((s.wbNoted p (asOpc m 0x10)).slice p).line m.addr = (s.slice p).line m.addr :=
    (turns.line m.addr).trans (congrArg (·.get Olt.dflt m.addr.toNat) (olt_takeMsg ..))
  rw [← line] at open_
  obtain ⟨pos, stays⟩ := line_lookup open_ m.addr
  obtain ⟨quiet, -⟩ := lookup_spec (s.wbNoted p (asOpc m 0x10)) p m.addr
  have trks := (trks_lookup (s.wbNoted p (asOpc m 0x10)) p m.addr).trans ((trks_of_besidesNotes turns.slice).trans (trks_takeMsg ..))
  rcases look : (s.wbNoted p (asOpc m 0x10)).lookup p m.addr with ⟨v, hit⟩
  rw [look] at stays quiet trks
  have took := wbTake_here (m := asOpc m 0x10) (go := fun s pos => s.writeback p (asOpc m 0x10) pos false) next home look
  have held := writeback_held (u := v) (m := asOpc m 0x10) (by rw [forwardAwaits_congr trks]; exact awaits)
    ((v.slice p).posOf m.addr hit)
  refine ⟨_, (exec_writeback p m s).trans (congrArg Host.Outcome.next (took.trans held)), ?_, ?_⟩
  · rw [slice_modLine]
    refine (congrArg Olt.wbHeld (line_setLine_self ..)).trans (congrArg (· ++ [asOpc m 0x10]) ?_)
    exact (congrArg Olt.wbHeld stays).trans (congrArg Olt.wbHeld line :)
  · refine ((turns.sentNothing rfl rfl).trans quiet).trans (sentNothing_of_slice ?_ ?_) <;> rw [slice_modLine] <;> rfl

end Sys2Proof.Machine
end

section
/-! SUPPORT. Requests that queue behind an open line, writebacks and clean evictions together (O14). -/

namespace Sys2Proof.Machine

open Sys2Proof

/-- The rows of reads and writes behind a line that is home-ordered or draining. -/
theorem requests_behind {e : (Fin 132 → Msg → Instr) × Nat} (he : e ∈ ([(.readShared, 0x00), (.readOwn, 0x01), (.upgrade, 0x02),
      (.readNc, 0x03), (.writeNcFull, 0x04), (.writeNcPartial, 0x05)] : List ((Fin 132 → Msg → Instr) × Nat)))
    (p : Fin 132) (m : Msg) (s : State) : exec (e.1 p m) s = .next (s.request p (asOpc m e.2) fun s t => s.arrive p t) := by
  simp only [List.mem_cons, List.not_mem_nil, or_false] at he
  obtain rfl | rfl | rfl | rfl | rfl | rfl := he <;> rfl

/-- The rows of the WB class take their message, or leave it waiting. -/
theorem exec_wbRow {e : (Fin 132 → Msg → Instr) × Nat}
    (he : e ∈ ([(.writeback, 0x10), (.evictClean, 0x11)] : List ((Fin 132 → Msg → Instr) × Nat))) (p : Fin 132) (m : Msg)
    (s : State) : ∃ go, exec (e.1 p m) s = .next (s.wbTake p (asOpc m e.2) go) := by
  simp only [List.mem_cons, List.not_mem_nil, or_false] at he
  obtain rfl | rfl := he
  · exact ⟨_, exec_writeback p m s⟩
  · exact ⟨_, exec_evictClean p m s⟩

/-- Settles O14: a lookup leaves an open line all but its position, so that a young request queues at its tail; a WB-class message is
decided by the trackers, the entry and the cache that its lookup leaves. -/
theorem openLinesAndWritebacks : Obligations.OpenLinesAndWritebacks := by
  unfold Obligations.OpenLinesAndWritebacks
  refine ⟨fun e he p m s k accepted free ordered young absent => ?_, fun p m s => ⟨fun e he => ⟨fun waits => ?_, fun next away => ?_⟩,
    fun next home fresh => ?_, fun next home fresh => ?_, fun q found home alone => ⟨?_, ?_, ?_⟩, ?_⟩⟩
  · exact ends_behind (requests_behind he p m s) accepted free ordered young absent
  · obtain ⟨go, row⟩ := exec_wbRow he p m s
    rw [Idles, row, wbTake_waiting waits]
  · obtain ⟨go, row⟩ := exec_wbRow he p m s
    exact ⟨_, row, wbTake_discards next away⟩
  · exact ((writeback_fresh fresh next home).onlySlices rfl).mono fun t ⟨⟨sent, stale, cache, filter⟩, only⟩ =>
      ⟨sent, stale, cache, filter, only⟩
  · exact ((evictClean_fresh fresh next home).onlySlices rfl).mono fun t ⟨⟨sent, cache, filter⟩, only⟩ =>
      ⟨sent, cache, filter, only⟩
  · exact writeback_of_owner found home alone
  · exact evictClean_of_owner found home
  · exact evictClean_of_sharer found home
  · exact writeback_of_awaited

end Sys2Proof.Machine
end
